-- ==== Sys2Proof/Word.lean ====
section
/-!
DEFINITION. Word.lean: the word types of the NG-7 (R2, R12, R117) and the name of a register number.
-/
namespace Sys2Proof

/-- A byte of memory (R2). -/
abbrev Byte := BitVec 8

/-- A 64-bit scalar register, address or element group (R12, R22). -/
abbrev Word := BitVec 64

/-- A 32-bit instruction word (R117), an FP32 element or a stochastic-rounding word (R50). -/
abbrev Half := BitVec 32

/-- A register number, of g0 to g31 or of v0 to v31 (R12). -/
abbrev Reg := BitVec 5

end Sys2Proof
end

