-- ==== Sys2Proof/Machine/Bits.lean ====
section
/-!
DEFINITION. Machine/Bits.lean: bit fields, byte order and keyed lists, as every other file uses them.
-/
namespace Sys2Proof

/-- Field [lo + n - 1 : lo] of a word. -/
def bits {w : Nat} (x : BitVec w) (lo n : Nat) : BitVec n := x.extractLsb' lo n

/-- Bit i of a word. -/
def bit {w : Nat} (x : BitVec w) (i : Nat) : Bool := x.getLsbD i

/-- Sign extension to 64 bits (R120, R122). -/
def sext {w : Nat} (x : BitVec w) : Word := x.signExtend 64

/-- Zero extension to 64 bits. -/
def zext {w : Nat} (x : BitVec w) : Word := x.setWidth 64

/-- The two's-complement value of the low w bits of n. -/
def signedOf (w n : Nat) : Int :=
  let m := n % 2 ^ w
  if w ≠ 0 ∧ 2 ^ (w - 1) ≤ m then (m : Int) - (2 ^ w : Nat) else (m : Int)

/-- An integer taken modulo 2^w (R42). -/
def wrapOf (w : Nat) (x : Int) : Nat := (x % ((2 ^ w : Nat) : Int)).toNat

/-- The value of a list of bytes, the first least significant (R2). -/
def leNat : List Byte → Nat
  | [] => 0
  | b :: rest => b.toNat + 256 * leNat rest

/-- The n bytes of a value, least significant first (R2). -/
def leBytes : Nat → Nat → List Byte
  | 0, _ => []
  | n + 1, x => BitVec.ofNat 8 x :: leBytes n (x / 256)

/-- Bytes [off + n - 1 : off] of a structure, as a number (R2). -/
def fieldLE (bs : List Byte) (off n : Nat) : Nat := leNat ((bs.drop off).take n)

/-- The same field read as a two's-complement number. -/
def fieldLEs (bs : List Byte) (off n : Nat) : Int := signedOf (8 * n) (fieldLE bs off n)

/-- Every one of bytes [off + n - 1 : off] is zero (R4). -/
def zeroBytes (bs : List Byte) (off n : Nat) : Bool := ((bs.drop off).take n).all (· == 0)

/-- The smallest k with n ≤ 2^k, found by counting up to `fuel`. -/
def ceilLog2 (fuel n : Nat) : Nat → Nat
  | 0 => fuel
  | k + 1 => if n ≤ 2 ^ (fuel - (k + 1)) then fuel - (k + 1) else ceilLog2 fuel n k

/-- Rounding up to a multiple of m. -/
def roundUp (n m : Nat) : Nat := (n + m - 1) / m * m

/-- ⌈n / m⌉. -/
def ceilDiv (n m : Nat) : Nat := (n + m - 1) / m

/-- The entry stored under key k. -/
def lookup {α : Type} (l : List (Nat × α)) (k : Nat) : Option α :=
  match l with
  | [] => none
  | (j, v) :: rest => if j = k then some v else lookup rest k

/-- The list with v stored under key k, keys kept rising. -/
def insertKey {α : Type} (l : List (Nat × α)) (k : Nat) (v : α) : List (Nat × α) :=
  match l with
  | [] => [(k, v)]
  | (j, u) :: rest =>
    if k < j then (k, v) :: (j, u) :: rest
    else if k = j then (k, v) :: rest
    else (j, u) :: insertKey rest k v

/-- The list without key k. -/
def eraseKey {α : Type} (l : List (Nat × α)) (k : Nat) : List (Nat × α) :=
  match l with
  | [] => []
  | (j, u) :: rest => if j = k then rest else (j, u) :: eraseKey rest k

/-- The least natural number below `bound` that is not a key. -/
def freeKey {α : Type} (l : List (Nat × α)) (bound : Nat) : Option Nat :=
  (List.range bound).find? (fun k => (lookup l k).isNone)

end Sys2Proof
end

