-- ==== Sys2Proof/Syntax.lean ====
section
/-!
DEFINITION. Syntax.lean: the steps of the NG-7, one constructor per row of spec/opcode_table.json.
An instruction a context issues carries the fields its word formats give it (R121 to R132); a step of a hardware
unit, of the firmware, of the host or of the fabric carries the numbers that say which packet or page it concerns, or
concerns the slot, the context and the unit that its turn names.
-/
namespace Sys2Proof

/-- The fields of a VX instruction in the compute form (R125, R126). -/
structure VxC where
  vd : Reg
  va : Reg
  vb : Reg
  gl : Reg
  na : BitVec 2
  vc : Reg
  nb : BitVec 2
  m : Bool
  mi : Bool
  sc : Bool
  rm : BitVec 3
  sat : Bool
  imm : BitVec 13
  deriving DecidableEq, Repr

/-- The fields of a VX instruction in the memory form (R125, R127). -/
structure VxM where
  vd : Reg
  va : Reg
  vb : Reg
  gl : Reg
  vc : Reg
  m : Bool
  mi : Bool
  gate : Bool
  w : BitVec 3
  ord : Bool
  nov : Bool
  scope : BitVec 3
  cache : BitVec 3
  gstride : Reg
  gbase : Reg
  deriving DecidableEq, Repr

/-- The fields of an MX instruction (R128). -/
structure MxF where
  acc : Reg
  va : Reg
  vb : Reg
  gl : Reg
  gdescA : Reg
  gdescB : Reg
  rm : BitVec 3
  sc : Bool
  sparse : Bool
  imm : BitVec 17
  deriving DecidableEq, Repr

/-- The fields of a YS instruction (R129). -/
structure YsF where
  gd : Reg
  ga : Reg
  gb : Reg
  fn7 : BitVec 7
  imm : BitVec 32
  deriving DecidableEq, Repr

/-- The two contexts of a strand (R12). -/
inductive CtxId where
  | execute
  | access
  deriving DecidableEq, Repr, Inhabited

/-- The kinds of access a translation is asked for (R327). -/
inductive Intent where
  | load
  | store
  | fetch
  | atomic
  deriving DecidableEq, Repr, Inhabited

/-- How a host answers a page request (R331). -/
inductive PriAnswer where
  | success
  | invalidRequest
  | responseFailure
  deriving DecidableEq, Repr, Inhabited

/-- What a host access does (R358, R359): through BAR 4 it reads or writes bytes; through BAR 0 and BAR 2 it reads a doubleword
or writes it. -/
inductive ApertureOp where
  | read (bytes : Nat)
  | write (data : List Byte)
  | readRegister
  | writeRegister (x : Word)
  | readNotify
  | writeNotify (x : Word)
  deriving DecidableEq, Repr, Inhabited

/-- What a request from another module asks for at its home here (R98, R361). -/
inductive RemoteOp where
  | read (bytes : Nat)
  | write (data : List Byte)
  /-- an atomic of R151 by its SM op6, with its operand and, for AMOCAS, its new value -/
  | amo (op6 : BitVec 6) (operand : Word) (newValue : Word)
  /-- publication of a buffer here: the whole pages that replace the visible ones, at one instant -/
  | pub (data : List Byte)
  /-- a member's contribution to a collective -/
  | cred (group : Nat) (member : Nat) (data : List Byte)
  /-- a member of a collective whose command has ended in an error or been discarded (R261) -/
  | credLost (group : Nat) (member : Nat)
  deriving DecidableEq, Repr, Inhabited

/-- Where an uncorrectable error lies, by 64-byte unit (R366). -/
inductive ErrorSite where
  | device (unit : Nat)
  | weightStore (die unit : Nat)
  | scratchpad (cluster unit : Nat)
  /-- data that crosses the link to the host, or to another module -/
  | hostLink (unit : Nat)
  | moduleLink (module unit : Nat)
  deriving DecidableEq, Repr, Inhabited

/-- The steps of the NG-7: every row of the table of operations and events. -/
inductive Instr where
  -- SR, integer (R138, R139)
  | add (d a b : Reg)
  | sub (d a b : Reg)
  | mul (d a b : Reg)
  | mulh (d a b : Reg)
  | mulhu (d a b : Reg)
  | div (d a b : Reg)
  | divu (d a b : Reg)
  | rem (d a b : Reg)
  | remu (d a b : Reg)
  | min (d a b : Reg)
  | max (d a b : Reg)
  | minu (d a b : Reg)
  | maxu (d a b : Reg)
  | and (d a b : Reg)
  | or (d a b : Reg)
  | xor (d a b : Reg)
  | andn (d a b : Reg)
  | shl (d a b : Reg)
  | shr (d a b : Reg)
  | sra (d a b : Reg)
  | rol (d a b : Reg)
  | slt (d a b : Reg)
  | sltu (d a b : Reg)
  | clz (d a : Reg)
  | ctz (d a : Reg)
  | popc (d a : Reg)
  -- SR, FP32 (R140 to R144)
  | fadd (d a b : Reg) (rm : BitVec 3)
  | fsub (d a b : Reg) (rm : BitVec 3)
  | fmul (d a b : Reg) (rm : BitVec 3)
  | fma (d a b c : Reg) (rm : BitVec 3)
  | fmin (d a b : Reg) (rm : BitVec 3)
  | fmax (d a b : Reg) (rm : BitVec 3)
  | fcmp (d a b : Reg) (rel : BitVec 2)
  | fcvt (d a : Reg) (sat : Bool) (dir : BitVec 4) (rm : BitVec 3)
  -- SI (R145 to R147)
  | addi (d a : Reg) (imm : BitVec 13)
  | andi (d a : Reg) (imm : BitVec 13)
  | ori (d a : Reg) (imm : BitVec 13)
  | xori (d a : Reg) (imm : BitVec 13)
  | shli (d a : Reg) (amount : BitVec 6)
  | shri (d a : Reg) (amount : BitVec 6)
  | srai (d a : Reg) (amount : BitVec 6)
  | slti (d a : Reg) (imm : BitVec 13)
  | sltui (d a : Reg) (imm : BitVec 13)
  | lui (d : Reg) (imm : BitVec 18)
  | auipc (d : Reg) (imm : BitVec 18)
  | bfx (d a : Reg) (width : BitVec 7) (offset : BitVec 6)
  | bfxu (d a : Reg) (width : BitVec 7) (offset : BitVec 6)
  | bfi (d a : Reg) (width : BitVec 7) (offset : BitVec 6)
  -- SM (R148 to R154, R111)
  | ldb (d a : Reg) (off : BitVec 13)
  | ldh (d a : Reg) (off : BitVec 13)
  | ldw (d a : Reg) (off : BitVec 13)
  | ldd (d a : Reg) (off : BitVec 13)
  | ldbu (d a : Reg) (off : BitVec 13)
  | ldhu (d a : Reg) (off : BitVec 13)
  | ldwu (d a : Reg) (off : BitVec 13)
  | stb (d a : Reg) (off : BitVec 13)
  | sth (d a : Reg) (off : BitVec 13)
  | stw (d a : Reg) (off : BitVec 13)
  | std (d a : Reg) (off : BitVec 13)
  | lda (d a : Reg) (scope : BitVec 3) (off : BitVec 10)
  | stl (d a : Reg) (scope : BitVec 3) (off : BitVec 10)
  | amoswap (d a : Reg) (scope : BitVec 3) (order : BitVec 2) (src : Reg)
  | amoadd (d a : Reg) (scope : BitVec 3) (order : BitVec 2) (src : Reg)
  | amoand (d a : Reg) (scope : BitVec 3) (order : BitVec 2) (src : Reg)
  | amoor (d a : Reg) (scope : BitVec 3) (order : BitVec 2) (src : Reg)
  | amoxor (d a : Reg) (scope : BitVec 3) (order : BitVec 2) (src : Reg)
  | amomin (d a : Reg) (scope : BitVec 3) (order : BitVec 2) (src : Reg)
  | amomax (d a : Reg) (scope : BitVec 3) (order : BitVec 2) (src : Reg)
  | amocas (d a : Reg) (scope : BitVec 3) (order : BitVec 2)
  | fence (scope : BitVec 3) (kinds : BitVec 6)
  -- SB (R155 to R158)
  | beq (a b : Reg) (off : BitVec 13)
  | bne (a b : Reg) (off : BitVec 13)
  | blt (a b : Reg) (off : BitVec 13)
  | bge (a b : Reg) (off : BitVec 13)
  | bltu (a b : Reg) (off : BitVec 13)
  | bgeu (a b : Reg) (off : BitVec 13)
  | bq (q : BitVec 2) (off : BitVec 13)
  | bsend (slot : BitVec 3) (off : BitVec 13)
  | j (off : BitVec 23)
  | jal (d : Reg) (off : BitVec 18)
  | jalr (d a : Reg) (off : BitVec 13)
  | qpush (a : Reg) (q : BitVec 2)
  | qpop (d : Reg) (q : BitVec 2)
  -- PF (R130 to R132)
  | imx (payload : BitVec 27)
  | mattr (scope cache order : BitVec 3)
  -- VX, configuration and turnover (R163 to R167)
  | vcfg (f : VxC)
  | vsetl (f : VxC)
  | vsetrc (f : VxC)
  | vpart (f : VxC)
  | vjoin (f : VxC)
  -- VX, element-wise (R168 to R176)
  | vadd (f : VxC)
  | vsub (f : VxC)
  | vmul (f : VxC)
  | vmulh (f : VxC)
  | vfma (f : VxC)
  | vfms (f : VxC)
  | vfnma (f : VxC)
  | vdiv (f : VxC)
  | vsqrt (f : VxC)
  | vrcp (f : VxC)
  | vrsq (f : VxC)
  | vexp2 (f : VxC)
  | vlog2 (f : VxC)
  | vmin (f : VxC)
  | vmax (f : VxC)
  | vabs (f : VxC)
  | vneg (f : VxC)
  | vand (f : VxC)
  | vor (f : VxC)
  | vxor (f : VxC)
  | vnot (f : VxC)
  | vshl (f : VxC)
  | vshr (f : VxC)
  | vsra (f : VxC)
  | vcmpeq (f : VxC)
  | vcmpne (f : VxC)
  | vcmplt (f : VxC)
  | vcmple (f : VxC)
  | vsel (f : VxC)
  | vclass (f : VxC)
  -- VX, conversions (R177 to R179)
  | vcvt (f : VxC)
  | vnarrow (f : VxC)
  | vwiden (f : VxC)
  | vq4 (f : VxC)
  -- VX, whole register (R180 to R190)
  | vslideup (f : VxC)
  | vslidedn (f : VxC)
  | vperm (f : VxC)
  | vbcast (f : VxC)
  | vmvs (f : VxC)
  | vget (f : VxC)
  | vredsum (f : VxC)
  | vredmax (f : VxC)
  | vredmin (f : VxC)
  | vredand (f : VxC)
  | vredor (f : VxC)
  | vscan (f : VxC)
  | vcompress (f : VxC)
  | vexpand (f : VxC)
  | viota (f : VxC)
  | vtrans8 (f : VxC)
  | vfirst (f : VxC)
  | vpopm (f : VxC)
  -- VX, memory and streams (R192 to R216)
  | vld (f : VxM)
  | vlds (f : VxM)
  | vldx (f : VxM)
  | vldff (f : VxM)
  | vld2d (f : VxM)
  | vst (f : VxM)
  | vsts (f : VxM)
  | vstx (f : VxM)
  | vst2d (f : VxM)
  | vamo (f : VxM)
  | vxlat (f : VxM)
  | vpref (f : VxM)
  | kvapp (f : VxM)
  | vbind (f : VxM)
  | vunbind (f : VxM)
  | sfeed (f : VxM)
  -- MX (R218 to R238)
  | mzero (f : MxF)
  | mma (f : MxF)
  | mmav (f : MxF)
  | mmas (f : MxF)
  | mloadc (f : MxF)
  | mstore (f : MxF)
  | mreadv (f : MxF)
  | mwritev (f : MxF)
  | mcvt (f : MxF)
  | tload (f : MxF)
  | teval (f : MxF)
  | tleaf (f : MxF)
  | tclr (f : MxF)
  -- YS, user (R239 to R267, R108)
  | kend (f : YsF)
  | splpt (f : YsF)
  | canpt (f : YsF)
  | wmpub (f : YsF)
  | wmwait (f : YsF)
  | barrive (f : YsF)
  | barwait (f : YsF)
  | depinit (f : YsF)
  | depdec (f : YsF)
  | tspawn (f : YsF)
  | sbpost (f : YsF)
  | sbstat (f : YsF)
  | sbleave (f : YsF)
  | cpy (f : YsF)
  | pub (f : YsF)
  | cred (f : YsF)
  | upd (f : YsF)
  | rinv (f : YsF)
  | kvfile (f : YsF)
  | rqnt (f : YsF)
  | wsinfo (f : YsF)
  | syscall (f : YsF)
  | brk (f : YsF)
  | svfence (f : YsF)
  -- YS, system (R313 to R322)
  | crrd (f : YsF)
  | crwr (f : YsF)
  | trapret (f : YsF)
  | vfsave (f : YsF)
  | vfload (f : YsF)
  | tlbinv (f : YsF)
  | wfe (f : YsF)
  -- CRRD and CRWR of a register with a row of its own
  | xflagsRead (gd : Reg)
  | xflagsWrite (ga : Reg)
  | xseedWrite (ga : Reg)
  /-- CRRD (`write = false`, `r` = gd) or CRWR (`write = true`, `r` = ga) of VSTART. -/
  | vstartAccess (write : Bool) (r : Reg)
  | asidWrite (ga : Reg)
  | ptrootWrite (ga : Reg)
  /-- CRWR of PREEMPT, whose YIELD bit is its only writable field. -/
  | yield (ga : Reg)
  -- engines, ends and traps
  | engineComplete (cmd : Nat)
  | preemptRequest (slot : Nat) (reason : BitVec 8)
  | strandResume (launch : Nat) (index : Nat) (slot : Nat)
  -- translation
  | pageWalkFill (walk : Nat)
  | priResponse (req : Nat) (answer : PriAnswer)
  | priTimeout (req : Nat)
  /-- the host's answer to an ATS Translation Request: address, log2 of the size granted, and the grants -/
  | atsCompletion (walk : Nat) (pa : Nat) (log2 : Nat) (read write : Bool)
  /-- a host ATS Invalidation Request over `pages` 4 KiB pages from `va` -/
  | atsInvalidation (pasid : Nat) (func : Nat) (va : Word) (pages : Nat)
  -- queues and packets
  | notifyWrite (queue : Nat) (value : Word)
  | nop (queue seq : Nat)
  | launch (queue seq : Nat)
  | siblaunch (queue seq : Nat)
  | barrier (queue seq : Nat)
  | waitval (queue seq : Nat)
  | waitvalPoll (queue seq : Nat)
  | wsload (queue seq : Nat)
  | wsrel (queue seq : Nat)
  | depgraph (queue seq : Nat)
  | spliceDecision (queue seq : Nat)
  /-- a placement: for each virtual cluster placed now, its physical cluster and first slot -/
  | dispatch (core : Nat) (queue seq : Nat) (place : List (Nat × Nat × Nat))
  | launchComplete (launch : Nat)
  -- host, fabric and service events
  | hostApertureAccess (func : Nat) (offset : Nat) (op : ApertureOp)
  | spdmChallenge (func : Nat) (nonce : List Byte)
  | spdmKeyExchange (func : Nat) (share : List Byte)
  | ideIntegrityFailure (stream : Nat)
  | moduleUnreachable (module : Nat)
  | uncorrectableError (site : ErrorSite)
  | hbmRowRepair (row : Nat)
  | wsBankSpare (die : Nat) (bank : Nat)
  | powerCap (steps : Nat)
  | thermalTrip (celsius : Nat)
  | remoteModuleAccess (module : Nat) (addr : Nat) (op : RemoteOp)
  /-- a word that no row of the opcode map assigns, or whose fields the formats reject, as it was fetched -/
  | unassignedEncoding (w0 : BitVec 32)
  -- steps that concern the slot, the context or the unit that the turn names
  /-- the queue wait of the turn's slot and context ends (R14, R32) -/
  | queueWaitEnd
  /-- a WMWAIT of the turn's slot and context ends (R244) -/
  | watermarkWake
  /-- the limit of a WMWAIT, or of a gated load at the head of the turn's slot's VQ, passes (R244) -/
  | watermarkTimeout
  /-- a BARWAIT of the turn's slot and context ends (R246) -/
  | barwaitWake
  /-- a WFE of the turn's slot and context ends (R322) -/
  | wfeTimeout
  /-- the turn's slot and context takes an engine command's error (R258) -/
  | engineErrorDelivery
  /-- the turn's slot and context is stopped under R316 -/
  | cancelLimitStop
  /-- the next VQ entry of the turn's slot starts (R17) -/
  | vqEntryStart
  /-- the head of the VQ of the turn's slot moves to the matrix queue (R18) -/
  | matrixQueueMove
  /-- a result of the turn's slot arrives (R19) -/
  | syncReadArrival
  /-- a gated load of the turn's slot and context proceeds (R278) -/
  | spliceGateProceed
  /-- an SPLPT of the turn's slot finds its next region free (R279) -/
  | spliceRegionFree
  /-- the execute KEND of the turn's slot has drained (R240) -/
  | kendRetire
  /-- the turn's slot takes its imprecise fault (R309) -/
  | impreciseTrap
  /-- the placed strand of the turn's slot starts (R38) -/
  | strandStart
  /-- the head of the VQ of the turn's slot leaves it (R17) -/
  | vqEntryComplete
  /-- the new mode of the cluster of the turn's slot takes effect (R24) -/
  | repartitionEffect
  /-- the matrix array of the cluster of the turn's slot starts an instruction (R18) -/
  | matrixQueueStart
  /-- a finished matrix instruction of the turn's slot leaves the matrix queue (R18) -/
  | matrixQueueComplete
  /-- a chunk of the stream of the turn's slot and unit arrives (R78) -/
  | streamChunkArrival
  /-- the stream unit reads a chunk for the turn's slot and unit (R211) -/
  | streamPatternRead
  /-- commands in the mailbox of the function that the unit names (R354, R359, R360) -/
  | createq
  | destroyq
  | bindas
  | unbindas
  | partcfg
  | retirecl
  | keyinstall
  | fwload
  | reccfg
  | replay
  /-- an ill-formed command in the mailbox of the function that the unit names (R360) -/
  | invalidMailboxCommand
  /-- GET_MEASUREMENTS from the function that the unit names (R363) -/
  | spdmGetMeasurements
  /-- a bank of the die that the unit names starts its refresh, or ends it (R96) -/
  | wsRefreshStart
  | wsRefreshEnd
  /-- a flit fails its CRC on the port that the unit names (R361) -/
  | flitCrcFail
  /-- the port that the unit names retrains (R367) -/
  | linkRetrain
  /-- the core that the unit names is reset (R340) -/
  | coreHeartbeatTimeout
  /-- the scanner serves the partition that the unit names (R338) -/
  | scannerFind
  /-- the core that the unit names takes an event (R338, R339) -/
  | queueFetch
  /-- the host link drops (R358) -/
  | hostLinkDrop
  /-- bring-up (R370) -/
  | bringUp
  deriving DecidableEq, Repr, Inhabited

end Sys2Proof
end

