-- ==== Sys2Proof/Config.lean ====
section
/-!
DEFINITION. Config.lean: what one module fixes, and the free values. An opaque constant here has no body: nothing can
be proved of its value, so whatever is proved of the machine holds for every value (see the log entry it names).
-/
namespace Sys2Proof

/-- Who moves in a turn: a context of the strand in a cluster slot, or an event of the table with the slot, the context
and the unit it concerns (log 1). -/
inductive Who where
  | context (slot : Nat) (ctx : CtxId)
  | event (i : Instr) (slot : Nat) (ctx : CtxId) (unit : Nat)
  deriving DecidableEq, Repr, Inhabited

/-- One turn: how many cycles pass before it, and who moves then (log 1, log 2). -/
structure Turn where
  cycles : Nat
  who : Who
  deriving DecidableEq, Repr, Inhabited

namespace Config

/-- FREE VALUE (log 1): the turn taken when the agenda names none. -/
opaque turn : Nat → Turn
/-- FREE VALUE (log 8): whether a fill displaces an entry of a TLB or a walk cache, by its place in the list. -/
opaque displaced : Nat → Nat → Bool
/-- FREE VALUE (log 9): whether an L1 data copy that differs from the home's bytes is still held. -/
opaque l1Kept : Nat → Bool
/-- FREE VALUE (log 10): which old version of a code line that was stored to a fetch returns, by its place among them; any
other number is the line as it stands. -/
opaque staleFetch : Nat → Nat
/-- FREE VALUE (log 11): whether an element above a faulting one has been performed when the trap is taken. -/
opaque pastFault : Nat → Nat → Bool
/-- FREE VALUE (log 15): the bits of accumulator element (row, column) of a tile at strand start. -/
opaque accInit : Nat → Nat → Nat → BitVec 32
/-- FREE VALUE (log 26): TVAL of a cause 0x07 that is raised at no virtual address. -/
opaque freeTval : Nat → Word
/-- FREE VALUE (log 27): DETAIL of an engine command that ends with status 0x02 or 0x04. -/
opaque engineDetail : Nat → Word
/-- FREE VALUE (log 27): the 16-bit number by which RQNT rounds an element under mode 101. -/
opaque engineRandom : Nat → Nat → BitVec 16
/-- FREE VALUE (log 28): the pages in a partition's migration pools when its record is first applied. -/
opaque poolPages : Nat → List Nat
/-- FREE VALUE (log 16): byte i of the opaque part of the frame body that a VFSAVE writes. -/
opaque frameBody : Nat → Nat → Byte
/-- FREE VALUE (log 24): a scratchpad byte that nothing has written since the launch that holds it started, by the
start's number and the offset. -/
opaque scratchInit : Nat → Nat → Byte
/-- FREE VALUE (log 25): what a scalar load or atomic that consumes poison leaves in its register. -/
opaque poisonValue : Nat → Word
/-- FREE VALUE (log 30): byte i of the DATA of a recorder record of a kind other than host read, by the record's index. -/
opaque recordData : Nat → Nat → Byte
/-- FREE VALUE (log 31): DATA of a BEGIN, COMMIT or ABORT entry of the sediment log, by its LSN. -/
opaque logData : Nat → Nat
/-- FREE VALUE (log 31): how DATA of a STATE entry writes the new state of a queue, a graph, a generation or a group. -/
opaque stateData : List Nat → Nat
/-- FREE VALUE (log 32): TVEC, TSCRATCH and CANLIMIT that a partition's supervisor settings give its launches. -/
opaque supervisor : Nat → Word × Word × Half
/-- FREE VALUE (log 33): the first strip of an empty share that a splice derives. -/
opaque emptyShare : Nat → Nat → Nat
/-- FREE VALUE (log 34): by how much more than 1 a GENNUM exceeds the last of its region, and which of two free slots a
WSLOAD takes. -/
opaque genStep : Nat → Nat
opaque genSlot : Nat → Bool
/-- FREE VALUE (log 36): which of the REASONs that hold a refused launch's record gives. -/
opaque refusalPick : Nat → Nat
/-- FREE VALUE (log 14): SHAKE256 of a byte string, its first n bytes. -/
opaque shake256 : Nat → List Byte → List Byte
/-- FREE VALUE (log 14): ML-DSA-65 verification of (key, message, signature). -/
opaque mldsaVerify : List Byte → List Byte → List Byte → Bool
/-- FREE VALUE (log 14): the module's ML-DSA-65 signature of a message. -/
opaque mldsaSign : List Byte → List Byte
/-- FREE VALUE (log 14): Hervin's public key, in slot 0 from manufacture (R363). -/
opaque hervinKey : List Byte
/-- FREE VALUE (log 14): the bytes of the image that FWLOAD finds at a host address, its security version and its signature
(R363). -/
opaque imageBytes : Nat → Nat → List Byte
opaque imageVersion : List Byte → Nat
opaque imageSignature : List Byte → List Byte
/-- FREE VALUE (log 39): where the search for a free number begins, for an ASID, a queue, a core and a unit of ballot slots. -/
opaque pick : Nat → Nat
/-- FREE VALUE (log 40): whether a host access that waits when an IDE stream fails is on that stream. -/
opaque onStream : Nat → Nat → Bool
/-- FREE VALUE (log 20): whether a host carries out an AtomicOp on its memory. -/
opaque hostAccepts : Nat → Bool

/-- HBM bytes: 12 stack groups of 64 GiB (R1, R85). -/
def hbmBytes : Nat := 768 * 2 ^ 30
/-- Bytes of one stack group's HBM (R85). -/
def stackBytes : Nat := 64 * 2 ^ 30
/-- Second-tier bytes (R85). -/
def tier2Bytes : Nat := 2 * 2 ^ 40
/-- Bytes of one die's weight store (R85). -/
def wsBytes : Nat := 2 ^ 30
/-- DESIGN CHOICE (log 5): the weight stores answer at device addresses from here, die 0 then die 1. -/
def wsBase : Nat := 2 ^ 42
/-- Lowest byte of the scratchpad window (R86). -/
def scratchBase : Nat := 0xFFFFFFFFFF000000
/-- Bytes of a cluster's scratchpad (R86). -/
def scratchBytes : Nat := 4 * 2 ^ 20
/-- Physical clusters of a module (R1). -/
def clusters : Nat := 192
/-- Strand slots of a module (R1, R248). -/
def slots : Nat := 768

end Config
end Sys2Proof
end

