-- ==== Sys2Proof/Machine/State.lean ====
section
/-!
DEFINITION. Machine/State.lean: the state of one NG-7 module as plain data, with the reasons a step can stop and the
state after bring-up. Each field's docstring names the rule that gives it.
-/
namespace Sys2Proof.Machine

/-- Why the machine stops. -/
inductive Fault where
  /-- Raised by every step once the junction has reached 105 °C and the module has stopped its clocks (R370). Safe: the machine does nothing more. -/
  | clocksStopped
  /-- Raised by an access whose translation names a device address at which R85 and the map of log 5 put no memory. Safe: the machine stops where the spec says nothing exists. -/
  | absentAddress (pa : Nat)
  deriving DecidableEq, Repr

/-- Why a step has no meaning. -/
inductive Refusal where
  /-- Raised by an arm of exec that has no meaning yet. Safe: nothing is claimed of the instruction. -/
  | notModelled (mnemonic : String)
  deriving DecidableEq, Repr

/-- A vector register: 256 element groups of 64 bits, 16,384 bits (R12, R22). -/
abbrev VReg := Vector Word 256

/-- A 4-bit element tag (R41). -/
abbrev Tag := BitVec 4

/-- A sticky flag set in the layout of XFLAGS: RP NF NV DZ OF UF NX (R83). -/
abbrev Flags := BitVec 7

/-- Bytes at addresses, in canonical form: addresses rising, no byte equal to what an unlisted address reads as. -/
structure Memory where
  cells : List Host.Cell
  deriving DecidableEq, Repr, Inhabited

/-- Trap causes (R136). -/
inductive Cause where
  | illegalInstruction
  | illegalPrefix
  | privileged
  | misaligned
  | translationLoad
  | translationStore
  | protection
  | vectorFirstUse
  | tagMismatch
  | arithmetic
  | depUnderflow
  | watermarkTimeout
  | breakpoint
  | systemCall
  | preemption
  | siblingCancel
  | streamProtocol
  | uncorrectable
  | elidedRead
  deriving DecidableEq, Repr, Inhabited

/-- The prefixes read so far of a sequence (R130). -/
structure Prefixes where
  /-- address of the first prefix -/
  first : Word
  /-- its word, for TVAL (R310) -/
  word : BitVec 32
  imx : Option (BitVec 27)
  /-- MATTR's SCOPE, CACHE and ORDER (R132) -/
  mattr : Option (BitVec 3 × BitVec 3 × BitVec 3)
  /-- a MATTR payload that R132 rejects by itself was read -/
  rejected : Bool
  deriving DecidableEq, Repr, Inhabited

/-- What a context waits for (R32 and the entries that wait). -/
inductive Wait where
  /-- a QPUSH into a full queue or a QPOP or BQ from an empty one (R14) -/
  | queue (q : Nat)
  /-- a WMWAIT, with its limit in cycles, 0 for none (R244) -/
  | watermark (n : Nat) (limit : Nat)
  /-- a BARWAIT (R246) -/
  | barrier
  /-- a commit into a full VQ, or a VX or MX instruction naming a pending register (R17, R19) -/
  | commit
  /-- a pending scalar register (R19) -/
  | register (r : Nat)
  /-- a walk or a page request (R32, R331) -/
  | translation
  /-- a WFE, with its limit in cycles, 0 for none (R322) -/
  | wfe (limit : Nat)
  /-- a drain of vector and matrix work, by SVFENCE, XFLAGS, XSEED, VSTART, ASID or a release (R83, R108, R109); a post or a
  task release before its turn in a replay (R369) -/
  | drain
  /-- a FENCE with bit 4 (R111) -/
  | engines
  /-- a seventeenth engine command, held before its issue (R257) -/
  | slots
  /-- SFEED into a full slot (R212) -/
  | feed (s : Nat)
  /-- KEND of the execute context (R240) -/
  | kend
  /-- SPLPT of a producer whose next region is not free (R279) -/
  | region
  /-- a scalar load gated on a producer's strip (R278) -/
  | gate
  /-- a VFSAVE behind a repartition of the strand, a VFLOAD behind vector work (R314, R357) -/
  | frame
  /-- a TLBINV that is applied, with its TLBSEQ, behind the chunks that use an old translation: for a slot and a stream, known by
  its VBIND, those below a number (R215, R321) -/
  | invalidation (seq : Nat) (chunks : List (Nat × Nat × Nat))
  deriving DecidableEq, Repr, Inhabited

/-- A wait in progress: its kind, its first cycle, and the instruction that waits; none while a fetch waits. -/
structure Waiting where
  kind : Wait
  since : Nat
  instr : Option Instr
  /-- of an access that waits for its translation while ASID or PTROOT is written: the values it issued with (R324) -/
  space : Option (BitVec 16 × Word) := none
  deriving DecidableEq, Repr, Inhabited

/-- One context of a strand (R12, R305). -/
structure Context where
  /-- program counter (R12) -/
  pc : Word
  /-- g0 to g31 (R12) -/
  g : Vector Word 32
  /-- scalar stochastic-rounding word (R50) -/
  sr : Half
  /-- scalar sticky flags (R83) -/
  flags : Flags
  /-- ISSUES (R82) -/
  issues : Word
  /-- TSTATUS.INTRAP (R306) -/
  intrap : Bool
  /-- TSTATUS.VIMPRECISE (R306) -/
  vimprecise : Bool
  /-- TSTATUS.IE (R306) -/
  ie : Bool
  /-- TSTATUS.VEN (R306) -/
  ven : Bool
  /-- TSTATUS.PPRIV (R306) -/
  ppriv : Bool
  /-- TSTATUS.PRIV (R306) -/
  priv : Bool
  /-- TCAUSE.VECTOR (R307) -/
  causeVector : Bool
  /-- TCAUSE.CAUSE (R307) -/
  cause : BitVec 8
  /-- TPC (R307) -/
  tpc : Word
  /-- TVAL (R307) -/
  tval : Word
  /-- TVEC, low six bits zero (R307) -/
  tvec : Word
  /-- TSCRATCH (R307) -/
  tscratch : Word
  /-- PREEMPT.REASON (R315) -/
  reason : BitVec 8
  /-- PREEMPT.PENDING, with the cycle of delivery (R315, R316) -/
  preempt : Option Nat
  /-- the reasons of the pre-emption requests that were taken and not yet returned from, the last first (R356) -/
  serving : List (BitVec 8)
  /-- a pending sibling cancel or queue abort, with the cycle of delivery (R242, R316, R353) -/
  cancel : Option Nat
  /-- the request was taken here, or the context had completed KEND (R242) -/
  cancelled : Bool
  /-- prefixes read (R130) -/
  prefixes : Option Prefixes
  /-- the wait in progress (R32) -/
  wait : Option Waiting
  /-- KEND completed (R39) -/
  retired : Bool
  /-- residence given up (R317) -/
  yielded : Bool
  /-- causes, addresses and strips of erring engine commands, oldest first (R258, R282) -/
  engineErrors : List (Cause × Word × Nat)
  /-- an uncorrectable error to be raised: its address, and the PC and strip of the instruction it is charged to (R282, R309,
  R366) -/
  poisoned : Option (Word × Word × Nat)
  deriving DecidableEq, Repr

/-- Where a translated byte is. -/
inductive Place where
  | scratch (cluster off : Nat)
  | dev (pa : Nat)
  | ws (die off : Nat)
  | host (pa : Nat)
  | remote (module pa : Nat)
  deriving DecidableEq, Repr

/-- Where a translated byte lies (R326). -/
inductive Home where
  | device
  | host
  | remote (module : Nat)
  deriving DecidableEq, Repr, Inhabited

/-- A TLB entry (R328). -/
structure TlbEntry where
  /-- quad whose L2 TLB holds it -/
  quad : Nat
  asid : Nat
  /-- first virtual address and size -/
  va : Nat
  size : Nat
  home : Home
  pa : Nat
  read : Bool
  write : Bool
  execute : Bool
  user : Bool
  dirty : Bool
  /-- of a host page: what the host's completion grants (R328, R330) -/
  hostRead : Bool := true
  hostWrite : Bool := true
  /-- of an entry of an L1 TLB: its cluster, in that quad -/
  cluster : Option Nat := none
  deriving DecidableEq, Repr, Inhabited

/-- A page whose translation an instruction or a chunk of a stream has taken and keeps (R100, R212, R215): the translation, and
for each 4 KiB page of it that a PUB has swapped since, by its first address, the bytes it had (R114). -/
structure HeldPage where
  entry : TlbEntry
  old : List (Nat × List Byte) := []
  deriving DecidableEq, Repr, Inhabited

/-- What a stream is fed by or feeds (R210). -/
inductive StreamSource where
  | pattern
  | sfeed
  | engine
  deriving DecidableEq, Repr, Inhabited

/-- One bound stream slot (R209 to R216). -/
structure Stream where
  /-- bound register -/
  reg : Nat
  /-- element width in bits, from the register's tag at VBIND's commit -/
  width : Nat
  output : Bool
  source : StreamSource
  base : Word
  count0 : Nat
  count1 : Nat
  count2 : Nat
  stride0 : Int
  stride1 : Int
  stride2 : Int
  /-- CHUNK, elements per chunk -/
  chunk : Nat
  /-- scope field of the VBIND -/
  scope : BitVec 3
  /-- its pattern reads allocate in L1, by the VBIND's cache policy (R90, R209) -/
  alloc : Bool
  /-- chunks claimed so far (R9) -/
  claimed : Nat
  /-- chunks the stream unit has read or been fed so far -/
  arrived : Nat
  /-- chunks waiting, with their numbers, oldest first -/
  chunks : List (Nat × List Word)
  /-- SFEEDs that have issued and whose data is still to come: address, elements, and the pages touched as they were translated
  (R212, R215) -/
  feeding : List (Word × Nat × List HeldPage)
  /-- numbers of the chunks that copies have delivered, of an engine stream (R210, R259) -/
  delivered : List Nat
  /-- the ending SFEED has issued (R212) -/
  ended : Bool
  /-- elements emitted so far, of an output stream (R213) -/
  emitted : Nat
  /-- pages pinned: address space, virtual page, and the last chunk (of an output stream: element) that uses it (R215) -/
  pins : List (Nat × Nat × Nat)
  /-- the fault of the next pattern read, raised at the instruction that would pop it (R216) -/
  readFault : Option (Cause × Word)
  /-- of an output stream: the pages that the chunk now being stored has used (R215) -/
  pages : List HeldPage := []
  /-- how many instructions the strand had committed before its VBIND, by which it is known -/
  born : Nat := 0
  deriving DecidableEq, Repr, Inhabited

/-- A claim made at commit by an instruction that names an input-bound register (R9, R78). -/
inductive ClaimKind where
  /-- chunk n of the slot -/
  | chunk (n : Nat)
  /-- beyond the last chunk -/
  | pastEnd
  /-- the register's tag width differs from the stream's -/
  | widthMismatch
  deriving DecidableEq, Repr, Inhabited

/-- A claim, and whether its chunk has been taken. -/
structure Claim where
  slot : Nat
  reg : Nat
  kind : ClaimKind
  taken : Bool
  /-- elements of the chunk taken -/
  length : Nat
  deriving DecidableEq, Repr, Inhabited

/-- How far a VQ or matrix-queue entry has come. -/
inductive Progress where
  | queued
  /-- at a gated load or a stream read that waits in the lanes: counts as not started (R32) -/
  | gated
  /-- started, with accesses that wait for a walk or a page or have still to be made -/
  | waiting
  | done
  deriving DecidableEq, Repr, Inhabited

/-- A committed VX or MX instruction (R15 to R17). -/
structure VqEntry where
  /-- how many instructions the strand had committed before it -/
  seq : Nat
  pc : Word
  instr : Instr
  /-- the scalar registers as they stood at commit (R15) -/
  g : Vector Word 32
  /-- the tags resolved at commit, before this instruction's own (R69) -/
  tags : Vector Tag 32
  /-- the rounding mode, XRM resolved at commit (R47, R48) -/
  rm : BitVec 3
  edge : BitVec 2
  trapen : Flags
  vbypass : BitVec 25
  /-- strip of a spliceable kernel at commit (R279) -/
  strip : Nat
  claims : List Claim
  progress : Progress
  /-- marked before by a repartition (R24) -/
  marked : Bool
  /-- first cycle of a gated wait (R244) -/
  since : Nat
  /-- first unfinished element, once the instruction has started (R74, R355) -/
  element : Option Nat
  /-- of a memory instruction that has started: its active elements with their addresses, ascending (R100, R101, R197) -/
  touch : List (Nat × Nat) := []
  /-- those of them that have been performed -/
  done : List Nat := []
  /-- a gated load's watermark has been met, and it has acquired (R115) -/
  passed : Bool := false
  /-- elements that it has emitted (R213) -/
  sent : Nat := 0
  /-- of a VXLAT or an MX instruction that has started: the descriptors it has read, one behind the other (R203, R218) -/
  snap : List Byte := []
  /-- the pages that it has used (R100, R101) -/
  held : List HeldPage := []
  /-- of a store: the elements performed and where each was stored (R105) -/
  places : List (Nat × Place) := []
  /-- of a VLDFF or a VXLAT that writes and emits at its end: the results so far (R213) -/
  results : List (Nat × Nat) := []
  /-- of a VBIND: the stream as its descriptor read at commit gives it (R209) -/
  bind : Option Stream
  /-- of a VBIND: the fault of that read, raised when it executes (R209) -/
  bindFault : Option (Cause × Word)
  deriving DecidableEq, Repr

/-- A scalar result on its way through the synchronising read queue (R19). -/
structure SyncRead where
  reg : Nat
  value : Word
  deriving DecidableEq, Repr, Inhabited

/-- One row of an accumulator tile, with its range bound B (R63, R80). -/
structure AccRow where
  cols : Vector (BitVec 32) 128
  bound : Nat
  deriving DecidableEq, Repr

/-- An accumulator tile (R80). -/
abbrev Tile := Vector AccRow 128

/-- A frozen vector frame (R312). -/
structure Frame where
  /-- VQ instructions -/
  queued : List VqEntry
  /-- matrix-queue entries that had not started -/
  matrix : List VqEntry
  /-- scalar registers that were pending -/
  pending : List Nat
  /-- lane stochastic-rounding words -/
  sr : Vector Half 64
  vimprecise : Bool
  vcommit : Word
  mode : BitVec 2
  vstart : BitVec 13
  /-- in a frame that VFSAVE has written: the stream slots (R216, R312, R357) -/
  streams : Vector (Option Stream) 8
  /-- the strand whose VFSAVE wrote it: launch and ordinal (R313) -/
  owner : Nat × Nat
  deriving DecidableEq, Repr

/-- An imprecise fault detected and not yet taken (R309). -/
structure ImpreciseFault where
  cause : Cause
  tval : Word
  /-- address of the instruction charged (R20) -/
  pc : Word
  strip : Nat
  /-- first unfinished element, for VSTART (R74) -/
  element : Nat
  deriving DecidableEq, Repr, Inhabited

/-- A record of the KV journal (R207). -/
structure JournalRecord where
  key : Word
  count : Nat
  tag : Tag
  seq : Nat
  /-- how many instructions the strand had committed before its KVAPP -/
  commit : Nat
  /-- the active elements, packed (R41) -/
  data : List Byte
  spilled : Bool
  deriving DecidableEq, Repr, Inhabited

/-- A watermark binding (R270, R115). -/
structure WmBinding where
  /-- word address, 0 when unbound -/
  word : Word
  /-- wait limit in units of 1,024 cycles -/
  limit : Nat
  base : Word
  size : Nat
  deriving DecidableEq, Repr, Inhabited

/-- A weight-store binding of a launch (R95, R266). -/
structure WsBinding where
  region : Nat
  slot : Nat
  gennum : Nat
  deriving DecidableEq, Repr, Inhabited

/-- An attribution record (R282). -/
structure FaultRecord where
  kernelId : Word
  strip : Nat
  pc : Word
  element : Nat
  cause : BitVec 8
  spliced : Bool
  byPartner : Bool
  deriving DecidableEq, Repr, Inhabited

/-- States of a strand (R37); a retired strand has left its slot or keeps it until its cluster's launch ends (R39). -/
inductive Life where
  | placed
  | running
  | preempted
  | retired
  deriving DecidableEq, Repr, Inhabited

/-- A strand (R12). DESIGN CHOICE: XRM and XTRAPEN are one each, for both contexts (R141, log 106). -/
structure Strand where
  exec : Context
  access : Context
  /-- v0 to v31 -/
  v : Vector VReg 32
  tags : Vector Tag 32
  vstart : BitVec 13
  xrm : BitVec 3
  seed : Half
  /-- S[0] to S[63] (R50) -/
  sr : Vector Half 64
  /-- the 64 lane flag sets (R83) -/
  laneFlags : Vector Flags 64
  xtrapen : Flags
  edge : BitVec 2
  vbypass : BitVec 25
  slip : BitVec 4
  /-- cycles resident since start (R82) -/
  clocks : Nat
  vdirty : BitVec 32
  adirty : BitVec 4
  asid : BitVec 16
  ptroot : Word
  canlimit : Half
  vq : List VqEntry
  /-- VX and MX instructions committed so far -/
  commits : Nat
  /-- scalar registers of the execute context that are pending (R19) -/
  pending : List Nat
  reads : List SyncRead
  /-- q0 to q3, oldest first (R12) -/
  queues : Vector (List Word) 4
  /-- s0 to s7 (R12) -/
  streams : Vector (Option Stream) 8
  /-- a0 to a3, as many as are allocated (R26) -/
  tiles : List Tile
  frame : Option Frame
  /-- pins the firmware keeps of the streams a strand held when it was pre-empted: address space and page (R215, R317) -/
  savedPins : List (Nat × Nat)
  fault : Option ImpreciseFault
  /-- address of the instruction that the imprecise trap now handled is charged to (R20) -/
  charged : Option Word
  /-- numbers of the instructions of frames that VFSAVE has written and VFLOAD has not loaded again (R112, R313) -/
  away : List Nat
  life : Life
  /-- completion word: STATUS, CAUSE, FLAGS (R241) -/
  status : BitVec 8
  endCause : BitVec 8
  endFlags : Flags
  /-- how it ends once what has started in its lanes or in the matrix array is complete: STATUS, CAUSE and record (R255) -/
  ending : Option (BitVec 8 × BitVec 8 × Option FaultRecord)
  /-- execute PC at which a cancel was taken (R256) -/
  canpc : Word
  launch : Nat
  /-- ordinal in the launch, across virtual clusters and then slots (R342) -/
  ordinal : Nat
  vcluster : Nat
  /-- sibling index, and the group's number, when it is one (R250) -/
  sibling : Option (Nat × Nat)
  watermarks : Vector WmBinding 8
  wsBindings : List WsBinding
  /-- journal size J and spill size H in bytes, and the spill address (R206) -/
  journalSize : Nat
  spillSize : Nat
  spillAddr : Word
  journal : List JournalRecord
  /-- next append number (R207) -/
  journalSeq : Nat
  /-- first strip of its share, and SPLPTs completed (R273, R279) -/
  firstStrip : Nat
  splpts : Nat
  /-- spliced group and place in its chain (R276) -/
  group : Option (Nat × Nat)
  /-- an SPLPT of a spliced group has counted its strip and not yet completed (R279) -/
  counted : Bool
  spliceable : Bool
  kernelId : Word
  /-- of a pre-empted strand: the partition mode of the cluster it left (R37) -/
  lastMode : BitVec 2
  deriving DecidableEq, Repr

/-- One cell of a tree slot (R235). -/
structure TreeCell where
  thresh : BitVec 16
  feat : BitVec 8
  le : Bool
  dir : Bool
  mask : Word
  deriving DecidableEq, Repr, Inhabited

/-- The forest of a cluster: its feature tag, and for each tree slot its used cells (R233 to R235). -/
structure Forest where
  ftype : Tag
  trees : List (List TreeCell)
  deriving DecidableEq, Repr, Inhabited

/-- A line of L1 data: a copy of bytes by physical address; a gathered line also has a stride and a size (R91). -/
structure L1Line where
  gathered : Option (Int × Nat)
  cells : List Host.Cell
  deriving DecidableEq, Repr, Inhabited

/-- An entry of the cluster's matrix queue: the strand slot it came from and the committed instruction (R18). -/
structure MqEntry where
  slot : Nat
  entry : VqEntry
  deriving DecidableEq, Repr

/-- A repartition in progress (R24). -/
structure Repartition where
  /-- issuing strand, 0 to 3 -/
  by_ : Nat
  mode : BitVec 2
  deriving DecidableEq, Repr, Inhabited

/-- A cluster. -/
structure Cluster where
  /-- scratchpad bytes written since the launch that holds it started (R86, R87) -/
  scratch : Memory
  /-- 0 until a first launch holds the cluster; then the argument of the free contents of its other bytes (R87, log 24) -/
  scratchEpoch : Nat
  /-- ASID of the launch that last held it (R87) -/
  asid : BitVec 16
  mode : BitVec 2
  repartition : Option Repartition
  /-- splice-buffer bytes in force (R87) -/
  spliceBytes : Nat
  mq : List MqEntry
  /-- the matrix queue's round-robin position (R18) -/
  mqNext : Nat
  forest : Option Forest
  l1 : List L1Line
  /-- of the execute issue stage: the context that issued last, and in which cycle (R31) -/
  execPos : Nat
  execAt : Option Nat
  /-- the same of the access issue stage -/
  accessPos : Nat
  accessAt : Option Nat
  /-- L1 instruction lines (R89): device line number, how many launches had started when the version held last stood in memory,
  and its bytes -/
  icache : List (Nat × Nat × List Byte)
  /-- the VPART or VJOIN that started last: in which cycle, and of which strand, 0 to 3 (R24) -/
  lastPart : Option (Nat × Nat)
  inService : Bool
  deriving DecidableEq, Repr

/-- A walk-cache entry: the table a non-leaf entry names (R328). -/
structure WalkCacheEntry where
  die : Nat
  asid : Nat
  /-- level of the entry cached, 0 to 4, and the address bits above it -/
  level : Nat
  pfx : Nat
  table : Nat
  deriving DecidableEq, Repr, Inhabited

/-- Who waits for a translation. -/
inductive Requester where
  | context (slot : Nat) (ctx : CtxId)
  | lanes (slot : Nat)
  /-- an element of a VLDFF above its first: no page is asked for it (R199) -/
  | probe (slot : Nat)
  | matrix (slot : Nat)
  | stream (slot : Nat) (s : Nat)
  | engine (cmd : Nat)
  deriving DecidableEq, Repr, Inhabited

/-- A walk in flight (R329, R334). -/
structure Walk where
  quad : Nat
  asid : Nat
  root : Nat
  va : Nat
  intent : Intent
  priv : Bool
  /-- TLBSEQ recorded at its start -/
  startSeq : Nat
  /-- those who wait for it with its intent and privilege -/
  who : List Requester
  /-- those who have joined it with others (R329) -/
  also : List Requester := []
  /-- an ATS translation request is outstanding for its leaf (R330) -/
  ats : Bool
  /-- an overlapping invalidation has been applied since its start (R334) -/
  stale : Bool
  deriving DecidableEq, Repr, Inhabited

/-- A page request outstanding, with what its message carries (R331). -/
structure PageReq where
  pasid : Nat
  func : Nat
  /-- the last-in-group flag -/
  last : Bool
  asid : Nat
  va : Nat
  intent : Intent
  since : Nat
  who : List Requester
  deriving DecidableEq, Repr, Inhabited

/-- An ATS Invalidation Request (R330): its PASID, function, first page and pages, and the stream chunks that still use a
translation from before it, as slot, stream and number. -/
structure AtsInval where
  pasid : Nat
  func : Nat
  va : Nat
  pages : Nat
  chunks : List (Nat × Nat × Nat)
  deriving DecidableEq, Repr, Inhabited

/-- The fault a walk or a failed page request ended in, for one requester. -/
structure XlatFault where
  who : Requester
  page : Nat
  cause : Cause
  deriving DecidableEq, Repr, Inhabited

/-- A shadow page (R113): its home address, its bytes, its owners, and whether it is errored or incomplete. -/
structure Shadow where
  asid : Nat
  va : Nat
  /-- the cluster whose scratchpad the page lies in, when it lies in the window -/
  scratch : Option Nat
  bytes : List Byte
  /-- contexts whose commands wrote it: launch, ordinal and context -/
  owners : List (Nat × Nat × CtxId)
  /-- cause carried by the command that erred on it (R258, R260) -/
  errored : Option Cause
  /-- lies in an incomplete chunk of a CRED (R261) -/
  incomplete : Bool
  /-- a migration copy's page: the partition and the device page its pool gave; stores to the visible page go to it as
  well (R335) -/
  moved : Option (Nat × Nat)
  /-- a migration copy's page: the device page that stays visible until the PUB -/
  origin : Option Nat
  /-- offsets of its bytes that are copies of poison (R366) -/
  poison : List Nat
  deriving DecidableEq, Repr, Inhabited

/-- An engine command in flight (R257). -/
structure EngineCmd where
  id : Nat
  slot : Nat
  ctx : CtxId
  pc : Word
  instr : Instr
  /-- registers ga and gb at issue -/
  desc : Word
  object : Word
  scope : BitVec 3
  priv : Bool
  asid : Nat
  root : Nat
  /-- it reads nothing while an instruction of the strand below this number is in the VQ or the matrix queue (R112) -/
  behind : Nat
  /-- the strip it issued in (R282) -/
  strip : Nat
  /-- of a KVFILE: it files the records of KVAPPs below this number (R264) -/
  upTo : Nat
  /-- owner of its shadow pages -/
  owner : Nat × Nat × CtxId
  /-- its strand was cancelled or its queue aborted (R255, R353) -/
  stopped : Bool
  /-- once it has started: its descriptor (R257, R346) -/
  snap : Option (List Byte) := none
  /-- of an UPD that has started: the skip word (R262) -/
  skip : Option Nat := none
  deriving DecidableEq, Repr, Inhabited

/-- One member's contribution to a collective (R261). -/
structure CredPart where
  group : Nat
  member : Nat
  /-- the bytes of its source that have arrived so far -/
  data : List Byte
  lost : Bool
  /-- it is a command of this module, and whether that has ended -/
  here : Bool
  done : Bool
  /-- the module it comes from, when that is another -/
  module : Option Nat := none
  /-- members of the collective, and bytes of each contribution, as a command of this module names them -/
  members : Nat := 0
  size : Nat := 0
  deriving DecidableEq, Repr, Inhabited

/-- An address-space record (R323). -/
structure AsRecord where
  pasid : Nat
  func : Nat
  ats : Bool
  pri : Bool
  part : Nat
  pritmo : Nat
  root : Nat
  deriving DecidableEq, Repr, Inhabited

/-- A partition record with the supervisor's settings (R362, R305). -/
structure Partition where
  /-- the cores, and the units of 64 ballot slots, assigned to it -/
  cores : List Nat
  ballot : List Nat
  stackGroups : BitVec 12
  ports : BitVec 24
  wsBanks : Nat
  tvec : Word
  tscratch : Word
  canlimit : Half
  /-- scanner position (R338) -/
  scan : Nat
  /-- the queue the dispatcher served last (R349) -/
  served : Nat
  deriving DecidableEq, Repr, Inhabited

/-- The SHAPE of a launch (R342). -/
structure Shape where
  strands : Nat
  mode : BitVec 2
  acc : Nat
  idle : Bool
  splice : Nat
  journal : Nat
  deriving DecidableEq, Repr, Inhabited

/-- An operand record of a kernel descriptor (R271). -/
structure Operand where
  base : Nat
  tag : Nat
  rank : Nat
  kind : Nat
  liveout : Bool
  consumedOnce : Bool
  wmen : Bool
  wmidx : Nat
  shape : List Nat
  stride : List Int
  coef : List (List Int)
  offset : List Int
  deriving DecidableEq, Repr, Inhabited

/-- A kernel descriptor (R268 to R272). -/
structure KDesc where
  rank : Nat
  stripdim : Nat
  spliceable : Bool
  kernelId : Nat
  bounds : List Nat
  striplen : Nat
  watermarks : List WmBinding
  operands : List Operand
  deriving DecidableEq, Repr, Inhabited

/-- What a LAUNCH packet, a task or each sibling asks for, read as one snapshot (R342, R346). -/
structure LaunchSpec where
  entryExec : Word
  entryAccess : Word
  kdesc : Option KDesc
  vclusters : Nat
  shape : Shape
  cohort : Bool
  loose : Bool
  args : List Word
  seed : Half
  spillAddr : Word
  spillSize : Nat
  wsb : List (Nat × Nat)
  compl : Word
  prio : Nat
  tag : Half
  /-- PRIV of the launch's declared mode (R305) -/
  priv : Bool
  deriving DecidableEq, Repr, Inhabited

/-- The types of a packet (R341). -/
inductive PacketKind where
  | nop
  | launch
  | siblaunch
  | barrier
  | waitval
  | wsload
  | wsrel
  | depgraph
  /-- refused under R350 -/
  | invalid
  deriving DecidableEq, Repr, Inhabited

/-- Where a fetched packet stands. -/
inductive PacketState where
  | fetched
  /-- in the splice window, its snapshots read (R346) -/
  | windowed
  /-- its splice decision made, or none to be made (R348) -/
  | decided
  | started
  /-- completed, with the STATUS of its record (R351) -/
  | ended (status : Nat)
  deriving DecidableEq, Repr, Inhabited

/-- A fetched packet. -/
structure Packet where
  seq : Nat
  /-- LSN of its fetch, for the order of fetch across queues (R274) -/
  stamp : Nat
  /-- its bytes at fetch (R346): 64, or 128 -/
  bytes : List Byte
  kind : PacketKind
  /-- its level, raised to PRIOMAX (R341) -/
  prio : Nat
  /-- packets it depends on: queue and number (R347) -/
  deps : List (Nat × Nat)
  /-- of a LAUNCH: the snapshot read when it entered the window, with the REASON it will be refused for (R346, R350) -/
  spec : Option LaunchSpec
  refusal : Option Nat
  /-- splice group (R276) -/
  group : Option Nat
  state : PacketState
  /-- of a LAUNCH that has become dispatchable: when, among all, and the packets in the window then (R274, R348) -/
  ready : Option (Nat × List (Nat × Nat)) := none
  deriving DecidableEq, Repr, Inhabited

/-- A queue: its record, notify word and packets (R337, R338). -/
structure Queue where
  ring : Word
  log2n : Nat
  version : Nat
  ordered : Bool
  noelide : Bool
  elidechk : Bool
  devsub : Bool
  policy : Nat
  priomax : Nat
  asid : Nat
  part : Nat
  rdidx : Word
  notify : Word
  /-- its bit of the pending vector -/
  pending : Bool
  fetched : Nat
  packets : List Packet
  /-- the packet from which on it starts none (R352) -/
  halted : Option Nat
  /-- destroyed, in drain (0) or abort (1) mode (R353) -/
  destroyed : Option Nat
  deriving DecidableEq, Repr, Inhabited

/-- Events that wait in the Inlet for a core (R339). -/
inductive InletEvent where
  | fetch (queue : Nat)
  /-- the command in the mailbox of a function -/
  | command (func : Nat)
  /-- a dispatch that a core gave back (R340) -/
  | dispatch (queue seq : Nat)
  /-- news for a queue: a strand has retired, an engine command is complete, a ballot is decided, a task is released or a page
  request is answered -/
  | report (queue : Nat)
  deriving DecidableEq, Repr, Inhabited

/-- A firmware core (R340). -/
structure Core where
  /-- counts the events it has handled; it moves by itself as well, unless the core has stopped -/
  heartbeat : Nat
  /-- cycle at which the heartbeat last moved, once the core has stopped -/
  lastBeat : Nat
  /-- the event in which it stopped -/
  event : Option InletEvent
  /-- the queue lock it holds -/
  lock : Option Nat
  /-- what it has placed without a COMMIT: cluster, first slot and number of slots -/
  held : List (Nat × Nat × Nat)
  /-- LSN of the first entry after its last checkpoint -/
  checkpoint : Nat
  deriving DecidableEq, Repr, Inhabited

/-- Kinds of sediment-log entries (R340). -/
inductive LogKind where
  | fetch
  | begin_
  | place
  | commit
  | abort
  | state
  deriving DecidableEq, Repr, Inhabited

/-- A sediment-log entry (R340). -/
structure LogEntry where
  lsn : Nat
  kind : LogKind
  core : Nat
  queue : Nat
  seq : Nat
  data : Nat
  deriving DecidableEq, Repr, Inhabited

/-- The completion word of a retired strand (R241), with what the accounting needs (R256). -/
structure StrandWord where
  ordinal : Nat
  status : BitVec 8
  cause : BitVec 8
  flags : Flags
  deriving DecidableEq, Repr, Inhabited

/-- A placement of a virtual cluster: its number, the physical cluster and the first slot (R33). -/
structure Placement where
  vcluster : Nat
  cluster : Nat
  slot : Nat
  deriving DecidableEq, Repr, Inhabited

/-- A launch in progress. -/
structure Launch where
  id : Nat
  queue : Nat
  seq : Nat
  asid : Nat
  part : Nat
  spec : LaunchSpec
  placements : List Placement
  words : List StrandWord
  faultRecord : Option FaultRecord
  /-- sibling group (R250) -/
  siblings : Option Nat
  /-- task: graph and number (R247) -/
  task : Option (Nat × Nat)
  /-- spliced group and place in its chain (R276) -/
  group : Option (Nat × Nat)
  /-- strands in the pre-empted state (R317) -/
  preempted : List Strand
  aborted : Bool
  /-- a partner's end cancelled it (R283) -/
  byPartner : Bool
  /-- pages to be returned with the completion record (R343) -/
  pages : List Word
  /-- instances: the siblings of a SIBLAUNCH, else 1 (R343) -/
  instances : Nat
  /-- device, host and remote memory as they stood when the launch started: the old lines of code stored to since (R89) -/
  codeDev : Memory
  codeHost : Memory
  codeRemotes : List (Nat × Memory)
  /-- a strand of it has started (R347) -/
  begun : Bool := false
  /-- TVEC, TSCRATCH and CANLIMIT of the supervisor's settings when it was dispatched (R305, R365) -/
  settings : Word × Word × Half := (0, 0, 0)
  deriving DecidableEq, Repr

/-- A task of a graph (R247). -/
structure Task where
  counter : Nat
  released : Bool
  /-- dispatched, or refused -/
  started : Bool
  completed : Bool
  level : Nat
  /-- its packet (R346) -/
  bytes : List Byte
  /-- cycle of the last DEPDEC, and its place in the order of R248 -/
  lastDec : Option (Nat × Nat) := none
  deriving DecidableEq, Repr, Inhabited

/-- A task graph (R343). -/
structure Graph where
  queue : Nat
  /-- number of the DEPGRAPH -/
  seq : Nat
  part : Nat
  tasks : List Task
  /-- released and not yet dispatched, in the order of R247 -/
  ready : List Nat
  deriving DecidableEq, Repr, Inhabited

/-- A sibling of a group (R250 to R256). -/
structure Sibling where
  /-- hash posted and handled, with its arrival number -/
  post : Option (Word × Nat)
  /-- status code of R252 -/
  status : Nat
  left : Bool
  ended : Bool
  /-- a cancel request has been sent to its strands (R252) -/
  cancelReq : Bool
  canpc : Word
  /-- cycles run by its retired strands -/
  cycles : Nat
  /-- cycles its strands had run when the group was decided -/
  atDecision : Nat
  /-- it has dropped its references to the shared pages -/
  released : Bool
  deriving DecidableEq, Repr, Inhabited

/-- How a group stands (R253). -/
inductive GroupState where
  | open_
  | quorum
  | tie
  | noWinner
  deriving DecidableEq, Repr, Inhabited

/-- A sibling group. -/
structure SibGroup where
  launch : Nat
  part : Nat
  n : Nat
  quorum : Nat
  siblings : List Sibling
  arrivals : Nat
  state : GroupState
  winner : Nat
  hash : Word
  decidedAt : Nat
  prefixPages : List (Word × Nat)
  privatePages : List Word
  /-- pages released or freed, returned with the group's completion (R291, R343) -/
  freed : List Word
  acct : Word
  /-- cycle and sibling index of the last post (R251) -/
  lastPost : Option (Nat × Nat) := none
  /-- decided by quorum in this cycle: its cancel requests are still to be sent (R252) -/
  cancelsDue : Bool := false
  deriving DecidableEq, Repr, Inhabited

/-- The data of one adjacent pair of a spliced group (R275 to R279). -/
structure Pair where
  producer : Nat
  consumer : Nat
  /-- the producer's operand of the tensor -/
  operand : Operand
  /-- the producer's bounds and strip shape, by its descriptor -/
  desc : KDesc
  /-- inverse of the write map's matrix, row by row -/
  inverse : List (List Int)
  elided : Bool
  /-- number of regions W -/
  window : Nat
  /-- for each virtual cluster: the producer's share, first strip and count -/
  shares : List (Nat × Nat)
  /-- for each consumer strip: the producer strips it needs -/
  needs : List (List Nat)
  deriving DecidableEq, Repr, Inhabited

/-- The run of one pair on one cluster of the group. -/
structure PairRun where
  vcluster : Nat
  place : Nat
  /-- completed local strips of the producer: the gate count -/
  gate : Nat
  /-- finished strips of the consumer -/
  consumed : Nat
  /-- elements the producer has written: address and bytes -/
  written : List (Nat × List Byte)
  /-- the producer ended without finishing its share -/
  producerEnded : Bool
  deriving DecidableEq, Repr, Inhabited

/-- A spliced group (R274 to R280). -/
structure SpliceGroup where
  members : List (Nat × Nat)
  vclusters : Nat
  spliceBytes : Nat
  /-- shares of each member for each virtual cluster -/
  shares : List (List (Nat × Nat))
  pairs : List Pair
  runs : List PairRun
  /-- packets of members that have ended -/
  ended : List (Nat × Nat)
  deriving DecidableEq, Repr, Inhabited

/-- A generation slot of a weight-store region (R94, R95). -/
structure Generation where
  gennum : Nat
  released : Bool
  /-- launches that pin it -/
  pins : List Nat
  deriving DecidableEq, Repr, Inhabited

/-- A weight-store region (R94, R345). -/
structure WsRegion where
  offset : Nat
  /-- 0 die 0, 1 die 1, 2 both -/
  place : Nat
  maxSize : Nat
  nextGen : Nat
  slots : Vector (Option Generation) 2
  deriving DecidableEq, Repr

/-- The refresh of one die's banks (R96). -/
structure Refresh where
  /-- T0, in the time units of `State.time` -/
  origin : Nat
  /-- refreshes started since, the next of bank `count` mod 1,024 -/
  count : Nat
  /-- a bank is in refresh -/
  busy : Bool
  /-- banks replaced by a spare (R367) -/
  spared : List Nat
  deriving DecidableEq, Repr, Inhabited

/-- The mailbox registers of a PCIe function (R359). -/
structure Mailbox where
  addr : Word
  last : Byte
  irqen : Bool
  busy : Bool
  /-- the 64-byte command block as read when GO was written, and its host address -/
  block : List Byte
  blockAt : Word := 0
  deriving DecidableEq, Repr, Inhabited

/-- A key slot of the Tvednov root (R363). -/
structure KeySlot where
  key : List Byte
  enabled : Bool
  deriving DecidableEq, Repr, Inhabited

/-- The Tvednov root of trust (R363 to R365). -/
structure Root where
  keys : List KeySlot
  installCounter : Nat
  /-- security version recorded for each kind of image, 0 to 3 -/
  versions : List Nat
  /-- measurement log: the digests extended, oldest first -/
  measurements : List (List Byte)
  /-- image installed for each kind -/
  images : List (List Byte)
  deriving DecidableEq, Repr, Inhabited

/-- A partition's recorder ring (R368). -/
structure Recorder where
  base : Nat
  size : Nat
  nextIndex : Nat
  /-- records not yet overwritten: index, kind and identifiers; an ingress record stands for itself and the four that hold
  its packet -/
  records : List (Nat × Nat × List Nat)
  deriving DecidableEq, Repr, Inhabited

/-- A replay in progress (R369): the function that asked for it, the records to come, and for each queue the recorded
number and the present number of its first packet taken from the ring. -/
structure Replay where
  func : Nat
  records : List (Nat × Nat × List Nat)
  shift : List (Nat × Nat × Nat)
  /-- the record of a host read whose digest differed -/
  diverged : Option Nat
  deriving DecidableEq, Repr, Inhabited

/-- A flit, known by its number on the port (R361). -/
structure Flit where
  number : Nat
  deriving DecidableEq, Repr, Inhabited

/-- A Plovow port (R361, R367). -/
structure Port where
  /-- flits sent and not acknowledged: the replay buffer -/
  replay : List Flit
  /-- flits on the link, oldest first -/
  inFlight : List Flit
  training : Bool
  /-- cycle at which its training began -/
  since : Nat := 0
  deriving DecidableEq, Repr, Inhabited

/-- Another module of the domain as seen from here (R361). -/
structure RemoteModule where
  mem : Memory
  reachable : Bool
  /-- cycle of the last acknowledgement, or of the first store after it, while one is owed for a store -/
  owedSince : Option Nat
  /-- the same of a load -/
  askedSince : Option Nat := none
  deriving DecidableEq, Repr, Inhabited

/-- How the last host request was completed (R358). -/
inductive Reply where
  | none_
  | data (bs : List Byte)
  | completerAbort
  deriving DecidableEq, Repr, Inhabited

/-- Whom the turn concerns: the slot and context now issuing, or the slot, context and unit of an event. -/
structure Current where
  slot : Nat
  ctx : CtxId
  /-- a stream slot, die, port, PCIe function, core or partition -/
  unit : Nat
  deriving DecidableEq, Repr, Inhabited

/-- The state of the module. -/
structure State where
  /-- the turns to come (log 1) -/
  agenda : List Turn
  /-- counts the free values drawn; their argument (log 1) -/
  draws : Nat
  /-- whom the turn concerns (log 1) -/
  cur : Current
  /-- cycles since bring-up (log 2) -/
  now : Nat
  /-- time since bring-up, in units of 8/360,360 ns, of which a cycle at 125 × m MHz lasts 360,360 / m (R96, R370) -/
  time : Nat
  /-- strands by physical slot, 0 to 767 (R248) -/
  strands : List (Nat × Strand)
  /-- the cycle of the last issue, and its place in the order of R248: twice the strand number, one more for the access
  context -/
  issued : Option (Nat × Nat)
  /-- clusters that differ from a cluster at bring-up, by number (R1) -/
  clusters : List (Nat × Cluster)
  /-- HBM and second tier (R85) -/
  dev : Memory
  /-- weight stores, die 0 and die 1 (R94) -/
  ws : Vector Memory 2
  /-- host memory as reached over PCIe (R98) -/
  host : Memory
  /-- other modules' memory as reached over Plovow (R98) -/
  remotes : List (Nat × RemoteModule)
  /-- poisoned 64-byte units of device memory, the weight stores and the scratchpads, by `Place.flat` (R366) -/
  poison : List Nat
  shadows : List Shadow
  engines : List EngineCmd
  nextCmd : Nat
  /-- device pages of the partitions' migration pools: partition and page (R335) -/
  pool : List (Nat × Nat)
  /-- pages a migration has replaced that a stream still pins: address space, virtual page, partition, page (R335) -/
  leaving : List (Nat × Nat × Nat × Nat)
  creds : List CredPart
  tlb : List TlbEntry
  walkCache : List WalkCacheEntry
  walks : List (Nat × Walk)
  pageReqs : List (Nat × PageReq)
  xlatFaults : List XlatFault
  /-- ATS Invalidation Requests that have been applied and whose Invalidation Completion has not been sent (R330) -/
  atsOwed : List AtsInval
  /-- Invalidation Completions sent, latest first (R330) -/
  atsSent : List AtsInval
  tlbseq : Word
  /-- bound address spaces by ASID (R323) -/
  spaces : List (Nat × AsRecord)
  partitions : List (Nat × Partition)
  /-- partition the scanner serves next (R338) -/
  scanPart : Nat
  /-- queues by number (R337) -/
  queues : List (Nat × Queue)
  inlet : List InletEvent
  /-- how many packets have become dispatchable so far (R274) -/
  readied : Nat
  cores : List (Nat × Core)
  log : List LogEntry
  nextLsn : Nat
  launches : List (Nat × Launch)
  nextLaunch : Nat
  /-- splice groups by number -/
  groups : List (Nat × SpliceGroup)
  /-- elided ranges: partition, first and last byte, and the first launch that comes after, oldest first (R281) -/
  elided : List (Nat × Int × Int × Nat)
  /-- graphs by partition * 65536 + number (R343) -/
  graphs : List (Nat × Graph)
  /-- sibling groups by GROUP number (R250) -/
  sibgroups : List (Nat × SibGroup)
  /-- pages returned to system software (R291, R343) -/
  returned : List Word
  /-- pages whose count is zero and that a stream still pins: address space and page (R215) -/
  lingering : List (Nat × Word)
  /-- frames written by VFSAVE, by the token in their bodies (R313, log 16) -/
  frames : List (Nat × Frame)
  /-- weight-store regions by identifier (R94) -/
  regions : List (Nat × WsRegion)
  refresh : Vector Refresh 2
  /-- mailboxes of functions 0 to 12 (R359) -/
  mailboxes : List (Nat × Mailbox)
  /-- what the host last read, or was told (R358) -/
  reply : Reply
  /-- MSI-X vectors signalled, by function (R359) -/
  msix : List (Nat × Nat)
  /-- SPDM answers given, by function (R363) -/
  spdm : List (Nat × List Byte)
  root : Root
  recorders : List (Nat × Recorder)
  /-- replays in progress, by partition (R369) -/
  replaying : List (Nat × Replay)
  ports : List (Nat × Port)
  /-- HBM rows repaired onto spare rows (R367) -/
  repairedRows : List Nat
  /-- clock in MHz (R370) -/
  clockMHz : Nat
  clocksStopped : Bool
  linkUp : Bool
  /-- IDE streams in the insecure state (R358) -/
  ideFailed : List Nat
  mailboxOpen : Bool
  deriving DecidableEq, Repr

/-- A context with every register at its value at strand start and nothing in it (R38; log 7 for the rest). -/
def Context.blank : Context where
  pc := 0
  g := Vector.replicate 32 0
  sr := 1
  flags := 0
  issues := 0
  intrap := false
  vimprecise := false
  ie := true
  ven := true
  ppriv := false
  priv := false
  causeVector := false
  cause := 0
  tpc := 0
  tval := 0
  tvec := 0
  tscratch := 0
  reason := 0
  preempt := none
  serving := []
  cancel := none
  cancelled := false
  prefixes := none
  wait := none
  retired := false
  yielded := false
  engineErrors := []
  poisoned := none

/-- A strand with every register at its value at strand start and nothing placed in it (R38; log 7 for the rest). -/
def Strand.blank : Strand where
  exec := Context.blank
  access := Context.blank
  v := Vector.replicate 32 (Vector.replicate 256 0)
  tags := Vector.replicate 32 8
  vstart := 0
  xrm := 0
  seed := 0
  sr := Vector.replicate 64 1
  laneFlags := Vector.replicate 64 0
  xtrapen := 0
  edge := 0
  vbypass := 0x20000
  slip := 4
  clocks := 0
  vdirty := 0
  adirty := 0
  asid := 0
  ptroot := 0
  canlimit := 0
  vq := []
  commits := 0
  pending := []
  reads := []
  queues := Vector.replicate 4 []
  streams := Vector.replicate 8 none
  tiles := []
  frame := none
  savedPins := []
  fault := none
  charged := none
  away := []
  life := .placed
  status := 0
  endCause := 0
  endFlags := 0
  ending := none
  canpc := 0
  launch := 0
  ordinal := 0
  vcluster := 0
  sibling := none
  watermarks := Vector.replicate 8 { word := 0, limit := 0, base := 0, size := 1 }
  wsBindings := []
  journalSize := 0
  spillSize := 0
  spillAddr := 0
  journal := []
  journalSeq := 0
  firstStrip := 0
  splpts := 0
  group := none
  counted := false
  spliceable := false
  kernelId := 0
  lastMode := 0

/-- A cluster as bring-up leaves it (R370): scratchpad clear, forest empty, nothing cached or queued. -/
def Cluster.blank : Cluster where
  scratch := { cells := [] }
  scratchEpoch := 0
  asid := 0
  mode := 0
  repartition := none
  spliceBytes := 0
  mq := []
  mqNext := 0
  forest := none
  execPos := 3
  execAt := none
  accessPos := 3
  accessAt := none
  l1 := []
  icache := []
  lastPart := none
  inService := true

/-- A die's refresh calendar at bring-up, its origin the cycle bring-up fixed (R96, R370). -/
def Refresh.blank : Refresh :=
  { origin := 0, count := 0, busy := false, spared := [] }

/-- The root of trust at manufacture: slot 0 holds Hervin's key, slots 1 to 3 none (R363). -/
def Root.blank : Root where
  keys := [{ key := Config.hervinKey, enabled := true }, { key := [], enabled := false },
           { key := [], enabled := false }, { key := [], enabled := false }]
  installCounter := 0
  versions := [0, 0, 0, 0]
  measurements := []
  images := [[], [], [], []]

/-- The module after bring-up (R370): TLBSEQ 0, scratchpads clear, mailboxes open, no strand resident, no queue. -/
def State.reset : State where
  agenda := []
  draws := 0
  cur := { slot := 0, ctx := .execute, unit := 0 }
  now := 0
  time := 0
  strands := []
  issued := none
  clusters := []
  dev := { cells := [] }
  ws := Vector.replicate 2 { cells := [] }
  host := { cells := [] }
  remotes := []
  poison := []
  shadows := []
  engines := []
  nextCmd := 0
  pool := []
  leaving := []
  creds := []
  tlb := []
  walkCache := []
  walks := []
  pageReqs := []
  xlatFaults := []
  atsOwed := []
  atsSent := []
  tlbseq := 0
  spaces := []
  partitions := []
  scanPart := 0
  queues := []
  inlet := []
  readied := 0
  cores := []
  log := []
  nextLsn := 0
  launches := []
  nextLaunch := 0
  groups := []
  elided := []
  graphs := []
  sibgroups := []
  returned := []
  lingering := []
  frames := []
  regions := []
  refresh := Vector.replicate 2 Refresh.blank
  mailboxes := []
  reply := .none_
  msix := []
  spdm := []
  root := Root.blank
  recorders := []
  replaying := []
  ports := []
  repairedRows := []
  clockMHz := 1750
  clocksStopped := false
  linkUp := true
  ideFailed := []
  mailboxOpen := true

end Sys2Proof.Machine
end

