-- ==== Sys2Proof/Machine/Mem.lean ====
section
/-!
DEFINITION. Machine/Mem.lean: reading and writing bytes of one memory, in its canonical form, and little-endian
quantities over them (R2).
-/
namespace Sys2Proof.Machine

/-- What an address that no cell lists reads as: DESIGN CHOICE, zero (log 4). -/
def Memory.unlisted : Byte := 0

/-- The byte at an address. -/
def Memory.read (m : Memory) (a : Nat) : Byte := (lookup m.cells a).getD Memory.unlisted

/-- The memory with byte b at address a, in canonical form. -/
def Memory.write (m : Memory) (a : Nat) (b : Byte) : Memory :=
  { cells := if b = Memory.unlisted then eraseKey m.cells a else insertKey m.cells a b }

/-- Addresses of a list of cells lie above lo and rise, and no cell holds what an unlisted address reads as. -/
def risingFrom (lo : Nat) : List Host.Cell → Bool
  | [] => true
  | (a, b) :: rest => decide (lo ≤ a) && decide (b ≠ Memory.unlisted) && risingFrom (a + 1) rest

/-- The canonical form. -/
def Memory.wf (m : Memory) : Bool := risingFrom 0 m.cells

/-- The n bytes from address a upward. -/
def Memory.readBytes (m : Memory) (a n : Nat) : List Byte := (List.range n).map (fun i => m.read (a + i))

/-- The memory with a list of bytes at address a upward. -/
def Memory.writeBytes (m : Memory) (a : Nat) : List Byte → Memory
  | [] => m
  | b :: rest => (m.write a b).writeBytes (a + 1) rest

/-- The little-endian n-byte quantity at address a (R2). -/
def Memory.readLE (m : Memory) (a n : Nat) : Nat := leNat (m.readBytes a n)

/-- The memory with the n-byte quantity x at address a (R2). -/
def Memory.writeLE (m : Memory) (a n x : Nat) : Memory := m.writeBytes a (leBytes n x)

/-- Every memory of the module and of the modules beside it has the canonical form. -/
def State.memWf (s : State) : Bool :=
  s.dev.wf && s.ws[0].wf && s.ws[1].wf && s.host.wf && s.remotes.all (fun r => r.2.mem.wf)

end Sys2Proof.Machine
end

