-- ==== Sys2Proof/Machine/Get.lean ====
section
/-!
DEFINITION. Machine/Get.lean: the one way in which every other file reads and updates the parts of the state.
-/
namespace Sys2Proof.Machine

/-- The outcome of a step of this machine. -/
abbrev Out := Host.Outcome State Fault Refusal

/-- The context of a strand. -/
def Strand.ctx (st : Strand) : CtxId → Context
  | .execute => st.exec
  | .access => st.access

/-- The strip the strand is in (R279). -/
def Strand.strip (st : Strand) : Nat := st.firstStrip + st.splpts

/-- The address a sequence resumes at: its first prefix, or the instruction (R130). -/
def Context.start (c : Context) : Word := (c.prefixes.map (·.first)).getD c.pc

/-- A stream slot of a strand. -/
def Strand.stream (st : Strand) (k : Nat) : Option Stream := st.streams.toList.getD k none

/-- A stream slot replaced. -/
def Strand.setStream (st : Strand) (k : Nat) (x : Option Stream) : Strand :=
  if h : k < 8 then { st with streams := st.streams.set k x } else st

/-- The strand with one context replaced. -/
def Strand.setCtx (st : Strand) (id : CtxId) (c : Context) : Strand :=
  match id with
  | .execute => { st with exec := c }
  | .access => { st with access := c }

/-- A scalar register; g0 reads zero (R12). -/
def Context.reg (c : Context) (r : Reg) : Word := if r = 0 then 0 else c.g[r.toNat]'(r.isLt)

/-- The context with a scalar register written; a write to g0 is discarded (R12, R68). -/
def Context.setReg (c : Context) (r : Reg) (x : Word) : Context :=
  if r = 0 then c else { c with g := c.g.set r.toNat x (r.isLt) }

/-- A register of a snapshot taken at commit (R15); g0 reads zero. -/
def snapReg (g : Vector Word 32) (r : Reg) : Word := if r = 0 then 0 else g[r.toNat]'(r.isLt)

/-- The strand in a slot. -/
def State.strand? (s : State) (slot : Nat) : Option Strand := lookup s.strands slot

/-- The state with a strand in a slot. -/
def State.setStrand (s : State) (slot : Nat) (st : Strand) : State :=
  { s with strands := insertKey s.strands slot st }

/-- The cluster of a number; one not listed stands as bring-up left it. -/
def State.cluster (s : State) (k : Nat) : Cluster := (lookup s.clusters k).getD Cluster.blank

/-- The state with a cluster replaced. -/
def State.setCluster (s : State) (k : Nat) (c : Cluster) : State :=
  { s with clusters := insertKey s.clusters k c }

/-- A scratchpad byte; one not written since the launch started is indeterminate (R87), zero before any launch (R370). -/
def Cluster.scratchByte (c : Cluster) (off : Nat) : Byte :=
  match lookup c.scratch.cells off with
  | some b => b
  | none => if c.scratchEpoch = 0 then 0 else Config.scratchInit c.scratchEpoch off

/-- Scratchpad bytes written. -/
def Cluster.scratchPut (c : Cluster) (off : Nat) : List Byte → Cluster
  | [] => c
  | b :: rest => ({ c with scratch := { cells := insertKey c.scratch.cells off b } }).scratchPut (off + 1) rest

/-- The cluster of a slot: four strands each (R11). -/
def clusterOf (slot : Nat) : Nat := slot / 4
/-- The quad of a cluster: four clusters each (R11). -/
def quadOf (cluster : Nat) : Nat := cluster / 4
/-- The stack group of a cluster: four quads each (R11). -/
def stackOf (cluster : Nat) : Nat := cluster / 16
/-- The die of a cluster: two dies of 96 clusters (R1). -/
def dieOf (cluster : Nat) : Nat := cluster / 96

/-- The state after drawing a free value (log 1). -/
def State.drawn (s : State) : State := { s with draws := s.draws + 1 }

/-- One strand updated, if there is one in the slot. -/
def State.updStrand (s : State) (slot : Nat) (f : Strand → Strand) : State :=
  match s.strand? slot with
  | none => s
  | some st => s.setStrand slot (f st)

/-- One context updated, if there is a strand in the slot. -/
def State.updCtx (s : State) (slot : Nat) (id : CtxId) (f : Context → Context) : State :=
  s.updStrand slot (fun st => st.setCtx id (f (st.ctx id)))

/-- A launch by number. -/
def State.launch? (s : State) (id : Nat) : Option Launch := lookup s.launches id
/-- The state with a launch replaced. -/
def State.setLaunch (s : State) (id : Nat) (l : Launch) : State :=
  { s with launches := insertKey s.launches id l }
/-- A queue by number. -/
def State.queue? (s : State) (q : Nat) : Option Queue := lookup s.queues q
/-- The state with a queue replaced. -/
def State.setQueue (s : State) (q : Nat) (x : Queue) : State := { s with queues := insertKey s.queues q x }

/-- The four strands of a cluster, by slot. -/
def State.clusterStrands (s : State) (k : Nat) : List (Nat × Strand) :=
  s.strands.filter (fun p => clusterOf p.1 == k)

/-- The cause code of a trap (R136). -/
def Cause.code : Cause → BitVec 8
  | .illegalInstruction => 0x01
  | .illegalPrefix => 0x02
  | .privileged => 0x03
  | .misaligned => 0x04
  | .translationLoad => 0x05
  | .translationStore => 0x06
  | .protection => 0x07
  | .vectorFirstUse => 0x08
  | .tagMismatch => 0x09
  | .arithmetic => 0x0A
  | .depUnderflow => 0x0B
  | .watermarkTimeout => 0x0C
  | .breakpoint => 0x0D
  | .systemCall => 0x0E
  | .preemption => 0x10
  | .siblingCancel => 0x11
  | .streamProtocol => 0x12
  | .uncorrectable => 0x13
  | .elidedRead => 0x14

/-- Width in bits of a tag's elements (R41). -/
def tagWidth (t : Tag) : Nat :=
  match t.toNat with
  | 0 | 9 => 4
  | 1 | 5 | 10 | 11 => 8
  | 2 | 6 | 12 | 13 => 16
  | 3 | 7 | 14 | 15 => 32
  | _ => 64

/-- Lanes a slot position owns in a mode: the first lane and how many (R21). -/
def lanesOf (mode : BitVec 2) (pos : Nat) : Nat × Nat :=
  match mode.toNat with
  | 0 => if pos = 0 then (0, 64) else (0, 0)
  | 1 => if pos = 0 then (0, 32) else if pos = 1 then (32, 32) else (0, 0)
  | _ => (16 * pos, 16)

/-- The lanes of the strand in a slot: first lane and number (R21, R27). -/
def State.lanes (s : State) (slot : Nat) : Nat × Nat := lanesOf (s.cluster (clusterOf slot)).mode (slot % 4)

end Sys2Proof.Machine
end

