-- ==== Sys2Proof/Machine/Float.lean ====
section
/-!
DEFINITION. Machine/Float.lean: floating-point values, one rounding of an exact result (R43 to R51), the operations on
values (R46, R56, R170, R171), the conversions (R53 to R55) and residue integers (R60 to R62). An exact magnitude is
m × 2^e; where the exact result has no finite such form, the lowest bit of m is 1 in place of the bits below it,
which lie more than 40 bits under the destination's last place and so decide nothing else.
-/
namespace Sys2Proof.Machine

/-! ## Flags of an element, in the layout of XFLAGS (R83) -/

/-- inexact -/
def fNX : Flags := 0x01
/-- underflow -/
def fUF : Flags := 0x02
/-- overflow or saturation -/
def fOF : Flags := 0x04
/-- divide by zero -/
def fDZ : Flags := 0x08
/-- invalid -/
def fNV : Flags := 0x10
/-- non-finite produced or consumed -/
def fNF : Flags := 0x20
/-- residue poison -/
def fRP : Flags := 0x40

/-- A flag set when a condition holds. -/
def flagIf (p : Bool) (f : Flags) : Flags := if p then f else 0

/-! ## Values -/

/-- A decoded floating-point value. -/
inductive FVal where
  | fin (neg : Bool) (m : Nat) (e : Int)
  | inf (neg : Bool)
  | nan
  deriving DecidableEq, Repr, Inhabited

/-- An exact result before rounding: its sign, magnitude, or what it is instead, with the flags it sets. -/
inductive Exact where
  | val (neg : Bool) (m : Nat) (e : Int)
  | zero (neg : Bool)
  | inf (neg : Bool) (flags : Flags)
  | nan (flags : Flags)
  deriving DecidableEq, Repr, Inhabited

/-- A format: exponent bits, fraction bits, bias, and the encoding of its largest finite magnitude (R43). -/
structure Fmt where
  eb : Nat
  fb : Nat
  bias : Nat
  largest : Nat
  deriving DecidableEq, Repr

/-- The tag names a floating-point format (R41). -/
def isFloat (t : Tag) : Bool := decide (9 ≤ t.toNat) && decide (t.toNat ≤ 14)
/-- The tag names a signed integer type. -/
def isSigned (t : Tag) : Bool := decide (t.toNat ≤ 4)
/-- The tag names an unsigned integer type. -/
def isUnsigned (t : Tag) : Bool := decide (5 ≤ t.toNat) && decide (t.toNat ≤ 8)
/-- The tag names an integer type. -/
def isInt (t : Tag) : Bool := decide (t.toNat ≤ 8)

/-- The format of a tag (R43). -/
def fmtOf (t : Tag) : Fmt :=
  match t.toNat with
  | 9 => { eb := 2, fb := 1, bias := 1, largest := 0x7 }
  | 10 => { eb := 4, fb := 3, bias := 7, largest := 0x7E }
  | 11 => { eb := 5, fb := 2, bias := 15, largest := 0x7B }
  | 12 => { eb := 5, fb := 10, bias := 15, largest := 0x7BFF }
  | 13 => { eb := 8, fb := 7, bias := 127, largest := 0x7F7F }
  | _ => { eb := 8, fb := 23, bias := 127, largest := 0x7F7FFFFF }

/-- The sign bit of a format. -/
def Fmt.signBit (f : Fmt) : Nat := 2 ^ (f.eb + f.fb)

/-- The encoding of a magnitude with a sign. -/
def Fmt.signed (f : Fmt) (neg : Bool) (x : Nat) : Nat := if neg then f.signBit + x else x

/-- The canonical NaN: positive (R43, R44); FP4 has none and gives +0 (R49). -/
def nanBits (t : Tag) : Nat :=
  match t.toNat with
  | 9 => 0
  | 10 => 0x7F
  | 11 => 0x7E
  | 12 => 0x7E00
  | 13 => 0x7FC0
  | _ => 0x7FC00000

/-- The value an encoding has (R43). -/
def decodeF (t : Tag) (x : Nat) : FVal :=
  let f := fmtOf t
  let neg := x / f.signBit % 2 == 1
  let e := x / 2 ^ f.fb % 2 ^ f.eb
  let frac := x % 2 ^ f.fb
  let top := 2 ^ f.eb - 1
  if t.toNat = 10 ∧ e = top ∧ frac = 7 then .nan
  else if t.toNat ≠ 9 ∧ t.toNat ≠ 10 ∧ e = top then (if frac = 0 then .inf neg else .nan)
  else if e = 0 then .fin neg frac (1 - (f.bias : Int) - f.fb)
  else .fin neg (frac + 2 ^ f.fb) ((e : Int) - f.bias - f.fb)

/-- NaN or infinite. -/
def FVal.nonFinite : FVal → Bool
  | .fin _ _ _ => false
  | _ => true

/-- The value with its sign changed. -/
def FVal.negate : FVal → FVal
  | .fin n m e => .fin (!n) m e
  | .inf n => .inf (!n)
  | .nan => .nan

/-- The value times 2^(x - 127) for an E8M0 byte x; 0xFF makes it a NaN (R45, R57). -/
def FVal.scaled (v : FVal) (x : Nat) : FVal :=
  if x = 255 then .nan
  else
    match v with
    | .fin n m e => .fin n m (e + x - 127)
    | v => v

/-! ## Rounding -/

/-- The multiple of 2^q chosen for a magnitude m × 2^e, and whether it is inexact and whether hi was chosen (R47, R51).
`r` is the 16-bit number of R51. -/
def choose (neg : Bool) (m : Nat) (e q : Int) (rm : BitVec 3) (r : Nat) : Nat × Bool × Bool :=
  if q ≤ e then (m * 2 ^ (e - q).toNat, false, false)
  else
    let den := 2 ^ (q - e).toNat
    let k := m / den
    let rem := m % den
    if rem = 0 then (k, false, false)
    else
      let up : Bool := match rm.toNat with
        | 1 => false
        | 2 => neg
        | 3 => !neg
        | 4 => decide (den ≤ 2 * rem)
        | 5 => decide (den * 65536 ≤ rem * 65536 + r * den)
        | _ => decide (den < 2 * rem) || (decide (2 * rem = den) && k % 2 == 1)
      (if up then k + 1 else k, true, up)

/-- The result of an overflow (R49), and the flags it sets. -/
def overflowBits (t : Tag) (neg : Bool) (rm : BitVec 3) (sat hi : Bool) : Nat × Flags :=
  let f := fmtOf t
  let wide : Bool := match rm.toNat with
    | 1 => false
    | 2 => neg
    | 3 => !neg
    | 5 => hi
    | _ => true
  if t.toNat = 9 ∨ sat ∨ !wide then (f.signed neg f.largest, fOF ||| fNX)
  else if t.toNat = 10 then (nanBits t, fOF ||| fNX ||| fNF)
  else (f.signed neg (f.largest + 1), fOF ||| fNX ||| fNF)

/-- A non-zero exact magnitude rounded once into a format (R46, R47, R49, R56). -/
def roundF (t : Tag) (neg : Bool) (m : Nat) (e : Int) (rm : BitVec 3) (sat : Bool) (r : Nat) : Nat × Flags :=
  let f := fmtOf t
  let top : Int := e + Nat.log2 m
  let least : Int := 1 - (f.bias : Int) - f.fb
  let q : Int := max (top - f.fb) least
  let (k, inexact, hi) := choose neg m e q rm r
  let x := k + (q - least).toNat * 2 ^ f.fb
  if f.largest < x then overflowBits t neg rm sat hi
  else
    (f.signed neg x, flagIf inexact fNX ||| flagIf (inexact && decide (top < 1 - (f.bias : Int))) fUF)

/-- An infinity converted to a format (R49, R55). -/
def infBits (t : Tag) (neg sat : Bool) : Nat × Flags :=
  let f := fmtOf t
  if t.toNat = 9 then (f.signed neg f.largest, 0)
  else if t.toNat = 10 then (if sat then (f.signed neg f.largest, 0) else (nanBits t, fNF))
  else (f.signed neg (f.largest + 1), fNF)

/-- An exact result delivered in a format (R44, R46). A NaN delivered in FP4 is +0 and sets NV (R49). -/
def Exact.deliver (x : Exact) (t : Tag) (rm : BitVec 3) (sat : Bool) (r : Nat) : Nat × Flags :=
  match x with
  | .val neg m e => if m = 0 then ((fmtOf t).signed neg 0, 0) else roundF t neg m e rm sat r
  | .zero neg => ((fmtOf t).signed neg 0, 0)
  | .inf neg fl => let p := infBits t neg sat; (p.1, p.2 ||| fl)
  | .nan fl => (nanBits t, fl ||| (if t.toNat = 9 then fNV else fNF))

/-! ## Operations on values (R46, R56, R170) -/

/-- m × 2^e as an integer multiple of 2^q, for q at or below e. -/
def alignTo (neg : Bool) (m : Nat) (e q : Int) : Int :=
  let x : Int := (m : Int) * (2 : Int) ^ (e - q).toNat
  if neg then -x else x

/-- An integer multiple of 2^q as an exact result; `zeroNeg` is the sign of zero. -/
def exactOf (x : Int) (q : Int) (zeroNeg : Bool) : Exact :=
  if x = 0 then .zero zeroNeg else .val (decide (x < 0)) x.natAbs q

/-- a + b (R44: the sign of a zero sum). -/
def fAdd (rm : BitVec 3) (a b : FVal) : Exact :=
  match a, b with
  | .nan, _ | _, .nan => .nan 0
  | .inf s, .inf t => if s = t then .inf s 0 else .nan fNV
  | .inf s, _ => .inf s 0
  | _, .inf t => .inf t 0
  | .fin s m e, .fin t n f =>
    let q := min e f
    exactOf (alignTo s m e q + alignTo t n f q) q (if m = 0 ∧ n = 0 ∧ s = t then s else rm = 2)

/-- a × b. -/
def fMul (a b : FVal) : Exact :=
  match a, b with
  | .nan, _ | _, .nan => .nan 0
  | .inf s, .inf t => .inf (s != t) 0
  | .inf s, .fin t n _ | .fin t n _, .inf s => if n = 0 then .nan fNV else .inf (s != t) 0
  | .fin s m e, .fin t n f => if m * n = 0 then .zero (s != t) else .val (s != t) (m * n) (e + f)

/-- a × b + c, rounded once (R46, R170). -/
def fFma (rm : BitVec 3) (a b c : FVal) : Exact :=
  match fMul a b with
  | .nan fl => .nan fl
  | .inf s fl =>
    match c with
    | .nan => .nan 0
    | .inf t => if s = t then .inf s fl else .nan fNV
    | _ => .inf s fl
  | .zero s => fAdd rm (.fin s 0 0) c
  | .val s m e => fAdd rm (.fin s m e) c

/-- The quotient of positive magnitudes m / n, with its exponent, the lowest bit standing for what is left. -/
def quotient (m n : Nat) : Nat × Int :=
  let k := 96 + Nat.log2 n
  let q := m * 2 ^ k / n
  (2 * q + (if m * 2 ^ k % n = 0 then 0 else 1), -(k : Int) - 1)

/-- a / b (R56). -/
def fDiv (a b : FVal) : Exact :=
  match a, b with
  | .nan, _ | _, .nan => .nan 0
  | .inf _, .inf _ => .nan fNV
  | .inf s, .fin t _ _ => .inf (s != t) 0
  | .fin s _ _, .inf t => .zero (s != t)
  | .fin s m e, .fin t n f =>
    if n = 0 then (if m = 0 then .nan fNV else .inf (s != t) fDZ)
    else if m = 0 then .zero (s != t)
    else
      let p := quotient m n
      .val (s != t) p.1 (e - f + p.2)

/-- The integer square root, one bit at a time from bit b - 1 downward. -/
def isqrtFrom (n : Nat) : Nat → Nat → Nat
  | 0, r => r
  | b + 1, r => let c := r + 2 ^ b; if c * c ≤ n then isqrtFrom n b c else isqrtFrom n b r

/-- The square root of a positive magnitude m × 2^e. -/
def rootOf (m : Nat) (e : Int) : Nat × Int :=
  let e' := if e % 2 = 0 then e else e - 1
  let m' := if e % 2 = 0 then m else 2 * m
  let n := m' * 2 ^ 192
  let r := isqrtFrom n (Nat.log2 n / 2 + 1) 0
  (2 * r + (if r * r = n then 0 else 1), e' / 2 - 97)

/-- The square root (R171). -/
def fSqrt (a : FVal) : Exact :=
  match a with
  | .nan => .nan 0
  | .fin s 0 _ => .zero s
  | .inf false => .inf false 0
  | .inf true => .nan fNV
  | .fin true _ _ => .nan fNV
  | .fin false m e => let p := rootOf m e; .val false p.1 p.2

/-- 1 over the square root (R171). -/
def fRsq (a : FVal) : Exact :=
  match a with
  | .nan => .nan 0
  | .fin s 0 _ => .inf s fDZ
  | .inf false => .zero false
  | .inf true => .nan fNV
  | .fin true _ _ => .nan fNV
  | .fin false m e =>
    let e' := if e % 2 = 0 then e else e - 1
    let m' := if e % 2 = 0 then m else 2 * m
    let k := 2 * (Nat.log2 m' + 100)
    let n := 2 ^ k / m'
    let r := isqrtFrom n (Nat.log2 n / 2 + 1) 0
    .val false (2 * r + (if r * r * m' = 2 ^ k then 0 else 1)) (-(e' / 2) - (k / 2 : Nat) - 1)

/-- Fraction bits of the fixed-point series of 2^x and log2 x (log 13). -/
def seriesBits : Nat := 320

/-- ⌊ln 2 × 2^320⌋. -/
def ln2Fixed : Nat :=
  0xb17217f7d1cf79abc9e3b39803f2f6af40f343267298b62d8a0d175b8baafa2be7b876206debac98

/-- Σ y^k / k! from the k-th term on, in fixed point. -/
def expSum (y : Nat) : Nat → Nat → Nat → Nat
  | 0, _, term => term
  | n + 1, k, term => term + expSum y n (k + 1) (term * y / 2 ^ seriesBits / k)

/-- Σ z^(2k+1) / (2k+1) from the k-th term on, in fixed point. -/
def atanhSum (z2 : Nat) : Nat → Nat → Nat → Nat
  | 0, k, p => p / (2 * k + 1)
  | n + 1, k, p => p / (2 * k + 1) + atanhSum z2 n (k + 1) (p * z2 / 2 ^ seriesBits)

/-- 2^a (R171); exact for an integer, otherwise irrational. Beyond every format's range the exponent is held at ±4,096, which
rounds as the value itself does; the fraction stays (R49, R51). -/
def fExp2 (a : FVal) : Exact :=
  match a with
  | .nan => .nan 0
  | .inf true => .zero false
  | .inf false => .inf false 0
  | .fin s m e =>
    let far := decide (12 < e + Nat.log2 m ∧ m ≠ 0)
    let bounded := fun (n : Int) => if far then (if s then -4096 else 4096) else n
    if 0 ≤ e then .val false 1 (if far then bounded 0 else alignTo s m e 0)
    else
      let den := 2 ^ (-e).toNat
      let x : Int := if s then -(m : Int) else m
      if m % den = 0 then .val false 1 (bounded (x / den))
      else
        let n := bounded (x / den)
        let frac := (x % den).toNat * 2 ^ seriesBits / den
        let y := frac * ln2Fixed / 2 ^ seriesBits
        .val false (2 * expSum y 80 1 (2 ^ seriesBits) + 1) (n - seriesBits - 1)

/-- log2 a (R171); exact for a power of two, otherwise irrational. -/
def fLog2 (a : FVal) : Exact :=
  match a with
  | .nan => .nan 0
  | .fin _ 0 _ => .inf true fDZ
  | .inf false => .inf false 0
  | .inf true => .nan fNV
  | .fin true _ _ => .nan fNV
  | .fin false m e =>
    let l := Nat.log2 m
    let n : Int := e + l
    if m = 2 ^ l then exactOf n 0 false
    else
      let one := 2 ^ seriesBits
      let x := m * one / 2 ^ l
      let z := (x - one) * one / (x + one)
      let ln := 2 * atanhSum (z * z / one) 110 0 z
      let v : Int := n * (one : Int) + (ln * one / ln2Fixed : Nat)
      if 0 ≤ v then .val false (2 * v.toNat + 1) (-(seriesBits : Int) - 1)
      else .val true (2 * v.natAbs - 1) (-(seriesBits : Int) - 1)

/-- Numeric order of two values; none when either is a NaN. −0 and +0 are equal (R142, R143). -/
def fCompare (a b : FVal) : Option Ordering :=
  match a, b with
  | .nan, _ | _, .nan => none
  | .inf s, .inf t => some (if s = t then .eq else if s then .lt else .gt)
  | .inf s, _ => some (if s then .lt else .gt)
  | _, .inf t => some (if t then .gt else .lt)
  | .fin s m e, .fin t n f =>
    let q := min e f
    some (compare (alignTo s m e q) (alignTo t n f q))

/-- The value is negative, −0 included. -/
def FVal.sign : FVal → Bool
  | .fin s _ _ => s
  | .inf s => s
  | .nan => false

/-- a lies below b, with −0 below +0 (R142). -/
def fBelow (a b : FVal) : Bool :=
  match fCompare a b with
  | some .lt => true
  | some .eq => a.sign && !b.sign
  | _ => false

/-- The smaller (or the larger) operand; one NaN gives way to the other operand, two give the canonical NaN (R142, R170). -/
def fMinMax (t : Tag) (larger : Bool) (x y : Nat) : Nat × Flags :=
  let a := decodeF t x
  let b := decodeF t y
  let nf := flagIf (a.nonFinite || b.nonFinite) fNF
  match a, b with
  | .nan, .nan => (nanBits t, nf)
  | .nan, _ => (y, nf)
  | _, .nan => (x, nf)
  | _, _ => (if fBelow a b != larger then x else y, nf)

/-- NF for the inputs of an element (R56). -/
def nfOf (vs : List FVal) : Flags := flagIf (vs.any FVal.nonFinite) fNF

/-! ## Conversions (R53, R54, R55) -/

/-- Bounds of an integer type of w bits. -/
def intBounds (signed : Bool) (w : Nat) : Int × Int :=
  if signed then (-(2 ^ (w - 1) : Int), 2 ^ (w - 1) - 1) else (0, 2 ^ w - 1)

/-- A value converted to an integer of w bits (R53), with its bits and flags. -/
def toInteger (v : FVal) (signed : Bool) (w : Nat) (rm : BitVec 3) (sat : Bool) (r : Nat) : Nat × Flags :=
  let b := intBounds signed w
  match v with
  | .nan => (0, fNV ||| fNF)
  | .inf neg => (if sat then wrapOf w (if neg then b.1 else b.2) else 0, fNV ||| fNF)
  | .fin neg m e =>
    let (k, inexact, _) := choose neg m e 0 rm r
    let n : Int := if neg then -(k : Int) else k
    if b.1 ≤ n ∧ n ≤ b.2 then (wrapOf w n, flagIf inexact fNX)
    else (wrapOf w (if sat then (if n < b.1 then b.1 else b.2) else n), fNV)

/-- An integer converted to a floating-point format (R54). -/
def ofInteger (t : Tag) (n : Int) (rm : BitVec 3) (sat : Bool) (r : Nat) : Nat × Flags :=
  (exactOf n 0 false).deliver t rm sat r

/-- A value converted to a floating-point format (R55). -/
def toFloat (t : Tag) (v : FVal) (rm : BitVec 3) (sat : Bool) (r : Nat) : Nat × Flags :=
  let p := match v with
    | .nan => (Exact.nan 0).deliver t rm sat r
    | .inf neg => infBits t neg sat
    | .fin neg m e => (Exact.val neg m e).deliver t rm sat r
  (p.1, p.2 ||| nfOf [v])

/-- An integer narrowed or taken to an integer type of w bits (R42, R54). -/
def toRange (signed : Bool) (w : Nat) (sat : Bool) (n : Int) : Nat × Flags :=
  let b := intBounds signed w
  if b.1 ≤ n ∧ n ≤ b.2 then (wrapOf w n, 0)
  else if sat then (wrapOf w (if n < b.1 then b.1 else b.2), fOF)
  else (wrapOf w n, 0)

/-! ## Stochastic rounding (R50, R51) -/

/-- One step of a state word (R50). -/
def srStep (x : Half) : Half :=
  let a := x ^^^ (x <<< 13)
  let b := a ^^^ (a >>> 17)
  b ^^^ (b <<< 5)

/-- The 16-bit number of a state word after its step (R51). -/
def srNumber (x : Half) : Nat := (bits x 16 16).toNat

/-- A state word replaced by 1 when it would be 0 (R50). -/
def srNonZero (x : Half) : Half := if x = 0 then 1 else x

/-- The lane words a seed sets (R50). -/
def srLanes (z : Half) : Vector Half 64 :=
  Vector.ofFn (fun l => srNonZero (z ^^^ BitVec.ofNat 32 (l.val * 0x9E3779B9)))

/-- The scalar word a seed sets (R50). -/
def srScalar (z : Half) : Half := srNonZero (z ^^^ 0x8DDE6E40)

/-! ## Residue integers (R60 to R62) -/

/-- The range modulus M (R61). -/
def rtModulus : Nat := 1073740800
/-- The poison element (R61). -/
def rtPoison : Nat := 0x80000000

/-- The a, b and c channels (R60). -/
def rtChannels (x : Nat) : Nat × Nat × Nat := (x % 1024, x / 1024 % 1024, x / 1048576 % 2048)

/-- P = 1, or a channel that is not canonical (R60). -/
def rtBad (x : Nat) : Bool :=
  let c := rtChannels x
  x / 2147483648 % 2 == 1 || decide (1023 ≤ c.1) || decide (1025 ≤ c.2.2)

/-- An element of three channels. -/
def rtPack (a b c : Nat) : Nat := a + 1024 * b + 1048576 * c

/-- An integer encoded; one outside the range gives the poison element and sets RP (R61). -/
def rtEncode (x : Int) : Nat × Flags :=
  if -536870400 ≤ x ∧ x ≤ 536870399 then
    let y := (x % (rtModulus : Int)).toNat
    (rtPack (y % 1023) (y % 1024) (y % 1025), 0)
  else (rtPoison, fRP)

/-- The value of an element that is not poison (R62). -/
def rtValue (x : Nat) : Int :=
  let c := rtChannels x
  let y := (c.1 * 537395200 + c.2.1 * 1072692225 + c.2.2 * 537394176) % rtModulus
  if 536870400 ≤ y then (y : Int) - rtModulus else y

/-- A channel-wise operation (R61); a bad input gives the poison element and sets RP. -/
def rtOp (f : Nat → Nat → Nat → Nat) (x y : Nat) : Nat × Flags :=
  if rtBad x || rtBad y then (rtPoison, fRP)
  else
    let a := rtChannels x
    let b := rtChannels y
    (rtPack (f 1023 a.1 b.1) (f 1024 a.2.1 b.2.1) (f 1025 a.2.2 b.2.2), 0)

/-- Channel sum. -/
def rtAdd (m a b : Nat) : Nat := (a + b) % m
/-- Channel difference. -/
def rtSub (m a b : Nat) : Nat := (a + m - b) % m
/-- Channel product. -/
def rtMul (m a b : Nat) : Nat := a * b % m

end Sys2Proof.Machine
end

