-- ==== Sys2Proof/WellFormed.lean ====
section
/-!
DEFINITION. WellFormed.lean: which instructions the formats admit (R118, R121 to R132 and each entry's own fields).
`fieldError i` names the first rule of the formats that `i` breaks; an instruction is well formed when there is none.
What depends on register contents (lengths, group extents, tags, allocated tiles) is checked when it commits.
-/
namespace Sys2Proof

/-- Why a decoder rejects a word or a sequence of bytes. Each is the fate the formats name: 0x02 for
`prefixKind` and `prefixPayload`, 0x01 for the others; `truncated` is no fate, the bytes simply end. -/
inductive DecodeError where
  /-- fewer bytes than the instruction has (no rule: nothing was fetched) -/
  | truncated
  /-- an opcode the maps of R134 mark illegal -/
  | unassignedOpcode
  /-- a PF word of kind 10 or 11 (R130) -/
  | prefixKind
  /-- a MATTR whose payload R132 rejects by itself -/
  | prefixPayload
  /-- a reserved or unused field that is not zero (R118) -/
  | reservedField
  /-- scope 110 or 111 (R123, R127, R239) -/
  | scope
  /-- rm 111 (R121, R126, R128) -/
  | rounding
  /-- a neighbour code of 11, or on a source that admits none (R125, R126) -/
  | neighbour
  /-- m or mi where R126, R127 or R160 forbid it -/
  | mask
  /-- sc where R126, R160 or R128 forbid it -/
  | scaling
  /-- gate or w index where R127 or R192 forbid it -/
  | gate
  /-- ord or nov where R192 says zero -/
  | ordering
  /-- cache policy 100 to 111 (R127) -/
  | cachePolicy
  /-- a stream slot above 7 (R192) -/
  | streamSlot
  /-- a VAMO or VXLAT function code, an FCMP relation, an FCVT direction, a TLBINV kind or an SBSTAT selector that is not listed -/
  | function
  /-- an odd gd of AMOCAS (R123) -/
  | oddRegister
  /-- partition mode 11 (R167) -/
  | partitionMode
  /-- an accumulator field above 3 (R128) -/
  | accumulator
  /-- sparse where R128 or R226 forbid it -/
  | sparse
  /-- a starting row that is not a multiple of 4 (R230, R231) -/
  | startingRow
  /-- a target tag MCVT does not admit (R231) -/
  | targetTag
  /-- a run or group named past v31, or VBIND of v0 or v1 (R161, R189, R209) -/
  | registerGroup
  deriving DecidableEq, Repr, Inhabited

namespace WF

/-- The first named rule whose condition fails. -/
def firstFailing : List (Bool × DecodeError) → Option DecodeError
  | [] => none
  | (ok, e) :: rest => if ok then firstFailing rest else some e

/-- Use of the immediate by a compute-form instruction. -/
inductive ImmUse where
  /-- imm13 is reserved -/
  | none
  /-- broadcast form of R75, or zero -/
  | broadcast
  /-- the offset k of R181 -/
  | offset
  /-- a target tag in imm[3:0] (R177) -/
  | tag
  /-- VCFG: tag and count (R163) -/
  | config
  /-- VPART: a mode (R167) -/
  | mode
  deriving DecidableEq, Repr

/-- Which fields a compute-form instruction reads (R160 and its entry). -/
structure Uses where
  d : Bool := true
  a : Bool := true
  b : Bool := false
  c : Bool := false
  l : Bool := true
  /-- element-wise, op7 0x08 to 0x28: neighbour codes on its register sources -/
  elem : Bool := false
  /-- the mask is admitted -/
  mask : Bool := true
  imm : ImmUse := .none
  deriving DecidableEq, Repr

/-- The scalar form of a broadcast or of an offset: imm[12] = 1. -/
def scalarForm (f : VxC) : Bool := f.imm.getLsbD 12

/-- The immediate of a compute-form instruction is one its entry admits. -/
def immOk (f : VxC) : ImmUse → Bool
  | .none => f.imm == 0
  | .broadcast => if scalarForm f then f.imm.extractLsb' 5 7 == 0 else f.imm == 0
  | .offset => !scalarForm f || f.imm.extractLsb' 5 7 == 0
  | .tag => f.imm.extractLsb' 4 9 == 0
  | .config => f.imm.extractLsb' 9 4 == 0
  | .mode => f.imm.extractLsb' 2 11 == 0

/-- vb is read from a register: the entry names it and no broadcast replaces it. -/
def readsB (f : VxC) (u : Uses) : Bool := u.b && !(u.imm == .broadcast && scalarForm f)

/-- The checks of R125, R126, R160 and R161 that need nothing but the word. `scAdmitted` is VWIDEN's. -/
def vxc (f : VxC) (u : Uses) (scAdmitted : Bool := false) : Option DecodeError :=
  firstFailing
    [ (f.na != 3 && (f.na == 0 || (u.elem && u.a)), .neighbour),
      (f.nb != 3 && (f.nb == 0 || (u.elem && readsB f u)), .neighbour),
      (u.d || f.vd == 0, .reservedField), (u.a || f.va == 0, .reservedField),
      (readsB f u || f.vb == 0, .reservedField), (u.c || f.vc == 0, .reservedField),
      (u.l || f.gl == 0, .reservedField),
      (immOk f u.imm, .reservedField),
      ((u.mask || !f.m) && (f.m || !f.mi), .mask),
      (scAdmitted || !f.sc, .scaling),
      (f.rm != 7, .rounding) ]

/-- Which fields a memory-form instruction reads (R192). -/
structure MemUses where
  d : Bool := false
  a : Bool := false
  b : Bool := false
  c : Bool := false
  l : Bool := true
  stride : Bool := false
  base : Bool := true
  mask : Bool := true
  gate : Bool := false
  ord : Bool := true
  nov : Bool := true
  deriving DecidableEq, Repr

/-- The checks of R125, R127 and R192 that need nothing but the word. -/
def vxm (f : VxM) (u : MemUses) (extra : List (Bool × DecodeError) := []) : Option DecodeError :=
  firstFailing
    ([ (u.d || f.vd == 0, .reservedField), (u.a || f.va == 0, .reservedField),
      (u.b || f.vb == 0, .reservedField), (u.c || f.vc == 0, .reservedField),
      (u.l || f.gl == 0, .reservedField), (u.stride || f.gstride == 0, .reservedField),
      (u.base || f.gbase == 0, .reservedField),
      ((u.mask || !f.m) && (f.m || !f.mi), .mask),
      ((u.gate || !f.gate) && (f.gate || f.w == 0), .gate),
      ((u.ord || !f.ord) && (u.nov || !f.nov), .ordering),
      (f.scope.toNat < 6, .scope),
      (f.cache.toNat < 4, .cachePolicy) ] ++ extra)

/-- Which fields an MX instruction reads (R218 and its entry); `immMask` has a 1 at each immediate bit it reads. -/
structure MxUses where
  /-- [21:17] names a tile -/
  tile : Bool := false
  /-- [21:17] names a vector register -/
  d : Bool := false
  a : Bool := false
  /-- va names a tile -/
  aTile : Bool := false
  b : Bool := false
  l : Bool := false
  descA : Bool := false
  descB : Bool := false
  sc : Bool := false
  sparse : Bool := false
  immMask : BitVec 17 := 0
  deriving DecidableEq, Repr

/-- The checks of R128 and R218 that need nothing but the word. -/
def mx (f : MxF) (u : MxUses) (extra : List (Bool × DecodeError) := []) : Option DecodeError :=
  firstFailing
    ([ (u.tile || u.d || f.acc == 0, .reservedField), (u.a || u.aTile || f.va == 0, .reservedField),
      (u.b || f.vb == 0, .reservedField), (u.l || f.gl == 0, .reservedField),
      (u.descA || f.gdescA == 0, .reservedField), (u.descB || f.gdescB == 0, .reservedField),
      (u.sc || !f.sc, .reservedField),
      (!u.tile || f.acc.toNat < 4, .accumulator), (!u.aTile || f.va.toNat < 4, .accumulator),
      (f.imm &&& ~~~u.immMask == 0, .reservedField),
      (f.sparse == u.sparse, .sparse),
      (f.rm != 7, .rounding) ] ++ extra)

/-- What a YS instruction's fn7 holds (R239, R321). -/
inductive Fn7Use where
  | none
  | scope
  | selector
  | tlbKind
  deriving DecidableEq, Repr

/-- What a YS instruction's imm32 holds. -/
inductive YsImm where
  | none
  | whole
  /-- a control-register number in [11:0] (R129) -/
  | crNumber
  deriving DecidableEq, Repr

/-- Which fields a YS instruction reads (R239). -/
structure YsUses where
  d : Bool := false
  /-- gd holds a watermark number in [19:17] -/
  wm : Bool := false
  a : Bool := false
  b : Bool := false
  fn : Fn7Use := .none
  imm : YsImm := .none
  deriving DecidableEq, Repr

/-- The checks of R129 and R239 that need nothing but the word. -/
def ys (f : YsF) (u : YsUses) : Option DecodeError :=
  firstFailing
    [ (u.d || (u.wm && f.gd.toNat < 8) || f.gd == 0, .reservedField),
      (u.a || f.ga == 0, .reservedField), (u.b || f.gb == 0, .reservedField),
      (match u.fn with
        | .none => f.fn7 == 0
        | .scope => f.fn7.extractLsb' 3 4 == 0
        | .selector => f.fn7.extractLsb' 2 5 == 0
        | .tlbKind => true, .reservedField),
      (match u.fn with
        | .scope => f.fn7.toNat < 6
        | _ => true, .scope),
      (match u.fn with
        | .selector => f.fn7.toNat < 2
        | .tlbKind => 1 ≤ f.fn7.toNat && f.fn7.toNat ≤ 3
        | _ => true, .function),
      (match u.imm with
        | .none => f.imm == 0
        | .whole => true
        | .crNumber => f.imm.extractLsb' 12 20 == 0, .reservedField) ]

/-- Two vector sources, broadcast admitted. -/
def two : Uses := { b := true, elem := true, imm := .broadcast }
/-- Three vector sources, broadcast admitted in place of vb. -/
def three : Uses := { b := true, c := true, elem := true, imm := .broadcast }
/-- One vector source, element-wise. -/
def one : Uses := { elem := true }
/-- A reduction or mask scan into a scalar register. -/
def reduce : Uses := {}

/-- The tags MCVT and MSTORE admit (R229), from an RT32 source or an FP32 source. -/
def convertTarget (rt : Bool) (tag : Nat) : Bool :=
  if rt then tag == 15 || tag == 3 || tag == 14 || tag == 12 || tag == 13
  else tag == 14 || tag == 12 || tag == 13 || tag == 11 || tag == 10 || tag == 3 || tag == 2 || tag == 1

end WF

open WF in
/-- The first rule of the formats an instruction breaks, if any. A step that has no encoding breaks none. DESIGN CHOICE: rm and sat
of VPART and VJOIN may hold anything their fields admit (R167, log 107). -/
def fieldError : Instr → Option DecodeError
  | .fadd _ _ _ rm | .fsub _ _ _ rm | .fmul _ _ _ rm | .fmin _ _ _ rm | .fmax _ _ _ rm
  | .fma _ _ _ _ rm => firstFailing [(rm != 7, .rounding)]
  | .fcmp _ _ _ rel => firstFailing [(rel != 3, .function)]
  | .fcvt _ _ _ dir rm => firstFailing [(rm != 7, .rounding), (dir.toNat < 8, .function)]
  | .lda _ _ scope _ | .stl _ _ scope _ | .fence scope _ => firstFailing [(scope.toNat < 6, .scope)]
  | .amoswap _ _ scope _ _ | .amoadd _ _ scope _ _ | .amoand _ _ scope _ _ | .amoor _ _ scope _ _
  | .amoxor _ _ scope _ _ | .amomin _ _ scope _ _ | .amomax _ _ scope _ _ =>
      firstFailing [(scope.toNat < 6, .scope)]
  | .amocas d _ scope _ => firstFailing [(scope.toNat < 6, .scope), (!d.getLsbD 0, .oddRegister)]
  | .mattr scope cache order =>
      firstFailing [(scope != 6, .prefixPayload),
        (cache.toNat < 4 || cache == 7, .prefixPayload), (order.toNat < 4 || order == 7, .prefixPayload)]
  | .vcfg f => (vxc f { a := false, l := false, mask := false, imm := .config }).or
      (firstFailing [(f.vd.toNat + (f.imm.extractLsb' 4 5).toNat ≤ 31, .registerGroup)])
  | .vsetl f => vxc f { b := true, l := false, mask := false }
  | .vsetrc f => vxc f { b := true, c := true, l := false, mask := false }
  | .vpart f => (vxc f { d := false, a := false, l := false, mask := false, imm := .mode }).or
      (firstFailing [(f.imm.extractLsb' 0 2 != 3, .partitionMode)])
  | .vjoin f => vxc f { d := false, a := false, l := false, mask := false }
  | .vadd f | .vsub f | .vmul f | .vmulh f | .vdiv f | .vmin f | .vmax f
  | .vand f | .vor f | .vxor f | .vshl f | .vshr f | .vsra f
  | .vcmpeq f | .vcmpne f | .vcmplt f | .vcmple f => vxc f two
  | .vfma f | .vfms f | .vfnma f => vxc f three
  | .vsqrt f | .vrcp f | .vrsq f | .vexp2 f | .vlog2 f | .vabs f | .vneg f | .vnot f | .vclass f => vxc f one
  | .vsel f => vxc f { two with mask := false }
  | .vcvt f => vxc f { elem := true, imm := .tag }
  | .vnarrow f => vxc f { imm := .tag }
  | .vwiden f => vxc f { imm := .tag } true
  | .vq4 f => vxc f {}
  | .vslideup f | .vslidedn f | .vbcast f => vxc f { imm := .offset }
  | .vperm f => vxc f { b := true }
  | .vmvs f => vxc f {}
  | .vget f => vxc f { l := false, mask := false, imm := .offset }
  | .vredsum f | .vredmax f | .vredmin f | .vredand f | .vredor f | .vfirst f | .vpopm f => vxc f reduce
  | .vscan f | .vexpand f => vxc f {}
  | .vcompress f => vxc f { c := true }
  | .viota f => vxc f { a := false }
  | .vtrans8 f => (vxc f { a := false, mask := false }).or (firstFailing [(f.vd.toNat ≤ 24, .registerGroup)])
  | .vld f | .vldff f => vxm f { d := true, gate := true }
  | .vlds f => vxm f { d := true, stride := true, gate := true }
  | .vldx f => vxm f { d := true, b := true, gate := true }
  | .vld2d f => vxm f { d := true, stride := true, gate := true }
  | .vst f => vxm f { c := true }
  | .vsts f => vxm f { c := true, stride := true }
  | .vstx f => vxm f { c := true, b := true }
  | .vst2d f => vxm f { c := true, stride := true }
  | .vamo f => vxm f { d := true, b := true, c := true, stride := true } [(f.gstride.toNat < 8, .function)]
  | .vxlat f => vxm f { d := true, a := true, c := true, stride := true, ord := false }
      [(f.gstride.toNat < 2, .function)]
  | .vpref f => vxm f { stride := true, mask := false, ord := false, nov := false }
  | .kvapp f => vxm f { c := true, ord := false }
  | .vbind f => vxm f { d := true, a := true, l := false, mask := false, ord := false, nov := false }
      [(f.va.toNat < 8, .streamSlot), (1 < f.vd.toNat, .registerGroup)]
  | .vunbind f => vxm f { a := true, l := false, base := false, mask := false, ord := false, nov := false }
      [(f.va.toNat < 8, .streamSlot)]
  | .sfeed f => vxm f { a := true, mask := false, ord := false, nov := false } [(f.va.toNat < 8, .streamSlot)]
  | .mzero f => mx f { tile := true }
  | .mma f => mx f { tile := true, l := true, descA := true, descB := true, sc := true }
  | .mmav f => mx f { tile := true, a := true, l := true, descB := true, sc := true, immMask := 0x7F }
  | .mmas f => mx f { tile := true, a := true, b := true, l := true, descB := true, sc := true, sparse := true,
                      immMask := 0x7F }
  | .mloadc f => mx f { tile := true, descA := true }
  | .mstore f => mx f { tile := true, descA := true, sc := true, immMask := 0x3 }
  | .mreadv f => mx f { d := true, aTile := true, l := true, immMask := 0x7F }
      [(f.imm.extractLsb' 0 2 == 0, .startingRow)]
  | .mwritev f => mx f { tile := true, a := true, l := true, immMask := 0x7F }
      [(f.imm.extractLsb' 0 2 == 0, .startingRow)]
  | .mcvt f => mx f { d := true, aTile := true, l := true, sc := true, immMask := 0x1FFF }
      [(f.imm.extractLsb' 0 2 == 0, .startingRow),
       (convertTarget (f.imm.getLsbD 11) (f.imm.extractLsb' 7 4).toNat, .targetTag)]
  | .tload f => mx f { descA := true }
  | .teval f => mx f { d := true, a := true, l := true, immMask := 0xFFFF }
  | .tleaf f => mx f { d := true, a := true, l := true, descA := true, immMask := 0xFF00 }
  | .tclr f => mx f {}
  | .kend f | .splpt f | .canpt f | .sbleave f | .svfence f | .trapret f => ys f {}
  | .wmpub f => ys f { wm := true, a := true, fn := .scope }
  | .wmwait f => ys f { wm := true, a := true, fn := .scope, imm := .whole }
  | .barrive f | .depdec f => ys f { d := true, a := true, fn := .scope }
  | .barwait f | .depinit f => ys f { a := true, b := true, fn := .scope }
  | .tspawn f => ys f { d := true, a := true, b := true }
  | .sbpost f | .wsinfo f => ys f { d := true, a := true }
  | .sbstat f => ys f { d := true, fn := .selector }
  | .cpy f | .pub f | .cred f | .upd f | .rinv f | .kvfile f | .rqnt f => ys f { a := true, b := true, fn := .scope }
  | .syscall f | .brk f => ys f { imm := .whole }
  | .crrd f => ys f { d := true, imm := .crNumber }
  | .crwr f => ys f { a := true, imm := .crNumber }
  | .vfsave f => ys f { d := true, a := true }
  | .vfload f => ys f { a := true }
  | .tlbinv f => ys f { d := true, a := true, b := true, fn := .tlbKind }
  | .wfe f => ys f { d := true, imm := .whole }
  | .or _ _ _ | .add _ _ _ | .sub _ _ _ | .mul _ _ _ | .mulh _ _ _ | .mulhu _ _ _ | .div _ _ _ | .divu _ _ _ | .rem _ _ _
  | .remu _ _ _ | .min _ _ _ | .max _ _ _ | .minu _ _ _ | .maxu _ _ _ | .and _ _ _ | .xor _ _ _ | .andn _ _ _
  | .shl _ _ _ | .shr _ _ _ | .sra _ _ _ | .rol _ _ _ | .slt _ _ _ | .sltu _ _ _ | .clz _ _ | .ctz _ _
  | .popc _ _ | .addi _ _ _ | .andi _ _ _ | .ori _ _ _ | .xori _ _ _ | .shli _ _ _ | .shri _ _ _ | .srai _ _ _
  | .slti _ _ _ | .sltui _ _ _ | .lui _ _ | .auipc _ _ | .bfx _ _ _ _ | .bfxu _ _ _ _ | .bfi _ _ _ _
  | .ldb _ _ _ | .ldh _ _ _ | .ldw _ _ _ | .ldd _ _ _ | .ldbu _ _ _ | .ldhu _ _ _ | .ldwu _ _ _ | .stb _ _ _
  | .sth _ _ _ | .stw _ _ _ | .std _ _ _ | .beq _ _ _ | .bne _ _ _ | .blt _ _ _ | .bge _ _ _ | .bltu _ _ _
  | .bgeu _ _ _ | .bq _ _ | .bsend _ _ | .j _ | .jal _ _ | .jalr _ _ _ | .qpush _ _ | .qpop _ _ | .imx _
  | .xflagsRead _ | .xflagsWrite _ | .xseedWrite _ | .vstartAccess _ _ | .asidWrite _ | .ptrootWrite _
  | .yield _ | .vqEntryStart | .matrixQueueMove | .matrixQueueStart | .repartitionEffect
  | .syncReadArrival | .queueWaitEnd | .streamChunkArrival | .streamPatternRead
  | .watermarkWake | .watermarkTimeout | .barwaitWake | .spliceGateProceed | .spliceRegionFree
  | .wfeTimeout | .engineComplete _ | .engineErrorDelivery | .kendRetire | .impreciseTrap
  | .preemptRequest _ _ | .cancelLimitStop | .strandResume _ _ _ | .strandStart | .pageWalkFill _
  | .priResponse _ _ | .priTimeout _ | .atsCompletion _ _ _ _ _ | .atsInvalidation _ _ _ _ | .notifyWrite _ _
  | .scannerFind | .queueFetch | .nop _ _ | .launch _ _ | .siblaunch _ _ | .barrier _ _ | .waitval _ _
  | .waitvalPoll _ _ | .wsload _ _ | .wsrel _ _ | .depgraph _ _ | .spliceDecision _ _ | .dispatch _ _ _ _
  | .launchComplete _ | .coreHeartbeatTimeout | .wsRefreshStart | .wsRefreshEnd | .createq
  | .destroyq | .bindas | .unbindas | .partcfg | .retirecl | .keyinstall | .fwload | .reccfg
  | .replay | .hostApertureAccess _ _ _ | .spdmGetMeasurements | .spdmChallenge _ _ | .spdmKeyExchange _ _
  | .ideIntegrityFailure _ | .hostLinkDrop | .flitCrcFail | .moduleUnreachable _ | .uncorrectableError _
  | .hbmRowRepair _ | .wsBankSpare _ _ | .linkRetrain | .powerCap _ | .thermalTrip _ | .bringUp
  | .vqEntryComplete | .matrixQueueComplete | .remoteModuleAccess _ _ _ | .unassignedEncoding _
  | .invalidMailboxCommand => none

/-- A CRRD or CRWR written in its general form although its register has a row of its own in the opcode table
(XFLAGS, XSEED, VSTART, ASID, PTROOT, PREEMPT): the row's constructor is the one to use. -/
def shadowedByOwnRow : Instr → Bool
  | .crrd f => f.imm == 0x010 || f.imm == 0x014
  | .crwr f => f.imm == 0x010 || f.imm == 0x014 || f.imm == 0x016 || f.imm == 0x110 || f.imm == 0x111 || f.imm == 0x121
  | _ => false

/-- An instruction the formats admit, written with its own constructor. -/
abbrev WellFormed (i : Instr) : Prop := fieldError i = none ∧ shadowedByOwnRow i = false

end Sys2Proof
end

