-- ==== Sys2Proof/Decode.lean ====
section
/-!
DEFINITION. Decode.lean: the decoder and the encoder, from the layouts of R121 to R132 and the opcode maps of R134.
The decoder is total on any bytes. It answers an instruction, or the name of the rule the word breaks; what the
machine does with a rejected word is UNASSIGNED_ENCODING's meaning.
-/
namespace Sys2Proof

/-- `i` if `ok`, else a reserved field is not zero (R118). -/
def reserved (ok : Bool) (i : Instr) : Except DecodeError Instr :=
  if ok then .ok i else .error .reservedField

/-- The class of a first word, bits [31:29] (R117). -/
def classOf (w : BitVec 32) : BitVec 3 := bits w 29 3

/-- How many words an instruction with this first word has (R117). -/
def wordCount (w : BitVec 32) : Nat :=
  match (classOf w).toNat with
  | 4 | 5 | 6 => 2
  | _ => 1

/-- Class SR (R121, R134). -/
def parseSR (w : BitVec 32) : Except DecodeError Instr :=
  let d : Reg := bits w 18 5
  let a : Reg := bits w 13 5
  let b : Reg := bits w 8 5
  let rm : BitVec 3 := bits w 0 3
  let z : Bool := bits w 0 8 == 0
  let zb : Bool := bits w 0 13 == 0
  let zf : Bool := bits w 3 5 == 0
  match (bits w 23 6).toNat with
  | 0x00 => reserved z (.add d a b)
  | 0x01 => reserved z (.sub d a b)
  | 0x02 => reserved z (.mul d a b)
  | 0x03 => reserved z (.mulh d a b)
  | 0x04 => reserved z (.mulhu d a b)
  | 0x05 => reserved z (.div d a b)
  | 0x06 => reserved z (.divu d a b)
  | 0x07 => reserved z (.rem d a b)
  | 0x08 => reserved z (.remu d a b)
  | 0x09 => reserved z (.min d a b)
  | 0x0A => reserved z (.max d a b)
  | 0x0B => reserved z (.minu d a b)
  | 0x0C => reserved z (.maxu d a b)
  | 0x0D => reserved z (.and d a b)
  | 0x0E => reserved z (.or d a b)
  | 0x0F => reserved z (.xor d a b)
  | 0x10 => reserved z (.andn d a b)
  | 0x11 => reserved z (.shl d a b)
  | 0x12 => reserved z (.shr d a b)
  | 0x13 => reserved z (.sra d a b)
  | 0x14 => reserved z (.rol d a b)
  | 0x15 => reserved z (.slt d a b)
  | 0x16 => reserved z (.sltu d a b)
  | 0x17 => reserved zb (.clz d a)
  | 0x18 => reserved zb (.ctz d a)
  | 0x19 => reserved zb (.popc d a)
  | 0x20 => reserved zf (.fadd d a b rm)
  | 0x21 => reserved zf (.fsub d a b rm)
  | 0x22 => reserved zf (.fmul d a b rm)
  | 0x24 => reserved zf (.fmin d a b rm)
  | 0x25 => reserved zf (.fmax d a b rm)
  | 0x23 => .ok (.fma d a b (bits w 0 5) (bits w 5 3))
  | 0x26 => reserved (bits w 2 6 == 0) (.fcmp d a b (bits w 0 2))
  | 0x27 => reserved (b == 0) (.fcvt d a (bit w 7) (bits w 3 4) rm)
  | _ => .error .unassignedOpcode

/-- Class SI (R122, R134). -/
def parseSI (w : BitVec 32) : Except DecodeError Instr :=
  let d : Reg := bits w 18 5
  let a : Reg := bits w 13 5
  let i13 : BitVec 13 := bits w 0 13
  let i18 : BitVec 18 := bits w 0 18
  let amount : BitVec 6 := bits w 0 6
  let width : BitVec 7 := bits w 6 7
  let z : Bool := width == 0
  match (bits w 23 6).toNat with
  | 0x00 => .ok (.addi d a i13)
  | 0x01 => .ok (.andi d a i13)
  | 0x02 => .ok (.ori d a i13)
  | 0x03 => .ok (.xori d a i13)
  | 0x07 => .ok (.slti d a i13)
  | 0x08 => .ok (.sltui d a i13)
  | 0x04 => reserved z (.shli d a amount)
  | 0x05 => reserved z (.shri d a amount)
  | 0x06 => reserved z (.srai d a amount)
  | 0x09 => .ok (.lui d i18)
  | 0x0A => .ok (.auipc d i18)
  | 0x0B => .ok (.bfx d a width amount)
  | 0x0C => .ok (.bfxu d a width amount)
  | 0x0D => .ok (.bfi d a width amount)
  | _ => .error .unassignedOpcode

/-- Class SM (R123, R111, R134). -/
def parseSM (w : BitVec 32) : Except DecodeError Instr :=
  let d : Reg := bits w 18 5
  let a : Reg := bits w 13 5
  let off : BitVec 13 := bits w 0 13
  let scope : BitVec 3 := bits w 10 3
  let order : BitVec 2 := bits w 8 2
  let s : Reg := bits w 0 5
  let z : Bool := bits w 5 3 == 0
  match (bits w 23 6).toNat with
  | 0x00 => .ok (.ldb d a off)
  | 0x01 => .ok (.ldh d a off)
  | 0x02 => .ok (.ldw d a off)
  | 0x03 => .ok (.ldd d a off)
  | 0x04 => .ok (.ldbu d a off)
  | 0x05 => .ok (.ldhu d a off)
  | 0x06 => .ok (.ldwu d a off)
  | 0x08 => .ok (.stb d a off)
  | 0x09 => .ok (.sth d a off)
  | 0x0A => .ok (.stw d a off)
  | 0x0B => .ok (.std d a off)
  | 0x0C => .ok (.lda d a scope (bits w 0 10))
  | 0x0D => .ok (.stl d a scope (bits w 0 10))
  | 0x10 => reserved z (.amoswap d a scope order s)
  | 0x11 => reserved z (.amoadd d a scope order s)
  | 0x12 => reserved z (.amoand d a scope order s)
  | 0x13 => reserved z (.amoor d a scope order s)
  | 0x14 => reserved z (.amoxor d a scope order s)
  | 0x15 => reserved z (.amomin d a scope order s)
  | 0x16 => reserved z (.amomax d a scope order s)
  | 0x17 => reserved (bits w 0 8 == 0) (.amocas d a scope order)
  | 0x18 => reserved (d == 0 && a == 0 && bits w 6 4 == 0) (.fence scope (bits w 0 6))
  | _ => .error .unassignedOpcode

/-- Class SB (R124, R134). -/
def parseSB (w : BitVec 32) : Except DecodeError Instr :=
  let a : Reg := bits w 18 5
  let b : Reg := bits w 13 5
  let off : BitVec 13 := bits w 0 13
  match (bits w 23 6).toNat with
  | 0x00 => .ok (.beq a b off)
  | 0x01 => .ok (.bne a b off)
  | 0x02 => .ok (.blt a b off)
  | 0x03 => .ok (.bge a b off)
  | 0x04 => .ok (.bltu a b off)
  | 0x05 => .ok (.bgeu a b off)
  | 0x06 => reserved (bits w 20 3 == 0 && b == 0) (.bq (bits w 18 2) off)
  | 0x07 => reserved (bits w 21 2 == 0 && b == 0) (.bsend (bits w 18 3) off)
  | 0x08 => .ok (.j (bits w 0 23))
  | 0x09 => .ok (.jal a (bits w 0 18))
  | 0x0A => .ok (.jalr a b off)
  | 0x0B => reserved (bits w 15 3 == 0 && off == 0) (.qpush a (bits w 13 2))
  | 0x0C => reserved (bits w 0 16 == 0) (.qpop a (bits w 16 2))
  | _ => .error .unassignedOpcode

/-- Class PF (R130 to R132). -/
def parsePF (w : BitVec 32) : Except DecodeError Instr :=
  match (bits w 27 2).toNat with
  | 0 => .ok (.imx (bits w 0 27))
  | 1 => if bits w 0 18 == 0 then .ok (.mattr (bits w 24 3) (bits w 21 3) (bits w 18 3))
         else .error .prefixPayload
  | _ => .error .prefixKind

/-- The fields of the compute form (R125, R126). -/
def vxcFields (w0 w1 : BitVec 32) : VxC :=
  { vd := bits w0 17 5, va := bits w0 12 5, vb := bits w0 7 5, gl := bits w0 2 5, na := bits w0 0 2,
    vc := bits w1 27 5, nb := bits w1 25 2, m := bit w1 24, mi := bit w1 23, sc := bit w1 22,
    rm := bits w1 19 3, sat := bit w1 18, imm := bits w1 0 13 }

/-- The fields of the memory form (R125, R127). -/
def vxmFields (w0 w1 : BitVec 32) : VxM :=
  { vd := bits w0 17 5, va := bits w0 12 5, vb := bits w0 7 5, gl := bits w0 2 5,
    vc := bits w1 27 5, m := bit w1 24, mi := bit w1 23, gate := bit w1 22, w := bits w1 19 3,
    ord := bit w1 17, nov := bit w1 16, scope := bits w1 13 3, cache := bits w1 10 3,
    gstride := bits w1 5 5, gbase := bits w1 0 5 }

/-- The fields of an MX instruction (R128). -/
def mxFields (w0 w1 : BitVec 32) : MxF :=
  { acc := bits w0 17 5, va := bits w0 12 5, vb := bits w0 7 5, gl := bits w0 2 5,
    gdescA := bits w1 27 5, gdescB := bits w1 22 5, rm := bits w1 19 3, sc := bit w1 18,
    sparse := bit w1 17, imm := bits w1 0 17 }

/-- The fields of a YS instruction (R129). -/
def ysFields (w0 w1 : BitVec 32) : YsF :=
  { gd := bits w0 17 5, ga := bits w0 12 5, gb := bits w0 7 5, fn7 := bits w0 0 7, imm := w1 }

/-- The compute-form instruction of an op7 (R134). -/
def vxcOf (op : Nat) (f : VxC) : Option Instr :=
  match op with
  | 0x00 => some (.vcfg f)
  | 0x01 => some (.vsetl f)
  | 0x02 => some (.vsetrc f)
  | 0x03 => some (.vpart f)
  | 0x04 => some (.vjoin f)
  | 0x08 => some (.vadd f)
  | 0x09 => some (.vsub f)
  | 0x0A => some (.vmul f)
  | 0x0B => some (.vmulh f)
  | 0x0C => some (.vfma f)
  | 0x0D => some (.vfms f)
  | 0x0E => some (.vfnma f)
  | 0x0F => some (.vdiv f)
  | 0x10 => some (.vsqrt f)
  | 0x11 => some (.vrcp f)
  | 0x12 => some (.vrsq f)
  | 0x13 => some (.vexp2 f)
  | 0x14 => some (.vlog2 f)
  | 0x15 => some (.vmin f)
  | 0x16 => some (.vmax f)
  | 0x17 => some (.vabs f)
  | 0x18 => some (.vneg f)
  | 0x19 => some (.vand f)
  | 0x1A => some (.vor f)
  | 0x1B => some (.vxor f)
  | 0x1C => some (.vnot f)
  | 0x1D => some (.vshl f)
  | 0x1E => some (.vshr f)
  | 0x1F => some (.vsra f)
  | 0x20 => some (.vcmpeq f)
  | 0x21 => some (.vcmpne f)
  | 0x22 => some (.vcmplt f)
  | 0x23 => some (.vcmple f)
  | 0x24 => some (.vsel f)
  | 0x25 => some (.vclass f)
  | 0x28 => some (.vcvt f)
  | 0x29 => some (.vnarrow f)
  | 0x2A => some (.vwiden f)
  | 0x2B => some (.vq4 f)
  | 0x30 => some (.vslideup f)
  | 0x31 => some (.vslidedn f)
  | 0x32 => some (.vperm f)
  | 0x33 => some (.vbcast f)
  | 0x34 => some (.vmvs f)
  | 0x35 => some (.vget f)
  | 0x36 => some (.vredsum f)
  | 0x37 => some (.vredmax f)
  | 0x38 => some (.vredmin f)
  | 0x39 => some (.vredand f)
  | 0x3A => some (.vredor f)
  | 0x3B => some (.vscan f)
  | 0x3C => some (.vcompress f)
  | 0x3D => some (.vexpand f)
  | 0x3E => some (.viota f)
  | 0x3F => some (.vtrans8 f)
  | 0x40 => some (.vfirst f)
  | 0x41 => some (.vpopm f)
  | _ => none

/-- The memory-form instruction of an op7 (R134). -/
def vxmOf (op : Nat) (f : VxM) : Option Instr :=
  match op with
  | 0x48 => some (.vld f)
  | 0x49 => some (.vlds f)
  | 0x4A => some (.vldx f)
  | 0x4B => some (.vldff f)
  | 0x4C => some (.vld2d f)
  | 0x50 => some (.vst f)
  | 0x51 => some (.vsts f)
  | 0x52 => some (.vstx f)
  | 0x53 => some (.vst2d f)
  | 0x54 => some (.vamo f)
  | 0x55 => some (.vxlat f)
  | 0x56 => some (.vpref f)
  | 0x57 => some (.kvapp f)
  | 0x58 => some (.vbind f)
  | 0x59 => some (.vunbind f)
  | 0x5A => some (.sfeed f)
  | _ => none

/-- The MX instruction of an op7 (R134). -/
def mxOf (op : Nat) (f : MxF) : Option Instr :=
  match op with
  | 0x00 => some (.mzero f)
  | 0x01 => some (.mma f)
  | 0x02 => some (.mmav f)
  | 0x03 => some (.mmas f)
  | 0x04 => some (.mloadc f)
  | 0x05 => some (.mstore f)
  | 0x06 => some (.mreadv f)
  | 0x07 => some (.mwritev f)
  | 0x08 => some (.mcvt f)
  | 0x10 => some (.tload f)
  | 0x11 => some (.teval f)
  | 0x12 => some (.tleaf f)
  | 0x13 => some (.tclr f)
  | _ => none

/-- The YS instruction of an op7 (R134). -/
def ysOf (op : Nat) (f : YsF) : Option Instr :=
  match op with
  | 0x00 => some (.kend f)
  | 0x01 => some (.splpt f)
  | 0x02 => some (.canpt f)
  | 0x03 => some (.wmpub f)
  | 0x04 => some (.wmwait f)
  | 0x05 => some (.barrive f)
  | 0x06 => some (.barwait f)
  | 0x07 => some (.depinit f)
  | 0x08 => some (.depdec f)
  | 0x09 => some (.tspawn f)
  | 0x0A => some (.sbpost f)
  | 0x0B => some (.sbstat f)
  | 0x0C => some (.sbleave f)
  | 0x10 => some (.cpy f)
  | 0x11 => some (.pub f)
  | 0x12 => some (.cred f)
  | 0x13 => some (.upd f)
  | 0x14 => some (.rinv f)
  | 0x15 => some (.kvfile f)
  | 0x16 => some (.rqnt f)
  | 0x18 => some (.wsinfo f)
  | 0x1C => some (.syscall f)
  | 0x1D => some (.brk f)
  | 0x1F => some (.svfence f)
  | 0x40 => some (.crrd f)
  | 0x41 => some (.crwr f)
  | 0x42 => some (.trapret f)
  | 0x43 => some (.vfsave f)
  | 0x44 => some (.vfload f)
  | 0x45 => some (.tlbinv f)
  | 0x46 => some (.wfe f)
  | _ => none

/-- A CRRD or CRWR whose register has a row of its own in the opcode table becomes that row's instruction. -/
def ownRow : Instr → Instr
  | .crrd f =>
    if f.imm == 0x010 then .vstartAccess false f.gd
    else if f.imm == 0x014 then .xflagsRead f.gd
    else .crrd f
  | .crwr f =>
    if f.imm == 0x010 then .vstartAccess true f.ga
    else if f.imm == 0x014 then .xflagsWrite f.ga
    else if f.imm == 0x016 then .xseedWrite f.ga
    else if f.imm == 0x110 then .asidWrite f.ga
    else if f.imm == 0x111 then .ptrootWrite f.ga
    else if f.imm == 0x121 then .yield f.ga
    else .crwr f
  | i => i

/-- The instruction that a first word and the word after it name, before the checks of WellFormed. The second word
is looked at only where the class has one (R117). -/
def parse (w0 w1 : BitVec 32) : Except DecodeError Instr :=
  let op7 := (bits w0 22 7).toNat
  match (classOf w0).toNat with
  | 0 => parseSR w0
  | 1 => parseSI w0
  | 2 => parseSM w0
  | 3 => parseSB w0
  | 4 =>
    if bits w0 0 2 == 3 then .error .neighbour
    else if 0x48 ≤ op7 ∧ op7 ≤ 0x5A then
      match vxmOf op7 (vxmFields w0 w1) with
      | none => .error .unassignedOpcode
      | some i =>
        if bits w0 0 2 != 0 then .error .neighbour
        else reserved (bits w1 25 2 == 0 && !bit w1 18) i
    else
      match vxcOf op7 (vxcFields w0 w1) with
      | none => .error .unassignedOpcode
      | some i => reserved (bits w1 13 5 == 0) i
  | 5 =>
    match mxOf op7 (mxFields w0 w1) with
    | none => .error .unassignedOpcode
    | some i => reserved (bits w0 0 2 == 0) i
  | 6 =>
    match ysOf op7 (ysFields w0 w1) with
    | none => .error .unassignedOpcode
    | some i => .ok i
  | _ => parsePF w0

/-- The instruction two words hold, or the name of what is wrong with them. -/
def decodeWords (w0 w1 : BitVec 32) : Except DecodeError Instr :=
  match parse w0 w1 with
  | .error e => .error e
  | .ok i =>
    match fieldError i with
    | some e => .error e
    | none => .ok (ownRow i)

/-- Little-endian words of four bytes (R2). -/
def word32 (b0 b1 b2 b3 : Byte) : BitVec 32 := b3 ++ b2 ++ b1 ++ b0

/-- Decoding a string of bytes: the instruction and the bytes after it. -/
def decodeBytes : List Byte → Except DecodeError (Instr × List Byte)
  | b0 :: b1 :: b2 :: b3 :: rest =>
    let w0 := word32 b0 b1 b2 b3
    if wordCount w0 = 1 then
      match decodeWords w0 0 with
      | .ok i => .ok (i, rest)
      | .error e => .error e
    else
      match rest with
      | c0 :: c1 :: c2 :: c3 :: rest' =>
        match decodeWords w0 (word32 c0 c1 c2 c3) with
        | .ok i => .ok (i, rest')
        | .error e => .error e
      | _ => .error .truncated
  | _ => .error .truncated

/-- The instruction the decoder reads from an instruction whose bits, numbered as spec/opcode_table.json numbers
them, are w. The table's rows have one word or two; the words are laid out as R2 and R117 say. -/
def decodeTableWord (_nbits w : Nat) : Option Instr :=
  match decodeBytes (leBytes 8 w) with
  | .ok (i, _) => some i
  | .error _ => none

/-! ## The encoder -/

/-- A scalar word: class, op6 and the 23 bits below. -/
def scalarWord (cls : BitVec 3) (op : BitVec 6) (low : BitVec 23) : BitVec 32 := cls ++ op ++ low

/-- An SR word (R121). -/
def srWord (op : BitVec 6) (d a b : Reg) (fn8 : BitVec 8) : List (BitVec 32) :=
  [scalarWord 0 op (d ++ a ++ b ++ fn8)]

/-- An SI, SM or SB word with two register fields (R122 to R124). -/
def dai (cls : BitVec 3) (op : BitVec 6) (d a : Reg) (low : BitVec 13) : List (BitVec 32) :=
  [scalarWord cls op (d ++ a ++ low)]

/-- An atomic's word (R123). -/
def amoWord (op : BitVec 6) (d a : Reg) (scope : BitVec 3) (order : BitVec 2) (s : Reg) : List (BitVec 32) :=
  dai 2 op d a (scope ++ order ++ 0#3 ++ s)

/-- The words of a compute-form instruction (R125, R126). -/
def vxcWords (op : BitVec 7) (f : VxC) : List (BitVec 32) :=
  [ 4#3 ++ op ++ f.vd ++ f.va ++ f.vb ++ f.gl ++ f.na,
    f.vc ++ f.nb ++ BitVec.ofBool f.m ++ BitVec.ofBool f.mi ++ BitVec.ofBool f.sc ++ f.rm ++ BitVec.ofBool f.sat
      ++ 0#5 ++ f.imm ]

/-- The words of a memory-form instruction (R125, R127). -/
def vxmWords (op : BitVec 7) (f : VxM) : List (BitVec 32) :=
  [ 4#3 ++ op ++ f.vd ++ f.va ++ f.vb ++ f.gl ++ 0#2,
    f.vc ++ 0#2 ++ BitVec.ofBool f.m ++ BitVec.ofBool f.mi ++ BitVec.ofBool f.gate ++ f.w ++ 0#1
      ++ BitVec.ofBool f.ord ++ BitVec.ofBool f.nov ++ f.scope ++ f.cache ++ f.gstride ++ f.gbase ]

/-- The words of an MX instruction (R128). -/
def mxWords (op : BitVec 7) (f : MxF) : List (BitVec 32) :=
  [ 5#3 ++ op ++ f.acc ++ f.va ++ f.vb ++ f.gl ++ 0#2,
    f.gdescA ++ f.gdescB ++ f.rm ++ BitVec.ofBool f.sc ++ BitVec.ofBool f.sparse ++ f.imm ]

/-- The words of a YS instruction (R129). -/
def ysWords (op : BitVec 7) (f : YsF) : List (BitVec 32) :=
  [ 6#3 ++ op ++ f.gd ++ f.ga ++ f.gb ++ f.fn7, f.imm ]

/-- A CRRD of a numbered register. -/
def crrdWords (d : Reg) (number : BitVec 32) : List (BitVec 32) :=
  ysWords 0x40 { gd := d, ga := 0, gb := 0, fn7 := 0, imm := number }

/-- A CRWR of a numbered register. -/
def crwrWords (a : Reg) (number : BitVec 32) : List (BitVec 32) :=
  ysWords 0x41 { gd := 0, ga := a, gb := 0, fn7 := 0, imm := number }

/-- The words of an instruction a context issues, word 0 first. A step that is no instruction word has none; an
unassigned encoding is the word it was fetched as. -/
def encode : Instr → Option (List (BitVec 32))
  | .add d a b => some (srWord 0x00 d a b 0)
  | .sub d a b => some (srWord 0x01 d a b 0)
  | .mul d a b => some (srWord 0x02 d a b 0)
  | .mulh d a b => some (srWord 0x03 d a b 0)
  | .mulhu d a b => some (srWord 0x04 d a b 0)
  | .div d a b => some (srWord 0x05 d a b 0)
  | .divu d a b => some (srWord 0x06 d a b 0)
  | .rem d a b => some (srWord 0x07 d a b 0)
  | .remu d a b => some (srWord 0x08 d a b 0)
  | .min d a b => some (srWord 0x09 d a b 0)
  | .max d a b => some (srWord 0x0A d a b 0)
  | .minu d a b => some (srWord 0x0B d a b 0)
  | .maxu d a b => some (srWord 0x0C d a b 0)
  | .and d a b => some (srWord 0x0D d a b 0)
  | .or d a b => some (srWord 0x0E d a b 0)
  | .xor d a b => some (srWord 0x0F d a b 0)
  | .andn d a b => some (srWord 0x10 d a b 0)
  | .shl d a b => some (srWord 0x11 d a b 0)
  | .shr d a b => some (srWord 0x12 d a b 0)
  | .sra d a b => some (srWord 0x13 d a b 0)
  | .rol d a b => some (srWord 0x14 d a b 0)
  | .slt d a b => some (srWord 0x15 d a b 0)
  | .sltu d a b => some (srWord 0x16 d a b 0)
  | .clz d a => some (srWord 0x17 d a 0 0)
  | .ctz d a => some (srWord 0x18 d a 0 0)
  | .popc d a => some (srWord 0x19 d a 0 0)
  | .fadd d a b rm => some (srWord 0x20 d a b (0#5 ++ rm))
  | .fsub d a b rm => some (srWord 0x21 d a b (0#5 ++ rm))
  | .fmul d a b rm => some (srWord 0x22 d a b (0#5 ++ rm))
  | .fmin d a b rm => some (srWord 0x24 d a b (0#5 ++ rm))
  | .fmax d a b rm => some (srWord 0x25 d a b (0#5 ++ rm))
  | .fma d a b c rm => some (srWord 0x23 d a b (rm ++ c))
  | .fcmp d a b rel => some (srWord 0x26 d a b (0#6 ++ rel))
  | .fcvt d a sat dir rm => some (srWord 0x27 d a 0 (BitVec.ofBool sat ++ dir ++ rm))
  | .addi d a imm => some (dai 1 0x00 d a imm)
  | .andi d a imm => some (dai 1 0x01 d a imm)
  | .ori d a imm => some (dai 1 0x02 d a imm)
  | .xori d a imm => some (dai 1 0x03 d a imm)
  | .slti d a imm => some (dai 1 0x07 d a imm)
  | .sltui d a imm => some (dai 1 0x08 d a imm)
  | .shli d a amount => some (dai 1 0x04 d a (0#7 ++ amount))
  | .shri d a amount => some (dai 1 0x05 d a (0#7 ++ amount))
  | .srai d a amount => some (dai 1 0x06 d a (0#7 ++ amount))
  | .lui d imm => some [scalarWord 1 0x09 (d ++ imm)]
  | .auipc d imm => some [scalarWord 1 0x0A (d ++ imm)]
  | .bfx d a width offset => some (dai 1 0x0B d a (width ++ offset))
  | .bfxu d a width offset => some (dai 1 0x0C d a (width ++ offset))
  | .bfi d a width offset => some (dai 1 0x0D d a (width ++ offset))
  | .ldb d a off => some (dai 2 0x00 d a off)
  | .ldh d a off => some (dai 2 0x01 d a off)
  | .ldw d a off => some (dai 2 0x02 d a off)
  | .ldd d a off => some (dai 2 0x03 d a off)
  | .ldbu d a off => some (dai 2 0x04 d a off)
  | .ldhu d a off => some (dai 2 0x05 d a off)
  | .ldwu d a off => some (dai 2 0x06 d a off)
  | .stb d a off => some (dai 2 0x08 d a off)
  | .sth d a off => some (dai 2 0x09 d a off)
  | .stw d a off => some (dai 2 0x0A d a off)
  | .std d a off => some (dai 2 0x0B d a off)
  | .lda d a scope off => some (dai 2 0x0C d a (scope ++ off))
  | .stl d a scope off => some (dai 2 0x0D d a (scope ++ off))
  | .amoswap d a scope order s => some (amoWord 0x10 d a scope order s)
  | .amoadd d a scope order s => some (amoWord 0x11 d a scope order s)
  | .amoand d a scope order s => some (amoWord 0x12 d a scope order s)
  | .amoor d a scope order s => some (amoWord 0x13 d a scope order s)
  | .amoxor d a scope order s => some (amoWord 0x14 d a scope order s)
  | .amomin d a scope order s => some (amoWord 0x15 d a scope order s)
  | .amomax d a scope order s => some (amoWord 0x16 d a scope order s)
  | .amocas d a scope order => some (amoWord 0x17 d a scope order 0)
  | .fence scope kinds => some (dai 2 0x18 0 0 (scope ++ 0#4 ++ kinds))
  | .beq a b off => some (dai 3 0x00 a b off)
  | .bne a b off => some (dai 3 0x01 a b off)
  | .blt a b off => some (dai 3 0x02 a b off)
  | .bge a b off => some (dai 3 0x03 a b off)
  | .bltu a b off => some (dai 3 0x04 a b off)
  | .bgeu a b off => some (dai 3 0x05 a b off)
  | .bq q off => some (dai 3 0x06 (0#3 ++ q) 0 off)
  | .bsend slot off => some (dai 3 0x07 (0#2 ++ slot) 0 off)
  | .j off => some [scalarWord 3 0x08 off]
  | .jal d off => some [scalarWord 3 0x09 (d ++ off)]
  | .jalr d a off => some (dai 3 0x0A d a off)
  | .qpush a q => some (dai 3 0x0B a (0#3 ++ q) 0)
  | .qpop d q => some [scalarWord 3 0x0C (d ++ q ++ 0#16)]
  | .imx p => some [7#3 ++ 0#2 ++ p]
  | .mattr scope cache order => some [7#3 ++ 1#2 ++ scope ++ cache ++ order ++ 0#18]
  | .vcfg f => some (vxcWords 0x00 f)
  | .vsetl f => some (vxcWords 0x01 f)
  | .vsetrc f => some (vxcWords 0x02 f)
  | .vpart f => some (vxcWords 0x03 f)
  | .vjoin f => some (vxcWords 0x04 f)
  | .vadd f => some (vxcWords 0x08 f)
  | .vsub f => some (vxcWords 0x09 f)
  | .vmul f => some (vxcWords 0x0A f)
  | .vmulh f => some (vxcWords 0x0B f)
  | .vfma f => some (vxcWords 0x0C f)
  | .vfms f => some (vxcWords 0x0D f)
  | .vfnma f => some (vxcWords 0x0E f)
  | .vdiv f => some (vxcWords 0x0F f)
  | .vsqrt f => some (vxcWords 0x10 f)
  | .vrcp f => some (vxcWords 0x11 f)
  | .vrsq f => some (vxcWords 0x12 f)
  | .vexp2 f => some (vxcWords 0x13 f)
  | .vlog2 f => some (vxcWords 0x14 f)
  | .vmin f => some (vxcWords 0x15 f)
  | .vmax f => some (vxcWords 0x16 f)
  | .vabs f => some (vxcWords 0x17 f)
  | .vneg f => some (vxcWords 0x18 f)
  | .vand f => some (vxcWords 0x19 f)
  | .vor f => some (vxcWords 0x1A f)
  | .vxor f => some (vxcWords 0x1B f)
  | .vnot f => some (vxcWords 0x1C f)
  | .vshl f => some (vxcWords 0x1D f)
  | .vshr f => some (vxcWords 0x1E f)
  | .vsra f => some (vxcWords 0x1F f)
  | .vcmpeq f => some (vxcWords 0x20 f)
  | .vcmpne f => some (vxcWords 0x21 f)
  | .vcmplt f => some (vxcWords 0x22 f)
  | .vcmple f => some (vxcWords 0x23 f)
  | .vsel f => some (vxcWords 0x24 f)
  | .vclass f => some (vxcWords 0x25 f)
  | .vcvt f => some (vxcWords 0x28 f)
  | .vnarrow f => some (vxcWords 0x29 f)
  | .vwiden f => some (vxcWords 0x2A f)
  | .vq4 f => some (vxcWords 0x2B f)
  | .vslideup f => some (vxcWords 0x30 f)
  | .vslidedn f => some (vxcWords 0x31 f)
  | .vperm f => some (vxcWords 0x32 f)
  | .vbcast f => some (vxcWords 0x33 f)
  | .vmvs f => some (vxcWords 0x34 f)
  | .vget f => some (vxcWords 0x35 f)
  | .vredsum f => some (vxcWords 0x36 f)
  | .vredmax f => some (vxcWords 0x37 f)
  | .vredmin f => some (vxcWords 0x38 f)
  | .vredand f => some (vxcWords 0x39 f)
  | .vredor f => some (vxcWords 0x3A f)
  | .vscan f => some (vxcWords 0x3B f)
  | .vcompress f => some (vxcWords 0x3C f)
  | .vexpand f => some (vxcWords 0x3D f)
  | .viota f => some (vxcWords 0x3E f)
  | .vtrans8 f => some (vxcWords 0x3F f)
  | .vfirst f => some (vxcWords 0x40 f)
  | .vpopm f => some (vxcWords 0x41 f)
  | .vld f => some (vxmWords 0x48 f)
  | .vlds f => some (vxmWords 0x49 f)
  | .vldx f => some (vxmWords 0x4A f)
  | .vldff f => some (vxmWords 0x4B f)
  | .vld2d f => some (vxmWords 0x4C f)
  | .vst f => some (vxmWords 0x50 f)
  | .vsts f => some (vxmWords 0x51 f)
  | .vstx f => some (vxmWords 0x52 f)
  | .vst2d f => some (vxmWords 0x53 f)
  | .vamo f => some (vxmWords 0x54 f)
  | .vxlat f => some (vxmWords 0x55 f)
  | .vpref f => some (vxmWords 0x56 f)
  | .kvapp f => some (vxmWords 0x57 f)
  | .vbind f => some (vxmWords 0x58 f)
  | .vunbind f => some (vxmWords 0x59 f)
  | .sfeed f => some (vxmWords 0x5A f)
  | .mzero f => some (mxWords 0x00 f)
  | .mma f => some (mxWords 0x01 f)
  | .mmav f => some (mxWords 0x02 f)
  | .mmas f => some (mxWords 0x03 f)
  | .mloadc f => some (mxWords 0x04 f)
  | .mstore f => some (mxWords 0x05 f)
  | .mreadv f => some (mxWords 0x06 f)
  | .mwritev f => some (mxWords 0x07 f)
  | .mcvt f => some (mxWords 0x08 f)
  | .tload f => some (mxWords 0x10 f)
  | .teval f => some (mxWords 0x11 f)
  | .tleaf f => some (mxWords 0x12 f)
  | .tclr f => some (mxWords 0x13 f)
  | .kend f => some (ysWords 0x00 f)
  | .splpt f => some (ysWords 0x01 f)
  | .canpt f => some (ysWords 0x02 f)
  | .wmpub f => some (ysWords 0x03 f)
  | .wmwait f => some (ysWords 0x04 f)
  | .barrive f => some (ysWords 0x05 f)
  | .barwait f => some (ysWords 0x06 f)
  | .depinit f => some (ysWords 0x07 f)
  | .depdec f => some (ysWords 0x08 f)
  | .tspawn f => some (ysWords 0x09 f)
  | .sbpost f => some (ysWords 0x0A f)
  | .sbstat f => some (ysWords 0x0B f)
  | .sbleave f => some (ysWords 0x0C f)
  | .cpy f => some (ysWords 0x10 f)
  | .pub f => some (ysWords 0x11 f)
  | .cred f => some (ysWords 0x12 f)
  | .upd f => some (ysWords 0x13 f)
  | .rinv f => some (ysWords 0x14 f)
  | .kvfile f => some (ysWords 0x15 f)
  | .rqnt f => some (ysWords 0x16 f)
  | .wsinfo f => some (ysWords 0x18 f)
  | .syscall f => some (ysWords 0x1C f)
  | .brk f => some (ysWords 0x1D f)
  | .svfence f => some (ysWords 0x1F f)
  | .crrd f => some (ysWords 0x40 f)
  | .crwr f => some (ysWords 0x41 f)
  | .trapret f => some (ysWords 0x42 f)
  | .vfsave f => some (ysWords 0x43 f)
  | .vfload f => some (ysWords 0x44 f)
  | .tlbinv f => some (ysWords 0x45 f)
  | .wfe f => some (ysWords 0x46 f)
  | .xflagsRead d => some (crrdWords d 0x014)
  | .xflagsWrite a => some (crwrWords a 0x014)
  | .xseedWrite a => some (crwrWords a 0x016)
  | .vstartAccess false d => some (crrdWords d 0x010)
  | .vstartAccess true a => some (crwrWords a 0x010)
  | .asidWrite a => some (crwrWords a 0x110)
  | .ptrootWrite a => some (crwrWords a 0x111)
  | .yield a => some (crwrWords a 0x121)
  | .unassignedEncoding w => some [w]
  | .engineComplete _ | .preemptRequest _ _ | .strandResume _ _ _ | .pageWalkFill _ | .priResponse _ _
  | .priTimeout _ | .atsCompletion _ _ _ _ _ | .atsInvalidation _ _ _ _ | .notifyWrite _ _ | .nop _ _
  | .launch _ _ | .siblaunch _ _ | .barrier _ _ | .waitval _ _ | .waitvalPoll _ _ | .wsload _ _ | .wsrel _ _
  | .depgraph _ _ | .spliceDecision _ _ | .dispatch _ _ _ _ | .launchComplete _ | .hostApertureAccess _ _ _
  | .spdmChallenge _ _ | .spdmKeyExchange _ _ | .ideIntegrityFailure _ | .moduleUnreachable _
  | .uncorrectableError _ | .hbmRowRepair _ | .wsBankSpare _ _ | .powerCap _ | .thermalTrip _
  | .remoteModuleAccess _ _ _ | .queueWaitEnd | .watermarkWake | .watermarkTimeout | .barwaitWake | .wfeTimeout
  | .engineErrorDelivery | .cancelLimitStop | .vqEntryStart | .matrixQueueMove | .syncReadArrival
  | .spliceGateProceed | .spliceRegionFree | .kendRetire | .impreciseTrap | .strandStart | .vqEntryComplete
  | .repartitionEffect | .matrixQueueStart | .matrixQueueComplete | .streamChunkArrival | .streamPatternRead
  | .createq | .destroyq | .bindas | .unbindas | .partcfg | .retirecl | .keyinstall | .fwload | .reccfg
  | .replay | .invalidMailboxCommand | .spdmGetMeasurements | .wsRefreshStart | .wsRefreshEnd | .flitCrcFail
  | .linkRetrain | .coreHeartbeatTimeout | .scannerFind | .queueFetch | .hostLinkDrop | .bringUp => none

end Sys2Proof
end

