-- ==== Sys2Proof/Machine/Record.lean ====
section
/-!
DEFINITION. Machine/Record.lean: the Varve recorder of each partition and the order a replay holds its decisions to (R368,
R369).
-/
namespace Sys2Proof.Machine

/-- The partition owns a stack group (R362). -/
def Partition.owns (p : Partition) (stack : Nat) : Bool := p.stackGroups.getLsbD stack

/-- The partition that owns a cluster. -/
def State.partOfCluster (s : State) (k : Nat) : Option Nat := (s.partitions.find? (fun p => p.2.owns (stackOf k))).map (·.1)

/-- Kinds of records (R368). -/
def recPacket : Nat := 1
/-- host read -/
def recHostRead : Nat := 2
/-- placement -/
def recPlace : Nat := 3
/-- splice group -/
def recSplice : Nat := 4
/-- ballot post -/
def recPost : Nat := 5
/-- task release -/
def recRelease : Nat := 6
/-- fault -/
def recFault : Nat := 7

/-- The 32 bytes of a record; DATA of a kind other than host read holds the decision's identifiers in a form that the spec
leaves open (R368, log 30). -/
def recordBytes (index kind part : Nat) (data : List Nat) : List Byte :=
  leBytes 8 index ++ leBytes 1 kind ++ leBytes 1 part ++ List.replicate 6 0 ++
    (if kind = recHostRead then (List.range 16).map (fun i => BitVec.ofNat 8 (data.getD i 0))
     else (List.range 16).map (Config.recordData index))

/-- The shadow pages of a migration in progress take a store to the visible page, whoever makes it (R335). -/
def State.mirror (s : State) (pa : Nat) (bs : List Byte) : State :=
  if s.shadows.all (fun sh => sh.origin.isNone) then s
  else
    { s with shadows := s.shadows.map (fun sh =>
        match sh.origin with
        | none => sh
        | some page =>
          { sh with bytes := (List.range sh.bytes.length).map (fun i =>
              if pa ≤ page + i ∧ page + i < pa + bs.length then bs.getD (page + i - pa) 0 else sh.bytes.getD i 0) }) }

/-- A record written into the ring at its index, over the oldest when the ring is full (R335, R368). -/
def State.putRecord (s : State) (r : Recorder) (index : Nat) (bs : List Byte) : State :=
  if r.size / 32 = 0 then s
  else
    let at_ := r.base + 32 * (index % (r.size / 32))
    ({ s with dev := s.dev.writeBytes at_ bs }).mirror at_ bs

/-- The bytes of a packet that an ingress record's identifiers hold, and 0 up to 128. -/
def ingressBytes (data : List Nat) : List Byte := (List.range 128).map (fun i => BitVec.ofNat 8 (data.getD (2 + i) 0))

/-- A decision recorded: one record, or with a packet five (R368). -/
def State.record (s : State) (part kind : Nat) (data : List Nat) : State :=
  match lookup s.recorders part with
  | none => s
  | some r =>
    let n := if kind = recPacket then 5 else 1
    let s1 := s.putRecord r r.nextIndex (recordBytes r.nextIndex kind part data)
    let s2 := if kind = recPacket then
        (List.range 4).foldl (fun (s : State) i =>
          s.putRecord r (r.nextIndex + 1 + i) (((ingressBytes data).drop (32 * i)).take 32)) s1
      else s1
    let held := (r.records ++ [(r.nextIndex, kind, data)]).filter (fun x => decide (r.nextIndex + n ≤ x.1 + r.size / 32))
    { s2 with recorders := insertKey s2.recorders part { r with nextIndex := r.nextIndex + n, records := held } }

/-- A packet number as the recorded run had it (R369). -/
def Replay.recorded (r : Replay) (queue seq : Nat) : Nat :=
  match lookup r.shift queue with
  | some (old, new) => old + (seq - new)
  | none => seq

/-- Pairs of a queue and a packet number, the numbers as recorded. -/
def Replay.pairs (r : Replay) : List Nat → List Nat
  | q :: seq :: rest => q :: r.recorded q seq :: r.pairs rest
  | l => l

/-- The identifiers of a decision about a packet, the packet numbers in them as recorded. -/
def Replay.data (r : Replay) (kind queue seq : Nat) (rest : List Nat) : List Nat :=
  queue :: r.recorded queue seq :: (if kind = recSplice then r.pairs rest else rest)

/-- Decisions about packets of a partition, each with a kind, a queue, a number and further identifiers, may be taken now:
they are the next that a replay of it expects (R369). -/
def State.inTurn (s : State) (part : Nat) (ds : List (Nat × Nat × Nat × List Nat)) : Bool :=
  match lookup s.replaying part with
  | none => true
  | some r =>
    let wanted := (r.records.take ds.length).map (fun x => (x.2.1, x.2.2))
    r.diverged.isNone && wanted == ds.map (fun d => (d.1, r.data d.1 d.2.1 d.2.2.1 d.2.2.2))

/-- Decisions taken: recorded, or, in a replay, ticked off (R368, R369). A replay records nothing. -/
def State.decided (s : State) (part : Nat) (ds : List (Nat × Nat × Nat × List Nat)) : State :=
  match lookup s.replaying part with
  | none => ds.foldl (fun (s : State) d => s.record part d.1 (d.2.1 :: d.2.2.1 :: d.2.2.2)) s
  | some r => { s with replaying := insertKey s.replaying part { r with records := r.records.drop ds.length } }

/-- The list without its first element that satisfies a test. -/
def dropFirst {α : Type} (p : α → Bool) : List α → List α
  | [] => []
  | x :: rest => if p x then rest else x :: dropFirst p rest

/-- Host bytes read for a partition: recorded by their digest, or held against the next one recorded (R368, R369). -/
def State.hostReadFor (s : State) (part : Nat) (bs : List Byte) : State :=
  let digest := ((Config.shake256 16 bs).take 16).map (·.toNat)
  match lookup s.replaying part with
  | none => s.record part recHostRead digest
  | some r =>
    match r.records.find? (fun x => x.2.1 == recHostRead) with
    | none => s
    | some x =>
      if x.2.2 = digest then
        { s with replaying := insertKey s.replaying part { r with records := dropFirst (fun x => x.2.1 == recHostRead) r.records } }
      else { s with replaying := insertKey s.replaying part { r with diverged := some x.1 } }

/-- Host bytes read by a cluster. -/
def State.hostRead (s : State) (cluster : Nat) (bs : List Byte) : State :=
  match s.partOfCluster cluster with
  | none => s
  | some part => s.hostReadFor part bs

/-- A fault taken by a strand, recorded; in a replay it is ticked off where it was recorded (R368, R369). -/
def State.recordFault (s : State) (st : Strand) (cause : Cause) : State :=
  if cause = .preemption ∨ cause = .breakpoint ∨ cause = .systemCall then s
  else
    match s.launch? st.launch with
    | none => s
    | some l =>
      let rest := [st.ordinal, cause.code.toNat]
      match lookup s.replaying l.part with
      | none => s.record l.part recFault (l.queue :: l.seq :: rest)
      | some r =>
        let same := fun (x : Nat × Nat × List Nat) => x.2.1 == recFault && x.2.2 == r.data recFault l.queue l.seq rest
        { s with replaying := insertKey s.replaying l.part { r with records := dropFirst same r.records } }

end Sys2Proof.Machine
end

