-- ==== Sys2Proof/Machine/Translate.lean ====
section
/-!
DEFINITION. Machine/Translate.lean: from a virtual address to a place: the scratchpad window (R86, R87, R206), the
page table and its entries (R325 to R327), the TLBs (R328) and the weight store's windows (R94, R95).
-/
namespace Sys2Proof.Machine

/-- On whose behalf an access is made. -/
structure Agent where
  slot : Nat
  cluster : Nat
  asid : Nat
  root : Nat
  priv : Bool
  who : Requester
  /-- generations its launch binds (R95) -/
  ws : List WsBinding
  /-- pages whose translation it has taken and keeps (R100, R212, R215) -/
  held : List HeldPage := []
  /-- PC and strip of the VX or MX instruction it acts for; else the context's own are meant (R282) -/
  charge : Option (Word × Nat) := none
  deriving DecidableEq, Repr

/-- The agent a strand is when it acts with a context's privilege. -/
def agentOf (slot : Nat) (st : Strand) (priv : Bool) (who : Requester) : Agent :=
  { slot, cluster := clusterOf slot, asid := st.asid.toNat, root := st.ptroot.toNat, priv, who, ws := st.wsBindings }

/-! ## The page table -/

/-- A leaf the walk reached: where its entry lies, its level, and the entry. -/
structure Leaf where
  addr : Nat
  level : Nat
  entry : Word
  deriving DecidableEq, Repr

/-- How a walk ends (R327). -/
inductive WalkEnd where
  | leaf (l : Leaf)
  | notPresent
  | protection
  deriving DecidableEq, Repr

/-- Lowest VA bit that indexes a level, and how many bits do (R325). -/
def levelBits : Nat → Nat × Nat
  | 0 => (57, 7)
  | 1 => (48, 9)
  | 2 => (39, 9)
  | 3 => (30, 9)
  | 4 => (21, 9)
  | _ => (12, 9)

/-- Bytes a leaf of a level maps, C64 apart (R325). -/
def leafBytes (level : Nat) : Nat := 2 ^ (levelBits level).1

/-- PTE fields (R326). -/
def pteV (e : Word) : Bool := bit e 0
/-- leaf -/
def pteL (e : Word) : Bool := bit e 1
/-- permissions -/
def ptePerm (e : Word) : Nat := (bits e 2 3).toNat
/-- accessed -/
def pteA (e : Word) : Bool := bit e 5
/-- dirty -/
def pteD (e : Word) : Bool := bit e 6
/-- user access allowed -/
def pteU (e : Word) : Bool := bit e 7
/-- one of 16 entries mapping a 64 KiB block -/
def pteC64 (e : Word) : Bool := bit e 8
/-- tier of a leaf -/
def pteTier (e : Word) : Nat := (bits e 10 2).toNat
/-- physical address [55:12] as a byte address -/
def ptePA (e : Word) : Nat := (bits e 12 44).toNat * 4096

/-- A valid entry of a level that R326 calls malformed. An entry with V = 0 is never malformed (log 17). -/
def pteMalformed (level : Nat) (e : Word) : Bool :=
  pteV e &&
    (bit e 9 ||
     (if pteL e then
        decide (level < 3) || ptePerm e == 0 || ptePerm e == 6 || ptePerm e == 7 || pteTier e == 3 ||
        ptePA e % leafBytes level != 0
      else
        decide (5 ≤ level) || pteTier e != 0 || pteC64 e || pteA e || pteD e || pteU e || ptePerm e != 0))

/-- PERM grants a read, a write, an execution (R326). -/
def permRead (p : Nat) : Bool := p == 1 || p == 2 || p == 4 || p == 5
/-- write granted -/
def permWrite (p : Nat) : Bool := p == 2 || p == 5
/-- execution granted -/
def permExec (p : Nat) : Bool := p == 3 || p == 4 || p == 5

/-- What an access needs of a permission triple (R327). -/
def grants (read write exec : Bool) : Intent → Bool
  | .load => read
  | .store => write
  | .fetch => exec
  | .atomic => read && write

/-- The access needs D set (R328, R332). -/
def intentWrites : Intent → Bool
  | .store | .atomic => true
  | _ => false

/-- What an access needs of the grants of a host's completion (R330). -/
def hostGrants (read write : Bool) : Intent → Bool
  | .store => write
  | .atomic => read && write
  | .load | .fetch => read

/-- The cause of a translation fault by intent (R327). -/
def intentCause : Intent → Cause
  | .store | .atomic => .translationStore
  | _ => .translationLoad

/-- The walk from a table of a level downward, `fuel` levels at most (R327). -/
def walkFrom (m : Memory) (va : Nat) : Nat → Nat → Nat → WalkEnd
  | 0, _, _ => .protection
  | fuel + 1, level, table =>
    let lo := (levelBits level).1
    let n := (levelBits level).2
    let addr := table + 8 * (va / 2 ^ lo % 2 ^ n)
    let e : Word := BitVec.ofNat 64 (m.readLE addr 8)
    if pteMalformed level e then .protection
    else if !pteV e then .notPresent
    else if pteL e then .leaf { addr, level, entry := e }
    else walkFrom m va fuel (level + 1) (ptePA e)

/-- The deepest walk-cache entry on the path of va: its level and table (R328). -/
def State.cachedTable (s : State) (die asid va : Nat) : Option (Nat × Nat) :=
  [4, 3, 2, 1, 0].findSome? (fun level =>
    (s.walkCache.find? (fun w => w.die == die && w.asid == asid && w.level == level &&
        w.pfx == va / 2 ^ (levelBits level).1)).map (fun w => (level, w.table)))

/-- The table entries a walk passes through, each as its level, the address bits above it and the table it names (R328). -/
def pathFrom (m : Memory) (va : Nat) : Nat → Nat → Nat → List (Nat × Nat × Nat)
  | 0, _, _ => []
  | fuel + 1, level, table =>
    let lo := (levelBits level).1
    let e : Word := BitVec.ofNat 64 (m.readLE (table + 8 * (va / 2 ^ lo % 2 ^ (levelBits level).2)) 8)
    if pteMalformed level e || !pteV e || pteL e then []
    else (level, va / 2 ^ lo, ptePA e) :: pathFrom m va fuel (level + 1) (ptePA e)

/-- A whole walk: from the deepest cached table, or from the root (R327, R328). -/
def State.walkTable (s : State) (die asid root va : Nat) : WalkEnd :=
  match s.cachedTable die asid va with
  | some (level, table) => walkFrom s.dev va 6 (level + 1) table
  | none => walkFrom s.dev va 6 0 root

/-- A leaf checked for an access (R327). -/
def Leaf.permits (l : Leaf) (intent : Intent) (priv : Bool) : Bool :=
  grants (permRead (ptePerm l.entry)) (permWrite (ptePerm l.entry)) (permExec (ptePerm l.entry)) intent
    && (pteU l.entry || priv)

/-- The home and the address a leaf maps va to (R326). -/
def Leaf.target (l : Leaf) (va : Nat) : Home × Nat :=
  let off := va % leafBytes l.level
  let pa := ptePA l.entry + off
  match pteTier l.entry with
  | 1 => (.host, pa)
  | 2 => (.remote (pa / 2 ^ 46 % 2 ^ 10), pa % 2 ^ 46)
  | _ => (.device, pa)

/-! ## The scratchpad window and the weight store -/

/-- Bytes of journals of the slots of a cluster up to and including position k (R206). -/
def State.journalBytes (s : State) (cluster k : Nat) : Nat :=
  ((List.range (k + 1)).map (fun i =>
    match s.strand? (4 * cluster + i) with
    | some st => st.journalSize
    | none => 0)).sum

/-- Scratchpad offset at which the splice buffer starts (R87). -/
def State.spliceStart (s : State) (cluster : Nat) : Nat := Config.scratchBytes - (s.cluster cluster).spliceBytes

/-- An offset of the scratchpad that no program reaches directly: splice buffer or a journal (R87, R206). -/
def State.scratchDenied (s : State) (cluster off : Nat) : Bool :=
  decide (s.spliceStart cluster - s.journalBytes cluster 3 ≤ off)

/-- Bytes one generation slot of a region takes (R345). -/
def WsRegion.stride (r : WsRegion) : Nat := 64 + roundUp r.maxSize 1024

/-- The place a weight-store address of a die reads for an agent: in a region it binds, the bound slot (R95). DESIGN CHOICE: in a
region it does not bind, the address itself, which is slot 0 (log 104). -/
def State.wsPlace (s : State) (ws : List WsBinding) (die off : Nat) : Place :=
  match s.regions.find? (fun p => (p.2.place == die || p.2.place == 2) && decide (p.2.offset ≤ off) &&
      decide (off < p.2.offset + p.2.stride)) with
  | none => .ws die off
  | some (id, r) =>
    match ws.find? (fun b => b.region == id) with
    | none => .ws die off
    | some b => .ws die (off + b.slot * r.stride)

/-! ## Resolving an address -/

/-- What translating an address gives. -/
inductive Xlat where
  | ok (p : Place)
  | fault (c : Cause)
  /-- a walk has to fill first -/
  | miss
  /-- no memory lies there -/
  | absent (pa : Nat)
  deriving DecidableEq, Repr

/-- The first byte of the 4 KiB page of an address. -/
def pageOf (va : Nat) : Nat := va / 4096 * 4096

/-- A TLB entry covers an address of an address space for a quad (R328). -/
def TlbEntry.covers (e : TlbEntry) (quad asid va : Nat) : Bool :=
  e.quad == quad && e.asid == asid && decide (e.va ≤ va) && decide (va < e.va + e.size)

/-- The translation of an address that a cluster's L1 TLB holds, or else its quad's L2 TLB (R100, R328). -/
def State.translation (s : State) (cluster asid va : Nat) : Option TlbEntry :=
  (s.tlb.find? (fun e => e.cluster == some cluster && e.covers (quadOf cluster) asid va)).or
    (s.tlb.find? (fun e => e.cluster.isNone && e.covers (quadOf cluster) asid va))

/-- A page an agent keeps covers an address. -/
def HeldPage.covers (h : HeldPage) (asid va : Nat) : Bool :=
  h.entry.asid == asid && decide (h.entry.va ≤ va) && decide (va < h.entry.va + h.entry.size)

/-- The translation of an address for an agent: that which it keeps, or else one of the TLBs (R100, R212, R215, R328). -/
def State.translationFor (s : State) (a : Agent) (va : Nat) : Option TlbEntry :=
  ((a.held.find? (fun h => h.covers a.asid va)).map (·.entry)).or (s.translation a.cluster a.asid va)

/-- The page of an address that an agent's access has just used; in the scratchpad window 4 KiB of it (R100). -/
def State.pageUsed (s : State) (a : Agent) (va : Nat) : HeldPage where
  entry := (if Config.scratchBase ≤ va then none else s.translationFor a va).getD
    { quad := quadOf a.cluster, asid := a.asid, va := pageOf va, size := 4096, home := .device, pa := 0
      read := true, write := true, execute := true, user := true, dirty := true }

/-- Pages kept, with that of an address just used among them, where one was used. -/
def State.keepPage (s : State) (a : Agent) (va : Nat) (l : List HeldPage) : List HeldPage :=
  if l.any (fun h => h.covers a.asid va) || (decide (va < Config.scratchBase) && (s.translationFor a va).isNone) then l
  else l ++ [s.pageUsed a va]

/-- The bytes from an address on that its page had when the agent translated it, where a PUB has swapped the page since (R114). -/
def Agent.oldBytes (a : Agent) (va : Nat) : Option (List Byte) :=
  (a.held.filter (fun h => h.covers a.asid va)).findSome? (fun h => (lookup h.old (pageOf va)).map (·.drop (va % 4096)))

/-- Some entries have to make room, as a free value says (R328, log 8). -/
def displace {α : Type} (draws : Nat) (mine : α → Bool) (l : List α) : List α :=
  ((List.range l.length).zip l).filterMap (fun p => if mine p.2 && Config.displaced draws p.1 then none else some p.2)

/-- The nth of those a test holds of is taken out of a list. -/
def dropNth {α : Type} (mine : α → Bool) : Nat → List α → List α
  | _, [] => []
  | n, x :: rest =>
    if mine x then
      match n with
      | 0 => rest
      | k + 1 => x :: dropNth mine k rest
    else x :: dropNth mine n rest

/-- Room for n more of those that share a structure of a capacity: where it is full some leave, a free value says which (R328,
log 8). -/
def evictFor {α : Type} (capacity : Nat) (mine : α → Bool) : Nat → Nat → List α → List α
  | 0, _, l => l
  | n + 1, draws, l =>
    let held := l.countP mine
    evictFor capacity mine n (draws + 1) (if held + n < capacity then l else dropNth mine (Config.pick draws % held) l)

/-- Entries that share a capacity with e: its bank of its L1 TLB, or its L2 TLB (R100, R328). -/
def TlbEntry.rival (e x : TlbEntry) : Bool :=
  x.cluster == e.cluster && x.quad == e.quad && (e.cluster.isNone || x.va / x.size % 16 == e.va / e.size % 16)

/-- A translation filled into an L1 TLB, 16 banks of 32, or an L2 TLB of 4,096 entries; it takes the place of one of the same
page (R328). -/
def State.fill (s : State) (e : TlbEntry) : State :=
  let others := s.tlb.filter (fun x =>
    !(x.cluster == e.cluster && x.quad == e.quad && x.asid == e.asid && x.va == e.va && x.size == e.size))
  let l := if e.cluster.isNone then displace s.draws e.rival others else others
  { s with
    tlb := e :: evictFor (if e.cluster.isNone then 4096 else 32) e.rival 1 (s.draws + 1) l
    draws := s.draws + 2 }

/-- An access that finds its translation in the L2 TLB has it filled into the L1 TLB of its cluster (R100, R328). -/
def State.cacheTranslation (s : State) (a : Agent) (va : Nat) : State :=
  match (if Config.scratchBase ≤ va then none else s.translation a.cluster a.asid va) with
  | some e => if e.cluster.isSome then s else s.fill { e with cluster := some a.cluster }
  | none => s

/-- A device address in the map of log 5. -/
def State.devicePlace (s : State) (a : Agent) (pa : Nat) (intent : Intent) : Xlat :=
  if pa < Config.hbmBytes + Config.tier2Bytes then .ok (.dev pa)
  else if Config.wsBase ≤ pa ∧ pa < Config.wsBase + 2 * Config.wsBytes then
    if intentWrites intent then .fault .protection
    else .ok (s.wsPlace a.ws ((pa - Config.wsBase) / Config.wsBytes) ((pa - Config.wsBase) % Config.wsBytes))
  else .absent pa

/-- Translation of an address for an access (R86, R87, R94, R327, R328). -/
def State.resolve (s : State) (a : Agent) (va : Nat) (intent : Intent) : Xlat :=
  if Config.scratchBase ≤ va then
    if Config.scratchBase + Config.scratchBytes ≤ va then .fault .protection
    else if s.scratchDenied a.cluster (va - Config.scratchBase) then .fault .protection
    else .ok (.scratch a.cluster (va - Config.scratchBase))
  else
    match s.xlatFaults.find? (fun f => f.who == a.who && f.page == pageOf va) with
    | some f => .fault (if f.cause = .translationLoad ∨ f.cause = .translationStore then intentCause intent else f.cause)
    | none =>
      match s.translationFor a va with
      | none => .miss
      | some e =>
        if !grants e.read e.write e.execute intent || !(e.user || a.priv) then .fault .protection
        else if !hostGrants e.hostRead e.hostWrite intent || (intentWrites intent && !e.dirty) then .miss
        else
          let pa := e.pa + (va - e.va)
          match e.home with
          | .device => s.devicePlace a pa intent
          | .host => .ok (.host pa)
          | .remote m => .ok (.remote m pa)

/-- A requester among those who wait. -/
def joined (who : Requester) (ws : List Requester) : List Requester := if ws.contains who then ws else who :: ws

/-- The page request that an access to a page joins, if one is outstanding and someone still waits for it (R331). -/
def State.pageReqFor (s : State) (asid page : Nat) : Option (Nat × PageReq) :=
  s.pageReqs.find? (fun p => p.2.asid == asid && p.2.va == page && !p.2.who.isEmpty)

/-- The state in which a walk for an access is in flight. One already in flight for the page is joined, whatever it is for
(R329); while a page request is outstanding for the page, the access joins that (R331), but for an element of a VLDFF above its
first, which sends none (R199). -/
def State.startWalk (s : State) (a : Agent) (va : Nat) (intent : Intent) : State :=
  let probe := match a.who with
    | .probe _ => true
    | _ => false
  match (if probe then none else s.pageReqFor a.asid (pageOf va)) with
  | some (k, r) => { s with pageReqs := insertKey s.pageReqs k { r with who := joined a.who r.who } }
  | none =>
    match s.walks.find? (fun p => p.2.asid == a.asid && pageOf p.2.va == pageOf va) with
    | some (k, w) =>
      let w' := if w.intent = intent ∧ w.priv = a.priv then { w with who := joined a.who w.who }
        else { w with also := joined a.who w.also }
      { s with walks := insertKey s.walks k w' }
    | none =>
      let k := (s.walks.map (·.1)).foldl (fun m x => Nat.max m (x + 1)) 0
      let w : Walk := { quad := quadOf a.cluster, asid := a.asid, root := a.root, va, intent, priv := a.priv,
                        startSeq := s.tlbseq.toNat, who := [a.who], ats := false, stale := false }
      { s with walks := insertKey s.walks k w }

/-- The faults kept for a requester are dropped once it has used them (R331: nothing is remembered). -/
def State.dropXlatFaults (s : State) (who : Requester) : State :=
  { s with xlatFaults := s.xlatFaults.filter (fun f => f.who != who) }

/-- The leaf that maps an address in an address space, which the firmware's walk finds afresh. -/
def State.firmwareLeaf (s : State) (asid va : Nat) : Option Leaf :=
  match s.walkTable 0 asid ((lookup s.spaces asid).map (·.root) |>.getD 0) va with
  | .leaf l => some l
  | _ => none

/-- Translation for the firmware, which keeps nothing; used for records, rings and packets. DESIGN CHOICE: of a host page, whose
address space must have ATS enabled, the host's answer is the leaf's own address with every grant (R330, log 21). -/
def State.firmwarePlace (s : State) (asid va : Nat) (intent : Intent) : Option Place :=
  match s.firmwareLeaf asid va with
  | some l =>
    if l.permits intent true then
      match l.target va with
      | (.device, pa) => if pa < Config.hbmBytes + Config.tier2Bytes then some (.dev pa) else none
      | (.host, pa) => if ((lookup s.spaces asid).map (·.ats)).getD false then some (.host pa) else none
      | (.remote m, pa) => some (.remote m pa)
    else none
  | none => none

end Sys2Proof.Machine
end

