-- ==== Sys2Proof/Machine/Redirect.lean ====
section
/-!
DEFINITION. Machine/Redirect.lean: element maps and the redirection of a spliced intermediate (R269 to R272, R277,
R278, R281).
-/
namespace Sys2Proof.Machine

/-- Σ_k a_k × b_k. -/
def dot (a b : List Int) : Int := ((a.zip b).map (fun p => p.1 * p.2)).sum

/-- A matrix, row by row, applied to a vector. -/
def matVec (m : List (List Int)) (v : List Int) : List Int := m.map (fun row => dot row v)

/-- Every tuple below the bounds, in lexicographic order (R269). -/
def tuples : List Nat → List (List Nat)
  | [] => [[]]
  | b :: rest => (List.range b).flatMap (fun i => (tuples rest).map (fun t => i :: t))

/-- Bytes of an element of a tensor (R41, R271; a 4-bit element counts as its byte, log 18). -/
def Operand.elemBytes (o : Operand) : Nat := ceilDiv (tagWidth (BitVec.ofNat 4 o.tag)) 8

/-- Address of an element (R271), as an integer. -/
def Operand.address (o : Operand) (e : List Int) : Int := (o.base : Int) + dot e o.stride

/-- Lowest and highest byte of the tensor's range (R271). -/
def Operand.range (o : Operand) : Int × Int :=
  let ends := (o.shape.zip o.stride).map (fun p => (p.2 * ((p.1 : Int) - 1)))
  let low := (ends.map (fun x => min x 0)).sum
  let high := (ends.map (fun x => max x 0)).sum
  ((o.base : Int) + low, (o.base : Int) + high + ((o.elemBytes : Int) - 1))

/-- Bytes [va, va + n) meet [lo, hi]. -/
def meets (va n : Nat) (r : Int × Int) : Bool := decide ((va : Int) ≤ r.2) && decide (r.1 < (va : Int) + n)

/-- The element maps' number of strips S (R269). -/
def KDesc.strips (d : KDesc) : Nat :=
  ((d.bounds.take d.stripdim).foldl (· * ·) 1) * ceilDiv (d.bounds.getD d.stripdim 1) d.striplen

/-- Iterations of a full strip, E (R269). -/
def KDesc.stripIterations (d : KDesc) : Nat := d.striplen * ((d.bounds.drop (d.stripdim + 1)).foldl (· * ·) 1)

/-- The strip an iteration belongs to (R269). -/
def KDesc.stripOf (d : KDesc) (i : List Nat) : Nat :=
  let outer := ((i.zip d.bounds).take d.stripdim).foldl (fun acc p => acc * p.2 + p.1) 0
  outer * ceilDiv (d.bounds.getD d.stripdim 1) d.striplen + i.getD d.stripdim 0 / d.striplen

/-- The iterations of a strip, in order (R269). -/
def KDesc.iterations (d : KDesc) (strip : Nat) : List (List Nat) :=
  (tuples d.bounds).filter (fun i => d.stripOf i == strip)

/-- An integer tuple as an iteration within the bounds, if it is one. -/
def KDesc.within (d : KDesc) (i : List Int) : Option (List Nat) :=
  if i.length = d.bounds.length ∧ (i.zip d.bounds).all (fun p => decide (0 ≤ p.1) && decide (p.1 < (p.2 : Int)))
  then some (i.map Int.toNat) else none

/-- The element an iteration touches: Σ_k c[d][k] × i_k + o[d] (R272). -/
def Operand.touched (o : Operand) (i : List Int) : List Int :=
  (o.coef.zip o.offset).map (fun p => dot p.1 i + p.2)

/-- The producing strip of an element of the pair's tensor (R277), if the producer's iteration space produces it. -/
def Pair.producingStrip (p : Pair) (e : List Int) : Option Nat :=
  (p.desc.within (matVec p.inverse ((e.zip p.operand.offset).map (fun x => x.1 - x.2)))).map p.desc.stripOf

/-- The elements of a tensor that bytes [va, va + n) touch, with whether they are exactly that element's bytes. -/
def Operand.touchedBytes (o : Operand) (va n : Nat) : List (List Int × Bool) :=
  ((tuples o.shape).map (fun t => t.map Int.ofNat)).filterMap (fun e =>
    let a := o.address e
    if a ≤ (va : Int) + n - 1 ∧ (va : Int) ≤ a + o.elemBytes - 1 then
      some (e, decide (a = (va : Int)) && decide (n = o.elemBytes))
    else none)

/-- How an access to memory by a member of a spliced group is carried out (R277, R278). -/
inductive Route where
  /-- as an ordinary access of memory -/
  | memory
  | protection
  /-- the group's value of an element: pair number and address -/
  | region (pair addr : Nat)
  /-- the pair's gate has not passed the element's strip -/
  | gated
  /-- the producer ended before that strip (R283) -/
  | partnerEnded
  deriving DecidableEq, Repr

/-- Kinds of access R277 tells apart. -/
inductive AccessKind where
  /-- a load, or an input stream's read, of an execute context -/
  | load
  /-- a store, or an output stream's chunk, of an execute context -/
  | store
  /-- anything else: atomics, VAMO, KVAPP, matrix-queue instructions, engines, and all accesses of an access context -/
  | other
  deriving DecidableEq, Repr

/-- The run of a pair on a virtual cluster. -/
def SpliceGroup.run (g : SpliceGroup) (pair vcluster : Nat) : Option PairRun :=
  g.runs.find? (fun r => r.place == pair && r.vcluster == vcluster)

/-- Route of an access through one pair, for the strand at a place of the chain; `strip` is its strip (R279). -/
def Pair.route (p : Pair) (g : SpliceGroup) (index place vcluster strip : Nat) (kind : AccessKind) (va n : Nat) : Route :=
  if !(meets va n p.operand.range) || (place != p.producer && place != p.consumer) then .memory
  else
    match kind with
    | .other => .protection
    | _ =>
      let producing := place == p.producer
      if producing != (kind == .store) then .protection
      else
        match p.operand.touchedBytes va n with
        | [] => .memory
        | [(e, true)] =>
          match p.producingStrip e, g.run index vcluster with
          | none, _ => if producing then .protection else .memory
          | some q, some run =>
            let share := p.shares.getD vcluster (0, 0)
            if producing then
              if q == strip then .region index va else .protection
            else if q < share.1 ∨ share.1 + share.2 ≤ q then .protection
            else if q - share.1 < run.gate then .region index va
            else if run.producerEnded then .partnerEnded
            else .gated
          | some _, none => .protection
        | _ => .protection

/-- Route of an access by a strand (R277). -/
def State.route (s : State) (st : Strand) (strip : Nat) (kind : AccessKind) (va n : Nat) : Route :=
  match st.group with
  | none => .memory
  | some (gid, place) =>
    match lookup s.groups gid with
    | none => .memory
    | some g =>
      let routes := (List.range g.pairs.length).filterMap (fun i =>
        match g.pairs[i]? with
        | none => none
        | some p =>
          match p.route g i place st.vcluster strip kind va n with
          | .memory => none
          | r => some r)
      routes.headD .memory

/-- A load by a launch of a partition that meets an elided range recorded before it started raises 0x14 (R281). -/
def State.readsElided (s : State) (st : Strand) (va n : Nat) : Bool :=
  match s.launch? st.launch with
  | none => false
  | some l =>
    s.elided.any (fun r => r.1 == l.part && meets va n (r.2.1, r.2.2.1) && decide (r.2.2.2 ≤ l.id))

/-- The bytes the group holds for an element, if its producer has written it. -/
def State.regionBytes (s : State) (gid pair vcluster addr : Nat) : Option (List Byte) :=
  match lookup s.groups gid with
  | none => none
  | some g => match g.run pair vcluster with
    | none => none
    | some r => lookup r.written addr

/-- The state with a producer's store of an element kept in the group. -/
def State.writeRegion (s : State) (gid pair vcluster addr : Nat) (bs : List Byte) : State :=
  match lookup s.groups gid with
  | none => s
  | some g =>
    let runs := g.runs.map (fun r =>
      if r.place == pair && r.vcluster == vcluster then { r with written := insertKey r.written addr bs } else r)
    { s with groups := insertKey s.groups gid { g with runs } }

/-- The pair's stores are performed in memory as well: it is not elided (R280). -/
def State.writesThrough (s : State) (gid pair : Nat) : Bool :=
  match lookup s.groups gid with
  | none => true
  | some g => match g.pairs[pair]? with
    | none => true
    | some p => !p.elided

end Sys2Proof.Machine
end

