-- ==== Sys2Proof/Machine/Access.lean ====
section
/-!
DEFINITION. Machine/Access.lean: reading and writing bytes at places and at virtual addresses: L1 copies (R88 to R91,
R110), poison (R366), remote modules (R361), shadows of a migration (R335) and the redirection of a splice (R277).
-/
namespace Sys2Proof.Machine

/-- What an access gives. -/
inductive Res (α : Type) where
  | ok (a : α)
  | fault (c : Cause) (va : Nat)
  /-- a walk has to fill first, for this address and intent -/
  | miss (va : Nat) (intent : Intent)
  /-- the access is gated on a strip not yet finished (R278) -/
  | gated
  /-- the strip it is gated on will never finish (R283) -/
  | partnerEnded
  /-- the machine stops -/
  | stop (f : Fault)
  deriving Repr

/-- Sequencing of accesses: the first that is not `ok` decides. -/
def Res.bind {α β : Type} (r : Res α) (f : α → Res β) : Res β :=
  match r with
  | .ok a => f a
  | .fault c va => .fault c va
  | .miss va i => .miss va i
  | .gated => .gated
  | .partnerEnded => .partnerEnded
  | .stop f => .stop f

/-- A result mapped. -/
def Res.map {α β : Type} (f : α → β) (r : Res α) : Res β := r.bind (fun a => .ok (f a))

/-- A place as one number: device memory, then the weight stores, the scratchpads, host memory, and the other modules. -/
def Place.flat : Place → Option Nat
  | .dev pa => some pa
  | .ws die off => some (2 ^ 46 + die * 2 ^ 30 + off)
  | .scratch cluster off => some (2 ^ 50 + cluster * 2 ^ 22 + off)
  | .host pa => some (2 ^ 64 + pa)
  | .remote m pa => some (2 ^ 65 + m * 2 ^ 56 + pa)

/-- The 64-byte unit of a place is poisoned (R366). -/
def State.poisoned (s : State) (p : Place) : Bool := (p.flat.map (fun n => s.poison.contains (n / 64))).getD false

/-- A remote module's memory; one not listed is as it was when the domain formed (log 4). -/
def State.remote (s : State) (m : Nat) : RemoteModule :=
  (lookup s.remotes m).getD { mem := { cells := [] }, reachable := true, owedSince := none }

/-- The n bytes at a place, at its home. -/
def State.homeBytes (s : State) (p : Place) (n : Nat) : List Byte :=
  match p with
  | .scratch k off => (List.range n).map (fun i => (s.cluster k).scratchByte (off + i))
  | .dev pa => s.dev.readBytes pa n
  | .ws die off => if h : die < 2 then (s.ws[die]).readBytes off n else List.replicate n 0
  | .host pa => s.host.readBytes pa n
  | .remote m pa => (s.remote m).mem.readBytes pa n

/-- The L1 line's copy of n bytes from pa, if it holds them all (R91). -/
def L1Line.copy (l : L1Line) (pa n : Nat) : Option (List Byte) :=
  ((List.range n).map (fun i => lookup l.cells (pa + i))).foldr
    (fun b acc => match b, acc with
      | some x, some xs => some (x :: xs)
      | _, _ => none) (some [])

/-- The copies of bytes in a cluster's L1 brought up to date with a write from the cluster (R88). -/
def L1Line.update (l : L1Line) (pa : Nat) (bs : List Byte) : L1Line :=
  { l with cells := l.cells.map (fun c => if pa ≤ c.1 ∧ c.1 < pa + bs.length then (c.1, bs.getD (c.1 - pa) c.2) else c) }

/-- The line holds other bytes than those given, from pa. -/
def L1Line.differs (l : L1Line) (pa : Nat) (bs : List Byte) : Bool :=
  l.cells.any (fun c => decide (pa ≤ c.1) && decide (c.1 < pa + bs.length) && bs.getD (c.1 - pa) c.2 != c.2)

/-- Bytes written at a place, performed at its home, with the writing cluster's L1 copies brought up to date (R88); a write
that no cluster makes names `Config.clusters`. -/
def State.putBytes (s : State) (cluster : Nat) (p : Place) (bs : List Byte) : State :=
  match p with
  | .scratch k off => s.setCluster k ((s.cluster k).scratchPut off bs)
  | .dev pa =>
    let s' := ({ s with dev := s.dev.writeBytes pa bs }).mirror pa bs
    let c := s'.cluster cluster
    if c.l1.isEmpty then s' else s'.setCluster cluster { c with l1 := c.l1.map (fun l => l.update pa bs) }
  | .ws die off => if h : die < 2 then { s with ws := s.ws.set die ((s.ws[die]).writeBytes off bs) } else s
  | .host pa => { s with host := s.host.writeBytes pa bs }
  | .remote m pa =>
    let r := s.remote m
    let r' := { r with mem := r.mem.writeBytes pa bs, owedSince := some (r.owedSince.getD s.now) }
    { s with remotes := insertKey s.remotes m r' }

/-- Whole units that bytes, given as `Place.flat` and count, cover stop being poisoned (R366). -/
def State.heal (s : State) (spans : List (Nat × Nat)) : State :=
  if s.poison.isEmpty then s
  else
    { s with poison := s.poison.filter (fun u =>
        !(List.range 64).all (fun i => spans.any (fun q => decide (q.1 ≤ 64 * u + i) && decide (64 * u + i < q.1 + q.2)))) }

/-- Where a stored span lies in this module, if it does. -/
def State.storedSpan (s : State) (a : Agent) (va n : Nat) : Option (Nat × Nat) :=
  match s.resolve a va .store with
  | .ok p => p.flat.map (fun x => (x, n))
  | _ => none

/-- The bytes of an ordinary line around pa, from the home (R88). -/
def State.freshLine (s : State) (pa : Nat) : L1Line :=
  { gathered := none, cells := (List.range 64).map (fun i => (pa / 64 * 64 + i, s.dev.read (pa / 64 * 64 + i))) }

/-- The lines of an L1 that a read which found other bytes leaves: one that differs could give an older value later (R103). -/
def State.seen (s : State) (cluster : Nat) (p : Place) (bs : List Byte) : State :=
  match p with
  | .dev pa =>
    let c := s.cluster cluster
    if c.l1.any (fun l => l.differs pa bs) then
      s.setCluster cluster { c with l1 := c.l1.filter (fun l => !l.differs pa bs) }
    else s
  | _ => s

/-- Bytes read beyond this module: host bytes are recorded (R368), and another module owes an acknowledgement (R361). -/
def State.farRead (s : State) (cluster : Nat) (p : Place) (bs : List Byte) : State :=
  match p with
  | .host _ => s.hostRead cluster bs
  | .remote m _ =>
    let r := s.remote m
    if r.askedSince.isSome then s else { s with remotes := insertKey s.remotes m { r with askedSince := some s.now } }
  | _ => s

/-- A device read that no line serves: memory is read, and an ordinary line allocated where the access allocates (R88, R90). -/
def State.readMissed (s : State) (cluster pa n : Nat) (alloc : Bool) : List Byte × State :=
  let home := s.dev.readBytes pa n
  let s1 := s.seen cluster (.dev pa) home
  let c1 := s1.cluster cluster
  if alloc && c1.l1.all (fun l => l.gathered.isSome || (l.copy pa n).isNone) then
    (home, s1.setCluster cluster { c1 with l1 := s1.freshLine pa :: c1.l1 })
  else (home, s1)

/-- Reading n bytes of a place for a cluster. A copy held in L1 serves the read; where it differs from the home, a
free value says whether it is still held (log 9). `use` says which lines may serve it (R91, R150); `alloc` allocates an
ordinary line where none holds the bytes (R90). A copy that is older than the bytes read is not served later (R103): lines
stand newest first. -/
def State.readPlace (s : State) (cluster : Nat) (p : Place) (n : Nat) (use : L1Line → Bool) (alloc : Bool) : List Byte × State :=
  match p with
  | .dev pa =>
    let home := s.dev.readBytes pa n
    let c := s.cluster cluster
    match c.l1.findIdx? (fun l => use l && (l.copy pa n).isSome) with
    | some i =>
      let held := ((c.l1[i]?).bind (fun l => l.copy pa n)).getD home
      let older := (c.l1.drop (i + 1)).filter (fun l => !l.differs pa held)
      if held = home then
        (home, if older.length + i + 1 = c.l1.length then s else s.setCluster cluster { c with l1 := c.l1.take (i + 1) ++ older })
      else if Config.l1Kept s.draws then
        (held, (s.setCluster cluster { c with l1 := c.l1.take (i + 1) ++ older }).drawn)
      else (home, (s.readMissed cluster pa n alloc).2.drawn)
    | none => s.readMissed cluster pa n alloc
  | p => (s.homeBytes p n, s.farRead cluster p (s.homeBytes p n))

/-- An acquire at quad scope or wider drops every line of the cluster's L1 data cache (R110). -/
def State.dropL1 (s : State) (cluster : Nat) : State :=
  let c := s.cluster cluster
  if c.l1.isEmpty then s else s.setCluster cluster { c with l1 := [] }

/-- An acquire at a scope performed by a cluster's context (R110). -/
def State.acquire (s : State) (cluster : Nat) (scope : BitVec 3) : State :=
  if 2 ≤ scope.toNat then s.dropL1 cluster else s

/-! ## Accesses by virtual address -/

/-- The context on whose behalf an agent acts. -/
def Agent.contextOf (a : Agent) : CtxId :=
  match a.who with
  | .context _ id => id
  | _ => .execute

/-- A remote module that is unreachable, or a host whose link has dropped, gives 0x13 to a load (R361, R366). -/
def State.unreachable (s : State) : Place → Bool
  | .remote m _ => !(s.remote m).reachable
  | .host _ => !s.linkUp
  | _ => false

/-- 0x13 is owed to the context an agent acts for, charged to the instruction it acts for (R282, R309). -/
def State.owePoison (s : State) (a : Agent) (va : Nat) : State :=
  let by_ : Word × Nat := a.charge.getD (match s.strand? a.slot with
    | some st => ((st.ctx a.contextOf).start, st.strip)
    | none => (0, 0))
  s.updCtx a.slot a.contextOf (fun c => { c with poisoned := c.poisoned.or (some (BitVec.ofNat 64 va, by_.1, by_.2)) })

/-- A load of n naturally aligned bytes, at most 8, by an agent, not redirected by a splice; of a page it keeps, of the version
it translated (R114). -/
def State.loadMemory (s : State) (a : Agent) (va n : Nat) (use : L1Line → Bool) (alloc : Bool) : Res (List Byte × State) :=
  match s.resolve a va .load with
  | .fault c => .fault c va
  | .miss => .miss va .load
  | .absent pa => .stop (.absentAddress pa)
  | .ok p =>
    match a.oldBytes va with
    | some bs => .ok (bs.take n, s)
    | none =>
      if s.poisoned p || s.unreachable p then .fault .uncorrectable va
      else .ok ((s.cacheTranslation a va).readPlace a.cluster p n use alloc)

/-- A store of naturally aligned bytes, at most 8, by an agent, not redirected by a splice. A store to an
unreachable module is not performed, and 0x13 is owed to the context (R361). One to a version that is no longer visible is lost
(R114). -/
def State.storeMemory (s : State) (a : Agent) (va : Nat) (bs : List Byte) : Res State :=
  match s.resolve a va .store with
  | .fault c => .fault c va
  | .miss => .miss va .store
  | .absent pa => .stop (.absentAddress pa)
  | .ok p =>
    if s.unreachable p then .ok (s.owePoison a va)
    else if (a.oldBytes va).isSome then .ok s
    else .ok ((s.cacheTranslation a va).putBytes a.cluster p bs)

/-- A load by a strand's execute context or stream, with the redirection of its splice and the check of R281. -/
def State.loadVA (s : State) (a : Agent) (st : Strand) (strip : Nat) (kind : AccessKind) (va n : Nat) (use : L1Line → Bool) (alloc : Bool) :
    Res (List Byte × State) :=
  if s.readsElided st va n then .fault .elidedRead va
  else
    match s.route st strip kind va n with
    | .memory => s.loadMemory a va n use alloc
    | .protection => .fault .protection va
    | .gated => .gated
    | .partnerEnded => .partnerEnded
    | .region pair addr =>
      match s.regionBytes ((st.group.map (·.1)).getD 0) pair st.vcluster addr with
      | some bs => .ok (bs, s)
      | none => s.loadMemory a va n use alloc

/-- A store by a strand's execute context or output stream, with the redirection of its splice. -/
def State.storeVA (s : State) (a : Agent) (st : Strand) (strip : Nat) (kind : AccessKind) (va : Nat) (bs : List Byte) :
    Res State :=
  match s.route st strip kind va bs.length with
  | .memory => s.storeMemory a va bs
  | .protection | .gated | .partnerEnded => .fault .protection va
  | .region pair addr =>
    let gid := (st.group.map (·.1)).getD 0
    if s.writesThrough gid pair then
      (s.storeMemory a va bs).map (fun s' => s'.writeRegion gid pair st.vcluster addr bs)
    else .ok (s.writeRegion gid pair st.vcluster addr bs)

/-- Bytes read page by page, as an engine or a fetch unit reads a structure (R100, R221). -/
def State.loadSpan (s : State) (a : Agent) (intent : Intent) : Nat → Nat → Res (List Byte)
  | _, 0 => .ok []
  | va, n + 1 =>
    match s.resolve a (va % 2 ^ 64) intent with
    | .fault c => .fault c va
    | .miss => .miss va intent
    | .absent pa => .stop (.absentAddress pa)
    | .ok p =>
      if s.poisoned p || s.unreachable p then .fault .uncorrectable va
      else (s.loadSpan a intent (va + 1) n).map (fun rest => s.homeBytes p 1 ++ rest)

/-- A span has been read at its home for an agent. Of a context or its vector work, no copy in L1 that differs is served later
(R103); an engine's reads are not of its context's order (R109). -/
def State.seenBy (s : State) (a : Agent) (p : Place) (bs : List Byte) : State :=
  match a.who with
  | .engine _ => s
  | _ => s.seen a.cluster p bs

/-- The reads of a span that has been read, as the L1, the recorder and the fabric see them: one for each page (R103, R361,
R368). -/
def State.noteRead (s : State) (a : Agent) (va n : Nat) : State :=
  let at_ := va % 2 ^ 64
  (List.range (if n = 0 then 0 else (at_ + n - 1) / 4096 - at_ / 4096 + 1)).foldl (fun (s : State) (i : Nat) =>
    let first := if i = 0 then at_ else (at_ / 4096 + i) * 4096
    let len := min (at_ + n) ((at_ / 4096 + i + 1) * 4096) - first
    match s.resolve a (first % 2 ^ 64) .load with
    | .ok p => (s.seenBy a p (s.homeBytes p len)).farRead a.cluster p (s.homeBytes p len)
    | _ => s) s

/-- Bytes written one by one; `cluster` is the one whose L1 follows (R88). -/
def State.storeBytes (s : State) (a : Agent) (cluster : Nat) : Nat → List Byte → Res State
  | _, [] => .ok s
  | va, b :: rest =>
    match s.resolve a (va % 2 ^ 64) .store with
    | .fault c => .fault c va
    | .miss => .miss va .store
    | .absent pa => .stop (.absentAddress pa)
    | .ok p =>
      if s.unreachable p then .fault .uncorrectable va
      else (s.putBytes cluster p [b]).storeBytes a cluster (va + 1) rest

/-- A structure written, as an engine, which names no cluster, or VFSAVE writes it; whole units stop being poisoned (R366). -/
def State.storeSpan (s : State) (a : Agent) (cluster va : Nat) (bs : List Byte) : Res State :=
  (s.storeBytes a cluster va bs).map (fun s1 =>
    if s1.poison.isEmpty then s1
    else s1.heal ((List.range bs.length).filterMap (fun i => s1.storedSpan a ((va + i) % 2 ^ 64) 1)))

/-- A leaf with the bits of R332 set: A, and D for a store or an atomic. -/
def withAD (e : Word) (intent : Intent) : Word := e ||| 0x20 ||| (if intentWrites intent then 0x40 else 0)

/-- The walker sets A and D in an entry by a swap; nothing comes between its read and its swap (R332, log 8). -/
def State.setAD (s : State) (addr : Nat) (intent : Intent) : State :=
  let o : Word := BitVec.ofNat 64 (s.dev.readLE addr 8)
  let n := withAD o intent
  if n = o then s else s.putBytes Config.clusters (.dev addr) (leBytes 8 n.toNat)

/-- The aligned group of 16 entries around a level-5 entry (R326). -/
def Leaf.group (l : Leaf) : List Nat := (List.range 16).map (fun i => l.addr / 128 * 128 + 8 * i)

/-- The group maps one 64 KiB block (R326). -/
def State.blockWhole (s : State) (l : Leaf) : Bool :=
  let e := fun (a : Nat) => (BitVec.ofNat 64 (s.dev.readLE a 8) : Word)
  let first := ptePA (e (l.addr / 128 * 128))
  l.level == 5 && pteC64 l.entry && first % 65536 == 0 &&
    (List.range 16).all (fun i =>
      let x := e (l.addr / 128 * 128 + 8 * i)
      pteC64 x && pteV x && pteL x && pteTier x == pteTier l.entry && ptePerm x == ptePerm l.entry &&
        pteU x == pteU l.entry && ptePA x == first + 4096 * i)

/-- The entries a translation through a leaf marks: those of its whole block, or its own (R326). -/
def State.entriesOf (s : State) (l : Leaf) : List Nat := if s.blockWhole l then l.group else [l.addr]

/-- A leaf translated through: A is set, for a store D as well (R326, R332). -/
def State.markLeaf (s : State) (l : Leaf) (intent : Intent) : State :=
  (s.entriesOf l).foldl (fun (s : State) a => s.setAD a intent) s

/-- The leaves under a span that the firmware accesses are marked as by a walk (R332, log 21). -/
def State.fwMark (s : State) (asid va n : Nat) (intent : Intent) : State :=
  (List.range (if n = 0 then 0 else (va + n - 1) / 4096 - va / 4096 + 1)).foldl (fun (s : State) (i : Nat) =>
    let at_ := (va / 4096 + i) * 4096
    match s.firmwarePlace asid at_ intent, s.firmwareLeaf asid at_ with
    | some _, some l => s.markLeaf l intent
    | _, _ => s) s

/-- Bytes the firmware or the host reads in an address space; unmapped ones read as zero (log 21). -/
def State.fwRead (s : State) (asid va n : Nat) : List Byte :=
  (List.range n).flatMap (fun i =>
    match s.firmwarePlace asid (va + i) .load with
    | some p => s.homeBytes p 1
    | none => [0])

/-- Bytes written one by one by the firmware or the host. -/
def State.fwBytes (s : State) (asid va : Nat) : List Byte → State
  | [] => s
  | b :: rest =>
    (match s.firmwarePlace asid va .store with
      | some p => s.putBytes Config.clusters p [b]
      | none => s).fwBytes asid (va + 1) rest

/-- Bytes the firmware or the host writes in an address space; unmapped ones are not written (log 21). Whole units stop being
poisoned (R366). -/
def State.fwWrite (s : State) (asid va : Nat) (bs : List Byte) : State :=
  let s1 := (s.fwMark asid va bs.length .store).fwBytes asid va bs
  if s1.poison.isEmpty then s1
  else s1.heal ((List.range bs.length).filterMap (fun i =>
    ((s1.firmwarePlace asid (va + i) .store).bind Place.flat).map (fun x => (x, 1))))

/-- A span that the firmware has read for a partition: its leaves are marked, and bytes of host memory recorded, page by page (R332,
R368). -/
def State.fwSeen (s : State) (part asid va n : Nat) : State :=
  let s1 := s.fwMark asid va n .load
  (List.range (if n = 0 then 0 else (va + n - 1) / 4096 - va / 4096 + 1)).foldl (fun (s : State) (i : Nat) =>
    let first := if i = 0 then va else (va / 4096 + i) * 4096
    match s.firmwarePlace asid first .load with
    | some (.host _) => s.hostReadFor part (s.fwRead asid first (min (va + n) ((va / 4096 + i + 1) * 4096) - first))
    | _ => s) s1

/-- A doubleword the firmware reads. -/
def State.fwDouble (s : State) (asid va : Nat) : Word := BitVec.ofNat 64 (leNat (s.fwRead asid va 8))

end Sys2Proof.Machine
end

