-- ==== Sys2Proof/Machine/Retire.lean ====
section
/-!
DEFINITION. Machine/Retire.lean: the end of a strand (R39, R241, R255, R289) and what hangs on it: shadows and engine
commands (R113, R255), the ballot unit and its accounting (R250 to R256, R290), a spliced group (R279, R283) and the
launch's words (R351).
-/
namespace Sys2Proof.Machine

/-- FLAGS of a completion word: the lane sets and both scalar sets (R240, R241). -/
def Strand.allFlags (st : Strand) : Flags :=
  st.laneFlags.toList.foldl (fun f g => f ||| g) (st.exec.flags ||| st.access.flags)

/-- Both contexts of a strand, and whether an owner of a shadow is one of them (R113). -/
def Strand.owns (st : Strand) (o : Nat × Nat × CtxId) : Bool := o.1 == st.launch && o.2.1 == st.ordinal

/-- Shadow pages lose the owners that have gone; a page without owners is discarded (R113). -/
def State.dropOwners (s : State) (gone : Nat × Nat × CtxId → Bool) : State :=
  let kept := s.shadows.map (fun sh => { sh with owners := sh.owners.filter (fun o => !gone o) })
  { s with
    shadows := kept.filter (fun sh => !sh.owners.isEmpty)
    pool := s.pool ++ (kept.filter (fun sh => sh.owners.isEmpty)).filterMap (fun sh => sh.moved) }

/-! ## Cores, the Inlet and the sediment log (R339, R340) -/

/-- A core that has handled nothing yet. -/
def Core.blank : Core := 
  { heartbeat := 0, lastBeat := 0, event := none, lock := none, held := [], checkpoint := 0 }

/-- A core by its number. -/
def State.core (s : State) (n : Nat) : Core := (lookup s.cores n).getD Core.blank

/-- The core serves the partition and has not stopped (R339, R340). -/
def State.coreRuns (s : State) (part core : Nat) : Bool :=
  ((lookup s.partitions part).map (fun p => p.cores.contains core)).getD false && (s.core core).event.isNone

/-- An event put into the Inlet: news for a queue (R339, log 108). -/
def State.report (s : State) (queue : Nat) : State := { s with inlet := s.inlet ++ [.report queue] }

/-- An entry of the sediment log (R340). -/
def State.logEntry (s : State) (kind : LogKind) (core queue seq data : Nat) : State :=
  { s with
    log := s.log ++ [{ lsn := s.nextLsn, kind, core, queue, seq, data }]
    nextLsn := s.nextLsn + 1 }

/-- A STATE entry for the new state of a queue or a packet of it (0), a graph (1), a generation (2), a sibling group (3) or a splice
group (11), or of what a command or a resumption changes; how its DATA writes it is open (R340, log 31). -/
def State.logState (s : State) (core queue seq : Nat) (new : List Nat) : State :=
  s.logEntry .state core queue seq (Config.stateData new)

/-- KIND of an entry (R340). -/
def LogKind.code : LogKind → Nat
  | .fetch => 1
  | .begin_ => 2
  | .place => 3
  | .commit => 4
  | .abort => 5
  | .state => 6

/-- The 32 bytes of an entry in the log's ring; where in the second tier that lies is open (R340, log 73). -/
def LogEntry.bytes (x : LogEntry) : List Byte :=
  leBytes 8 x.lsn ++ leBytes 1 x.kind.code ++ leBytes 1 x.core ++ leBytes 2 x.queue ++ List.replicate 4 0 ++ leBytes 8 x.seq ++
    leBytes 8 x.data

/-- The core that writes for a partition what no event of the Inlet makes it write: the lowest that runs. -/
def State.writingCore (s : State) (part : Nat) : Nat :=
  ((((lookup s.partitions part).map (·.cores)).getD []).find? (fun c => s.coreRuns part c)).getD 0

/-! ## The ballot unit -/

/-- Finished: posted and handled, left, or retired (R251). -/
def Sibling.finished (x : Sibling) : Bool := x.post.isSome || x.left || x.ended

/-- Finished, or a cancel taken (R252). -/
def Sibling.isOver (x : Sibling) : Bool := x.finished || x.status == 5

/-- The posts of a group: sibling index, hash and arrival number. -/
def SibGroup.posts (g : SibGroup) : List (Nat × Word × Nat) :=
  (List.range g.siblings.length).filterMap (fun i =>
    match g.siblings[i]? with
    | some x => x.post.map (fun p => (i, p.1, p.2))
    | none => none)

/-- How many posted a hash, late posts included (R252, R253). -/
def SibGroup.count (g : SibGroup) (h : Word) : Nat := (g.posts.filter (fun p => p.2.1 == h)).length

/-- The post that wins under the tie rule: highest count of its hash, then earliest arrival (R252). -/
def SibGroup.tieWinner (g : SibGroup) : Option (Nat × Word × Nat) :=
  g.posts.foldl (fun best p =>
    match best with
    | none => some p
    | some b =>
      if g.count b.2.1 < g.count p.2.1 ∨ (g.count b.2.1 = g.count p.2.1 ∧ p.2.2 < b.2.2) then some p else some b) none

/-- STATE of the SBSTAT word (R253). -/
def GroupState.code : GroupState → Nat
  | .open_ => 0
  | .quorum => 1
  | .tie => 2
  | .noWinner => 3

/-- A sibling's status once the group is decided (R252). -/
def Sibling.resolved (x : Sibling) (index winner : Nat) (hash : Word) : Sibling :=
  if x.status = 7 then
    { x with status := if index = winner then 1 else if (x.post.map (·.1)) = some hash then 2 else 3 }
  else x

/-- Cycles the strands of a sibling have run so far, retired ones included (R256). -/
def State.siblingCycles (s : State) (gid index : Nat) (x : Sibling) (launch : Nat) : Nat :=
  let mine := fun (st : Strand) => st.sibling == some (index, gid) && st.life != .retired
  x.cycles + ((s.strands.filter (fun p => mine p.2)).map (fun p => p.2.clocks)).sum +
    (match s.launch? launch with
     | some l => ((l.preempted.filter mine).map (·.clocks)).sum
     | none => 0)

/-- The group decided in a state with a winner and a hash, in this cycle (R252), which the log and the firmware learn (R339, R340). -/
def State.decideGroup (s : State) (gid : Nat) (g : SibGroup) (how : GroupState) (winner : Nat) (hash : Word) : State :=
  let siblings := (List.range g.siblings.length).filterMap (fun i =>
    (g.siblings[i]?).map (fun x =>
      { (x.resolved i winner hash) with atDecision := s.siblingCycles gid i x g.launch }))
  let g' : SibGroup := { g with state := how, winner, hash, decidedAt := s.now, siblings }
  let s1 := match s.launch? g.launch with
    | some l => (s.logState (s.writingCore g.part) l.queue l.seq [3, gid, how.code, winner, hash.toNat]).report l.queue
    | none => s
  { s1 with sibgroups := insertKey s.sibgroups gid g' }

/-- The tie rule, once every sibling is finished or cancelled and no hash is at Q (R252, R290). -/
def State.settle (s : State) (gid : Nat) : State :=
  match lookup s.sibgroups gid with
  | none => s
  | some g =>
    if g.state = .open_ ∧ g.siblings.all Sibling.isOver then
      match g.tieWinner with
      | some p => s.decideGroup gid g .tie p.1 p.2.1
      | none => s.decideGroup gid g .noWinner 0 0
    else s

/-- The SBSTAT status word with SELF as given (R253). -/
def SibGroup.word (g : SibGroup) (self : Nat) : Word :=
  let n := fun (code : Nat) => (g.siblings.filter (fun x => x.status == code)).length
  let decided := g.state == .quorum || g.state == .tie
  BitVec.ofNat 64 (self + n 6 * 2 ^ 16 + n 5 * 2 ^ 24 + g.posts.length * 2 ^ 32 +
    (if decided then g.count g.hash * 2 ^ 40 + g.winner * 2 ^ 48 else 0) + g.state.code * 2 ^ 62)

/-- The winning hash, 0 while there is none (R253). -/
def SibGroup.winHash (g : SibGroup) : Word := if g.state == .quorum || g.state == .tie then g.hash else 0

/-- The accounting record (R256). -/
def SibGroup.record (g : SibGroup) : List Byte :=
  leBytes 8 (g.word 0).toNat ++ leBytes 8 g.winHash.toNat ++ List.replicate 48 0 ++
    g.siblings.flatMap (fun x =>
      leBytes 8 x.cycles ++ leBytes 8 (x.cycles - x.atDecision) ++ leBytes 8 x.canpc.toNat ++ leBytes 1 x.status ++
        List.replicate 7 0)

/-! ## Pages -/

/-- A stream of some strand pins a page of an address space (R215). -/
def State.pinned (s : State) (asid : Nat) (page : Word) : Bool :=
  let pins := fun (st : Strand) =>
    st.savedPins.contains (asid, page.toNat) || st.streams.toList.any (fun o =>
      match o with
      | some x => x.pins.any (fun q => q.1 == asid && q.2.1 == page.toNat)
      | none => false)
  s.strands.any (fun p => pins p.2) || s.launches.any (fun p => p.2.preempted.any pins)

/-- Pages whose count is zero and that nothing pins any more are freed (R215, R255). -/
def State.sweepPages (s : State) : State :=
  let asidOf := fun (g : SibGroup) => (s.launch? g.launch).map (·.asid) |>.getD 0
  let groups := s.sibgroups.map (fun p =>
    let free := fun (e : Word × Nat) => e.2 == 0 && !s.pinned (asidOf p.2) e.1
    (p.1, { p.2 with
      prefixPages := p.2.prefixPages.filter (fun e => !free e)
      freed := p.2.freed ++ (p.2.prefixPages.filter free).map (·.1) }))
  { s with
    sibgroups := groups
    leaving := s.leaving.filter (fun e => s.pinned e.1 (BitVec.ofNat 64 e.2.1))
    pool := s.pool ++ (s.leaving.filter (fun e => !s.pinned e.1 (BitVec.ofNat 64 e.2.1))).map (fun e => (e.2.2.1, e.2.2.2))
    lingering := s.lingering.filter (fun e => s.pinned e.1 e.2)
    returned := s.returned ++ (s.lingering.filter (fun e => !s.pinned e.1 e.2)).map (·.2) }

/-! ## The end of a strand -/

/-- Strands of one sibling (R343). -/
def Launch.strandsPerSibling (l : Launch) : Nat := l.spec.vclusters * l.spec.shape.strands

/-- Every strand of the sibling has retired. -/
def Launch.siblingEnded (l : Launch) (index : Nat) : Bool :=
  (l.words.filter (fun w => w.ordinal / l.strandsPerSibling == index)).length == l.strandsPerSibling

/-- A sibling drops its references, and a cancelled one releases its private page (R255, R289). -/
def SibGroup.release (g : SibGroup) (index : Nat) (cancelled : Bool) : SibGroup :=
  { g with
    prefixPages := g.prefixPages.map (fun e => (e.1, e.2 - 1))
    freed := g.freed ++ (if cancelled then (g.privatePages[index]?).toList else []) }

/-- The group's last sibling has retired: its accounting record is written and its slot comes free; the pages that nothing
pins any more go back with the launch's completion (R215, R250, R256, R343). -/
def State.closeGroup (s : State) (gid : Nat) (g : SibGroup) (launch : Nat) (l : Launch) : State :=
  let s2 := (s.fwWrite l.asid g.acct.toNat g.record).sweepPages
  let g4 := (lookup s2.sibgroups gid).getD g
  { s2 with
    sibgroups := eraseKey s2.sibgroups gid
    lingering := s2.lingering ++ (g4.prefixPages.map (fun e => (l.asid, e.1)))
    launches := insertKey s2.launches launch { l with pages := g4.freed } }

/-- An aborted launch ends while some of its siblings have strands that never started: they retire without posting, and
the group is closed (R252, R353). -/
def State.abortGroup (s : State) (launch : Nat) : State :=
  match s.launch? launch with
  | none => s
  | some l =>
    match l.siblings.bind (fun gid => (lookup s.sibgroups gid).map (fun g => (gid, g))) with
    | none => s
    | some (gid, g) =>
      if g.launch ≠ launch then s else
      let end_ := fun (x : Sibling) => if x.ended then x else { x with ended := true, status := if x.status = 0 then 6 else x.status }
      let g1 := (List.range g.siblings.length).foldl (fun (h : SibGroup) i =>
        match g.siblings[i]? with
        | some x => if x.released then h else h.release i false
        | none => h) { g with siblings := g.siblings.map end_ }
      let s1 := ({ s with sibgroups := insertKey s.sibgroups gid g1 }).settle gid
      s1.closeGroup gid ((lookup s1.sibgroups gid).getD g1) launch l

/-- What a strand's end does to its sibling group (R251 to R256, R289, R290). -/
def State.siblingGone (s : State) (st : Strand) (status : BitVec 8) : State :=
  match st.sibling, s.launch? st.launch with
  | some (index, gid), some l =>
    match lookup s.sibgroups gid with
    | none => s
    | some g =>
      match g.siblings[index]? with
      | none => s
      | some x =>
        let ended := l.siblingEnded index
        let cancelled := status == 2
        let x' : Sibling := { x with
          cycles := x.cycles + st.clocks
          ended
          canpc := if cancelled && x.canpc == 0 then st.canpc else x.canpc
          status := if cancelled && x.post.isNone && !x.left then 5
            else if ended && x.post.isNone && x.status != 5 then 6 else x.status
          released := x.released || ended }
        let g1 := { g with siblings := g.siblings.set index x' }
        let g2 := if ended && !x.released then g1.release index (x'.status == 5 || cancelled) else g1
        ({ s with sibgroups := insertKey s.sibgroups gid g2 }).settle gid
  | _, _ => s

/-- Once the last sibling of a launch's group has retired and its streams are unbound, the group is closed (R289, R291). -/
def State.closeIfOver (s : State) (launch : Nat) : State :=
  match s.launch? launch with
  | none => s
  | some l =>
    match l.siblings.bind (fun gid => (lookup s.sibgroups gid).map (fun g => (gid, g))) with
    | none => s
    | some (gid, g) => if g.launch = launch ∧ g.siblings.all (·.ended) then s.closeGroup gid g launch l else s

/-- A producer's gate opened in full, as its execute KEND does before it retires (R279). -/
def SpliceGroup.openGate (g : SpliceGroup) (place vcluster : Nat) : SpliceGroup :=
  { g with runs := g.runs.map (fun r =>
      match g.pairs[r.place]? with
      | none => r
      | some p =>
        if r.vcluster = vcluster ∧ p.producer = place then { r with gate := (p.shares.getD vcluster (0, 0)).2 } else r) }

/-- A producer that ends otherwise than by KEND marks its run; a consumer that ends holds back no region (R279, R283). -/
def State.spliceGone (s : State) (st : Strand) (status : BitVec 8) : State :=
  match st.group with
  | none => s
  | some (gid, place) =>
    match lookup s.groups gid with
    | none => s
    | some g =>
      let runs := g.runs.map (fun r =>
        match g.pairs[r.place]? with
        | none => r
        | some p =>
          if r.vcluster ≠ st.vcluster then r
          else if p.producer = place then (if status = 0 then r else { r with producerEnded := true })
          else if p.consumer = place then { r with consumed := p.needs.length }
          else r)
      { s with groups := insertKey s.groups gid { g with runs } }

/-- Strands a launch has in all. -/
def Launch.strandsInAll (l : Launch) : Nat := l.strandsPerSibling * l.instances

/-- What the end of a strand does outside its slot, in the order of R289: its word, its engine commands and shadows,
its sibling's references, its splice. `fr` is its attribution record when it ends by a fault or by its partner's end; the
launch keeps that of the first strand to end with STATUS 0x01 (R282, R283, R351, log 92). -/
def State.strandGone (s : State) (st : Strand) (status cause : BitVec 8) (fr : Option FaultRecord) : State :=
  match s.launch? st.launch with
  | none => s
  | some l =>
    let word : StrandWord := { ordinal := st.ordinal, status, cause, flags := st.allFlags }
    let l' : Launch := { l with
      words := l.words ++ [word]
      faultRecord := if status = 1 then l.faultRecord.or fr else l.faultRecord
      byPartner := l.byPartner || (fr.map (·.byPartner)).getD false }
    let s1 := s.setLaunch st.launch l'
    let s2 := if status = 2 ∨ status = 3 then
        { s1 with engines := s1.engines.map (fun e =>
            if e.owner.1 == st.launch && e.owner.2.1 == st.ordinal then { e with stopped := true } else e) }
      else s1
    (((s2.dropOwners st.owns).siblingGone st status).spliceGone st status).report l.queue

/-- The splice buffer a launch declares, or its group (R33, R276). -/
def State.launchSplice (s : State) (id : Nat) : Nat :=
  match s.launch? id with
  | none => 0
  | some l =>
    match l.group.bind (fun q => lookup s.groups q.1) with
    | some g => g.spliceBytes
    | none => l.spec.shape.splice

/-- The cluster's slots of a launch are freed once all its strands there have retired (R39); the splice buffer in force is then
the largest of the launches that stay (R33). -/
def State.freeSlots (s : State) (cluster launch : Nat) : State :=
  let here := fun (p : Nat × Strand) => clusterOf p.1 == cluster && p.2.launch == launch
  if (s.strands.filter here).all (fun p => p.2.life == .retired) then
    let s1 : State := { s with strands := s.strands.filter (fun p => !here p) }
    match s1.clusterStrands cluster with
    | [] => s1
    | stay => s1.setCluster cluster { s1.cluster cluster with
        spliceBytes := (stay.map (fun p => s1.launchSplice p.2.launch)).foldl max 0 }
  else s

/-- The matrix-queue entries of a slot, oldest first. -/
def Cluster.matrixOf (c : Cluster) (slot : Nat) : List VqEntry :=
  (c.mq.filter (fun e => e.slot == slot)).map (·.entry)

/-- Matrix-queue entries of a slot leave with their strand (R39, R255). -/
def Cluster.dropMatrix (c : Cluster) (slot : Nat) : Cluster :=
  { c with mq := c.mq.filter (fun e => e.slot != slot) }

/-- Vector work of the strand in a slot has started and is not complete. -/
def State.startedWork (s : State) (slot : Nat) (st : Strand) : Bool :=
  (st.vq ++ (s.cluster (clusterOf slot)).matrixOf slot).any (fun e => e.progress == .waiting)

/-- The strand of a slot with nothing left to do (R39): queues, streams, vector work and waits are discarded. -/
def Strand.retire (st : Strand) (status cause : BitVec 8) : Strand :=
  { st with
    life := .retired
    status := status
    endCause := cause
    endFlags := st.allFlags
    vq := []
    pending := []
    reads := []
    ending := none
    queues := Vector.replicate 4 []
    streams := Vector.replicate 8 none
    savedPins := []
    frame := none
    fault := none
    journal := []
    exec := { st.exec with wait := none, retired := true, prefixes := none, preempt := none, cancel := none }
    access := { st.access with wait := none, retired := true, prefixes := none, preempt := none, cancel := none } }

/-- Some requesters give up the walks and page requests they wait for (R355). -/
def State.abandonAll (s : State) (mine : Requester → Bool) : State :=
  let stay := fun (l : List Requester) => l.filter (fun w => !mine w)
  { s with
    walks := s.walks.map (fun p => (p.1, { p.2 with who := stay p.2.who, also := stay p.2.also }))
    pageReqs := s.pageReqs.map (fun p => (p.1, { p.2 with who := stay p.2.who }))
    xlatFaults := s.xlatFaults.filter (fun f => !mine f.who) }

/-- One requester does. -/
def State.abandon (s : State) (who : Requester) : State := s.abandonAll (fun w => w == who)

/-- A strand's lanes give up what they wait for. -/
def State.abandonLanes (s : State) (slot : Nat) : State := (s.abandon (.lanes slot)).abandon (.probe slot)

/-- All that waits on behalf of the strand in a slot, but for its engine commands, gives up (R289, R317). -/
def State.abandonSlot (s : State) (slot : Nat) : State :=
  s.abandonAll (fun w =>
    match w with
    | .context k _ | .lanes k | .probe k | .matrix k | .stream k _ => k == slot
    | .engine _ => false)

/-- The matrix-queue entries of a slot and what waits on its behalf go, as its strand leaves it (R289, R317). -/
def State.vacate (s : State) (slot : Nat) : State :=
  let k := clusterOf slot
  let s1 := s.abandonSlot slot
  if (s1.cluster k).mq.any (fun e => e.slot == slot) then s1.setCluster k ((s1.cluster k).dropMatrix slot) else s1

/-- The strand in a slot ends now with a STATUS and a CAUSE (R39, R241, R255, R289). -/
def State.endNow (s : State) (slot : Nat) (st : Strand) (status cause : BitVec 8) (fr : Option FaultRecord) : State :=
  let s1 := (s.setStrand slot { st with life := .retired }).strandGone st status cause fr
  let s2 := (s1.setStrand slot (st.retire status cause)).vacate slot
  ((s2.freeSlots (clusterOf slot) st.launch).sweepPages).closeIfOver st.launch

/-- A strand that ends while vector work of it has started: what has not started is discarded, and nothing issues (R255). DESIGN
CHOICE: so it is on a double trap too (R309, log 119). -/
def Strand.stopping (st : Strand) (status cause : BitVec 8) (fr : Option FaultRecord) : Strand :=
  { st with
    ending := some (status, cause, fr)
    vq := st.vq.filter (fun e => e.progress == .waiting)
    fault := none
    exec := { st.exec with wait := none, preempt := none, cancel := none }
    access := { st.access with wait := none, preempt := none, cancel := none } }

/-- The strand in a slot ends with a STATUS and a CAUSE, once what has started in its lanes and in the matrix array is
complete (R39, R255). -/
def State.endStrand (s : State) (slot : Nat) (status cause : BitVec 8) (fr : Option FaultRecord) : State :=
  match s.strand? slot with
  | none => s
  | some st =>
    if st.life = .retired ∨ st.ending.isSome then s
    else if s.startedWork slot st then
      let c := s.cluster (clusterOf slot)
      (s.setStrand slot (st.stopping status cause fr)).setCluster (clusterOf slot) { c with
        mq := c.mq.filter (fun e => e.slot != slot || e.entry.progress == .waiting) }
    else s.endNow slot st status cause fr

/-- A strand whose end waits for its started work ends when there is none left (R255). -/
def State.finishEnd (s : State) (slot : Nat) : State :=
  match s.strand? slot with
  | none => s
  | some st =>
    match st.ending with
    | none => s
    | some (status, cause, fr) => if s.startedWork slot st then s else s.endNow slot st status cause fr

/-- A pre-empted strand of a launch ends at once, with nothing resumed; the CANPC of its entry is 0 (R242). Its references are
dropped before the pins kept for it are released (R289). -/
def State.endPreempted (s : State) (launch : Nat) (st : Strand) (status cause : BitVec 8) : State :=
  match s.launch? launch with
  | none => s
  | some l =>
    let s1 := s.setLaunch launch { l with preempted := l.preempted.map (fun x =>
      if x.ordinal = st.ordinal then { x with life := .retired } else x) }
    let s2 := s1.strandGone { st with canpc := 0 } status cause none
    let s3 := match s2.launch? launch with
      | some m => s2.setLaunch launch { m with preempted := m.preempted.filter (fun x => x.ordinal != st.ordinal) }
      | none => s2
    s3.sweepPages.closeIfOver launch

/-- Pre-empted strands that have a slot again and wait there for the rest of their cohort or group end at once as well (R37,
R242). -/
def State.endSeated (s : State) (mine : Strand → Bool) (status cause : BitVec 8) : State :=
  (s.strands.filter (fun p => p.2.life == .preempted && mine p.2)).foldl (fun (s : State) (p : Nat × Strand) =>
    s.endNow p.1 { p.2 with canpc := 0 } status cause none) s

/-- A cancel request delivered to both contexts of a strand, with the cycle of delivery (R242). -/
def Strand.requestCancel (st : Strand) (now : Nat) : Strand :=
  let deliver := fun (c : Context) => if c.retired || c.cancelled || c.cancel.isSome then c else { c with cancel := some now }
  { st with exec := deliver st.exec, access := deliver st.access }

/-- Cancel requests to every unfinished sibling of a group that a quorum has decided (R252). -/
def State.requestSiblingCancels (s : State) (gid : Nat) : State :=
  match lookup s.sibgroups gid with
  | none => s
  | some g =>
    let hit : Nat → Bool := fun i => match g.siblings[i]? with
      | some x => !x.finished
      | none => false
    let siblings := g.siblings.map (fun x => if x.finished then x else { x with cancelReq := true })
    let g' : SibGroup := { g with siblings, cancelsDue := false }
    let s1 : State := { s with
      sibgroups := insertKey s.sibgroups gid g'
      strands := s.strands.map (fun p =>
        match p.2.sibling with
        | some (i, k) =>
          if k = gid ∧ hit i ∧ p.2.life ≠ .retired ∧ p.2.life ≠ .preempted then (p.1, p.2.requestCancel s.now) else p
        | none => p) }
    let mine := fun (st : Strand) => match st.sibling with
      | some (i, k) => k == gid && hit i
      | none => false
    let s2 := s1.endSeated mine 2 0x11
    match s2.launch? g.launch with
    | none => s2
    | some l => (l.preempted.filter mine).foldl (fun acc st => acc.endPreempted g.launch st 2 0x11) s2

/-- At the end of a cycle, with every post of it handled, the cancel requests of the groups decided in it are sent (R252). -/
def State.sendCancels (s : State) : State :=
  (s.sibgroups.filter (fun p => p.2.cancelsDue)).foldl (fun (s : State) (p : Nat × SibGroup) => s.requestSiblingCancels p.1) s

end Sys2Proof.Machine
end

