-- ==== Sys2Proof/Machine/Ops.lean ====
section
/-!
DEFINITION. Machine/Ops.lean: what every instruction shares: taking a trap (R309 to R312, R355), returning from one
(R318, R356), requests and cancellation points (R242, R316), waits (R32), and the frame in which an instruction issues
(R119, R130 to R132, R19, R82).
-/
namespace Sys2Proof.Machine

/-! ## Taking a trap -/

/-- What a trap writes, and what it is charged to (R309, R310, R282). -/
structure Trap where
  cause : Cause
  vector : Bool
  imprecise : Bool
  tval : Word
  tpc : Word
  /-- address of the faulting instruction, its strip and its element -/
  pc : Word
  strip : Nat
  element : Nat
  /-- a limit stop, which is a double trap whatever IE holds (R309, R316) -/
  limit : Bool := false
  deriving DecidableEq, Repr

/-- The attribution record of a fault of a strand (R282); STRIP is 0 in a kernel that is not SPLICEABLE (R351). -/
def Strand.charge (st : Strand) (t : Trap) : FaultRecord :=
  { kernelId := st.kernelId
    strip := if st.spliceable then t.strip else 0
    pc := t.pc
    element := t.element
    cause := t.cause.code
    spliced := st.group.isSome
    byPartner := false }

/-- Address of the instruction an imprecise trap is charged to, while it is handled; else of the oldest VX or MX instruction of
the strand that is not complete; while a frame is held, of those it holds frozen (R20, R232, log 45). -/
def State.vcommit (s : State) (slot : Nat) (st : Strand) (otherwise : Word) : Word :=
  let frozen := fun (pick : Frame → List VqEntry) => (st.frame.map pick).getD []
  let live := ((s.cluster (clusterOf slot)).matrixOf slot ++ frozen (·.matrix) ++ st.vq ++ frozen (·.queued)).filter
    (fun e => e.progress != .done)
  ((st.charged.or (st.fault.map (·.pc))).or (live.head?.map (·.pc))).getD otherwise

/-- A VPART or VJOIN of the strand in the slot has started and its repartition is not yet in effect (R24). -/
def State.repartitioning (s : State) (slot : Nat) : Bool :=
  match (s.cluster (clusterOf slot)).repartition with
  | some r => r.by_ == slot % 4
  | none => false

/-- Results that have been computed arrive in their registers, which stop being pending (R19). -/
def Strand.deliverReads (st : Strand) : Strand :=
  { st with
    exec := st.reads.foldl (fun c r => c.setReg (BitVec.ofNat 5 r.reg) r.value) st.exec
    pending := st.pending.filter (fun r => !(st.reads.any (fun x => x.reg == r)))
    reads := [] }

/-- The entry as the frame holds it: what has not been performed is translated afresh from its first unfinished element on
(R311, R355). -/
def VqEntry.frozen (e : VqEntry) : VqEntry :=
  { e with progress := .queued, touch := [], done := [], passed := false, sent := 0, snap := []
           held := [], places := [], results := [] }

/-- An MX instruction of the slot has started in the matrix array and is not complete: it runs to its end before a trap is
entered (R312). -/
def State.arrayBusy (s : State) (slot : Nat) : Bool :=
  ((s.cluster (clusterOf slot)).matrixOf slot).any (fun e => e.progress == .waiting)

/-- The strand's unfinished vector work frozen as the vector frame (R312, R355). An empty frame is not held. -/
def State.freezeFrame (s : State) (slot : Nat) (imprecise : Bool) (tpc : Word) : State :=
  match s.strand? slot with
  | none => s
  | some st0 =>
    if st0.frame.isSome then s
    else
      let k := clusterOf slot
      let c := s.cluster k
      let st := st0.deliverReads
      let started := s.repartitioning slot
      let kept := if started then st.vq.take 1 else []
      let queued := ((if started then st.vq.drop 1 else st.vq).filter (fun e => e.progress != .done)).map VqEntry.frozen
      let matrix := ((c.matrixOf slot).filter (fun e => e.progress != .done)).map VqEntry.frozen
      let held := !queued.isEmpty || !matrix.isEmpty || st.streams.toList.any (·.isSome)
      let s1 := if (c.matrixOf slot).isEmpty then s else s.setCluster k (c.dropMatrix slot)
      let s2 := (s1.abandonLanes slot).abandon (.matrix slot)
      let first := (matrix ++ queued).head?
      let vstart : BitVec 13 := BitVec.ofNat 13 ((first.bind (·.element)).getD 0)
      let frame : Frame := {
        queued, matrix
        pending := st.pending
        sr := st.sr
        vimprecise := imprecise
        vcommit := ((st.charged.or (st.fault.map (·.pc))).or (first.map (·.pc))).getD tpc
        mode := c.mode
        vstart
        streams := Vector.replicate 8 none
        owner := (st.launch, st.ordinal) }
      s2.setStrand slot
        (if held then { st with vq := kept, pending := [], frame := some frame, vstart } else { st with vq := kept })

/-- The context a trap leaves (R309); PC and TPC, status, TCAUSE and TVAL written in one step. -/
def Context.trapped (c : Context) (t : Trap) : Context :=
  { c with
    ppriv := c.priv
    priv := true
    ie := false
    intrap := true
    vimprecise := t.imprecise
    causeVector := t.vector
    cause := t.cause.code
    tpc := t.tpc
    tval := t.tval
    pc := c.tvec
    prefixes := none
    wait := none }

/-- Taking a trap (R309): a double trap ends the strand with STATUS 0x01 and no handler runs. -/
def State.enterTrap (s : State) (slot : Nat) (id : CtxId) (t : Trap) : State :=
  match s.strand? slot with
  | none => s
  | some st =>
    let c := st.ctx id
    if c.intrap && !(t.cause == .preemption && c.ie && !t.limit) then
      (s.recordFault st t.cause).endStrand slot 1 t.cause.code (some (st.charge t))
    else
      let s0 := (s.recordFault st t.cause).abandon (.context slot id)
      let s1 := if id = .execute then s0.freezeFrame slot t.imprecise t.tpc else s0
      s1.updCtx slot id (fun c => c.trapped t)

/-- A precise trap of the instruction now issuing (R309); of a VX or MX instruction the record's ELEMENT is VSTART (R282). -/
def State.preciseTrap (s : State) (slot : Nat) (id : CtxId) (cause : Cause) (vector : Bool) (tval : Word) : State :=
  match s.strand? slot with
  | none => s
  | some st =>
    let at_ := (st.ctx id).start
    s.enterTrap slot id
      { cause, vector, imprecise := false, tval, tpc := at_, pc := at_, strip := st.strip
        element := if vector then st.vstart.toNat else 0 }

/-- A precise trap of what the context comes to, once the array is not busy for its strand (R312). -/
def State.trapNow (s : State) (slot : Nat) (id : CtxId) (cause : Cause) (vector : Bool) (tval : Word) : State :=
  if id = .execute ∧ s.arrayBusy slot then s else s.preciseTrap slot id cause vector tval

/-- The instruction that waits has issued (R82): it is neither a fetch, nor a commit that waits, nor a wait before issue (R31,
R257). -/
def Waiting.issued (w : Waiting) : Bool :=
  match w.kind, w.instr with
  | .commit, _ | .register _, _ | .slots, _ | _, none | _, some (.vbind _) => false
  | _, some _ => true

/-- The context as a trap that is not precise finds it: an instruction that has issued and is abandoned counts, and counts
again when it issues again (R82, R309). -/
def Context.counted (c : Context) (issuing : Bool) : Context :=
  if issuing || (c.wait.map Waiting.issued).getD false then { c with issues := c.issues + 1 } else c

/-- A trap taken between instructions: an engine command's error or an uncorrectable error, charged to the command or to the
instruction that met it, a request (R258, R282, R309). -/
def State.asyncTrap (s : State) (slot : Nat) (id : CtxId) (cause : Cause) (tval : Word) (charge : Option (Word × Nat))
    (limit issuing : Bool) : State :=
  match s.strand? slot with
  | none => s
  | some st =>
    let at_ := (st.ctx id).start
    let by_ := charge.getD (at_, st.strip)
    (s.updCtx slot id (fun c => c.counted issuing)).enterTrap slot id
      { cause, vector := false, imprecise := false, tval, tpc := at_, pc := by_.1, strip := by_.2, element := 0, limit }

/-- The imprecise fault the lanes or the matrix array have detected, taken (R309, R311). -/
def State.impreciseTrap (s : State) (slot : Nat) : State :=
  match s.strand? slot with
  | none => s
  | some st =>
    match st.fault with
    | none => s
    | some f =>
      ((s.setStrand slot { st with fault := none, charged := some f.pc }).updCtx slot .execute (fun c => c.counted false)).enterTrap
        slot .execute
        { cause := f.cause, vector := true, imprecise := true, tval := f.tval, tpc := st.exec.start,
          pc := f.pc, strip := f.strip, element := f.element }

/-! ## Returning from a trap -/

/-- The status a TRAPRET restores, and the address it goes to (R318). -/
def Context.returned (c : Context) : Context :=
  { c with
    priv := c.ppriv
    ie := true
    intrap := false
    vimprecise := false
    pc := c.tpc
    issues := c.issues + 1
    prefixes := none
    wait := none }

/-- A request with a REASON other than 0x01 and 0xFF that is returned from without YIELD is delivered again (R356). -/
def Context.redelivered (c : Context) (now : Nat) : Context :=
  if c.cause = 0x10 then
    match c.serving with
    | r :: outer =>
      if r = 0x01 ∨ r = 0xFF then { c with serving := outer }
      else { c with serving := outer, preempt := some now, reason := r }
    | [] => c
  else c

/-- The instructions of a held frame re-enter the VQ and the matrix queue in their order, and its pending registers
are pending again (R318). A matrix queue that is full does not stop them (R18 binds the move from the VQ). A VX
instruction that had started behind matrix work resumes where it stood; the oldest one that had started, at VSTART as it now
stands (R74, R355). -/
def State.thaw (s : State) (slot : Nat) : State :=
  match s.strand? slot with
  | none => s
  | some st =>
    match st.frame with
    | none => s
    | some f =>
      let k := clusterOf slot
      let c := s.cluster k
      let standing := fun (l : List VqEntry) => (l.take 1).map (fun e => { e with element := e.element.map (fun _ => st.vstart.toNat) }) ++ l.drop 1
      let s1 := if f.matrix.isEmpty then s
        else s.setCluster k { c with mq := c.mq ++ (standing f.matrix).map (fun e => { slot, entry := e }) }
      let behind : Option Nat := if f.matrix.isEmpty then none else (f.queued.head?).bind (·.element)
      s1.setStrand slot { st with
        vq := st.vq ++ (if f.matrix.isEmpty then standing f.queued else f.queued)
        pending := f.pending
        frame := none
        vstart := (behind.map (BitVec.ofNat 13)).getD st.vstart }

/-- Returning from a trap (R318, R356). -/
def State.trapReturn (s : State) (slot : Nat) (id : CtxId) : State :=
  let s1 := if id = .execute then (s.thaw slot).updStrand slot (fun st => { st with charged := none }) else s
  s1.updCtx slot id (fun c => c.returned.redelivered s.now)

/-! ## Requests and cancellation points -/

/-- The other context. -/
def otherCtx : CtxId → CtxId
  | .execute => .access
  | .access => .execute

/-- A context takes a cancel; the strand is cancelled once both have, or the other has completed KEND (R242, R255). -/
def State.takeCancel (s : State) (slot : Nat) (id : CtxId) : State :=
  match s.strand? slot with
  | none => s
  | some st =>
    let c := st.ctx id
    let c' : Context := { c with cancel := none, preempt := none, cancelled := true, wait := none, prefixes := none }
    let st1 := (if id = .execute then { st with canpc := c.start } else st).setCtx id c'
    let s1 := s.setStrand slot st1
    let o := st1.ctx (otherCtx id)
    if o.cancelled || o.retired || (o.yielded && o.cancel.isSome) then
      match s.launch? st.launch with
      | some l => if l.aborted then s1.endStrand slot 3 0 none else s1.endStrand slot 2 0x11 none
      | none => s1.endStrand slot 2 0x11 none
    else s1

/-- A context takes a pre-emption request: a trap with cause 0x10, TVAL holding REASON (R309, R310, R316). -/
def State.takePreempt (s : State) (slot : Nat) (id : CtxId) (limit issuing : Bool) : State :=
  match s.strand? slot with
  | none => s
  | some st =>
    let c := st.ctx id
    (s.updCtx slot id (fun c => { c with preempt := none, serving := c.reason :: c.serving })).asyncTrap slot id .preemption
      (zext c.reason) none limit issuing

/-- The request a context takes at a cancellation point, the cancel first; none when there is none to take (R242). `issuing`
says that the point is an instruction's own first step. A trap waits while the array is busy for the strand (R312). -/
def State.takeRequest (s : State) (slot : Nat) (id : CtxId) (issuing : Bool) : Option State :=
  match s.strand? slot with
  | none => none
  | some st =>
    let c := st.ctx id
    if c.cancel.isSome then some (s.takeCancel slot id)
    else if c.preempt.isSome && c.ie then
      some (if id = .execute ∧ s.arrayBusy slot then s else s.takePreempt slot id false issuing)
    else none

/-- A context has had a request for as long as CANLIMIT allows (R316). -/
def Strand.overdue (st : Strand) (c : Context) (now : Nat) : Bool :=
  st.canlimit != 0 &&
    ((c.cancel.map (fun t => decide (st.canlimit.toNat ≤ now - t))).getD false ||
     (c.preempt.map (fun t => decide (st.canlimit.toNat ≤ now - t))).getD false)

/-- The execute context has taken a cancel, or is overdue: it starts no further VX or MX instruction (R316, log 96). -/
def Strand.startsNone (st : Strand) (now : Nat) : Bool := st.exec.cancelled || st.overdue st.exec now

/-- A gated load, or a stream read, waits in the strand's lanes, or an MX instruction of it for a chunk (R32). -/
def State.gatedWait (s : State) (slot : Nat) (st : Strand) : Bool :=
  (st.vq ++ (s.cluster (clusterOf slot)).matrixOf slot).any (fun e => e.progress == .gated)

/-- The context stands between the words of a prefixed sequence, where it takes nothing (R130, R242). -/
def Context.midSequence (c : Context) : Bool := c.prefixes.isSome && (c.wait.bind (·.instr)).isNone

/-- What a context takes at an instruction boundary before it issues: the error of an engine command (R258), an
uncorrectable error (R366), an imprecise fault (R309), and a request while its lanes wait gated (R32). None of them is taken
between the words of a sequence (R130), and a trap waits while the array is busy for the strand (R312). -/
def State.boundary (s : State) (slot : Nat) (id : CtxId) : Option State :=
  match s.strand? slot with
  | none => none
  | some st =>
    let c := st.ctx id
    let trap := fun (t : State) => some (if id = .execute ∧ s.arrayBusy slot then s else t)
    if c.midSequence then none
    else
      match c.engineErrors, c.poisoned with
      | (cause, va, strip) :: rest, _ =>
        trap ((s.updCtx slot id (fun c => { c with engineErrors := rest })).asyncTrap slot id cause va (some (va, strip)) false false)
      | [], some (va, pc, strip) =>
        trap ((s.updCtx slot id (fun c => { c with poisoned := none })).asyncTrap slot id .uncorrectable va (some (pc, strip)) false
          false)
      | [], none =>
        if id = .execute ∧ st.fault.isSome then trap (s.impreciseTrap slot)
        else if id = .execute ∧ s.gatedWait slot st then s.takeRequest slot id false
        else none

/-! ## How an instruction issues -/

/-- What an instruction's own execution comes to. -/
inductive Act where
  /-- complete: the PC moves past it -/
  | done (s : State)
  /-- complete, and the PC goes elsewhere -/
  | jump (s : State) (pc : Word)
  /-- a precise fault, with TVAL -/
  | trap (cause : Cause) (tval : Word) (s : State)
  /-- a wait, nothing done -/
  | wait (w : Wait) (s : State)
  /-- a wait for a translation -/
  | park (a : Agent) (va : Nat) (intent : Intent) (s : State)
  /-- the strand has trapped, ended or taken a request instead -/
  | instead (s : State)
  /-- the machine stops -/
  | halt (f : Fault)
  deriving DecidableEq, Repr

/-- What an instruction knows as it issues. -/
structure Env where
  slot : Nat
  ctx : CtxId
  st : Strand
  c : Context
  imx : Option (BitVec 27)
  mattr : Option (BitVec 3 × BitVec 3 × BitVec 3)
  deriving DecidableEq, Repr

/-- How an instruction takes an IMX (R131). -/
inductive ImxUse where
  | refused
  | widens
  /-- the widened immediate must be zero -/
  | zero
  deriving DecidableEq, Repr

/-- Which memory access an instruction is, for MATTR (R132). -/
inductive MattrUse where
  | refused
  | load (plain : Bool)
  | store (plain : Bool)
  | amo
  deriving DecidableEq, Repr

/-- What the formats say of an instruction. -/
structure Form where
  words : Nat
  imx : ImxUse
  mattr : MattrUse
  /-- raises 0x03 while PRIV = 0 -/
  priv : Bool
  /-- a VX or MX instruction: its precise faults set TCAUSE.VECTOR (R307) -/
  vector : Bool := false
  deriving DecidableEq, Repr

/-- A MATTR payload an instruction takes: scope, cache and order codes against its kind (R132). -/
def MattrUse.admits : MattrUse → BitVec 3 × BitVec 3 × BitVec 3 → Bool
  | .refused, _ => false
  | .load plain, (scope, _, order) =>
    (order == 0 || order == 1 || order == 7) && !(plain && order == 1 && scope == 7)
  | .store plain, (scope, _, order) =>
    (order == 0 || order == 2 || order == 7) && !(plain && order == 2 && scope == 7)
  | .amo, (_, _, order) => order.toNat < 4 || order == 7

/-- The prefixes read make an illegal sequence with this instruction (R130 to R132). -/
def Prefixes.illegal (p : Prefixes) (f : Form) : Bool :=
  p.rejected || (p.imx.isSome && f.imx == .refused) ||
    (match p.mattr with
     | some m => !f.mattr.admits m
     | none => false)

/-- The first word of an instruction, zero-extended, for TVAL (R310). -/
def word0 (i : Instr) : Word := zext (((encode i).getD []).headD 0)

/-- TVAL of causes 0x01 to 0x03: the first word at TPC (R310). -/
def Context.firstWord (c : Context) (i : Instr) : Word := (c.prefixes.map (fun p => zext p.word)).getD (word0 i)

/-- A fetched word that makes its sequence illegal by itself: a second prefix of a kind, or a kind 10 or 11 (R119). -/
def Context.spoils (c : Context) (w0 : BitVec 32) : Bool :=
  classOf w0 == 7 &&
    (match (bits w0 27 2).toNat, c.prefixes with
     | 0, some p => p.imx.isSome
     | 1, some p => p.mattr.isSome || p.rejected
     | 0, none | 1, none => false
     | _, _ => true)

/-- The context past an instruction: ISSUES counts it (R82), the prefixes are used up, no wait stands. -/
def Context.advance (c : Context) (pc : Word) : Context :=
  { c with pc, issues := c.issues + 1, prefixes := none, wait := none }

/-- The context in a wait; a wait of the same kind that is already in progress goes on (R32). -/
def Context.await (c : Context) (w : Wait) (now : Nat) (i : Option Instr) : Context :=
  match c.wait with
  | some x => if x.kind = w then c else { c with wait := some { kind := w, since := now, instr := i } }
  | none => { c with wait := some { kind := w, since := now, instr := i } }

/-- Waits whose beginning is a cancellation point (R32, R242), with the two of SPLPT and KEND's (R240, R279, R309). -/
def Wait.point : Wait → Bool
  | .queue _ | .watermark _ _ | .barrier | .region | .gate => true
  | _ => false

/-- An act carried out by the context now issuing. A trap waits while the array is busy for the strand (R312). -/
def State.conclude (s : State) (slot : Nat) (id : CtxId) (i : Instr) (words : Nat) (vector : Bool) : Act → Out
  | .done s' => .next (s'.updCtx slot id (fun c => c.advance (c.pc + BitVec.ofNat 64 (4 * words))))
  | .jump s' pc => .next (s'.updCtx slot id (fun c => c.advance pc))
  | .trap cause tval s' =>
    if id = .execute ∧ s.arrayBusy slot then .next s else .next (s'.preciseTrap slot id cause vector tval)
  | .wait w s' =>
    let s1 := s'.updCtx slot id (fun c => c.await w s.now (some i))
    if w.point then .next ((s1.takeRequest slot id false).getD s1) else .next s1
  | .park a va intent s' =>
    .next ((s'.startWalk a va intent).updCtx slot id (fun c => c.await .translation s.now (some i)))
  | .instead s' => .next s'
  | .halt f => .fault f

/-- A register among those given is pending for the execute context (R19). -/
def Strand.stalls (st : Strand) (regs : List Reg) : Option Reg := regs.find? (fun r => st.pending.contains r.toNat)

/-- An instruction issues: the checks of R119 in their order, the pending registers of R19, then its own execution. -/
def State.issue (s : State) (i : Instr) (f : Form) (regs : List Reg) (body : Env → Act) : Out :=
  match s.strand? s.cur.slot with
  | none => .next s
  | some st =>
    let c := st.ctx s.cur.ctx
    let e : Env := { slot := s.cur.slot, ctx := s.cur.ctx, st, c,
                     imx := c.prefixes.bind (·.imx), mattr := c.prefixes.bind (·.mattr) }
    let act : Act :=
      if (c.prefixes.map (fun p => p.illegal f)).getD false then .trap .illegalPrefix (c.firstWord i) s
      else if f.imx = .zero ∧ (e.imx.getD 0) ≠ 0 then .trap .illegalInstruction (c.firstWord i) s
      else if f.priv ∧ !c.priv then .trap .privileged (c.firstWord i) s
      else
        match (if s.cur.ctx = .execute then st.stalls regs else none) with
        | some r => .wait (.register r.toNat) s
        | none => body e
    s.conclude s.cur.slot s.cur.ctx i f.words f.vector act

/-- An event that concerns nothing now is a turn in which nothing happens (log 3). -/
def State.when (s : State) (enabled : Bool) (t : State) : Out := if enabled then .next t else .next s

/-- The context's register. -/
def Env.reg (e : Env) (r : Reg) : Word := e.c.reg r

/-- A scalar register of the issuing context written. -/
def State.setReg (s : State) (e : Env) (r : Reg) (x : Word) : State := s.updCtx e.slot e.ctx (fun c => c.setReg r x)

/-- An immediate of n bits, widened by an IMX to n + 27 bits, sign-extended (R131). -/
def Env.imm (e : Env) {n : Nat} (x : BitVec n) : Word :=
  match e.imx with
  | some p => sext (p ++ x)
  | none => sext x

/-- The agent a context is (R305): an access that waits for its translation keeps the ASID and PTROOT it issued with (R324). -/
def Strand.agent (st : Strand) (slot : Nat) (id : CtxId) : Agent :=
  let c := st.ctx id
  let a := agentOf slot st c.priv (.context slot id)
  match c.wait.bind (·.space) with
  | some x => { a with asid := x.1.toNat, root := x.2.toNat }
  | none => a

/-- The agent the issuing context is. -/
def Env.agent (e : Env) : Agent := e.st.agent e.slot e.ctx

/-- The outcome of an access made by an instruction. -/
def Res.act {α : Type} (r : Res α) (e : Env) (s : State) (ok : α → Act) : Act :=
  match r with
  | .ok a => ok a
  | .fault c va => .trap c (BitVec.ofNat 64 va) s
  | .miss va i => .park e.agent va i s
  | .gated => .wait .gate s
  | .partnerEnded => .instead (s.endStrand e.slot 2 0x11 (some {
      kernelId := e.st.kernelId, strip := e.st.strip, pc := e.c.start, element := 0, cause := 0x11,
      spliced := true, byPartner := true }))
  | .stop f => .halt f

end Sys2Proof.Machine
end

