-- ==== Sys2Proof/Machine/Flags.lean ====
section
/-!
DEFINITION. Machine/Flags.lean: sticky flag sets, the flags that trap, and rounding modes as they resolve (R47, R48,
R50, R56, R83, R84).
-/
namespace Sys2Proof.Machine

/-- The flags that trap under an XTRAPEN: RP, NV, DZ and OF, where enabled (R84). -/
def trapping (flags enabled : Flags) : Flags := flags &&& enabled &&& 0x5C

/-- A rounding mode with 110 resolved to XRM (R47, R48). -/
def resolveRm (rm xrm : BitVec 3) : BitVec 3 := if rm = 6 then xrm else rm

/-- TVAL of an arithmetic trap: the flags that trapped and the element (R310). -/
def arithmeticTval (flags : Flags) (element : Nat) : Word := BitVec.ofNat 64 (flags.toNat + element % 65536 * 2 ^ 32)

/-- Flags set in the set of a lane (R22, R56). -/
def Strand.raise (st : Strand) (lane : Nat) (f : Flags) : Strand :=
  if h : lane < 64 then { st with laneFlags := st.laneFlags.set lane (st.laneFlags[lane] ||| f) } else st

/-- A step of the state word of a lane: its number and the strand after it (R50, R51). -/
def Strand.draw (st : Strand) (lane : Nat) : Nat × Strand :=
  if h : lane < 64 then
    let x := srStep st.sr[lane]
    (srNumber x, { st with sr := st.sr.set lane x })
  else (0, st)

/-- The OR of the sets a context's XFLAGS shows: the 64 lane sets and its own scalar set, or the scalar set alone in
the access context (R83). -/
def Strand.xflags (st : Strand) (id : CtxId) : Flags :=
  match id with
  | .execute => st.laneFlags.toList.foldl (fun f g => f ||| g) st.exec.flags
  | .access => st.access.flags

/-- A write of XFLAGS (R83). -/
def Strand.writeXflags (st : Strand) (id : CtxId) (x : Flags) : Strand :=
  match id with
  | .execute => { st with laneFlags := Vector.replicate 64 x, exec := { st.exec with flags := x } }
  | .access => { st with access := { st.access with flags := x } }

/-- A write of XSEED (R50, R52): the lane words in the execute context, and the context's scalar word. -/
def Strand.writeXseed (st : Strand) (id : CtxId) (z : Half) : Strand :=
  match id with
  | .execute => { st with seed := z, sr := srLanes z, exec := { st.exec with sr := srScalar z } }
  | .access => { st with seed := z, access := { st.access with sr := srScalar z } }

end Sys2Proof.Machine
end

