-- ==== Sys2Proof/Machine/Operands.lean ====
section
/-!
DEFINITION. Machine/Operands.lean: elements of vector registers (R22, R41), effective lengths (R71, R72), active elements
(R73), and for every VX and MX instruction what its commit resolves: its length, the registers it reads and writes,
the overlaps and extents R161 forbids, the tags it admits (R69, R160) and the tags it sets.
-/
namespace Sys2Proof

/-! ## Fields -/

/-- imm[12] = 1: a broadcast (R75) or an offset held in a register (R181). -/
def VxC.scalar (f : VxC) : Bool := bit f.imm 12
/-- The register a broadcast or an offset names. -/
def VxC.immReg (f : VxC) : Reg := bits f.imm 0 5
/-- imm[3:0], a target tag (R177). -/
def VxC.target (f : VxC) : BitVec 4 := bits f.imm 0 4

/-- Data sources of a form with two sources (R75). -/
def VxC.two (f : VxC) : List Nat := if f.scalar then [f.va.toNat] else [f.va.toNat, f.vb.toNat]
/-- Data sources of a form with three sources. -/
def VxC.three (f : VxC) : List Nat := f.two ++ [f.vc.toNat]
end Sys2Proof

namespace Sys2Proof.Machine

/-! ## Elements -/

/-- Element group j of a register (R22). -/
def vgroup (r : VReg) (j : Nat) : Word := if h : j < 256 then r[j] else 0

/-- Element i of a register, at width w (R22). -/
def velem (r : VReg) (w i : Nat) : Nat := (vgroup r (i * w / 64)).toNat / 2 ^ (i * w % 64) % 2 ^ w

/-- The register with element i, at width w, written. -/
def vput (r : VReg) (w i x : Nat) : VReg :=
  let j := i * w / 64
  let at_ := i * w % 64
  if h : j < 256 then
    let mask : Word := BitVec.ofNat 64 ((2 ^ w - 1) * 2 ^ at_)
    r.set j ((r[j] &&& ~~~mask) ||| BitVec.ofNat 64 (x % 2 ^ w * 2 ^ at_))
  else r

/-- A register with zero bits. -/
def vzero : VReg := Vector.replicate 256 0

/-- A vector register of a strand. -/
def Strand.vreg (st : Strand) (r : Nat) : VReg := if h : r < 32 then st.v[r] else vzero

/-- A vector register written. -/
def Strand.setVreg (st : Strand) (r : Nat) (x : VReg) : Strand := if h : r < 32 then { st with v := st.v.set r x } else st

/-- Elements of a register at a width (R71). -/
def vlmax (w : Nat) : Nat := 16384 / w

/-- Element i of the group of registers that begins at r. -/
def Strand.elem (st : Strand) (r w i : Nat) : Nat := velem (st.vreg (r + i / vlmax w)) w (i % vlmax w)

/-- Element i of the group of registers that begins at r, written. -/
def Strand.setElem (st : Strand) (r w i x : Nat) : Strand :=
  st.setVreg (r + i / vlmax w) (vput (st.vreg (r + i / vlmax w)) w (i % vlmax w) x)

/-- A list of elements written into the group at r. -/
def Strand.setElems (st : Strand) (r w : Nat) (l : List (Nat × Nat)) : Strand :=
  l.foldl (fun (st : Strand) (p : Nat × Nat) => st.setElem r w p.1 p.2) st

/-- The tag of a register. -/
def tagAt (tags : Vector Tag 32) (r : Nat) : Tag := if h : r < 32 then tags[r] else 8

/-- A tag set. -/
def setTag (tags : Vector Tag 32) (r : Nat) (t : Tag) : Vector Tag 32 := if h : r < 32 then tags.set r t else tags

/-- Element i is active (R73). -/
def Strand.active (st : Strand) (m mi : Bool) (i : Nat) : Bool :=
  decide (st.vstart.toNat ≤ i) && (!m || (velem (st.vreg 0) 1 i == 1) != mi)

/-- The lane that processes element group j (R22). -/
def laneOf (lanes : Nat × Nat) (j : Nat) : Nat := lanes.1 + j % (max 1 lanes.2)

/-! ## Lengths -/

/-- The effective length of a 1D instruction (R71). -/
def len1 (g : Vector Word 32) (gl : Reg) (limit : Nat) : Nat := Nat.min (snapReg g gl).toNat limit

/-- rows′ and cols′ from counts (R72). -/
def clip2 (rows cols limit : Nat) : Nat × Nat :=
  let c := Nat.min cols limit
  (if c = 0 then 0 else Nat.min rows (limit / c), c)

/-- rows′ and cols′ of a packed length register (R72). -/
def len2 (g : Vector Word 32) (gl : Reg) (limit : Nat) : Nat × Nat :=
  let x := (snapReg g gl).toNat
  clip2 (x / 2 ^ 32) (x % 2 ^ 32) limit

/-! ## What a commit resolves -/

/-- What a VX or MX instruction resolves at commit. -/
structure Plan where
  /-- effective length n; elements of a 2D instruction -/
  n : Nat
  /-- cols′, of a 2D instruction -/
  cols : Nat := 0
  /-- vector registers read -/
  reads : List Nat := []
  /-- vector registers of which it may write a bit or the tag (R308) -/
  writes : List Nat := []
  /-- an extent or an overlap that R161 or the entry forbids -/
  illegal : Bool := false
  /-- the register, and its tag, that makes it raise 0x09 (R310) -/
  bad : Option (Nat × Tag) := none
  /-- tags it sets -/
  newTags : List (Nat × Tag) := []
  /-- accumulator tiles it reads or writes -/
  tiles : List Nat := []
  /-- accumulator tile it may write (R308) -/
  tileWrite : Option Nat := none
  deriving DecidableEq, Repr

/-- k registers from b upward. -/
def runOf (b k : Nat) : List Nat := (List.range k).map (fun i => b + i)

/-- k registers from b upward pass v31 (R161). -/
def passes (b k : Nat) : Bool := decide (32 < b + k)

/-- Two sets of registers meet. -/
def overlaps (a b : List Nat) : Bool := a.any (fun r => b.contains r)

/-- The first register, in field order, whose tag is not admitted; else the first whose tag differs from the first's (R310). -/
def tagFailure (tags : Vector Tag 32) (admits : Tag → Bool) (regs : List Nat) : Option (Nat × Tag) :=
  match regs.find? (fun r => !admits (tagAt tags r)) with
  | some r => some (r, tagAt tags r)
  | none => (regs.find? (fun r => tagAt tags r != tagAt tags (regs.headD 0))).map (fun r => (r, tagAt tags r))

/-- A failure of one register under a condition. -/
def failIf (tags : Vector Tag 32) (fails : Bool) (r : Nat) : Option (Nat × Tag) := if fails then some (r, tagAt tags r) else none

/-- FP16, BF16 or FP32. -/
def isArith (t : Tag) : Bool := t == 12 || t == 13 || t == 14
/-- FP4, E4M3 or E5M2. -/
def isSmallFloat (t : Tag) : Bool := t == 9 || t == 10 || t == 11
/-- RT32. -/
def isResidue (t : Tag) : Bool := t == 15

/-- The mask register, when the instruction reads it. -/
def maskReg (m : Bool) : List Nat := if m then [0] else []

/-- A typed element-wise instruction over sources, with the tags it admits (R160, R168). -/
def elementPlan (f : VxC) (tags : Vector Tag 32) (g : Vector Word 32) (sources : List Nat) (admits : Tag → Bool) : Plan :=
  let t := tagAt tags f.va.toNat
  { n := len1 g f.gl (vlmax (tagWidth t))
    reads := sources ++ maskReg f.m
    writes := [f.vd.toNat]
    bad := tagFailure tags admits sources
    newTags := [(f.vd.toNat, t)] }

/-- A compare: the destination's tag stays (R174). -/
def comparePlan (f : VxC) (tags : Vector Tag 32) (g : Vector Word 32) (admits : Tag → Bool) : Plan :=
  { elementPlan f tags g f.two admits with newTags := [] }

/-- A bitwise instruction or a shift: tags take no part (R173). -/
def bitwisePlan (f : VxC) (tags : Vector Tag 32) (g : Vector Word 32) (sources : List Nat) : Plan :=
  { elementPlan f tags g sources (fun _ => true) with bad := none }

/-- A reduction to a scalar (R185). -/
def reducePlan (f : VxC) (tags : Vector Tag 32) (g : Vector Word 32) (admits : Tag → Bool) : Plan :=
  { elementPlan f tags g [f.va.toNat] admits with writes := [], newTags := [] }

/-- How a conversion changes the width (R177). -/
inductive Widths where
  | same
  | halves
  | doubles
  deriving DecidableEq, Repr

/-- The pair of tags is one that the conversion has (R177). -/
def Widths.admits (k : Widths) (src dst : Tag) : Bool :=
  match k with
  | .same => tagWidth src == tagWidth dst
  | .halves => tagWidth src == 2 * tagWidth dst && !isResidue src && !isResidue dst
  | .doubles => tagWidth dst == 2 * tagWidth src && !isResidue src && !isResidue dst

/-- VCVT, VNARROW or VWIDEN (R177, R178). -/
def convertPlan (f : VxC) (tags : Vector Tag 32) (g : Vector Word 32) (k : Widths) : Plan :=
  let t := tagAt tags f.va.toNat
  let src := tagWidth t
  let dst := tagWidth f.target
  let n := len1 g f.gl (vlmax (if k = .halves then dst else src))
  let sources := if k = .halves then runOf f.va.toNat (max 1 (ceilDiv n (vlmax src))) else [f.va.toNat]
  let dests := if k = .doubles then runOf f.vd.toNat (max 1 (ceilDiv n (vlmax dst))) else [f.vd.toNat]
  { n
    reads := sources ++ maskReg f.m ++ (if f.sc then [1] else [])
    writes := dests
    illegal := passes f.va.toNat sources.length || passes f.vd.toNat dests.length
    bad := ((failIf tags (!k.admits t f.target) f.va.toNat).or (tagFailure tags (fun _ => true) sources)).or
      (if f.sc then
        (failIf tags (!isSmallFloat t || !isFloat f.target) f.va.toNat).or (failIf tags (tagAt tags 1 != 5) 1)
      else none)
    newTags := dests.map (fun r => (r, f.target)) }

/-- Registers of an index group over n elements (R182). -/
def indexGroup (b n : Nat) : List Nat := runOf b (max 1 (ceilDiv n 1024))

/-- Registers of a group of byte offsets (R195). -/
def offsetGroup (tags : Vector Tag 32) (b n : Nat) : List Nat := runOf b (ceilDiv n (vlmax (tagWidth (tagAt tags b))))

/-- A tag of byte offsets: I16, U16, I32, U32, I64 or U64 (R195). -/
def isOffset (t : Tag) : Bool := t == 2 || t == 3 || t == 4 || t == 6 || t == 7 || t == 8

/-- A tag a VAMO function admits (R201). -/
def amoAdmits (fn : Reg) (t : Tag) : Bool :=
  match fn.toNat with
  | 0 => tagWidth t == 32 || tagWidth t == 64
  | 7 => t == 14
  | _ => t == 3 || t == 4 || t == 7 || t == 8

/-- What a VX instruction of the compute form resolves (R160 to R190). DESIGN CHOICE: a VQ4 of length 0 names va alone as its source
(R179, log 117). -/
def planC (i : Instr) (tags : Vector Tag 32) (g : Vector Word 32) : Option Plan :=
  let t := fun (r : Reg) => tagAt tags r.toNat
  match i with
  | .vcfg f =>
    let regs := runOf f.vd.toNat ((bits f.imm 4 5).toNat + 1)
    some { n := 1, writes := regs, illegal := passes f.vd.toNat regs.length, newTags := regs.map (fun r => (r, f.target)) }
  | .vsetl _ | .vsetrc _ | .vpart _ | .vjoin _ => some { n := 1 }
  | .vadd f | .vsub f | .vmul f =>
    some (elementPlan f tags g f.two (fun t => isInt t || isArith t || isResidue t))
  | .vmulh f => some (elementPlan f tags g f.two isInt)
  | .vdiv f | .vmin f | .vmax f => some (elementPlan f tags g f.two (fun t => isInt t || isArith t))
  | .vfma f | .vfms f | .vfnma f =>
    some (elementPlan f tags g f.three (fun t => isInt t || isArith t || isResidue t))
  | .vsqrt f | .vrcp f | .vrsq f | .vexp2 f | .vlog2 f => some (elementPlan f tags g [f.va.toNat] isArith)
  | .vabs f => some (elementPlan f tags g [f.va.toNat] (fun t => isInt t || isArith t || isSmallFloat t))
  | .vneg f => some (elementPlan f tags g [f.va.toNat] (fun t => isInt t || isArith t || isSmallFloat t || isResidue t))
  | .vand f | .vor f | .vxor f | .vshl f | .vshr f | .vsra f => some (bitwisePlan f tags g f.two)
  | .vnot f => some (bitwisePlan f tags g [f.va.toNat])
  | .vcmpeq f | .vcmpne f => some (comparePlan f tags g (fun _ => true))
  | .vcmplt f | .vcmple f => some (comparePlan f tags g (fun t => !isResidue t))
  | .vsel f =>
    some { elementPlan f tags g f.two (fun _ => true) with reads := f.two ++ [0] }
  | .vclass f =>
    some { elementPlan f tags g [f.va.toNat] isArith with
           newTags := [(f.vd.toNat, if tagWidth (t f.va) = 16 then 6 else 7)] }
  | .vcvt f => some (convertPlan f tags g .same)
  | .vnarrow f => some (convertPlan f tags g .halves)
  | .vwiden f => some (convertPlan f tags g .doubles)
  | .vq4 f =>
    let n := len1 g f.gl 4096
    let sources := runOf f.va.toNat (max 1 (ceilDiv n 512))
    some { n, reads := sources ++ maskReg f.m, writes := [f.vd.toNat, 1]
           illegal := passes f.va.toNat sources.length || sources.contains f.vd.toNat || sources.contains 1 || f.vd == 1
           bad := tagFailure tags (fun t => t == 14) sources
           newTags := [(f.vd.toNat, 9), (1, 5)] }
  | .vslideup f | .vslidedn f | .vbcast f | .vexpand f => some (elementPlan f tags g [f.va.toNat] (fun _ => true))
  | .vperm f =>
    let p := elementPlan f tags g [f.va.toNat] (fun _ => true)
    let idx := indexGroup f.vb.toNat p.n
    some { p with reads := f.va.toNat :: idx ++ maskReg f.m, illegal := passes f.vb.toNat idx.length }
  | .vmvs f =>
    some { n := len1 g f.gl (vlmax (tagWidth (t f.vd))), reads := maskReg f.m, writes := [f.vd.toNat] }
  | .vget f => some { n := 1, reads := [f.va.toNat] }
  | .vredsum f => some (reducePlan f tags g (fun t => isInt t || isArith t || isResidue t))
  | .vredmax f | .vredmin f => some (reducePlan f tags g (fun t => isInt t || isArith t))
  | .vredand f | .vredor f => some (reducePlan f tags g (fun _ => true))
  | .vscan f => some (elementPlan f tags g [f.va.toNat] (fun t => isInt t || isArith t || isResidue t))
  | .vcompress f =>
    let p := elementPlan f tags g [f.va.toNat] (fun _ => true)
    let idx := indexGroup f.vc.toNat p.n
    some { p with
           writes := f.vd.toNat :: idx
           illegal := passes f.vc.toNat idx.length || idx.contains f.vd.toNat
           newTags := p.newTags ++ idx.map (fun r => (r, 6)) }
  | .viota f =>
    let n := len1 g f.gl 4096
    let idx := indexGroup f.vd.toNat n
    some { n, reads := maskReg f.m, writes := idx, illegal := passes f.vd.toNat idx.length
           newTags := idx.map (fun r => (r, 6)) }
  | .vtrans8 f =>
    let regs := runOf f.vd.toNat 8
    let x := (snapReg g f.gl).toNat
    some { n := if x / 2 ^ 32 = 0 ∨ x % 2 ^ 32 = 0 then 0 else 1
           reads := regs, writes := regs, illegal := passes f.vd.toNat 8, bad := tagFailure tags (fun _ => true) regs }
  | .vfirst f | .vpopm f => some { n := len1 g f.gl 16384, reads := f.va.toNat :: maskReg f.m }
  | _ => none

/-- A strided or indexed access of 4-bit data (R194). -/
def wholeBytes (tags : Vector Tag 32) (r : Reg) : Option (Nat × Tag) := failIf tags (tagWidth (tagAt tags r.toNat) == 4) r.toNat

/-- What a VX instruction of the memory form resolves (R192 to R207). -/
def planM (i : Instr) (tags : Vector Tag 32) (g : Vector Word 32) : Option Plan :=
  let w := fun (r : Reg) => tagWidth (tagAt tags r.toNat)
  let load1 := fun (f : VxM) =>
    ({ n := len1 g f.gl (vlmax (w f.vd)), reads := maskReg f.m, writes := [f.vd.toNat] } : Plan)
  let store1 := fun (f : VxM) =>
    ({ n := len1 g f.gl (vlmax (w f.vc)), reads := f.vc.toNat :: maskReg f.m } : Plan)
  let flat := fun (f : VxM) (r : Reg) (p : Plan) =>
    let d := len2 g f.gl (vlmax (w r))
    ({ p with n := d.1 * d.2, cols := d.2 } : Plan)
  match i with
  | .vld f | .vldff f => some (load1 f)
  | .vlds f => some { load1 f with bad := wholeBytes tags f.vd }
  | .vldx f =>
    let p := load1 f
    let idx := offsetGroup tags f.vb.toNat p.n
    some { p with
           reads := idx ++ p.reads
           illegal := passes f.vb.toNat idx.length || idx.contains f.vd.toNat
           bad := (wholeBytes tags f.vd).or (tagFailure tags isOffset idx) }
  | .vld2d f => some (flat f f.vd (load1 f))
  | .vst f => some (store1 f)
  | .vsts f => some { store1 f with bad := wholeBytes tags f.vc }
  | .vstx f =>
    let p := store1 f
    let idx := offsetGroup tags f.vb.toNat p.n
    some { p with
           reads := idx ++ p.reads
           illegal := passes f.vb.toNat idx.length
           bad := (tagFailure tags isOffset idx).or (wholeBytes tags f.vc) }
  | .vst2d f => some (flat f f.vc (store1 f))
  | .vamo f =>
    let p := store1 f
    let idx := offsetGroup tags f.vb.toNat p.n
    some { p with
           reads := idx ++ p.reads
           writes := [f.vd.toNat]
           illegal := passes f.vb.toNat idx.length || idx.contains f.vd.toNat || f.vd == f.vc
           bad := (tagFailure tags isOffset idx).or (failIf tags (!amoAdmits f.gstride (tagAt tags f.vc.toNat)) f.vc.toNat)
           newTags := [(f.vd.toNat, tagAt tags f.vc.toNat)] }
  | .vxlat f =>
    let t := tagAt tags f.va.toNat
    some { n := len1 g f.gl 256
           reads := f.va.toNat :: maskReg f.m
           writes := [f.vd.toNat, f.vc.toNat]
           illegal := f.vd == f.va || f.vd == f.vc
           bad := failIf tags (!(t == 3 || t == 4 || t == 7 || t == 8)) f.va.toNat
           newTags := [(f.vd.toNat, 8)] }
  | .vpref _ | .vunbind _ | .vbind _ => some { n := 1 }
  | .kvapp f => some (store1 f)
  | _ => none

/-- A tag MMA's table admits for a register operand (R222). -/
def isMatrix (t : Tag) : Bool := isSmallFloat t || isArith t || t == 0 || t == 1

/-- What an MX instruction resolves (R218 to R238). DESIGN CHOICE: the tags of a TEVAL stand though it raises 0x09 later, against
its forest (R69, log 101). -/
def planX (i : Instr) (tags : Vector Tag 32) (g : Vector Word 32) : Option Plan :=
  let acc := fun (f : MxF) => f.acc.toNat
  let scale := fun (f : MxF) => if f.sc then [1] else []
  let vgroupOf := fun (f : MxF) (k : Nat) =>
    runOf f.va.toNat (ceilDiv (k * ((bits f.imm 0 7).toNat + 1)) (vlmax (tagWidth (tagAt tags f.va.toNat))))
  match i with
  | .mzero f | .mma f | .mloadc f => some { n := 1, tiles := [acc f], tileWrite := some (acc f) }
  | .mmav f =>
    let k := len1 g f.gl 4096
    let a := vgroupOf f k
    some { n := k, reads := a ++ scale f, illegal := passes f.va.toNat a.length || (f.sc && a.contains 1)
           bad := (tagFailure tags isMatrix a).or (failIf tags (f.sc && tagAt tags 1 != 5) 1)
           tiles := [acc f], tileWrite := some (acc f) }
  | .mmas f =>
    let k := len1 g f.gl 4096
    let a := vgroupOf f k
    let idx := indexGroup f.vb.toNat k
    some { n := k, reads := a ++ idx ++ scale f
           illegal := passes f.va.toNat a.length || passes f.vb.toNat idx.length || overlaps a idx ||
             (f.sc && a.contains 1)
           bad := (tagFailure tags isMatrix a).or (failIf tags (f.sc && tagAt tags 1 != 5) 1)
           tiles := [acc f], tileWrite := some (acc f) }
  | .mstore f => some { n := 1, reads := scale f, bad := failIf tags (f.sc && tagAt tags 1 != 14) 1, tiles := [acc f] }
  | .mreadv f =>
    let t := tagAt tags f.acc.toNat
    some { n := len1 g f.gl 512, writes := [f.acc.toNat]
           bad := failIf tags (!(t == 14 || t == 15 || t == 3 || t == 7)) f.acc.toNat, tiles := [f.va.toNat] }
  | .mwritev f =>
    let t := tagAt tags f.va.toNat
    some { n := len1 g f.gl 512, reads := [f.va.toNat]
           bad := failIf tags (!(t == 14 || t == 15 || t == 3)) f.va.toNat
           tiles := [acc f], tileWrite := some (acc f) }
  | .mcvt f =>
    some { n := len1 g f.gl 512, reads := scale f, writes := [f.acc.toNat]
           bad := failIf tags (f.sc && tagAt tags 1 != 14) 1
           newTags := [(f.acc.toNat, bits f.imm 7 4)], tiles := [f.va.toNat] }
  | .tload _ | .tclr _ => some { n := 1 }
  | .teval f =>
    let n := len1 g f.gl 2048
    let src := runOf f.va.toNat (ceilDiv (n * ((bits f.imm 0 8).toNat + 1)) 1024)
    let dst := runOf f.acc.toNat (ceilDiv (n * ((bits f.imm 8 8).toNat + 1)) 2048)
    some { n, reads := src, writes := dst
           illegal := passes f.va.toNat src.length || passes f.acc.toNat dst.length || overlaps src dst
           newTags := dst.map (fun r => (r, 5)) }
  | .tleaf f =>
    let n := len1 g f.gl 512
    let src := runOf f.va.toNat (ceilDiv (n * ((bits f.imm 8 8).toNat + 1)) 2048)
    some { n, reads := f.acc.toNat :: src, writes := [f.acc.toNat]
           illegal := passes f.va.toNat src.length || src.contains f.acc.toNat
           bad := (failIf tags (tagAt tags f.acc.toNat != 14) f.acc.toNat).or (tagFailure tags (fun t => t == 5) src)
           newTags := [(f.acc.toNat, 14)] }
  | _ => none

/-- What a VX or MX instruction resolves at commit. -/
def plan (i : Instr) (tags : Vector Tag 32) (g : Vector Word 32) : Plan :=
  (((planC i tags g).or (planM i tags g)).or (planX i tags g)).getD { n := 0 }

/-! ## Scalar operands and kinds -/

/-- Scalar registers an instruction of the compute form reads at commit or writes (R15, R19). -/
def scalarsC (i : Instr) : List Reg :=
  let imm := fun (f : VxC) => if f.scalar then [f.immReg] else []
  match i with
  | .vcfg _ | .vpart _ | .vjoin _ => []
  | .vsetl f => [f.vd, f.va]
  | .vsetrc f => [f.vd, f.va, f.vb]
  | .vmvs f => [f.va, f.gl]
  | .vget f => f.vd :: imm f
  | .vredsum f | .vredmax f | .vredmin f | .vredand f | .vredor f | .vfirst f | .vpopm f => [f.vd, f.gl]
  | .vadd f | .vsub f | .vmul f | .vmulh f | .vdiv f | .vmin f | .vmax f | .vfma f | .vfms f | .vfnma f
  | .vand f | .vor f | .vxor f | .vshl f | .vshr f | .vsra f | .vcmpeq f | .vcmpne f | .vcmplt f | .vcmple f | .vsel f
  | .vslideup f | .vslidedn f | .vbcast f => f.gl :: imm f
  | .vsqrt f | .vrcp f | .vrsq f | .vexp2 f | .vlog2 f | .vabs f | .vneg f | .vnot f | .vclass f | .vcvt f | .vnarrow f
  | .vwiden f | .vq4 f | .vperm f | .vscan f | .vcompress f | .vexpand f | .viota f | .vtrans8 f => [f.gl]
  | _ => []

/-- The same for the memory form and for MX. -/
def scalarsM (i : Instr) : List Reg :=
  match i with
  | .vld f | .vldff f | .vldx f | .vst f | .vstx f | .vamo f | .vxlat f | .kvapp f | .sfeed f => [f.gl, f.gbase]
  | .vlds f | .vld2d f | .vsts f | .vst2d f | .vpref f => [f.gl, f.gbase, f.gstride]
  | .vbind f => [f.gbase]
  | .mma f => [f.gl, f.gdescA, f.gdescB]
  | .mmav f | .mmas f => [f.gl, f.gdescB]
  | .mloadc f | .mstore f | .tload f => [f.gdescA]
  | .tleaf f => [f.gl, f.gdescA]
  | .mreadv f | .mwritev f | .mcvt f | .teval f => [f.gl]
  | _ => []

/-- The scalar register that becomes pending at commit (R19, R200). -/
def pendingDest (i : Instr) : Option Reg :=
  match i with
  | .vget f | .vredsum f | .vredmax f | .vredmin f | .vredand f | .vredor f | .vfirst f | .vpopm f => some f.vd
  | .vldff f => some f.gl
  | .vxlat f => if f.gstride = 1 then some f.gl else none
  | _ => none

/-- The rounding mode field of a VX or MX instruction. -/
def roundingField (i : Instr) : BitVec 3 :=
  match i with
  | .vadd f | .vsub f | .vmul f | .vmulh f | .vdiv f | .vmin f | .vmax f | .vfma f | .vfms f | .vfnma f | .vsqrt f
  | .vrcp f | .vrsq f | .vexp2 f | .vlog2 f | .vcvt f | .vnarrow f | .vwiden f | .vq4 f | .vredsum f | .vscan f => f.rm
  | .mstore f | .mcvt f | .tleaf f => f.rm
  | _ => 0

/-- An MX instruction that passes to the matrix queue (R218). -/
def isMatrixQueue (i : Instr) : Bool :=
  match i with
  | .mzero _ | .mma _ | .mmav _ | .mmas _ | .mloadc _ | .mstore _ | .tload _ | .teval _ | .tleaf _ | .tclr _ => true
  | _ => false

/-- A VX or MX instruction that accesses memory (R102, R107). -/
def isVectorMemory (i : Instr) : Bool :=
  match i with
  | .vld _ | .vlds _ | .vldx _ | .vldff _ | .vld2d _ | .vst _ | .vsts _ | .vstx _ | .vst2d _ | .vamo _ | .vxlat _
  | .kvapp _ => true
  | .mma _ | .mmav _ | .mmas _ | .mloadc _ | .mstore _ | .tload _ | .tleaf _ => true
  | _ => false

/-- A VX instruction that stores to memory by itself. -/
def isVectorStore (i : Instr) : Bool :=
  match i with
  | .vst _ | .vsts _ | .vstx _ | .vst2d _ | .vamo _ => true
  | _ => false

/-- The nov bit (R107). -/
def isNov (i : Instr) : Bool :=
  match i with
  | .vld f | .vlds f | .vldx f | .vldff f | .vld2d f | .vst f | .vsts f | .vstx f | .vst2d f | .vamo f | .vxlat f
  | .kvapp f => f.nov
  | _ => false

/-- A VPART or VJOIN (R24). -/
def isRepartition (i : Instr) : Bool :=
  match i with
  | .vpart _ | .vjoin _ => true
  | _ => false

/-- A VX or MX memory instruction that loads, or counts as a load (R111, R116). -/
def isVectorLoad (i : Instr) : Bool :=
  match i with
  | .vst _ | .vsts _ | .vstx _ | .vst2d _ | .kvapp _ | .mstore _ => false
  | i => isVectorMemory i

/-- A VX memory instruction with the gate bit, and its watermark (R10, R115). -/
def gateOf (i : Instr) : Option Nat :=
  match i with
  | .vld f | .vlds f | .vldx f | .vldff f | .vld2d f => if f.gate then some f.w.toNat else none
  | _ => none

/-- A VX or MX memory instruction that stores, or counts as a store (R111, R116). -/
def countsAsStore (i : Instr) : Bool :=
  match i with
  | .vst _ | .vsts _ | .vstx _ | .vst2d _ | .vamo _ | .kvapp _ | .mstore _ => true
  | i => (gateOf i).isSome

/-! ## Work in the VQ and the matrix queue -/

/-- Matrix-queue entries of the strand in a slot that are not complete. -/
def State.matrixWork (s : State) (slot : Nat) : List VqEntry :=
  ((s.cluster (clusterOf slot)).matrixOf slot).filter (fun e => e.progress != .done)

/-- Slots of the strand bound for output, with their registers (R78). -/
def Strand.outputs (st : Strand) : List (Nat × Nat) :=
  (List.range 8).filterMap (fun k =>
    match st.streams.toList.getD k none with
    | some x => if x.output then some (k, x.reg) else none
    | none => none)

/-- Registers of the strand bound for output. -/
def Strand.outputRegs (st : Strand) : List Nat := st.outputs.map (·.2)

/-- The slots bound for output once a queued entry has executed; a VBIND whose descriptor is to be read again may be one. -/
def bindStep (outs : List (Nat × Nat)) (e : VqEntry) : List (Nat × Nat) :=
  match e.instr with
  | .vunbind f => outs.filter (fun o => o.1 != f.va.toNat)
  | .vbind f =>
    match e.bind, e.bindFault with
    | some x, none => if x.output then (f.va.toNat, x.reg) :: outs else outs
    | none, none => (f.va.toNat, f.vd.toNat) :: outs
    | _, _ => outs
  | _ => outs

/-- The entries of a VQ that are not complete, each with whether it emits a chunk, given the slots bound for output before
the first (R78, R109, R213). -/
def emitters : List (Nat × Nat) → List VqEntry → List (VqEntry × Bool)
  | _, [] => []
  | outs, e :: rest => (e, overlaps (plan e.instr e.tags e.g).writes (outs.map (·.2))) :: emitters (bindStep outs e) rest

/-- The strand's queued VX and MX instructions that are not complete, each with whether it emits a chunk; what is in the matrix
queue has left its VQ, and a later VBIND or VUNBIND with it waits behind it. DESIGN CHOICE: what a frame holds frozen is not
among them, so a release, a FENCE or an SVFENCE of the handler does not wait for it (R108, R109, R111, log 115). -/
def State.vectorWork (s : State) (slot : Nat) (st : Strand) : List (VqEntry × Bool) :=
  (s.matrixWork slot).map (fun e => (e, overlaps (plan e.instr e.tags e.g).writes st.outputRegs)) ++
    emitters st.outputs (st.vq.filter (fun e => e.progress != .done))

/-- Earlier vector and matrix memory work of the strand that a release waits for (R109). -/
def State.memoryWork (s : State) (slot : Nat) (st : Strand) : Bool :=
  (s.vectorWork slot st).any (fun p => isVectorMemory p.1.instr || p.2)

/-- SFEEDs of the strand whose data has not been read. -/
def Strand.feeding (st : Strand) : Bool :=
  st.streams.toList.any (fun o =>
    match o with
    | some x => !x.feeding.isEmpty
    | none => false)

/-- A module that stores have reached has not acknowledged them (R361). -/
def State.acksOwed (s : State) : Bool := s.remotes.any (fun m => m.2.reachable && m.2.owedSince.isSome)

/-- What a context's release at a scope waits for: its vector and matrix memory work or its SFEEDs (R109), and, at domain scope
and wider, the acknowledgements of other modules (R361). -/
def State.releaseHeld (s : State) (slot : Nat) (id : CtxId) (st : Strand) (scope : BitVec 3) : Bool :=
  (match id with
   | .execute => s.memoryWork slot st
   | .access => st.feeding) || (decide (4 ≤ scope.toNat) && s.acksOwed)

/-- What a scalar memory operation of the context waits for: vector accesses with nov (R107), and gated loads, whose acquires
come before it (R109, R116). -/
def Strand.novHeld (st : Strand) (id : CtxId) : Bool :=
  id == .execute && st.vq.any (fun e => e.progress != .done && (isNov e.instr || (gateOf e.instr).isSome))

/-! ## Streams as commit sees them -/

/-- Elements of a stream's pattern (R211). -/
def Stream.elements (x : Stream) : Nat := x.count0 * x.count1 * x.count2

/-- Chunks of a pattern (R211). -/
def Stream.total (x : Stream) : Nat := ceilDiv x.elements x.chunk

/-- The stream's last chunk is known and has been claimed, or the pattern's last element has been emitted (R9). -/
def Stream.finished (x : Stream) : Bool :=
  if x.output then decide (x.elements ≤ x.emitted)
  else
    match x.source with
    | .sfeed => x.ended && decide (x.arrived + x.feeding.length ≤ x.claimed)
    | _ => decide (x.total ≤ x.claimed)

/-- The slot a VBIND or VUNBIND names. -/
def slotNamed (i : Instr) : Option Nat :=
  match i with
  | .vbind f | .vunbind f => some f.va.toNat
  | _ => none

/-- Committed VBINDs and VUNBINDs of a slot, oldest first; a VBIND whose descriptor read or binding failed is none. -/
def Strand.slotWork (st : Strand) (k : Nat) : List VqEntry :=
  (st.vq ++ (match st.frame with
    | some f => f.queued
    | none => [])).filter (fun e => slotNamed e.instr == some k && (e.progress != .done) &&
      (e.bind.isSome || (match e.instr with | .vunbind _ => true | _ => false)))

/-- The stream a slot holds as the execute context's next instruction finds it (R9, R158, R209). -/
def Strand.committedStream (st : Strand) (k : Nat) : Option Stream :=
  match (st.slotWork k).getLast? with
  | some e => e.bind
  | none => st.streams.toList.getD k none

end Sys2Proof.Machine
end

