-- ==== Sys2Proof/Machine/ScalarInt.lean ====
section
/-!
DEFINITION. Machine/ScalarInt.lean: the SR integer instructions (R138, R139) and the SI class (R145 to R147).
-/
namespace Sys2Proof.Machine

/-! ## What they compute -/

/-- ⌊signed a × signed b / 2^64⌋ modulo 2^64 (R138). -/
def mulHigh (a b : Word) : Word := BitVec.ofInt 64 (a.toInt * b.toInt / 2 ^ 64)

/-- ⌊a × b / 2^64⌋, unsigned (R138). -/
def mulHighU (a b : Word) : Word := BitVec.ofNat 64 (a.toNat * b.toNat / 2 ^ 64)

/-- The signed quotient of w-bit values, truncated toward zero, saturated (R139). -/
def divSigned {w : Nat} (a b : BitVec w) : BitVec w :=
  if b = 0 then
    if a = 0 then 0 else if a.toInt < 0 then BitVec.ofInt w (-(2 ^ (w - 1) : Int)) else BitVec.ofInt w (2 ^ (w - 1) - 1)
  else
    let q := a.toInt.tdiv b.toInt
    if (2 : Int) ^ (w - 1) ≤ q then BitVec.ofInt w (2 ^ (w - 1) - 1) else BitVec.ofInt w q

/-- The unsigned quotient, saturated (R139). -/
def divUnsigned {w : Nat} (a b : BitVec w) : BitVec w :=
  if b = 0 then if a = 0 then 0 else BitVec.allOnes w else BitVec.ofNat w (a.toNat / b.toNat)

/-- The signed remainder, with the sign of a; a remainder by zero gives the dividend (R139). -/
def remSigned {w : Nat} (a b : BitVec w) : BitVec w := if b = 0 then a else BitVec.ofInt w (a.toInt.tmod b.toInt)

/-- The unsigned remainder (R139). -/
def remUnsigned {w : Nat} (a b : BitVec w) : BitVec w := if b = 0 then a else BitVec.ofNat w (a.toNat % b.toNat)

/-- The smaller, signed. -/
def minSigned {w : Nat} (a b : BitVec w) : BitVec w := if a.toInt ≤ b.toInt then a else b
/-- The larger, signed. -/
def maxSigned {w : Nat} (a b : BitVec w) : BitVec w := if a.toInt ≤ b.toInt then b else a
/-- The smaller, unsigned. -/
def minUnsigned {w : Nat} (a b : BitVec w) : BitVec w := if a.toNat ≤ b.toNat then a else b
/-- The larger, unsigned. -/
def maxUnsigned {w : Nat} (a b : BitVec w) : BitVec w := if a.toNat ≤ b.toNat then b else a

/-- The places a shift moves: bits [5:0] of the register (R138). -/
def places (b : Word) : Nat := b.toNat % 64

/-- 1 or 0 in a register. -/
def flagWord (p : Bool) : Word := if p then 1 else 0

/-- Leading zero bits of the low n bits. -/
def leadingZeros (a : Word) : Nat → Nat
  | 0 => 0
  | n + 1 => if bit a n then 0 else 1 + leadingZeros a n

/-- Trailing zero bits, looking at the n bits from bit 64 - n upward. -/
def trailingZeros (a : Word) : Nat → Nat
  | 0 => 0
  | n + 1 => if bit a (63 - n) then 0 else 1 + trailingZeros a n

/-- Set bits among the low n. -/
def popCount (a : Word) : Nat → Nat
  | 0 => 0
  | n + 1 => (if bit a n then 1 else 0) + popCount a n

/-- Bits of a field that lie inside the register (R147). -/
def fieldBits (width : BitVec 7) (offset : BitVec 6) : Nat := Nat.min (Nat.min width.toNat 64) (64 - offset.toNat)

/-- The field, zero-extended (R147). -/
def extractU (a : Word) (width : BitVec 7) (offset : BitVec 6) : Word :=
  BitVec.ofNat 64 (a.toNat / 2 ^ offset.toNat % 2 ^ fieldBits width offset)

/-- The field, sign-extended from the highest bit extracted (R147). -/
def extractS (a : Word) (width : BitVec 7) (offset : BitVec 6) : Word :=
  BitVec.ofInt 64 (signedOf (fieldBits width offset) (a.toNat / 2 ^ offset.toNat % 2 ^ fieldBits width offset))

/-- The low bits of a inserted into d (R147). -/
def insertField (d a : Word) (width : BitVec 7) (offset : BitVec 6) : Word :=
  let k := fieldBits width offset
  let mask : Word := BitVec.ofNat 64 ((2 ^ k - 1) * 2 ^ offset.toNat)
  (d &&& ~~~mask) ||| BitVec.ofNat 64 (a.toNat % 2 ^ k * 2 ^ offset.toNat)

/-! ## The instructions -/

/-- The form of the SR class, the SI shifts and the bit fields: no prefix (R131, R132). -/
def plainForm : Form := { words := 1, imx := .refused, mattr := .refused, priv := false }

/-- The form of an instruction whose immediate an IMX widens (R131). -/
def wideForm : Form := { words := 1, imx := .widens, mattr := .refused, priv := false }

/-- An integer operation on two registers (R137, R138). -/
def State.intOp (s : State) (i : Instr) (d a b : Reg) (f : Word → Word → Word) : Out :=
  s.issue i plainForm [d, a, b] (fun e => .done (s.setReg e d (f (e.reg a) (e.reg b))))

/-- An integer operation on one register. -/
def State.intOp1 (s : State) (i : Instr) (d a : Reg) (f : Word → Word) : Out :=
  s.issue i plainForm [d, a] (fun e => .done (s.setReg e d (f (e.reg a))))

/-- An integer operation on a register and an immediate (R145). -/
def State.immOp (s : State) (i : Instr) (d a : Reg) (imm : BitVec 13) (f : Word → Word → Word) : Out :=
  s.issue i wideForm [d, a] (fun e => .done (s.setReg e d (f (e.reg a) (e.imm imm))))

/-- ADD (R138). -/
def execAdd (d a b : Reg) (s : State) : Out := s.intOp (.add d a b) d a b (fun x y => x + y)

/-- SUB (R138). -/
def execSub (d a b : Reg) (s : State) : Out := s.intOp (.sub d a b) d a b (fun x y => x - y)

/-- MUL (R138). -/
def execMul (d a b : Reg) (s : State) : Out := s.intOp (.mul d a b) d a b (fun x y => x * y)

/-- MULH (R138). -/
def execMulh (d a b : Reg) (s : State) : Out := s.intOp (.mulh d a b) d a b (mulHigh)

/-- MULHU (R138). -/
def execMulhu (d a b : Reg) (s : State) : Out := s.intOp (.mulhu d a b) d a b (mulHighU)

/-- DIV (R138, R139). -/
def execDiv (d a b : Reg) (s : State) : Out := s.intOp (.div d a b) d a b (divSigned)

/-- DIVU (R138, R139). -/
def execDivu (d a b : Reg) (s : State) : Out := s.intOp (.divu d a b) d a b (divUnsigned)

/-- REM (R138, R139). -/
def execRem (d a b : Reg) (s : State) : Out := s.intOp (.rem d a b) d a b (remSigned)

/-- REMU (R138, R139). -/
def execRemu (d a b : Reg) (s : State) : Out := s.intOp (.remu d a b) d a b (remUnsigned)

/-- MIN (R138). -/
def execMin (d a b : Reg) (s : State) : Out := s.intOp (.min d a b) d a b (minSigned)

/-- MAX (R138). -/
def execMax (d a b : Reg) (s : State) : Out := s.intOp (.max d a b) d a b (maxSigned)

/-- MINU (R138). -/
def execMinu (d a b : Reg) (s : State) : Out := s.intOp (.minu d a b) d a b (minUnsigned)

/-- MAXU (R138). -/
def execMaxu (d a b : Reg) (s : State) : Out := s.intOp (.maxu d a b) d a b (maxUnsigned)

/-- AND (R138). -/
def execAnd (d a b : Reg) (s : State) : Out := s.intOp (.and d a b) d a b (fun x y => x &&& y)

/-- OR (R138). -/
def execOr (d a b : Reg) (s : State) : Out := s.intOp (.or d a b) d a b (fun x y => x ||| y)

/-- XOR (R138). -/
def execXor (d a b : Reg) (s : State) : Out := s.intOp (.xor d a b) d a b (fun x y => x ^^^ y)

/-- ANDN (R138). -/
def execAndn (d a b : Reg) (s : State) : Out := s.intOp (.andn d a b) d a b (fun x y => x &&& ~~~y)

/-- SHL (R138). -/
def execShl (d a b : Reg) (s : State) : Out := s.intOp (.shl d a b) d a b (fun x y => x <<< places y)

/-- SHR (R138). -/
def execShr (d a b : Reg) (s : State) : Out := s.intOp (.shr d a b) d a b (fun x y => x >>> places y)

/-- SRA (R138). -/
def execSra (d a b : Reg) (s : State) : Out := s.intOp (.sra d a b) d a b (fun x y => x.sshiftRight (places y))

/-- ROL (R138). -/
def execRol (d a b : Reg) (s : State) : Out := s.intOp (.rol d a b) d a b (fun x y => x.rotateLeft (places y))

/-- SLT (R138). -/
def execSlt (d a b : Reg) (s : State) : Out := s.intOp (.slt d a b) d a b (fun x y => flagWord (decide (x.toInt < y.toInt)))

/-- SLTU (R138). -/
def execSltu (d a b : Reg) (s : State) : Out := s.intOp (.sltu d a b) d a b (fun x y => flagWord (decide (x.toNat < y.toNat)))

/-- CLZ (R138). -/
def execClz (d a : Reg) (s : State) : Out := s.intOp1 (.clz d a) d a (fun x => BitVec.ofNat 64 (leadingZeros x 64))

/-- CTZ (R138). -/
def execCtz (d a : Reg) (s : State) : Out := s.intOp1 (.ctz d a) d a (fun x => BitVec.ofNat 64 (trailingZeros x 64))

/-- POPC (R138). -/
def execPopc (d a : Reg) (s : State) : Out := s.intOp1 (.popc d a) d a (fun x => BitVec.ofNat 64 (popCount x 64))

/-- ADDI (R145). -/
def execAddi (d a : Reg) (imm : BitVec 13) (s : State) : Out :=
  s.immOp (.addi d a imm) d a imm (fun x y => x + y)

/-- ANDI (R145). -/
def execAndi (d a : Reg) (imm : BitVec 13) (s : State) : Out :=
  s.immOp (.andi d a imm) d a imm (fun x y => x &&& y)

/-- ORI (R145). -/
def execOri (d a : Reg) (imm : BitVec 13) (s : State) : Out :=
  s.immOp (.ori d a imm) d a imm (fun x y => x ||| y)

/-- XORI (R145). -/
def execXori (d a : Reg) (imm : BitVec 13) (s : State) : Out :=
  s.immOp (.xori d a imm) d a imm (fun x y => x ^^^ y)

/-- SLTI (R145). -/
def execSlti (d a : Reg) (imm : BitVec 13) (s : State) : Out :=
  s.immOp (.slti d a imm) d a imm (fun x y => flagWord (decide (x.toInt < y.toInt)))

/-- SLTUI (R145). -/
def execSltui (d a : Reg) (imm : BitVec 13) (s : State) : Out :=
  s.immOp (.sltui d a imm) d a imm (fun x y => flagWord (decide (x.toNat < y.toNat)))

/-- SHLI (R145). -/
def execShli (d a : Reg) (amount : BitVec 6) (s : State) : Out :=
  s.intOp1 (.shli d a amount) d a (fun x => x <<< amount.toNat)

/-- SHRI (R145). -/
def execShri (d a : Reg) (amount : BitVec 6) (s : State) : Out :=
  s.intOp1 (.shri d a amount) d a (fun x => x >>> amount.toNat)

/-- SRAI (R145). -/
def execSrai (d a : Reg) (amount : BitVec 6) (s : State) : Out :=
  s.intOp1 (.srai d a amount) d a (fun x => x.sshiftRight amount.toNat)

/-- LUI (R146). -/
def execLui (d : Reg) (imm : BitVec 18) (s : State) : Out :=
  s.issue (.lui d imm) wideForm [d] (fun e => .done (s.setReg e d (e.imm (imm ++ 0#14))))

/-- AUIPC: from the address of the instruction's own word (R120, R146). -/
def execAuipc (d : Reg) (imm : BitVec 18) (s : State) : Out :=
  s.issue (.auipc d imm) wideForm [d] (fun e => .done (s.setReg e d (e.c.pc + e.imm (imm ++ 0#14))))

/-- BFX (R147). -/
def execBfx (d a : Reg) (width : BitVec 7) (offset : BitVec 6) (s : State) : Out :=
  s.intOp1 (.bfx d a width offset) d a (fun x => extractS x width offset)

/-- BFXU (R147). -/
def execBfxu (d a : Reg) (width : BitVec 7) (offset : BitVec 6) (s : State) : Out :=
  s.intOp1 (.bfxu d a width offset) d a (fun x => extractU x width offset)

/-- BFI reads gd as a source (R147). -/
def execBfi (d a : Reg) (width : BitVec 7) (offset : BitVec 6) (s : State) : Out :=
  s.issue (.bfi d a width offset) plainForm [d, a]
    (fun e => .done (s.setReg e d (insertField (e.reg d) (e.reg a) width offset)))

end Sys2Proof.Machine
end

