-- ==== Sys2Proof/Machine/Branch.lean ====
section
/-!
DEFINITION. Machine/Branch.lean: the SB class (R120, R155 to R158), the prefixes (R130 to R132) and the words that no row
of the opcode map assigns (R6, R118, R119).
-/
namespace Sys2Proof.Machine

/-! ## Branches and jumps -/

/-- Address of the instruction plus a word offset (R120). -/
def Env.target {n : Nat} (e : Env) (off : BitVec n) : Word := e.c.pc + 4 * e.imm off

/-- A conditional branch (R155). -/
def State.branch (s : State) (i : Instr) (a b : Reg) (off : BitVec 13) (holds : Word → Word → Bool) : Out :=
  s.issue i wideForm [a, b] (fun e => if holds (e.reg a) (e.reg b) then .jump s (e.target off) else .done s)

/-- BEQ (R155). -/
def execBeq (a b : Reg) (off : BitVec 13) (s : State) : Out := s.branch (.beq a b off) a b off (fun x y => x == y)
/-- BNE (R155). -/
def execBne (a b : Reg) (off : BitVec 13) (s : State) : Out := s.branch (.bne a b off) a b off (fun x y => x != y)
/-- BLT (R155). -/
def execBlt (a b : Reg) (off : BitVec 13) (s : State) : Out :=
  s.branch (.blt a b off) a b off (fun x y => decide (x.toInt < y.toInt))
/-- BGE (R155). -/
def execBge (a b : Reg) (off : BitVec 13) (s : State) : Out :=
  s.branch (.bge a b off) a b off (fun x y => decide (y.toInt ≤ x.toInt))
/-- BLTU (R155). -/
def execBltu (a b : Reg) (off : BitVec 13) (s : State) : Out :=
  s.branch (.bltu a b off) a b off (fun x y => decide (x.toNat < y.toNat))
/-- BGEU (R155). -/
def execBgeu (a b : Reg) (off : BitVec 13) (s : State) : Out :=
  s.branch (.bgeu a b off) a b off (fun x y => decide (y.toNat ≤ x.toNat))

/-- J (R156). -/
def execJ (off : BitVec 23) (s : State) : Out := s.issue (.j off) wideForm [] (fun e => .jump s (e.target off))

/-- JAL (R156). -/
def execJal (d : Reg) (off : BitVec 18) (s : State) : Out :=
  s.issue (.jal d off) wideForm [d] (fun e => .jump (s.setReg e d (e.c.pc + 4)) (e.target off))

/-- JALR: a target that is no multiple of 4 raises 0x04 and gd is not written (R120, R156). -/
def execJalr (d a : Reg) (off : BitVec 13) (s : State) : Out :=
  s.issue (.jalr d a off) wideForm [d, a] (fun e =>
    let t := e.reg a + e.imm off
    if t.toNat % 4 ≠ 0 then .trap .misaligned t s else .jump (s.setReg e d (e.c.pc + 4)) t)

/-! ## Queues -/

/-- TVAL of a stream-protocol fault on a queue (R310). -/
def queueTval (q : Nat) : Word := BitVec.ofNat 64 (q % 8)

/-- TVAL of a stream-protocol fault on a stream slot (R310). -/
def slotTval (k : Nat) : Word := BitVec.ofNat 64 (256 + k % 8)

/-- A queue's values, oldest first. -/
def Strand.queue (st : Strand) (q : BitVec 2) : List Word := st.queues[q.toNat]'(by omega)

/-- A queue replaced. -/
def Strand.setQueue (st : Strand) (q : BitVec 2) (l : List Word) : Strand :=
  { st with queues := st.queues.set q.toNat l (by omega) }

/-- The queue is one the context pops: q0 and q1 for the execute context, q2 and q3 for the access context (R12). -/
def popsQueue (id : CtxId) (q : BitVec 2) : Bool := (id == .execute) == decide (q.toNat < 2)

/-- Removing the oldest value of a queue (R14, R79, R157). -/
def State.popQueue (s : State) (e : Env) (q : BitVec 2) (got : Word → State → Act) : Act :=
  if !popsQueue e.ctx q then .trap .streamProtocol (queueTval q.toNat) s
  else
    match e.st.queue q with
    | [] =>
      if (e.st.ctx (otherCtx e.ctx)).retired then .trap .streamProtocol (queueTval q.toNat) s else .wait (.queue q.toNat) s
    | x :: rest => got x (s.updStrand e.slot (fun st => st.setQueue q rest))

/-- QPUSH: a release at strand scope (R14, R79, R157). -/
def execQpush (a : Reg) (q : BitVec 2) (s : State) : Out :=
  s.issue (.qpush a q) plainForm [a] (fun e =>
    if popsQueue e.ctx q then .trap .streamProtocol (queueTval q.toNat) s
    else if 32 ≤ (e.st.queue q).length then
      if (e.st.ctx (otherCtx e.ctx)).retired then .trap .streamProtocol (queueTval q.toNat) s else .wait (.queue q.toNat) s
    else if s.releaseHeld e.slot e.ctx e.st 0 then .wait .drain s
    else .done (s.updStrand e.slot (fun st => st.setQueue q (st.queue q ++ [e.reg a]))))

/-- QPOP: an acquire at strand scope, which drops no line (R110, R157). -/
def execQpop (d : Reg) (q : BitVec 2) (s : State) : Out :=
  s.issue (.qpop d q) plainForm [d] (fun e => s.popQueue e q (fun x s1 => .done (s1.setReg e d x)))

/-- BQ: pops, and branches when the value is not zero (R157). -/
def execBq (q : BitVec 2) (off : BitVec 13) (s : State) : Out :=
  s.issue (.bq q off) wideForm [] (fun e =>
    s.popQueue e q (fun x s1 => if x = 0 then .done s1 else .jump s1 (e.target off)))

/-- BSEND (R9, R158). -/
def execBsend (slot : BitVec 3) (off : BitVec 13) (s : State) : Out :=
  s.issue (.bsend slot off) wideForm [] (fun e =>
    match e.st.committedStream slot.toNat with
    | some x => if x.finished then .jump s (e.target off) else .done s
    | none => .done s)

/-! ## Prefixes -/

/-- The prefixes read so far with one more, from the word at the PC (R130). -/
def Context.prefixed (c : Context) (w0 : BitVec 32) (f : Prefixes → Prefixes) : Context :=
  let p := c.prefixes.getD { first := c.pc, word := w0, imx := none, mattr := none, rejected := false }
  { c with prefixes := some (f p), pc := c.pc + 4, wait := none }

/-- A prefix read, or 0x02 for a second one of its kind (R130). -/
def State.readPrefix (s : State) (i : Instr) (second : Prefixes → Bool) (f : Prefixes → Prefixes) : Out :=
  match s.strand? s.cur.slot with
  | none => .next s
  | some st =>
    let c := st.ctx s.cur.ctx
    if (c.prefixes.map second).getD false then
      .next (s.trapNow s.cur.slot s.cur.ctx .illegalPrefix false (c.firstWord i))
    else .next (s.updCtx s.cur.slot s.cur.ctx (fun c => c.prefixed (((encode i).getD []).headD 0) f))

/-- IMX (R130, R131). -/
def execImx (payload : BitVec 27) (s : State) : Out :=
  s.readPrefix (.imx payload) (fun p => p.imx.isSome) (fun p => { p with imx := some payload })

/-- MATTR (R130, R132). -/
def execMattr (scope cache order : BitVec 3) (s : State) : Out :=
  s.readPrefix (.mattr scope cache order) (fun p => p.mattr.isSome || p.rejected)
    (fun p => { p with mattr := some (scope, cache, order) })

/-! ## Words no format accepts -/

/-- The opcode of a first word takes an IMX, whatever its other fields hold (R131). -/
def opTakesImx (w0 : BitVec 32) : Bool :=
  let op6 := (bits w0 23 6).toNat
  match (classOf w0).toNat with
  | 1 => [0, 1, 2, 3, 7, 8, 9, 10].contains op6
  | 2 => decide (op6 ≤ 0x06) || (decide (0x08 ≤ op6) && decide (op6 ≤ 0x0D))
  | 3 => decide (op6 ≤ 0x0A)
  | 6 => decide ((bits w0 22 7).toNat ≤ 0x1D)
  | _ => false

/-- The opcode of a first word takes a MATTR of these attributes (R132). -/
def opTakesMattr (w0 : BitVec 32) (m : BitVec 3 × BitVec 3 × BitVec 3) : Bool :=
  let op6 := (bits w0 23 6).toNat
  (classOf w0).toNat == 2 &&
    (if op6 ≤ 0x06 then (MattrUse.load true).admits m
     else if 0x08 ≤ op6 ∧ op6 ≤ 0x0B then (MattrUse.store true).admits m
     else if op6 = 0x0C then (MattrUse.load false).admits m
     else if op6 = 0x0D then (MattrUse.store false).admits m
     else decide (0x10 ≤ op6) && decide (op6 ≤ 0x17) && MattrUse.amo.admits m)

/-- The prefixes read make an illegal sequence with an instruction of this first word. -/
def Prefixes.refusedBy (p : Prefixes) (w0 : BitVec 32) : Bool :=
  p.rejected || (p.imx.isSome && !opTakesImx w0) ||
    (match p.mattr with
     | some m => !opTakesMattr w0 m
     | none => false)

/-- A word no row of the opcode map assigns, or whose fields the formats reject: 0x02 for a prefix of kind 10 or 11 or a
second one of its kind, and behind prefixes it cannot take; a MATTR with a payload R132 rejects spoils its sequence;
0x01 otherwise, at commit for VX and MX (R6, R118, R119, R130). -/
def execUnassignedEncoding (w0 : BitVec 32) (s : State) : Out :=
  match s.strand? s.cur.slot with
  | none => .next s
  | some st =>
    let slot := s.cur.slot
    let id := s.cur.ctx
    let c := st.ctx id
    let first : Word := (c.prefixes.map (fun p => zext p.word)).getD (zext w0)
    let vector := classOf w0 == 4 || classOf w0 == 5
    if classOf w0 = 7 then
      if bits w0 27 2 = 1 ∧ !c.spoils w0 then
        .next (s.updCtx slot id (fun c => c.prefixed w0 (fun p => { p with rejected := true })))
      else .next (s.trapNow slot id .illegalPrefix false first)
    else if (c.prefixes.map (fun p => p.refusedBy w0)).getD false then
      .next (s.trapNow slot id .illegalPrefix vector first)
    else .next (s.trapNow slot id .illegalInstruction vector first)

end Sys2Proof.Machine
end

