-- ==== Sys2Proof/Machine/Commit.lean ====
section
/-!
DEFINITION. Machine/Commit.lean: what a VX or MX instruction does when the execute context issues it (R9, R13, R15 to R19,
R69, R78, R161, R308), and VCFG, VSETL, VSETRC, whose whole effect is at commit (R163 to R166).
-/
namespace Sys2Proof.Machine

/-- Entries of a VQ (R17). -/
def vqDepth : Nat := 64

/-! ## Claims (R9, R78) -/

/-- The slot that, as committed, binds a register for input. -/
def Strand.inputSlot (st : Strand) (r : Nat) : Option (Nat × Stream) :=
  (List.range 8).findSome? (fun k =>
    match st.committedStream k with
    | some x => if !x.output && x.reg == r then some (k, x) else none
    | none => none)

/-- The last entry of a list that has a property, replaced. -/
def replaceLast {α : Type} (p : α → Bool) (f : α → α) (l : List α) : List α :=
  match l with
  | [] => []
  | x :: rest => if p x && !rest.any p then f x :: rest else x :: replaceLast p f rest

/-- The strand with the committed stream of a slot replaced: in the VBIND that is still queued, or in the slot. -/
def Strand.setCommitted (st : Strand) (k : Nat) (x : Stream) : Strand :=
  let mine := fun (e : VqEntry) => slotNamed e.instr == some k && e.bind.isSome && e.progress != .done
  let put := replaceLast mine (fun (e : VqEntry) => { e with bind := some x })
  match (st.slotWork k).getLast? with
  | some _ =>
    if st.vq.any mine then { st with vq := put st.vq }
    else { st with frame := st.frame.map (fun f => { f with queued := put f.queued }) }
  | none => if h : k < 8 then { st with streams := st.streams.set k (some x) } else st

/-- A claim that its instruction can execute. -/
def Claim.sound (c : Claim) : Bool :=
  match c.kind with
  | .chunk _ => true
  | _ => false

/-- One register named as a source: the claim it makes, if a stream is bound to it, and the strand after it. -/
def Strand.claim (st : Strand) (tags : Vector Tag 32) (r : Nat) : Option Claim × Strand :=
  match st.inputSlot r with
  | none => (none, st)
  | some (k, x) =>
    if tagWidth (tagAt tags r) ≠ x.width then
      (some { slot := k, reg := r, kind := .widthMismatch, taken := false, length := 0 }, st)
    else if x.finished then (some { slot := k, reg := r, kind := .pastEnd, taken := false, length := 0 }, st)
    else
      (some { slot := k, reg := r, kind := .chunk x.claimed, taken := false, length := 0 },
       st.setCommitted k { x with claimed := x.claimed + 1 })

/-- The claims of the registers an instruction reads, each register once. An instruction that claims beyond an end, or into a
register of another width, claims nothing (R78). -/
def Strand.claims (st : Strand) (tags : Vector Tag 32) (regs : List Nat) : List Claim × Strand :=
  let x := regs.eraseDups.foldl (fun (acc : List Claim × Strand) (r : Nat) =>
    let c := acc.2.claim tags r
    (acc.1 ++ c.1.toList, c.2)) ([], st)
  if x.1.all Claim.sound then x else (x.1.filter (fun c => !c.sound), st)

/-! ## Commit -/

/-- Bits set for a list of numbers. -/
def bitsOf {w : Nat} (l : List Nat) : BitVec w := l.foldl (fun x r => x ||| BitVec.ofNat w (2 ^ r)) 0

/-- The entry an instruction becomes, as its context stands. -/
def Env.entry (e : Env) (i : Instr) (claims : List Claim) : VqEntry where
  seq := e.st.commits
  pc := e.c.pc
  instr := i
  g := e.c.g
  tags := e.st.tags
  rm := resolveRm (roundingField i) e.st.xrm
  edge := e.st.edge
  trapen := e.st.xtrapen
  vbypass := e.st.vbypass
  strip := e.st.strip
  claims := claims
  progress := .queued
  marked := false
  since := 0
  element := none
  bind := none
  bindFault := none

/-- The strand after the commit of an instruction (R9, R15, R19, R69, R308): its tags, its claims, VDIRTY and ADIRTY, its
pending register and its VQ entry. -/
def Env.committed (e : Env) (i : Instr) (p : Plan) (f : VqEntry → VqEntry) : Strand :=
  let (claims, st1) := if p.n = 0 then ([], e.st) else e.st.claims e.st.tags p.reads
  let popped := claims.map (·.reg)
  { st1 with
    charged := none
    tags := if p.bad.isSome then st1.tags else p.newTags.foldl (fun ts (x : Nat × Tag) => setTag ts x.1 x.2) st1.tags
    vdirty := st1.vdirty ||| bitsOf (p.writes ++ popped)
    adirty := st1.adirty ||| bitsOf p.tileWrite.toList
    pending := st1.pending ++ (match pendingDest i with
      | some r => [r.toNat]
      | none => [])
    commits := st1.commits + 1
    vq := st1.vq ++ [f (e.entry i claims)] }

/-- The form of a VX or MX instruction: two words, no prefix (R131, R132). -/
def vectorForm : Form := { words := 2, imx := .refused, mattr := .refused, priv := false, vector := true }

/-- The checks of a commit in their order (R13, R16, R19, R119, R161, R312), then the commit itself. -/
def State.commitChecked (s : State) (i : Instr) (body : Env → Plan → Act) : Out :=
  s.issue i vectorForm [] (fun e =>
    let illegal : Act := .trap .illegalInstruction (e.c.firstWord i) s
    if e.ctx = .access then illegal
    else if e.st.frame.isSome then illegal
    else
      match e.st.stalls (scalarsC i ++ scalarsM i) with
      | some r => .wait (.register r.toNat) s
      | none =>
        let p := plan i e.st.tags e.c.g
        if p.illegal || p.tiles.any (fun k => decide (e.st.tiles.length ≤ k)) then illegal
        else if !e.c.ven then .trap .vectorFirstUse 0 s
        else if vqDepth ≤ e.st.vq.length then .wait .commit s
        else body e p)

/-- A VX or MX instruction commits into the VQ (R15). -/
def State.commit (s : State) (i : Instr) : Out :=
  s.commitChecked i (fun e p => .done (s.setStrand e.slot (e.committed i p (fun x => x))))

/-- An instruction whose whole effect is at commit: its entry is complete at once (R166). Its completion clears VSTART
(R74), unless an earlier VX instruction has still to use it and to clear it. -/
def State.commitAtOnce (s : State) (i : Instr) (f : Env → State → State) : Out :=
  s.commitChecked i (fun e p =>
    let st := e.committed i p (fun (x : VqEntry) => { x with progress := .done })
    let last := e.st.vq.all (fun x => x.progress == .done || isMatrixQueue x.instr)
    .done (f e (s.setStrand e.slot (if last then { st with vstart := 0 } else st))))

/-- VCFG (R163). -/
def execVcfg (f : VxC) (s : State) : Out := s.commitAtOnce (.vcfg f) (fun _ s1 => s1)

/-- VSETL (R164). -/
def execVsetl (f : VxC) (s : State) : Out :=
  s.commitAtOnce (.vsetl f) (fun e s1 =>
    s1.setReg e f.vd (BitVec.ofNat 64 (Nat.min (e.reg f.va).toNat (vlmax (tagWidth (tagAt e.st.tags f.vb.toNat))))))

/-- VSETRC (R165). -/
def execVsetrc (f : VxC) (s : State) : Out :=
  s.commitAtOnce (.vsetrc f) (fun e s1 =>
    let d := clip2 (e.reg f.va).toNat (e.reg f.vb).toNat (vlmax (tagWidth (tagAt e.st.tags f.vc.toNat)))
    s1.setReg e f.vd (BitVec.ofNat 64 (d.1 * 2 ^ 32 + d.2)))

/-! ## Instructions that commit and then run from the VQ -/

/-- VPART: its commit; it runs under R167. -/
def execVpart (f : VxC) (s : State) : Out := s.commit (.vpart f)
/-- VJOIN: its commit; it runs under R167. -/
def execVjoin (f : VxC) (s : State) : Out := s.commit (.vjoin f)
/-- VADD: its commit; it runs under R168. -/
def execVadd (f : VxC) (s : State) : Out := s.commit (.vadd f)
/-- VSUB: its commit; it runs under R168. -/
def execVsub (f : VxC) (s : State) : Out := s.commit (.vsub f)
/-- VMUL: its commit; it runs under R168. -/
def execVmul (f : VxC) (s : State) : Out := s.commit (.vmul f)
/-- VMULH: its commit; it runs under R168. -/
def execVmulh (f : VxC) (s : State) : Out := s.commit (.vmulh f)
/-- VFMA: its commit; it runs under R168. -/
def execVfma (f : VxC) (s : State) : Out := s.commit (.vfma f)
/-- VFMS: its commit; it runs under R168. -/
def execVfms (f : VxC) (s : State) : Out := s.commit (.vfms f)
/-- VFNMA: its commit; it runs under R168. -/
def execVfnma (f : VxC) (s : State) : Out := s.commit (.vfnma f)
/-- VDIV: its commit; it runs under R168. -/
def execVdiv (f : VxC) (s : State) : Out := s.commit (.vdiv f)
/-- VSQRT: its commit; it runs under R168. -/
def execVsqrt (f : VxC) (s : State) : Out := s.commit (.vsqrt f)
/-- VRCP: its commit; it runs under R168. -/
def execVrcp (f : VxC) (s : State) : Out := s.commit (.vrcp f)
/-- VRSQ: its commit; it runs under R168. -/
def execVrsq (f : VxC) (s : State) : Out := s.commit (.vrsq f)
/-- VEXP2: its commit; it runs under R168. -/
def execVexp2 (f : VxC) (s : State) : Out := s.commit (.vexp2 f)
/-- VLOG2: its commit; it runs under R168. -/
def execVlog2 (f : VxC) (s : State) : Out := s.commit (.vlog2 f)
/-- VMIN: its commit; it runs under R168. -/
def execVmin (f : VxC) (s : State) : Out := s.commit (.vmin f)
/-- VMAX: its commit; it runs under R168. -/
def execVmax (f : VxC) (s : State) : Out := s.commit (.vmax f)
/-- VABS: its commit; it runs under R168. -/
def execVabs (f : VxC) (s : State) : Out := s.commit (.vabs f)
/-- VNEG: its commit; it runs under R168. -/
def execVneg (f : VxC) (s : State) : Out := s.commit (.vneg f)
/-- VAND: its commit; it runs under R173. -/
def execVand (f : VxC) (s : State) : Out := s.commit (.vand f)
/-- VOR: its commit; it runs under R173. -/
def execVor (f : VxC) (s : State) : Out := s.commit (.vor f)
/-- VXOR: its commit; it runs under R173. -/
def execVxor (f : VxC) (s : State) : Out := s.commit (.vxor f)
/-- VNOT: its commit; it runs under R173. -/
def execVnot (f : VxC) (s : State) : Out := s.commit (.vnot f)
/-- VSHL: its commit; it runs under R173. -/
def execVshl (f : VxC) (s : State) : Out := s.commit (.vshl f)
/-- VSHR: its commit; it runs under R173. -/
def execVshr (f : VxC) (s : State) : Out := s.commit (.vshr f)
/-- VSRA: its commit; it runs under R173. -/
def execVsra (f : VxC) (s : State) : Out := s.commit (.vsra f)
/-- VCMPEQ: its commit; it runs under R174. -/
def execVcmpeq (f : VxC) (s : State) : Out := s.commit (.vcmpeq f)
/-- VCMPNE: its commit; it runs under R174. -/
def execVcmpne (f : VxC) (s : State) : Out := s.commit (.vcmpne f)
/-- VCMPLT: its commit; it runs under R174. -/
def execVcmplt (f : VxC) (s : State) : Out := s.commit (.vcmplt f)
/-- VCMPLE: its commit; it runs under R174. -/
def execVcmple (f : VxC) (s : State) : Out := s.commit (.vcmple f)
/-- VSEL: its commit; it runs under R175. -/
def execVsel (f : VxC) (s : State) : Out := s.commit (.vsel f)
/-- VCLASS: its commit; it runs under R176. -/
def execVclass (f : VxC) (s : State) : Out := s.commit (.vclass f)
/-- VCVT: its commit; it runs under R177. -/
def execVcvt (f : VxC) (s : State) : Out := s.commit (.vcvt f)
/-- VNARROW: its commit; it runs under R177. -/
def execVnarrow (f : VxC) (s : State) : Out := s.commit (.vnarrow f)
/-- VWIDEN: its commit; it runs under R177, R178. -/
def execVwiden (f : VxC) (s : State) : Out := s.commit (.vwiden f)
/-- VQ4: its commit; it runs under R179. -/
def execVq4 (f : VxC) (s : State) : Out := s.commit (.vq4 f)
/-- VSLIDEUP: its commit; it runs under R181. -/
def execVslideup (f : VxC) (s : State) : Out := s.commit (.vslideup f)
/-- VSLIDEDN: its commit; it runs under R181. -/
def execVslidedn (f : VxC) (s : State) : Out := s.commit (.vslidedn f)
/-- VPERM: its commit; it runs under R182. -/
def execVperm (f : VxC) (s : State) : Out := s.commit (.vperm f)
/-- VBCAST: its commit; it runs under R183. -/
def execVbcast (f : VxC) (s : State) : Out := s.commit (.vbcast f)
/-- VMVS: its commit; it runs under R183. -/
def execVmvs (f : VxC) (s : State) : Out := s.commit (.vmvs f)
/-- VGET: its commit; it runs under R184. -/
def execVget (f : VxC) (s : State) : Out := s.commit (.vget f)
/-- VREDSUM: its commit; it runs under R185. -/
def execVredsum (f : VxC) (s : State) : Out := s.commit (.vredsum f)
/-- VREDMAX: its commit; it runs under R185. -/
def execVredmax (f : VxC) (s : State) : Out := s.commit (.vredmax f)
/-- VREDMIN: its commit; it runs under R185. -/
def execVredmin (f : VxC) (s : State) : Out := s.commit (.vredmin f)
/-- VREDAND: its commit; it runs under R185. -/
def execVredand (f : VxC) (s : State) : Out := s.commit (.vredand f)
/-- VREDOR: its commit; it runs under R185. -/
def execVredor (f : VxC) (s : State) : Out := s.commit (.vredor f)
/-- VSCAN: its commit; it runs under R186. -/
def execVscan (f : VxC) (s : State) : Out := s.commit (.vscan f)
/-- VCOMPRESS: its commit; it runs under R187. -/
def execVcompress (f : VxC) (s : State) : Out := s.commit (.vcompress f)
/-- VEXPAND: its commit; it runs under R187. -/
def execVexpand (f : VxC) (s : State) : Out := s.commit (.vexpand f)
/-- VIOTA: its commit; it runs under R188. -/
def execViota (f : VxC) (s : State) : Out := s.commit (.viota f)
/-- VTRANS8: its commit; it runs under R189. -/
def execVtrans8 (f : VxC) (s : State) : Out := s.commit (.vtrans8 f)
/-- VFIRST: its commit; it runs under R190. -/
def execVfirst (f : VxC) (s : State) : Out := s.commit (.vfirst f)
/-- VPOPM: its commit; it runs under R190. -/
def execVpopm (f : VxC) (s : State) : Out := s.commit (.vpopm f)
/-- VLD: its commit; it runs under R198. -/
def execVld (f : VxM) (s : State) : Out := s.commit (.vld f)
/-- VLDS: its commit; it runs under R198. -/
def execVlds (f : VxM) (s : State) : Out := s.commit (.vlds f)
/-- VLDX: its commit; it runs under R198. -/
def execVldx (f : VxM) (s : State) : Out := s.commit (.vldx f)
/-- VLDFF: its commit; it runs under R199. -/
def execVldff (f : VxM) (s : State) : Out := s.commit (.vldff f)
/-- VLD2D: its commit; it runs under R198. -/
def execVld2d (f : VxM) (s : State) : Out := s.commit (.vld2d f)
/-- VST: its commit; it runs under R198. -/
def execVst (f : VxM) (s : State) : Out := s.commit (.vst f)
/-- VSTS: its commit; it runs under R198. -/
def execVsts (f : VxM) (s : State) : Out := s.commit (.vsts f)
/-- VSTX: its commit; it runs under R198. -/
def execVstx (f : VxM) (s : State) : Out := s.commit (.vstx f)
/-- VST2D: its commit; it runs under R198. -/
def execVst2d (f : VxM) (s : State) : Out := s.commit (.vst2d f)
/-- VAMO: its commit; it runs under R201. -/
def execVamo (f : VxM) (s : State) : Out := s.commit (.vamo f)
/-- VXLAT: its commit; it runs under R203. -/
def execVxlat (f : VxM) (s : State) : Out := s.commit (.vxlat f)
/-- KVAPP: its commit; it runs under R207. -/
def execKvapp (f : VxM) (s : State) : Out := s.commit (.kvapp f)
/-- VUNBIND: its commit; it runs under R214. -/
def execVunbind (f : VxM) (s : State) : Out := s.commit (.vunbind f)
/-- MZERO: its commit; it runs under R223. -/
def execMzero (f : MxF) (s : State) : Out := s.commit (.mzero f)
/-- MMA: its commit; it runs under R224. -/
def execMma (f : MxF) (s : State) : Out := s.commit (.mma f)
/-- MMAV: its commit; it runs under R225. -/
def execMmav (f : MxF) (s : State) : Out := s.commit (.mmav f)
/-- MMAS: its commit; it runs under R226. -/
def execMmas (f : MxF) (s : State) : Out := s.commit (.mmas f)
/-- MLOADC: its commit; it runs under R228. -/
def execMloadc (f : MxF) (s : State) : Out := s.commit (.mloadc f)
/-- MSTORE: its commit; it runs under R229. -/
def execMstore (f : MxF) (s : State) : Out := s.commit (.mstore f)
/-- MREADV: its commit; it runs under R230. -/
def execMreadv (f : MxF) (s : State) : Out := s.commit (.mreadv f)
/-- MWRITEV: its commit; it runs under R230. -/
def execMwritev (f : MxF) (s : State) : Out := s.commit (.mwritev f)
/-- MCVT: its commit; it runs under R231. -/
def execMcvt (f : MxF) (s : State) : Out := s.commit (.mcvt f)
/-- TLOAD: its commit; it runs under R236. -/
def execTload (f : MxF) (s : State) : Out := s.commit (.tload f)
/-- TEVAL: its commit; it runs under R237. -/
def execTeval (f : MxF) (s : State) : Out := s.commit (.teval f)
/-- TLEAF: its commit; it runs under R238. -/
def execTleaf (f : MxF) (s : State) : Out := s.commit (.tleaf f)
/-- TCLR: its commit; it runs under R236. -/
def execTclr (f : MxF) (s : State) : Out := s.commit (.tclr f)

/-! ## VBIND's descriptor (R209, R210) -/

/-- The stream a descriptor's 64 bytes describe, for a register of a width. -/
def streamOf (bs : List Byte) (reg width : Nat) (scope cache : BitVec 3) (vbypass : BitVec 25) : Stream where
  reg := reg
  width := width
  output := fieldLE bs 22 1 % 2 == 1
  source := match fieldLE bs 22 1 / 2 % 4 with
    | 1 => .sfeed
    | 2 => .engine
    | _ => .pattern
  base := BitVec.ofNat 64 (fieldLE bs 0 8)
  count0 := fieldLE bs 8 4
  count1 := fieldLE bs 12 4
  count2 := fieldLE bs 16 4
  stride0 := fieldLEs bs 24 8
  stride1 := fieldLEs bs 32 8
  stride2 := fieldLEs bs 40 8
  chunk := fieldLE bs 20 2 % 8192
  scope := scope
  alloc := cache == 2 || ((cache == 0 || cache == 3) &&
    decide (fieldLE bs 8 4 * fieldLE bs 12 4 * fieldLE bs 16 4 * width / 8 ≤ vbypass.toNat))
  claimed := 0
  arrived := 0
  chunks := []
  feeding := []
  delivered := []
  ended := false
  emitted := 0
  pins := []
  readFault := none

/-- Address of the element of a stream's pattern at three counts (R211). -/
def Stream.at3 (x : Stream) (k0 k1 k2 : Nat) : Nat :=
  (((x.base.toNat : Int) + k0 * x.stride0 + k1 * x.stride1 + k2 * x.stride2) % (2 ^ 64 : Nat)).toNat

/-- Address of the q-th element of a stream's pattern (R211). -/
def Stream.address (x : Stream) (q : Nat) : Nat :=
  x.at3 (q % x.count0) (q / x.count0 % x.count1) (q / (x.count0 * x.count1))

/-- Addresses of the corners of a pattern that is not empty. -/
def Stream.corners (x : Stream) : List Nat :=
  [0, x.count0 - 1].flatMap (fun k0 => [0, x.count1 - 1].flatMap (fun k1 =>
    [0, x.count2 - 1].map (fun k2 => x.at3 k0 k1 k2)))

/-- An address lies in the scratchpad window (R86). -/
def inScratch (va : Nat) : Bool := decide (Config.scratchBase ≤ va) && decide (va < Config.scratchBase + Config.scratchBytes)

/-- A descriptor that R209 or R210 answers with 0x12: a reserved field that is not zero, CHUNK out of range, an output stream fed
by SFEED. DESIGN CHOICE: so do SOURCE 11 and an engine pattern outside the scratchpad, for which no cause is given (log 118). -/
def badDescriptor (bs : List Byte) (x : Stream) : Bool :=
  decide (8192 ≤ fieldLE bs 20 2) || decide (8 ≤ fieldLE bs 22 1) || !zeroBytes bs 23 1 || !zeroBytes bs 48 16 ||
    x.chunk == 0 || decide (vlmax x.width < x.chunk) || fieldLE bs 22 1 / 2 == 3 ||
    (x.source == .sfeed && x.output) ||
    (x.source == .engine && decide (0 < x.elements) && !(x.corners.all inScratch))

/-- The 64 bytes of a stream descriptor read as eight doubleword loads of the execute context, or the fault (R209). -/
def State.readDescriptor (s : State) (a : Agent) (st : Strand) (at_ : Nat) : Res (List Byte × State) :=
  if at_ % 8 ≠ 0 then .fault .misaligned at_
  else
    (List.range 8).foldl (fun (acc : Res (List Byte × State)) (j : Nat) =>
      acc.bind (fun p =>
        (p.2.loadVA a st st.strip .load ((at_ + 8 * j) % 2 ^ 64) 8 (fun _ => true) true).map
          (fun q => (p.1 ++ q.1, q.2)))) (.ok ([], s))

/-- What a VBIND knows of its stream from its descriptor: the stream, and a fault to be raised when it executes. -/
def bindOf (bs : List Byte) (f : VxM) (width : Nat) (vbypass : BitVec 25) : Stream × Option (Cause × Word) :=
  let x := streamOf bs f.vd.toNat width f.scope f.cache vbypass
  (x, if badDescriptor bs x then some (.streamProtocol, slotTval f.va.toNat) else none)

/-- VBIND: its commit reads the descriptor and waits for the read; the slot counts as bound from then on (R209). -/
def execVbind (f : VxM) (s : State) : Out :=
  s.commitChecked (.vbind f) (fun e p =>
    if e.st.novHeld e.ctx then .wait .drain s
    else
      let width := tagWidth (tagAt e.st.tags f.vd.toNat)
      match s.readDescriptor e.agent e.st (e.reg f.gbase).toNat with
      | .ok (bs, s1) =>
        let b := bindOf bs f width e.st.vbypass
        .done (s1.setStrand e.slot (e.committed (.vbind f) p
          (fun (x : VqEntry) => { x with bind := some { b.1 with born := x.seq }, bindFault := b.2 })))
      | .fault c va =>
        .done ((s.setStrand e.slot (e.committed (.vbind f) p
          (fun (x : VqEntry) => { x with bindFault := some (c, BitVec.ofNat 64 va) }))).dropXlatFaults (.context e.slot e.ctx))
      | r => r.act e s (fun _ => .instead s))

end Sys2Proof.Machine
end

