-- ==== Sys2Proof/Machine/Shadow.lean ====
section
/-!
DEFINITION. Machine/Shadow.lean: the shadow pages that engine commands and MSTORE write (R113), their publication (R114,
R260), and reads and writes by an engine (R98, R221, R258).
-/
namespace Sys2Proof.Machine

/-- The place n bytes below a place. -/
def Place.back (p : Place) (n : Nat) : Place :=
  match p with
  | .scratch k off => .scratch k (off - n)
  | .dev pa => .dev (pa - n)
  | .ws die off => .ws die (off - n)
  | .host pa => .host (pa - n)
  | .remote m pa => .remote m (pa - n)

/-- The cluster whose scratchpad a place lies in. -/
def Place.scratchOf : Place → Option Nat
  | .scratch k _ => some k
  | _ => none

/-- The page of an address space at an address, in a cluster's scratchpad or outside. -/
def Shadow.isPage (sh : Shadow) (asid : Nat) (scratch : Option Nat) (page : Nat) : Bool :=
  sh.asid == asid && sh.scratch == scratch && sh.va == page

/-- A context among the owners of a shadow page (R113). -/
def addOwner (owners : List (Nat × Nat × CtxId)) (o : Nat × Nat × CtxId) : List (Nat × Nat × CtxId) :=
  if owners.contains o then owners else owners ++ [o]

/-- Offsets of the poisoned bytes of a page at a place, but for one that is written (R366). -/
def State.poisonIn (s : State) (p : Place) (off : Nat) : List Nat :=
  match p.flat with
  | some n => if s.poison.isEmpty then [] else (List.range 4096).filter (fun i => i != off && s.poison.contains ((n + i) / 64))
  | none => []

/-- One byte written into the shadow of its page, which is made as a copy of the visible page by the first write into it
(R113). `p` is the byte's place. -/
def State.shadowByte (s : State) (asid va : Nat) (p : Place) (owner : Nat × Nat × CtxId) (moved : Option (Nat × Nat)) (b : Byte) :
    State :=
  let page := pageOf va
  let off := va - page
  if s.shadows.any (fun sh => sh.isPage asid p.scratchOf page) then
    { s with shadows := s.shadows.map (fun sh =>
        if sh.isPage asid p.scratchOf page then
          { sh with
            bytes := sh.bytes.set off b
            owners := addOwner sh.owners owner
            moved := (match sh.moved with
              | some m => some m
              | none => moved)
            poison := sh.poison.filter (fun i => i != off) }
        else sh) }
  else
    let sh : Shadow := {
      asid, va := page, scratch := p.scratchOf, bytes := (s.homeBytes (p.back off) 4096).set off b
      owners := [owner], errored := none, incomplete := false, moved, origin := none
      poison := s.poisonIn (p.back off) off }
    { s with shadows := s.shadows ++ [sh] }

/-- Bytes written into the shadows of their pages by an agent (R113); `local_` refuses host and remote memory (R229). -/
def State.shadowWrite (s : State) (a : Agent) (owner : Nat × Nat × CtxId) (local_ : Bool) : Nat → List Byte → Res State
  | _, [] => .ok s
  | va, b :: rest =>
    let at_ := va % 2 ^ 64
    match s.resolve a at_ .store with
    | .fault c => .fault c at_
    | .miss => .miss at_ .store
    | .absent pa => .stop (.absentAddress pa)
    | .ok p =>
      let far := match p with
        | .host _ | .remote _ _ => true
        | _ => false
      if local_ && far then .fault .protection at_
      else if s.unreachable p then .fault .uncorrectable at_
      else (s.shadowByte a.asid at_ p owner none b).shadowWrite a owner local_ (va + 1) rest

/-- Bytes read as the tile fetch unit reads them: at their home, from HBM, the second tier or the weight store, and from the
scratchpad where `scratch` admits it (R221, R236). -/
def State.fetchTile (s : State) (a : Agent) (scratch : Bool) : Nat → Nat → Res (List Byte)
  | _, 0 => .ok []
  | va, n + 1 =>
    let at_ := va % 2 ^ 64
    match s.resolve a at_ .load with
    | .fault c => .fault c at_
    | .miss => .miss at_ .load
    | .absent pa => .stop (.absentAddress pa)
    | .ok p =>
      let served := match p with
        | .dev _ | .ws _ _ => true
        | .scratch _ _ => scratch
        | _ => false
      if !served then .fault .protection at_
      else if s.poisoned p then .fault .uncorrectable at_
      else (s.fetchTile a scratch (va + 1) n).map (fun rest => s.homeBytes p 1 ++ rest)

/-- A span of n bytes may be written by a matrix-queue instruction or an engine command of a strand: it meets no spliced
intermediate of the strand (R277). -/
def State.writeCheck (s : State) (st : Strand) (va n : Nat) : Res Unit :=
  if n = 0 then .ok ()
  else
    match s.route st 0 .other va n with
    | .memory => .ok ()
    | _ => .fault .protection va

/-- A span of n bytes may be read by one: it meets no elided range either (R277, R281). -/
def State.spanCheck (s : State) (st : Strand) (va n : Nat) : Res Unit :=
  if n ≠ 0 ∧ s.readsElided st va n then .fault .elidedRead va else s.writeCheck st va n

/-- Copies of a device page dropped from every cluster's L1 data cache: a published page is another version (R114). -/
def State.dropCopies (s : State) (pa n : Nat) : State :=
  { s with clusters := s.clusters.map (fun p =>
      (p.1, { p.2 with l1 := p.2.l1.filter (fun l => l.cells.all (fun c => decide (c.1 < pa) || decide (pa + n ≤ c.1))) })) }

/-- The visible page at a place replaced by the shadow's bytes, for all agents at once (R114). -/
def State.swapPage (s : State) (p : Place) (bs : List Byte) : State :=
  let s1 := s.putBytes Config.clusters p bs
  let s2 := s1.heal (p.flat.map (fun n => (n, bs.length))).toList
  match p with
  | .dev pa => s2.dropCopies pa bs.length
  | _ => s2

end Sys2Proof.Machine
end

