-- ==== Sys2Proof/Machine/Lanes.lean ====
section
/-!
DEFINITION. Machine/Lanes.lean: what every instruction performed from the VQ shares: its claimed chunks (R78, R216), its
tag mismatch (R69), its sources (R75 to R78), its elements with their lanes, flags and stochastic-rounding steps (R22,
R50, R56, R84, R162), and the chunks it emits (R213).
-/
namespace Sys2Proof.Machine

/-- What performing a VQ entry comes to. -/
inductive Perf where
  /-- complete -/
  | done (s : State)
  /-- an imprecise fault: cause, TVAL and first unfinished element -/
  | fault (cause : Cause) (tval : Word) (element : Nat) (s : State)
  /-- waits in the lanes, not started (R32) -/
  | hold (s : State)
  /-- has to be tried again, nothing done; no cancellation point -/
  | again (s : State)
  /-- waits for a translation before it has performed anything -/
  | park (a : Agent) (va : Nat) (intent : Intent) (s : State)
  /-- started, with accesses still to be made: the first unfinished element -/
  | part (element : Nat) (s : State)
  /-- the producer it waits for has ended (R283) -/
  | partner (s : State)
  | halt (f : Fault)
  deriving DecidableEq, Repr

/-- A VQ entry being performed: the strand as it stands before the instruction, its chunks taken. -/
structure Run where
  s : State
  slot : Nat
  st : Strand
  e : VqEntry
  p : Plan
  deriving DecidableEq, Repr

/-- The lanes of the strand (R21). -/
def Run.lanes (r : Run) : Nat × Nat := r.s.lanes r.slot

/-- The kinds of access that translate once for each page that they touch (R100). -/
def perPage : Instr → Bool
  | .vld _ | .vlds _ | .vld2d _ | .vldff _ | .vst _ | .vsts _ | .vst2d _ => true
  | _ => false

/-- The pages an instruction goes on using, of those it has used (R100). -/
def VqEntry.keeps (e : VqEntry) (l : List HeldPage) : List HeldPage := if perPage e.instr then l else []

/-- On whose behalf its accesses are made. -/
def Run.agent (r : Run) : Agent :=
  { agentOf r.slot r.st r.st.exec.priv (.lanes r.slot) with held := r.e.keeps r.e.held, charge := some (r.e.pc, r.e.strip) }

/-- A length, base, stride or broadcast register as read at commit (R15). -/
def Run.g (r : Run) (x : Reg) : Word := snapReg r.e.g x

/-- The tag of a register as resolved at commit (R69). -/
def Run.tag (r : Run) (x : Reg) : Tag := tagAt r.e.tags x.toNat

/-- First element to be performed (R74). -/
def Run.from_ (r : Run) : Nat := r.st.vstart.toNat

/-- Element i, at width w, of the source group at register x; beyond the chunk it holds, a register popped by this
instruction reads as zero bits (R78). -/
def Run.src (r : Run) (x w i : Nat) : Nat :=
  match r.e.claims.find? (fun c => c.reg == x + i / vlmax w) with
  | some c => if c.length * tagWidth (tagAt r.e.tags c.reg) ≤ i % vlmax w * w then 0 else r.st.elem x w i
  | none => r.st.elem x w i

/-- A source with a neighbour code (R76), of an instruction of length n. -/
def Run.neighbour (r : Run) (code : BitVec 2) (x w i : Nat) : Nat :=
  let edge := fun (j : Nat) =>
    match r.e.edge.toNat with
    | 0 => 0
    | 1 => r.src x w j
    | _ => r.src x w i
  match code.toNat with
  | 1 => if 0 < i then r.src x w (i - 1) else edge (r.p.n - 1)
  | 2 => if i + 1 < r.p.n then r.src x w (i + 1) else edge 0
  | _ => r.src x w i

/-- The second source: a broadcast (R75) or vb with its neighbour code. -/
def Run.srcB (r : Run) (f : VxC) (w i : Nat) : Nat :=
  if f.scalar then (r.g f.immReg).toNat % 2 ^ w else r.neighbour f.nb f.vb.toNat w i

/-- Element i is active (R73). -/
def Run.act (r : Run) (m mi : Bool) (i : Nat) : Bool := decide (i < r.p.n) && r.st.active m mi i

/-- The active elements, ascending. -/
def Run.actives (r : Run) (m mi : Bool) : List Nat := (List.range r.p.n).filter (r.act m mi)

/-! ## Claimed chunks -/

/-- The chunk with a number, if it waits in the slot. -/
def Stream.held (x : Stream) (n : Nat) : Option (List Word) := lookup x.chunks n

/-- How a claim stands when its instruction executes. -/
inductive ClaimState where
  | ready
  | waits
  | faults (cause : Cause) (tval : Word)
  deriving DecidableEq, Repr

/-- How a claim stands (R14, R78, R212, R216). -/
def Strand.claimState (st : Strand) (c : Claim) : ClaimState :=
  if c.taken then .ready
  else
    match c.kind, st.stream c.slot with
    | .widthMismatch, _ | .pastEnd, _ | _, none => .faults .streamProtocol (slotTval c.slot)
    | .chunk n, some x =>
      if (x.held n).isSome then .ready
      else if x.source == .sfeed && decide (x.arrived + x.feeding.length ≤ n) && (x.ended || st.access.retired) then
        .faults .streamProtocol (slotTval c.slot)
      else
        match x.readFault with
        | some f => if n = x.arrived then .faults f.1 f.2 else .waits
        | none => .waits

/-- Pins whose last chunk has been used are released (R215). -/
def Stream.unpin (x : Stream) (n : Nat) : Stream := { x with pins := x.pins.filter (fun q => decide (n < q.2.2)) }

/-- A claimed chunk taken into its register (R78). -/
def Strand.take (st : Strand) (c : Claim) : Claim × Strand :=
  match c.kind, st.stream c.slot with
  | .chunk n, some x =>
    if c.taken then (c, st)
    else
      match x.held n with
      | none => (c, st)
      | some d =>
        let pairs := (List.range d.length).map (fun i => (i, (d.getD i 0).toNat))
        let st1 := st.setElems c.reg x.width pairs
        ({ c with taken := true, length := d.length },
         st1.setStream c.slot (some ({ x with chunks := eraseKey x.chunks n }.unpin n)))
  | _, _ => (c, st)

/-- All the chunks of an entry taken. -/
def Strand.takeAll (st : Strand) (cs : List Claim) : List Claim × Strand :=
  cs.foldl (fun (acc : List Claim × Strand) (c : Claim) =>
    let p := acc.2.take c
    (acc.1 ++ [p.1], p.2)) ([], st)

/-- A pattern-read fault that is raised is forgotten: the stream unit reads the chunk again (R216). -/
def Strand.forgetReadFaults (st : Strand) (cs : List Claim) : Strand :=
  cs.foldl (fun (st : Strand) (c : Claim) =>
    match st.stream c.slot with
    | some x => if x.readFault.isSome then st.setStream c.slot (some { x with readFault := none }) else st
    | none => st) st

/-- TVAL of a tag mismatch (R310). -/
def tagTval (b : Nat × Tag) : Word := BitVec.ofNat 64 (b.1 * 256 + b.2.toNat)

/-- A register the instruction writes is bound for input (R78). -/
def Strand.inputDest (st : Strand) (p : Plan) : Option Nat :=
  (List.range 8).find? (fun k =>
    match st.stream k with
    | some x => !x.output && p.writes.contains x.reg
    | none => false)

/-- The VQ entry of a committed instruction replaced. -/
def Strand.putEntry (st : Strand) (e : VqEntry) : Strand :=
  { st with vq := st.vq.map (fun x => if x.seq = e.seq then e else x) }

/-- A fault of the instruction that leaves VSTART 0 (R179, R180). -/
def isWhole (i : Instr) : Bool :=
  match i with
  | .vslideup _ | .vslidedn _ | .vperm _ | .vbcast _ | .vmvs _ | .vget _ | .vredsum _ | .vredmax _ | .vredmin _ | .vredand _
  | .vredor _ | .vscan _ | .vcompress _ | .vexpand _ | .viota _ | .vtrans8 _ | .vfirst _ | .vpopm _ | .vq4 _ => true
  | _ => false

/-- Before an instruction executes: its tag mismatch, its stream-protocol faults, the wait for its chunks, and the
taking of them (R69, R78, R216). `body` performs it from there. -/
def State.perform (s : State) (slot : Nat) (st : Strand) (e : VqEntry) (put : VqEntry → Strand → Strand)
    (body : Run → Perf) : Perf :=
  let p := plan e.instr e.tags e.g
  let first := if isWhole e.instr then 0 else st.vstart.toNat
  match p.bad with
  | some b => .fault .tagMismatch (tagTval b) first s
  | none =>
    match e.claims.findSome? (fun c =>
        match st.claimState c with
        | .faults cause tval => some (cause, tval)
        | _ => none) with
    | some (cause, tval) =>
      .fault cause tval (if cause = .streamProtocol then first else 0)
        (s.setStrand slot (st.forgetReadFaults e.claims))
    | none =>
      match st.inputDest p with
      | some k => .fault .streamProtocol (slotTval k) first s
      | none =>
        if e.claims.any (fun c => st.claimState c == .waits) then .hold s
        else
          let t := st.takeAll e.claims
          let e1 : VqEntry := { e with claims := t.1 }
          let st1 := put e1 t.2
          body { s := s.setStrand slot st1, slot, st := st1, e := e1, p }

/-! ## Elements, flags and rounding -/

/-- Elements computed so far: the strand with its flags and state words, the results, and the lowest element whose flags
trap. -/
structure Sweep where
  st : Strand
  out : List (Nat × Nat)
  trap : Option (Nat × Flags)
  deriving DecidableEq, Repr

/-- One active element: `f` gives its result and flags from its stochastic number, in the lane of its group. Above a
trapping element a free value says whether an element has been performed (R162, log 11). -/
def Run.one (r : Run) (group : Nat → Nat) (draws : Bool) (f : Nat → Nat → Nat × Flags) (acc : Sweep) (i : Nat) : Sweep :=
  if acc.trap.isSome && !Config.pastFault r.s.draws i then acc
  else
    let lane := laneOf r.lanes (group i)
    let d := if draws && r.e.rm = 5 then acc.st.draw lane else (0, acc.st)
    let x := f i d.1
    let st := d.2.raise lane x.2
    let t := trapping x.2 r.e.trapen
    if t = 0 then { st, out := acc.out ++ [(i, x.1)], trap := acc.trap }
    else { st, out := acc.out, trap := acc.trap.or (some (i, t)) }

/-- The elements of a list computed in order (R22, R50, R56, R84). -/
def Run.sweep (r : Run) (elems : List Nat) (group : Nat → Nat) (draws : Bool) (f : Nat → Nat → Nat × Flags) : Sweep :=
  elems.foldl (r.one group draws f) { st := r.st, out := [], trap := none }

/-- The element group in which element i of width w lies within its register (R22). -/
def groupIn (w i : Nat) : Nat := i % vlmax w * w / 64

/-! ## Chunks emitted -/

/-- Elements of a group of registers that an instruction emits where a register is bound for output (R78). -/
structure Emit where
  base : Nat
  w : Nat
  elems : List Nat
  deriving DecidableEq, Repr

/-- One element to be emitted: the bound slot, the first register of its group, its width and index. -/
structure Emitted where
  slot : Nat
  base : Nat
  w : Nat
  i : Nat
  deriving DecidableEq, Repr

/-- The slot bound for output that holds a register. -/
def Strand.outputSlot (st : Strand) (r : Nat) : Option Nat := (st.outputs.find? (fun o => o.2 == r)).map (·.1)

/-- The elements a set of emissions stores, in order (R78, R213). -/
def Strand.emitList (st : Strand) (outs : List Emit) : List Emitted :=
  if st.outputs.isEmpty then []
  else
    outs.flatMap (fun (o : Emit) => o.elems.filterMap (fun i =>
      (st.outputSlot (o.base + i / vlmax o.w)).map (fun k => { slot := k, base := o.base, w := o.w, i })))

/-- A slot whose chunk is longer than what remains of its pattern (R213). -/
def Strand.tooLong (st : Strand) (outs : List Emit) : Option Nat :=
  let l := st.emitList outs
  (List.range 8).find? (fun k =>
    match st.stream k with
    | some x => x.output && decide (x.elements < x.emitted + (l.filter (fun q => q.slot == k)).length)
    | none => false)

/-- The byte a 4-bit element shares, as it stands: in the region that a store of it is routed to, else at its home (R99, R194,
R277). -/
def State.nibbleByte (s : State) (st : Strand) (strip : Nat) (p : Place) (va : Nat) : Nat :=
  let home := leNat (s.homeBytes p 1)
  match s.route st strip .store va 1 with
  | .region pair addr => ((s.regionBytes ((st.group.map (·.1)).getD 0) pair st.vcluster addr).map leNat).getD home
  | _ => home

/-- One element of width w stored at an address; a 4-bit element changes only its nibble (R41, R99, R194). -/
def State.storeElem (s : State) (a : Agent) (st : Strand) (strip va w : Nat) (high : Bool) (x : Nat) : Res State :=
  if w = 4 then
    match s.resolve a va .store with
    | .ok p =>
      let old := s.nibbleByte st strip p va
      let new := if high then old % 16 + 16 * (x % 16) else old / 16 * 16 + x % 16
      s.storeVA a st strip .store va [BitVec.ofNat 8 new]
    | .fault c => .fault c va
    | .miss => .miss va .store
    | .absent pa => .stop (.absentAddress pa)
  else if va % (w / 8) ≠ 0 then .fault .misaligned va
  else s.storeVA a st strip .store va (leBytes (w / 8) x)

/-- How an access that did not complete ends its instruction, at an element, from the state in which its completed
elements stand; a wait goes back to the state before. -/
def Res.perf {α : Type} (r : Res α) (a : Agent) (before after : State) (k : Nat) : Perf :=
  match r with
  | .fault c va => .fault c (BitVec.ofNat 64 va) k after
  | .miss va i => .park a va i before
  | .gated => .hold before
  | .partnerEnded => .partner before
  | .stop f => .halt f
  | .ok _ => .done after

/-- The number of the last element of a stream's pattern that lies in a page (R215). -/
def Stream.lastUse (x : Stream) (page : Nat) : Nat :=
  (List.range x.elements).foldl (fun m q => if pageOf (x.address q) = page then q else m) 0

/-- Pages of an address space pinned by a stream, those outside the scratchpad window; `last` says when each is used
for the last time, which may be later than was known before (R215). -/
def Stream.pin (x : Stream) (asid : Nat) (addresses : List Nat) (last : Nat → Nat) : Stream :=
  let pages := (addresses.filter (fun va => !inScratch va)).map pageOf
  { x with pins := pages.foldl (fun (l : List (Nat × Nat × Nat)) (page : Nat) =>
      if l.any (fun q => q.1 == asid && q.2.1 == page) then
        l.map (fun q => if q.1 = asid ∧ q.2.1 = page then (asid, page, max q.2.2 (last page)) else q)
      else l ++ [(asid, page, last page)]) x.pins }

/-- On whose behalf a chunk is stored: it keeps the pages it has used (R215). -/
def Run.storing (r : Run) (x : Stream) : Agent := { r.agent with held := x.pages }

/-- Elements emitted: the stream's pages pinned until their last chunk is stored (R213, R215). -/
def Stream.emit (x : Stream) (asid n : Nat) : Stream :=
  let y := x.pin asid ((List.range n).map (fun j => x.address (x.emitted + j))) x.lastUse
  { y with emitted := x.emitted + n }

/-- One element emitted: a store at the next position of its slot's pattern; the chunk keeps its page (R213, R215). -/
def Run.emitOne (r : Run) (s : State) (q : Emitted) : Res State :=
  match (s.strand? r.slot).bind (fun st => (st.stream q.slot).map (fun x => (st, x))) with
  | none => .ok s
  | some (st, x) =>
    (s.storeElem (r.storing x) r.st r.e.strip (x.address x.emitted) q.w false (st.elem q.base q.w q.i)).map (fun s1 =>
      s1.updStrand r.slot (fun st => st.setStream q.slot (some
        { x.emit st.asid.toNat 1 with pages := s.keepPage (r.storing x) (x.address x.emitted) x.pages })))

/-- Elements emitted in order: the state, how many, and the first that does not complete. -/
def Run.emit (r : Run) (s : State) : List Emitted → State × Nat × Option (Nat × Res State)
  | [] => (s, 0, none)
  | q :: rest =>
    match r.emitOne s q with
    | .ok s1 => let x := r.emit s1 rest; (x.1, x.2.1 + 1, x.2.2)
    | res => (s, 0, some (q.i, res))

/-- The elements a set of emissions stores, by element index: those of one index all together or none (R213). -/
def Run.emitEach (r : Run) (s : State) : List (Nat × List Emitted) → State × Option (Nat × Res State)
  | [] => (s, none)
  | (i, l) :: rest =>
    match l.findSome? (fun q =>
        match r.emitOne s q with
        | .ok _ => none
        | res => some res) with
    | some res => (s, some (i, res))
    | none => r.emitEach (r.emit s l).1 rest

/-- The chunks an instruction has emitted are stored: their streams keep no page any longer, and pin those used later (R215). -/
def Run.closed (r : Run) (s : State) : State :=
  if r.st.outputs.all (fun o => !r.p.writes.contains o.2) then s
  else
    s.updStrand r.slot (fun st => { st with streams := st.streams.map (fun o => o.map (fun (x : Stream) =>
      if x.output && r.p.writes.contains x.reg then
        { x with pages := [], arrived := x.arrived + 1, pins := x.pins.filter (fun q => decide (x.emitted ≤ q.2.2)) }
      else x)) })

/-- Whole units that emissions have stored stop being poisoned (R366). -/
def Run.healed (r : Run) (s : State) : State :=
  if s.poison.isEmpty then s
  else
    s.heal ((List.range 8).flatMap (fun k =>
      match r.st.stream k, (s.strand? r.slot).bind (fun st => st.stream k) with
      | some x, some y =>
        if x.output then
          (List.range (y.emitted - x.emitted)).filterMap (fun j => s.storedSpan (r.storing y) (x.address (x.emitted + j)) (x.width / 8))
        else []
      | _, _ => []))

/-- A compute instruction's results written, its chunks emitted, and its end: complete, or a trap at the lowest element whose
flags trapped. `calc` gives the strand with the results of the elements that pass a test, and that trap. An emission that
waits is tried again with the whole instruction; of one that faults, the elements below stand (R162, R196, R213, log 93). -/
def Run.finish (r : Run) (upTo : (Nat → Bool) → Strand × Option (Nat × Flags)) (outs : List Emit) : Perf :=
  match r.st.tooLong outs with
  | some k => .fault .streamProtocol (slotTval k) 0 r.s
  | none =>
    let all := upTo (fun _ => true)
    let below := fun (o : Emit) =>
      match all.2 with
      | some (k, _) => { o with elems := o.elems.filter (fun i => decide (i < k)) }
      | none => o
    let x := r.emit (r.s.setStrand r.slot all.1) (all.1.emitList (outs.map below))
    match x.2.2 with
    | some (j, res) =>
      let kept := x.1.updStrand r.slot (fun st => { (upTo (fun i => decide (i < j))).1 with streams := st.streams, exec := st.exec, access := st.access })
      res.perf r.agent r.s kept j
    | none =>
      match all.2 with
      | some (k, f) => .fault .arithmetic (arithmeticTval f k) k (r.healed x.1)
      | none => .done (r.closed (r.healed x.1))

/-- The results of an instruction that writes nothing until it is complete, written and emitted all together, or not at all;
it then begins again at an element (R180, R221, R238). -/
def Run.finishWhole (r : Run) (st : Strand) (outs : List Emit) (again : Nat) : Perf :=
  match r.st.tooLong outs with
  | some k => .fault .streamProtocol (slotTval k) 0 r.s
  | none =>
    let x := r.emit (r.s.setStrand r.slot st) (st.emitList outs)
    match x.2.2 with
    | some (_, res) => res.perf r.agent r.s (x.1.updStrand r.slot (fun st => { r.st with exec := st.exec, access := st.access })) again
    | none => .done (r.closed (r.healed x.1))

end Sys2Proof.Machine
end

