-- ==== Sys2Proof/Machine/ScalarFp.lean ====
section
/-!
DEFINITION. Machine/ScalarFp.lean: the scalar FP32 instructions (R68, R140 to R144).
-/
namespace Sys2Proof.Machine

/-- The tag of FP32. -/
def tagFP32 : Tag := 14

/-- The FP32 operand of a register: bits [31:0] (R68). -/
def Env.fp (e : Env) (r : Reg) : Nat := (e.reg r).toNat % 2 ^ 32

/-- An FP32 result, or an integer one, written with its flags: a flag that XTRAPEN enables traps, and then gd is not
written (R83, R84, R141). -/
def State.fpResult (s : State) (e : Env) (d : Reg) (x : Word) (flags : Flags) : Act :=
  let s1 := s.updCtx e.slot e.ctx (fun c => { c with flags := c.flags ||| flags })
  let t := trapping flags e.st.xtrapen
  if t = 0 then .done (s1.setReg e d x) else .trap .arithmetic (arithmeticTval t 0) s1

/-- The mode an instruction rounds under, its stochastic number, and the state after the step that SR takes (R141). -/
def State.scalarRounding (s : State) (e : Env) (rm : BitVec 3) : BitVec 3 × Nat × State :=
  let m := resolveRm rm e.st.xrm
  if m = 5 then
    let x := srStep e.c.sr
    (m, srNumber x, s.updCtx e.slot e.ctx (fun c => { c with sr := x }))
  else (m, 0, s)

/-- An FP32 operation whose result is rounded under rm (R140, R141). -/
def State.fpOp (s : State) (i : Instr) (regs : List Reg) (d : Reg) (rm : BitVec 3) (inputs : Env → List FVal)
    (f : Env → BitVec 3 → Exact) : Out :=
  s.issue i plainForm regs (fun e =>
    let (m, r, s1) := s.scalarRounding e rm
    let p := (f e m).deliver tagFP32 m false r
    s1.fpResult e d (BitVec.ofNat 64 p.1) (p.2 ||| nfOf (inputs e)))

/-- The value of an FP32 register. -/
def Env.fv (e : Env) (r : Reg) : FVal := decodeF tagFP32 (e.fp r)

/-- FADD (R140). -/
def execFadd (d a b : Reg) (rm : BitVec 3) (s : State) : Out :=
  s.fpOp (.fadd d a b rm) [d, a, b] d rm (fun e => [e.fv a, e.fv b]) (fun e m => fAdd m (e.fv a) (e.fv b))

/-- FSUB (R140). -/
def execFsub (d a b : Reg) (rm : BitVec 3) (s : State) : Out :=
  s.fpOp (.fsub d a b rm) [d, a, b] d rm (fun e => [e.fv a, e.fv b]) (fun e m => fAdd m (e.fv a) (e.fv b).negate)

/-- FMUL (R140). -/
def execFmul (d a b : Reg) (rm : BitVec 3) (s : State) : Out :=
  s.fpOp (.fmul d a b rm) [d, a, b] d rm (fun e => [e.fv a, e.fv b]) (fun e _ => fMul (e.fv a) (e.fv b))

/-- FMA (R140). -/
def execFma (d a b c : Reg) (rm : BitVec 3) (s : State) : Out :=
  s.fpOp (.fma d a b c rm) [d, a, b, c] d rm (fun e => [e.fv a, e.fv b, e.fv c])
    (fun e m => fFma m (e.fv a) (e.fv b) (e.fv c))

/-- FMIN: rm has no effect (R142). -/
def execFmin (d a b : Reg) (rm : BitVec 3) (s : State) : Out :=
  s.issue (.fmin d a b rm) plainForm [d, a, b] (fun e =>
    let p := fMinMax tagFP32 false (e.fp a) (e.fp b)
    s.fpResult e d (BitVec.ofNat 64 p.1) p.2)

/-- FMAX: rm has no effect (R142). -/
def execFmax (d a b : Reg) (rm : BitVec 3) (s : State) : Out :=
  s.issue (.fmax d a b rm) plainForm [d, a, b] (fun e =>
    let p := fMinMax tagFP32 true (e.fp a) (e.fp b)
    s.fpResult e d (BitVec.ofNat 64 p.1) p.2)

/-- A relation of two values, and the flags of the comparison: 00 eq, 01 lt, 10 le (R143). -/
def fRelation (rel : BitVec 2) (a b : FVal) : Bool × Flags :=
  let o := fCompare a b
  let holds := match rel.toNat with
    | 0 => o == some .eq
    | 1 => o == some .lt
    | _ => o == some .lt || o == some .eq
  (holds, nfOf [a, b] ||| flagIf (o.isNone && rel != 0) fNV)

/-- FCMP (R143). -/
def execFcmp (d a b : Reg) (rel : BitVec 2) (s : State) : Out :=
  s.issue (.fcmp d a b rel) plainForm [d, a, b] (fun e =>
    let p := fRelation rel (e.fv a) (e.fv b)
    s.fpResult e d (flagWord p.1) p.2)

/-- What an FCVT of a direction writes (R53, R54, R144). -/
def fcvtResult (dir : BitVec 4) (x : Word) (rm : BitVec 3) (sat : Bool) (r : Nat) : Word × Flags :=
  let v := decodeF tagFP32 (x.toNat % 2 ^ 32)
  match dir.toNat with
  | 0 => let p := toInteger v true 32 rm sat r; (BitVec.ofInt 64 (signedOf 32 p.1), p.2)
  | 1 => let p := toInteger v false 32 rm sat r; (BitVec.ofNat 64 p.1, p.2)
  | 2 => let p := toInteger v true 64 rm sat r; (BitVec.ofNat 64 p.1, p.2)
  | 3 => let p := toInteger v false 64 rm sat r; (BitVec.ofNat 64 p.1, p.2)
  | 4 => let p := ofInteger tagFP32 (signedOf 32 x.toNat) rm sat r; (BitVec.ofNat 64 p.1, p.2)
  | 5 => let p := ofInteger tagFP32 (x.toNat % 2 ^ 32 : Nat) rm sat r; (BitVec.ofNat 64 p.1, p.2)
  | 6 => let p := ofInteger tagFP32 x.toInt rm sat r; (BitVec.ofNat 64 p.1, p.2)
  | _ => let p := ofInteger tagFP32 (x.toNat : Nat) rm sat r; (BitVec.ofNat 64 p.1, p.2)

/-- FCVT (R144). -/
def execFcvt (d a : Reg) (sat : Bool) (dir : BitVec 4) (rm : BitVec 3) (s : State) : Out :=
  s.issue (.fcvt d a sat dir rm) plainForm [d, a] (fun e =>
    let (m, r, s1) := s.scalarRounding e rm
    let p := fcvtResult dir (e.reg a) m sat r
    s1.fpResult e d p.1 p.2)

end Sys2Proof.Machine
end

