-- ==== Sys2Proof/Machine/Vector.lean ====
section
/-!
DEFINITION. Machine/Vector.lean: what the vector compute instructions do when they are performed from the VQ (R42, R44,
R53 to R58, R61, R62, R65, R66, R168 to R190).
-/
namespace Sys2Proof.Machine

/-! ## One element -/

/-- An element of an integer tag as an integer (R169). -/
def intVal (t : Tag) (x : Nat) : Int := if isSigned t then signedOf (tagWidth t) x else (x % 2 ^ tagWidth t : Nat)

/-- An exact integer delivered to a tag (R42). -/
def intResult (t : Tag) (sat : Bool) (x : Int) : Nat × Flags := toRange (isSigned t) (tagWidth t) sat x

/-- An FP operation's exact result delivered with the NF of its inputs (R46, R49, R56). -/
def fpDeliver (t : Tag) (rm : BitVec 3) (sat : Bool) (r : Nat) (inputs : List FVal) (x : Exact) : Nat × Flags :=
  let p := x.deliver t rm sat r
  (p.1, p.2 ||| nfOf inputs)

/-- An integer quotient at width w, signed or unsigned by tag (R139, R169). -/
def intQuotient (t : Tag) (a b : Nat) : Nat :=
  let w := tagWidth t
  if isSigned t then (divSigned (BitVec.ofNat w a) (BitVec.ofNat w b)).toNat
  else (divUnsigned (BitVec.ofNat w a) (BitVec.ofNat w b)).toNat

/-- An arithmetic instruction's result on one element (R168 to R172). -/
def arithElem (i : Instr) (t : Tag) (rm : BitVec 3) (sat : Bool) (a b c r : Nat) : Nat × Flags :=
  let w := tagWidth t
  if isInt t then
    let x := intVal t a
    let y := intVal t b
    let z := intVal t c
    match i with
    | .vadd _ => intResult t sat (x + y)
    | .vsub _ => intResult t sat (x - y)
    | .vmul _ => intResult t sat (x * y)
    | .vmulh _ => (wrapOf w (x * y / (2 ^ w : Nat)), 0)
    | .vfma _ => intResult t sat (x * y + z)
    | .vfms _ => intResult t sat (x * y - z)
    | .vfnma _ => intResult t sat (z - x * y)
    | .vdiv _ => (intQuotient t a b, 0)
    | .vmin _ => (if x ≤ y then a else b, 0)
    | .vmax _ => (if x ≤ y then b else a, 0)
    | .vabs _ => intResult t sat (if x < 0 then -x else x)
    | .vneg _ => intResult t sat (-x)
    | _ => (0, 0)
  else if isResidue t then
    match i with
    | .vadd _ => rtOp rtAdd a b
    | .vsub _ => rtOp rtSub a b
    | .vmul _ => rtOp rtMul a b
    | .vfma _ => let p := rtOp rtMul a b; let q := rtOp rtAdd p.1 c; (q.1, p.2 ||| q.2)
    | .vfms _ => let p := rtOp rtMul a b; let q := rtOp rtSub p.1 c; (q.1, p.2 ||| q.2)
    | .vfnma _ => let p := rtOp rtMul a b; let q := rtOp rtSub c p.1; (q.1, p.2 ||| q.2)
    | .vneg _ => rtOp rtSub 0 a
    | _ => (0, 0)
  else
    let x := decodeF t a
    let y := decodeF t b
    let z := decodeF t c
    match i with
    | .vadd _ => fpDeliver t rm sat r [x, y] (fAdd rm x y)
    | .vsub _ => fpDeliver t rm sat r [x, y] (fAdd rm x y.negate)
    | .vmul _ => fpDeliver t rm sat r [x, y] (fMul x y)
    | .vfma _ => fpDeliver t rm sat r [x, y, z] (fFma rm x y z)
    | .vfms _ => fpDeliver t rm sat r [x, y, z] (fFma rm x y z.negate)
    | .vfnma _ => fpDeliver t rm sat r [x, y, z] (fFma rm x.negate y z)
    | .vdiv _ => fpDeliver t rm sat r [x, y] (fDiv x y)
    | .vsqrt _ => fpDeliver t rm sat r [x] (fSqrt x)
    | .vrcp _ => fpDeliver t rm sat r [x] (fDiv (.fin false 1 0) x)
    | .vrsq _ => fpDeliver t rm sat r [x] (fRsq x)
    | .vexp2 _ => fpDeliver t rm sat r [x] (fExp2 x)
    | .vlog2 _ => fpDeliver t rm sat r [x] (fLog2 x)
    | .vmin _ => fMinMax t false a b
    | .vmax _ => fMinMax t true a b
    | .vabs _ => (a % 2 ^ (w - 1), 0)
    | .vneg _ => ((a + 2 ^ (w - 1)) % 2 ^ w, 0)
    | _ => (0, 0)

/-- An arithmetic instruction reads its rounding mode for a tag (R50). -/
def arithRounds (i : Instr) (t : Tag) : Bool :=
  isFloat t &&
    (match i with
     | .vmin _ | .vmax _ | .vabs _ | .vneg _ => false
     | _ => true)

/-- A bitwise instruction's or shift's result on one element of width w (R173). -/
def bitElem (i : Instr) (w a b : Nat) : Nat :=
  let x := BitVec.ofNat w a
  let y := BitVec.ofNat w b
  match i with
  | .vand _ => (x &&& y).toNat
  | .vor _ => (x ||| y).toNat
  | .vxor _ => (x ^^^ y).toNat
  | .vnot _ => (~~~x).toNat
  | .vshl _ => (x <<< (b % w)).toNat
  | .vshr _ => (x >>> (b % w)).toNat
  | .vsra _ => (x.sshiftRight (b % w)).toNat
  | _ => 0

/-- A compare on one element (R174). -/
def compareElem (i : Instr) (t : Tag) (a b : Nat) : Bool × Flags :=
  if isInt t then
    let x := intVal t a
    let y := intVal t b
    match i with
    | .vcmpeq _ => (decide (x = y), 0)
    | .vcmpne _ => (decide (x ≠ y), 0)
    | .vcmplt _ => (decide (x < y), 0)
    | _ => (decide (x ≤ y), 0)
  else if isResidue t then
    let eq := decide (a < rtPoison) && decide (b < rtPoison) && a == b
    match i with
    | .vcmpeq _ => (eq, 0)
    | _ => (!eq, 0)
  else
    let x := decodeF t a
    let y := decodeF t b
    match i with
    | .vcmpeq _ => fRelation 0 x y
    | .vcmpne _ => let p := fRelation 0 x y; (!p.1, p.2)
    | .vcmplt _ => fRelation 1 x y
    | _ => fRelation 2 x y

/-- The class bit of an FP element (R176). -/
def classElem (t : Tag) (a : Nat) : Nat :=
  let f := fmtOf t
  match decodeF t a with
  | .nan => 256
  | .inf neg => if neg then 1 else 128
  | .fin neg m _ =>
    let subnormal := decide (a / 2 ^ f.fb % 2 ^ f.eb = 0)
    if m = 0 then (if neg then 8 else 16)
    else if subnormal then (if neg then 4 else 32)
    else (if neg then 2 else 64)

/-- One element converted, with the scale byte of its block where there is one (R53 to R57, R61, R62, R177, R178). -/
def convertElem (src dst : Tag) (scale : Option Nat) (rm : BitVec 3) (sat : Bool) (x r : Nat) : Nat × Flags :=
  let w := tagWidth dst
  if isFloat src then
    let v0 := decodeF src x
    let v := match scale with
      | some 255 => FVal.nan
      | some k => v0.scaled k
      | none => v0
    let nf := nfOf [v0, v]
    if src = dst && scale.isNone then (x, 0)
    else if isFloat dst then let p := toFloat dst v rm sat r; (p.1, p.2 ||| nf)
    else if isResidue dst then
      match v with
      | .fin neg m e =>
        let (k, inexact, _) := choose neg m e 0 rm r
        let p := rtEncode (if neg then -(k : Int) else k)
        (p.1, p.2 ||| flagIf inexact fNX)
      | _ => (rtPoison, fNV ||| fRP ||| nf)
    else toInteger v (isSigned dst) w rm sat r
  else if isResidue src then
    if isResidue dst then (x, 0)
    else if rtBad x then
      if isFloat dst then (nanBits dst, fRP ||| fNF) else (rtPoison % 2 ^ w, fRP)
    else if isFloat dst then ofInteger dst (rtValue x) rm sat r
    else toRange (isSigned dst) w sat (rtValue x)
  else if src = dst then (x, 0)
  else if isFloat dst then ofInteger dst (intVal src x) rm sat r
  else if isResidue dst then rtEncode (intVal src x)
  else toRange (isSigned dst) w sat (intVal src x)

/-- A conversion reads its rounding mode (R50, R177). -/
def convertRounds (src dst : Tag) (scaled : Bool) : Bool :=
  (src != dst || scaled) && (isFloat src || isFloat dst)

/-! ## Element-wise instructions -/

/-- Element-wise: the active elements of vd computed from element i's sources, at width w (R160). -/
def Run.elementwise (r : Run) (f : VxC) (w : Nat) (elems : List Nat) (draws : Bool) (op : Nat → Nat → Nat × Flags) : Perf :=
  r.finish (fun keep =>
    let sw := r.sweep (elems.filter keep) (groupIn w) draws op
    (sw.st.setElems f.vd.toNat w sw.out, sw.trap)) [{ base := f.vd.toNat, w, elems }]

/-- An arithmetic instruction (R168). -/
def Run.arith (r : Run) (f : VxC) : Perf :=
  let t := r.tag f.va
  let w := tagWidth t
  r.elementwise f w (r.actives f.m f.mi) (arithRounds r.e.instr t) (fun i x =>
    arithElem r.e.instr t r.e.rm f.sat (r.neighbour f.na f.va.toNat w i) (r.srcB f w i) (r.src f.vc.toNat w i) x)

/-- A bitwise instruction or a shift (R173). A broadcast count is the whole register's, taken modulo w. -/
def Run.bitwise (r : Run) (f : VxC) : Perf :=
  let w := tagWidth (r.tag f.va)
  r.elementwise f w (r.actives f.m f.mi) false (fun i _ =>
    (bitElem r.e.instr w (r.neighbour f.na f.va.toNat w i) (r.srcB f w i), 0))

/-- A compare: bit i of vd, and nothing else of it (R174). DESIGN CHOICE: into an output-bound register it emits the elements of the
register's own tag at the active indices below its VLMAX (R78, log 110). -/
def Run.compare (r : Run) (f : VxC) : Perf :=
  let t := r.tag f.va
  let w := tagWidth t
  let elems := r.actives f.m f.mi
  let wd := tagWidth (r.tag f.vd)
  r.finish (fun keep =>
      let sw := r.sweep (elems.filter keep) (groupIn w) false (fun i _ =>
        let p := compareElem r.e.instr t (r.neighbour f.na f.va.toNat w i) (r.srcB f w i)
        (if p.1 then 1 else 0, p.2))
      (sw.st.setElems f.vd.toNat 1 sw.out, sw.trap))
    [{ base := f.vd.toNat, w := wd, elems := elems.filter (fun i => decide (i < vlmax wd)) }]

/-- VSEL (R175). -/
def Run.select (r : Run) (f : VxC) : Perf :=
  let w := tagWidth (r.tag f.va)
  r.elementwise f w (r.actives false false) false (fun i _ =>
    (if velem (r.st.vreg 0) 1 i = 1 then r.neighbour f.na f.va.toNat w i else r.srcB f w i, 0))

/-- VCLASS (R176). -/
def Run.classify (r : Run) (f : VxC) : Perf :=
  let t := r.tag f.va
  let w := tagWidth t
  r.elementwise f w (r.actives f.m f.mi) false (fun i _ => (classElem t (r.neighbour f.na f.va.toNat w i), 0))

/-- VCVT, VNARROW and VWIDEN (R177, R178). -/
def Run.convert (r : Run) (f : VxC) : Perf :=
  let src := r.tag f.va
  let dst := f.target
  let ws := tagWidth src
  r.elementwise f (tagWidth dst) (r.actives f.m f.mi) (convertRounds src dst f.sc) (fun i x =>
    let scale := if f.sc then some (r.st.elem 1 8 (i / 32)) else none
    convertElem src dst scale r.e.rm f.sat (r.neighbour f.na f.va.toNat ws i) x)

/-- Whole-register results: written all together, or not at all with VSTART 0 (R180). -/
def Run.whole (r : Run) (sw : Sweep) (write : Strand → Strand) (outs : List Emit) : Perf :=
  match sw.trap with
  | some (k, f) => .fault .arithmetic (arithmeticTval f k) 0 (r.s.setStrand r.slot sw.st)
  | none => r.finishWhole (write sw.st) outs 0

/-- Whole-register results that no flag attends. -/
def Run.plain (r : Run) (base w : Nat) (out : List (Nat × Nat)) : Perf :=
  r.finishWhole (r.st.setElems base w out) [{ base, w, elems := out.map (·.1) }] 0

/-! ## VQ4 (R58, R179) -/

/-- ⌊log2 |v|⌋ of a finite value that is not zero. -/
def floorLog2 (m : Nat) (e : Int) : Int := (Nat.log2 m : Int) + e

/-- A magnitude is larger than another. -/
def magLarger (a b : FVal) : Bool :=
  match a, b with
  | .fin _ m e, .fin _ n d => fCompare (.fin false m e) (.fin false n d) == some .gt
  | _, _ => false

/-- The scale byte of a block from its active elements (R58). -/
def blockScale (vs : List FVal) : Nat :=
  if vs.any FVal.nonFinite then 255
  else
    match vs.foldl (fun (b : FVal) (v : FVal) => if magLarger v b then v else b) (.fin false 0 0) with
    | .fin _ m e => if m = 0 then 127 else (min (max (floorLog2 m e - 2 + 127) 0) 254).toNat
    | _ => 127

/-- A value divided by 2^(byte - 127). -/
def unscaled (v : FVal) (byte : Nat) : FVal :=
  match v with
  | .fin neg m e => .fin neg m (e - ((byte : Int) - 127))
  | v => v

/-- VQ4. -/
def Run.quantise (r : Run) (f : VxC) : Perf :=
  let elems := r.actives f.m f.mi
  let val := fun (i : Nat) => decodeF 14 (r.src f.va.toNat 32 i)
  let blocks := (List.range (ceilDiv r.p.n 32)).filterMap (fun k =>
    let mine := elems.filter (fun i => i / 32 == k)
    if mine.isEmpty then none else some (k, blockScale (mine.map val)))
  let sw := r.sweep elems (groupIn 4) true (fun i x =>
    let byte := (lookup blocks (i / 32)).getD 127
    if byte = 255 then (0, fNF)
    else
      let p := toFloat 9 (unscaled (val i) byte) r.e.rm true x
      (p.1, p.2 &&& ~~~fOF))
  r.whole sw (fun (st : Strand) => (st.setElems f.vd.toNat 4 sw.out).setElems 1 8 blocks)
    [{ base := f.vd.toNat, w := 4, elems }]

/-! ## Whole-register instructions -/

/-- The offset k (R181). -/
def Run.offset (r : Run) (f : VxC) : Nat := if f.scalar then (r.g f.immReg).toNat else (bits f.imm 0 12).toNat

/-- Index element i of the group at x (R182). -/
def Run.index (r : Run) (x i : Nat) : Nat := r.src x 16 i

/-- A value extended into a scalar register (R184). -/
def extendTo (t : Tag) (x : Nat) : Word :=
  if isSigned t then BitVec.ofInt 64 (signedOf (tagWidth t) x) else BitVec.ofNat 64 (x % 2 ^ tagWidth t)

/-- A scalar result sent to the synchronising read queue (R19). -/
def Strand.sendRead (st : Strand) (d : Reg) (x : Word) : Strand :=
  { st with reads := st.reads ++ [{ reg := d.toNat, value := x }] }

/-- A result for a scalar register. -/
def Run.scalar (r : Run) (d : Reg) (x : Word) : Perf := .done (r.s.setStrand r.slot (r.st.sendRead d x))

/-- The addition of two elements of a tag (R65, R66). -/
def addElem (t : Tag) (rm : BitVec 3) (sat : Bool) (a b x : Nat) : Nat × Flags :=
  if isInt t then intResult t sat (intVal t a + intVal t b)
  else if isResidue t then rtOp rtAdd a b
  else fpDeliver t rm sat x [decodeF t a, decodeF t b] (fAdd rm (decodeF t a) (decodeF t b))

/-- The flags that an element shows which is the result and no sum: the first of a scan, or the only one of a VREDSUM (R56, R65,
R66, log 46). -/
def firstFlag (t : Tag) (a : Nat) : Flags :=
  if isFloat t then nfOf [decodeF t a] else flagIf (isResidue t && decide (rtPoison ≤ a)) fRP

/-- One addition made in the strand's lowest owned lane; none is made after one that traps (R65, R293). -/
def Run.addIn (r : Run) (t : Tag) (sat : Bool) (acc : Sweep) (at_ a b : Nat) : Nat × Sweep :=
  if acc.trap.isSome then (0, acc)
  else
    let lane := r.lanes.1
    let d := if isFloat t && r.e.rm = 5 then acc.st.draw lane else (0, acc.st)
    let x := addElem t r.e.rm sat a b d.1
    let tr := trapping x.2 r.e.trapen
    (x.1, { st := d.2.raise lane x.2, out := acc.out, trap := if tr = 0 then none else some (at_, tr) })

/-- An element that is the result by itself, with the flags it shows in the lowest owned lane (R56, log 46). -/
def Run.alone (r : Run) (t : Tag) (acc : Sweep) (i x : Nat) : Sweep :=
  let fl := firstFlag t x
  let tr := trapping fl r.e.trapen
  { st := acc.st.raise r.lanes.1 fl, out := acc.out ++ [(i, x)], trap := if tr = 0 then acc.trap else acc.trap.or (some (i, tr)) }

/-- One level of the tree: pairs added in ascending order, an odd last element passed up (R65). Elements carry the index
of the first element they stand for. -/
def Run.level (r : Run) (t : Tag) (sat : Bool) : List (Nat × Nat) → Sweep → List (Nat × Nat) × Sweep
  | a :: b :: rest, acc =>
    let p := r.addIn t sat acc a.1 a.2 b.2
    let q := r.level t sat rest p.2
    ((a.1, p.1) :: q.1, q.2)
  | l, acc => (l, acc)

/-- The tree, level by level (R65). -/
def Run.tree (r : Run) (t : Tag) (sat : Bool) : Nat → List (Nat × Nat) → Sweep → List (Nat × Nat) × Sweep
  | 0, l, acc => (l, acc)
  | fuel + 1, l, acc =>
    if l.length ≤ 1 then (l, acc)
    else
      let p := r.level t sat l acc
      r.tree t sat fuel p.1 p.2

/-- VREDSUM: its flags are those of the additions, and of an only element those that element shows (R56, R65, R185). -/
def Run.reduceSum (r : Run) (f : VxC) : Perf :=
  let t := r.tag f.va
  let elems := (r.actives f.m f.mi).map (fun i => (i, r.src f.va.toNat (tagWidth t) i))
  let init : Sweep := { st := r.st, out := [], trap := none }
  let q := match elems with
    | [(i, x)] => (elems, r.alone t init i x)
    | _ => r.tree t f.sat 15 elems init
  let x := (q.1.head?.map (·.2)).getD 0
  match q.2.trap with
  | some (k, fl) => .fault .arithmetic (arithmeticTval fl k) 0 (r.s.setStrand r.slot q.2.st)
  | none => .done (r.s.setStrand r.slot (q.2.st.sendRead f.vd (extendTo t x)))

/-- VREDMAX or VREDMIN of an integer tag (R185). -/
def intExtreme (t : Tag) (larger : Bool) (l : List Nat) : Nat :=
  let b := intBounds (isSigned t) (tagWidth t)
  wrapOf (tagWidth t) ((l.map (intVal t)).foldl (fun (m : Int) x => if larger then max m x else min m x)
    (if larger then b.1 else b.2))

/-- VREDMAX or VREDMIN of an FP tag: NaNs are passed over, -0 is less than +0 (R185). -/
def fpExtreme (t : Tag) (larger : Bool) (l : List Nat) : Nat :=
  let numbers := l.filter (fun x => decodeF t x != .nan)
  match numbers with
  | [] => if l.isEmpty then (infBits t larger false).1 else nanBits t
  | x :: rest =>
    rest.foldl (fun (m : Nat) y =>
      if larger then (if fBelow (decodeF t m) (decodeF t y) then y else m)
      else (if fBelow (decodeF t y) (decodeF t m) then y else m)) x

/-- The other reductions; NF of an FP one belongs to the lane of the element that shows it (R56, R160, R185). -/
def Run.reduce (r : Run) (f : VxC) : Perf :=
  let t := r.tag f.va
  let w := tagWidth t
  let l := (r.actives f.m f.mi).map (r.src f.va.toNat w)
  match r.e.instr with
  | .vredand _ => r.scalar f.vd (extendTo t (l.foldl (fun (x : Nat) y => x &&& y) (2 ^ w - 1)))
  | .vredor _ => r.scalar f.vd (extendTo t (l.foldl (fun (x : Nat) y => x ||| y) 0))
  | i =>
    let larger := match i with
      | .vredmax _ => true
      | _ => false
    if isInt t then r.scalar f.vd (extendTo t (intExtreme t larger l))
    else
      let x := fpExtreme t larger l
      let st := (r.actives f.m f.mi).foldl (fun (st : Strand) (i : Nat) =>
        st.raise (laneOf r.lanes (groupIn w i)) (nfOf [decodeF t (r.src f.va.toNat w i)])) r.st
      .done (r.s.setStrand r.slot (st.sendRead f.vd (extendTo t x)))

/-- VSCAN (R66, R186). -/
def Run.scan (r : Run) (f : VxC) : Perf :=
  let t := r.tag f.va
  let w := tagWidth t
  let elems := r.actives f.m f.mi
  let sw := elems.foldl (fun (acc : Sweep) i =>
    let x := r.src f.va.toNat w i
    match acc.out.getLast? with
    | none => r.alone t acc i x
    | some y =>
      let p := r.addIn t f.sat acc i y.2 x
      { p.2 with out := acc.out ++ [(i, p.1)] }) ({ st := r.st, out := [], trap := none } : Sweep)
  r.whole sw (fun (st : Strand) => st.setElems f.vd.toNat w sw.out) [{ base := f.vd.toNat, w, elems }]

/-- VCOMPRESS (R187). -/
def Run.compress (r : Run) (f : VxC) : Perf :=
  let w := tagWidth (r.tag f.va)
  let l := r.actives f.m f.mi
  let out := (List.range l.length).map (fun j => (j, r.src f.va.toNat w (l.getD j 0)))
  let idx := (List.range l.length).map (fun j => (j, l.getD j 0))
  r.finishWhole ((r.st.setElems f.vd.toNat w out).setElems f.vc.toNat 16 idx)
    [{ base := f.vd.toNat, w, elems := List.range l.length }, { base := f.vc.toNat, w := 16, elems := List.range l.length }] 0

/-- Elements below i that the mask enables, or all of them (R188). -/
def Run.enabledBelow (r : Run) (m mi : Bool) (i : Nat) : Nat :=
  if m then ((List.range i).filter (fun j => (velem (r.st.vreg 0) 1 j == 1) != mi)).length else i

/-- Side and number of the squares of VTRANS8 by width (R189). -/
def squares (w : Nat) : Nat × Nat :=
  match w with
  | 4 => (128, 2)
  | 8 => (128, 1)
  | 16 => (64, 2)
  | 32 => (64, 1)
  | _ => (32, 2)

/-- VTRANS8 (R189). -/
def Run.transpose (r : Run) (f : VxC) : Perf :=
  let w := tagWidth (r.tag f.vd)
  let side := (squares w).1
  let x := (r.g f.gl).toNat
  let rows := min (x / 2 ^ 32) side
  let cols := min (x % 2 ^ 32) side
  r.plain f.vd.toNat w
    ((List.range (squares w).2).flatMap (fun q => (List.range cols).flatMap (fun j => (List.range rows).map (fun i =>
      (q * side * side + j * side + i, r.src f.vd.toNat w (q * side * side + i * side + j))))))

/-- What a compute-form instruction does when it is performed; none for one that is not performed from the VQ. -/
def Run.compute (r : Run) : Option Perf :=
  match r.e.instr with
  | .vadd f | .vsub f | .vmul f | .vmulh f | .vfma f | .vfms f | .vfnma f | .vdiv f | .vsqrt f | .vrcp f | .vrsq f
  | .vexp2 f | .vlog2 f | .vmin f | .vmax f | .vabs f | .vneg f => some (r.arith f)
  | .vand f | .vor f | .vxor f | .vnot f | .vshl f | .vshr f | .vsra f => some (r.bitwise f)
  | .vcmpeq f | .vcmpne f | .vcmplt f | .vcmple f => some (r.compare f)
  | .vsel f => some (r.select f)
  | .vclass f => some (r.classify f)
  | .vcvt f | .vnarrow f | .vwiden f => some (r.convert f)
  | .vq4 f => some (r.quantise f)
  | .vslideup f =>
    let w := tagWidth (r.tag f.va)
    let k := r.offset f
    some (r.plain f.vd.toNat w ((r.actives f.m f.mi).map (fun i =>
      (i, if k ≤ i then r.src f.va.toNat w (i - k) else r.st.elem f.vd.toNat w i))))
  | .vslidedn f =>
    let w := tagWidth (r.tag f.va)
    let k := r.offset f
    some (r.plain f.vd.toNat w ((r.actives f.m f.mi).map (fun i =>
      (i, if i + k < r.p.n then r.src f.va.toNat w (i + k) else 0))))
  | .vperm f =>
    let w := tagWidth (r.tag f.va)
    some (r.plain f.vd.toNat w ((r.actives f.m f.mi).map (fun i =>
      let x := r.index f.vb.toNat i
      (i, if x < r.p.n then r.src f.va.toNat w x else 0))))
  | .vbcast f =>
    let w := tagWidth (r.tag f.va)
    let k := r.offset f
    let x := if k < vlmax w then r.src f.va.toNat w k else 0
    some (r.plain f.vd.toNat w ((r.actives f.m f.mi).map (fun i => (i, x))))
  | .vmvs f =>
    let w := tagWidth (r.tag f.vd)
    some (r.plain f.vd.toNat w ((r.actives f.m f.mi).map (fun i => (i, (r.g f.va).toNat % 2 ^ w))))
  | .vget f =>
    let t := r.tag f.va
    let w := tagWidth t
    let k := r.offset f
    some (r.scalar f.vd (if k < vlmax w then extendTo t (r.src f.va.toNat w k) else 0))
  | .vredsum f => some (r.reduceSum f)
  | .vredmax f | .vredmin f | .vredand f | .vredor f => some (r.reduce f)
  | .vscan f => some (r.scan f)
  | .vcompress f => some (r.compress f)
  | .vexpand f =>
    let w := tagWidth (r.tag f.va)
    let l := r.actives f.m f.mi
    some (r.plain f.vd.toNat w ((List.range l.length).map (fun j => (l.getD j 0, r.src f.va.toNat w j))))
  | .viota f =>
    some (r.plain f.vd.toNat 16 ((r.actives f.m f.mi).map (fun i => (i, r.enabledBelow f.m f.mi i))))
  | .vtrans8 f => some (r.transpose f)
  | .vfirst f =>
    let hit := (r.actives f.m f.mi).find? (fun i => r.src f.va.toNat 1 i == 1)
    some (r.scalar f.vd (match hit with
      | some i => BitVec.ofNat 64 i
      | none => BitVec.allOnes 64))
  | .vpopm f =>
    some (r.scalar f.vd (BitVec.ofNat 64 ((r.actives f.m f.mi).filter (fun i => r.src f.va.toNat 1 i == 1)).length))
  | _ => none

end Sys2Proof.Machine
end

