-- ==== Sys2Proof/Machine/VectorMem.lean ====
section
/-!
DEFINITION. Machine/VectorMem.lean: what the vector memory instructions do when they are performed from the VQ (R90, R91,
R99, R100, R105, R115, R192 to R208).
-/
namespace Sys2Proof.Machine

/-! ## Loading elements -/

/-- How a load allocates in L1 where it misses (R90, R91). -/
inductive L1Alloc where
  | none
  | line
  /-- gathered lines of a stride -/
  | gathered (stride : Int)
  deriving DecidableEq, Repr

/-- A gathered line of the elements of a stride sequence from an address, all in device memory, unless a line that may serve the
load holds the first (R91). One that does not translate as a whole is not allocated (log 109). -/
def State.allocGathered (s : State) (a : Agent) (use : L1Line → Bool) (va : Nat) (stride : Int) (size : Nat) : State :=
  let c := s.cluster a.cluster
  let places := (List.range (64 / size)).map (fun j =>
    match s.resolve a ((((va : Int) + j * stride) % (2 ^ 64 : Nat)).toNat) .load with
    | .ok (.dev pa) => some pa
    | _ => none)
  if places.contains none || c.l1.any (fun l => use l && (l.copy ((places.head?.join).getD 0) size).isSome) then s
  else
    let cells := (places.filterMap id).flatMap (fun pa => (List.range size).map (fun b => (pa + b, s.dev.read (pa + b))))
    s.setCluster a.cluster { c with l1 := { gathered := some (stride, size), cells } :: c.l1 }

/-- One element of width w loaded from an address; a 4-bit element is a nibble of its byte (R41, R99, R194). -/
def State.loadElem (s : State) (a : Agent) (st : Strand) (strip : Nat) (use : L1Line → Bool) (alloc : L1Alloc)
    (va w : Nat) (high : Bool) : Res (Nat × State) :=
  let bytes := if w = 4 then 1 else w / 8
  if va % bytes ≠ 0 then .fault .misaligned va
  else
    (s.loadVA a st strip .load va bytes use (alloc == .line)).map (fun p =>
      let x := leNat p.1
      (if w = 4 then (if high then x / 16 else x % 16) else x, p.2))

/-- An element to be moved: its index, address, width and nibble. -/
structure Item where
  i : Nat
  va : Nat
  w : Nat
  high : Bool
  deriving DecidableEq, Repr

/-- Bytes of an item. -/
def Item.bytes (q : Item) : Nat := if q.w = 4 then 1 else q.w / 8

/-- Two items share bytes. -/
def Item.clash (p q : Item) : Bool := decide (p.va < q.va + q.bytes) && decide (q.va < p.va + p.bytes)

/-! ## Addresses and policies -/

/-- Address and nibble of element i of an instruction (R194). -/
def Run.item (r : Run) (f : VxM) (w i : Nat) : Item :=
  let b := (r.g f.gbase).toNat
  let at_ := fun (x : Int) => ((b + x) % (2 ^ 64 : Nat)).toNat
  let unit := fun (j : Nat) => ((j * w / 8 : Nat) : Int)
  match r.e.instr with
  | .vlds _ | .vsts _ => { i, va := at_ (i * (r.g f.gstride).toInt), w, high := false }
  | .vldx _ | .vstx _ | .vamo _ =>
    let t := r.tag f.vb
    let x := r.src f.vb.toNat (tagWidth t) i
    { i, va := at_ (intVal t x), w, high := false }
  | .vld2d _ | .vst2d _ =>
    let row := i / r.p.cols
    let col := i % r.p.cols
    { i, va := at_ (row * (r.g f.gstride).toInt + unit col), w, high := col % 2 == 1 }
  | _ => { i, va := at_ (unit i), w, high := i % 2 == 1 }

/-- The items of the active elements of an instruction; once it has started they stay as they were. -/
def Run.items (r : Run) (f : VxM) (w : Nat) : List Item :=
  if r.e.touch.isEmpty then (r.actives f.m f.mi).map (r.item f w)
  else r.e.touch.map (fun q => { r.item f w q.1 with va := q.2 })

/-- The instruction has performed nothing yet. -/
def Run.fresh (r : Run) : Bool := r.e.touch.isEmpty

/-! ## One turn of an instruction's accesses (R100, R105, R196, R197) -/

/-- One turn of the accesses of an instruction: the elements performed in it with their results, the lowest one put off, all that
have been put off, the element above which nothing is to be done (R199, R204), and what ends the turn; with the pages used and
the places stored at so far. -/
structure Pass where
  s : State
  held : List HeldPage
  places : List (Nat × Place)
  out : List (Nat × Nat) := []
  low : Option Nat := none
  left : List Item := []
  trim : Option Nat := none
  stop : Option (Nat × Res (Nat × State)) := none
  deriving Repr

/-- A turn in which nothing has been done yet. -/
def Run.start (r : Run) (s : State) : Pass := { s, held := r.e.held, places := r.e.places }

/-- The order of elements without .ord is open: the turn's unit says, as a set of bits, which of them it puts off (log 94). -/
def Run.putsOff (r : Run) (i : Nat) : Bool := r.s.cur.unit.testBit i

/-- The pages an element's access adds to those used. -/
def Pass.keep (x : Pass) (a : Agent) (q : Item) : List HeldPage :=
  if 2 ^ 80 ≤ q.va then x.held else x.s.keepPage a (q.va % 2 ^ 64) x.held

/-- Where an element has been stored, when it went to memory as it stands (R114, R277, R361). -/
def Run.storedAt (r : Run) (s : State) (a : Agent) (q : Item) : Option Place :=
  let inMemory := match s.route r.st r.e.strip .store q.va q.bytes with
    | .memory => true
    | .region pair _ => s.writesThrough ((r.st.group.map (·.1)).getD 0) pair
    | _ => false
  match s.resolve a q.va .store with
  | .ok p => if inMemory && !s.unreachable p && (a.oldBytes q.va).isNone then some p else none
  | _ => none

/-- An element stored later than some above it which share its bytes by another address leaves theirs as they were: the
higher-indexed one's value stays (R105, R198). -/
def Run.keepHigher (r : Run) (before after : State) (items : List Item) (places : List (Nat × Place)) (q : Item) (p : Place) : State :=
  (places.filter (fun x => decide (q.i < x.1))).foldl (fun (s : State) (x : Nat × Place) =>
    match items.find? (fun y => y.i == x.1), x.2.flat, p.flat with
    | some y, some m, some n =>
      if decide (m < n + q.bytes) && decide (n < m + y.bytes) && (q.w != 4 || q.high == y.high) then
        s.putBytes (clusterOf r.slot) x.2 (before.homeBytes x.2 y.bytes)
      else s
    | _, _, _ => s) after

/-- The turn with an element performed. -/
def Run.performed (r : Run) (stores : Bool) (a : Agent) (items : List Item) (x : Pass) (q : Item) (v : Nat) (s1 : State) : Pass :=
  let y : Pass := { x with s := s1, out := x.out ++ [(q.i, v)], held := x.keep a q }
  match (if stores then r.storedAt x.s a q else none) with
  | none => y
  | some p => { y with s := r.keepHigher x.s s1 items x.places q p, places := x.places ++ [(q.i, p)] }

/-- The elements not yet performed are attempted in ascending order. One that waits for its translation has it walked while the
others proceed (R197); a fault counts once all elements below are performed (R196); of two that store the same bytes the
lower goes first (R105). `ordered` puts off whatever stands above one put off; `trim` recognises the element at which the
instruction ends. -/
def Run.pass (r : Run) (ordered stores : Bool) (agent : Item → Agent) (trim : Item → Res (Nat × State) → Bool)
    (access : Agent → Item → State → Res (Nat × State)) (s : State) (items : List Item) : Pass :=
  items.foldl (fun (acc : Pass) (q : Item) =>
    if acc.stop.isSome || acc.trim.isSome || r.e.done.contains q.i then acc
    else
      let off : Pass := { acc with low := acc.low.or (some q.i), left := acc.left ++ [q] }
      if (ordered && acc.low.isSome) || r.putsOff q.i || (stores && acc.left.any q.clash) then off
      else
        let a := { agent q with held := r.e.keeps acc.held }
        let res := access a q acc.s
        if trim q res then { acc with trim := some q.i }
        else
          match res with
          | .ok (v, s1) => r.performed stores a items acc q v s1
          | .miss va intent => { off with s := acc.s.startWalk a va intent }
          | res => if acc.low.isSome then off else { acc with stop := some (q.i, res) }) (r.start s)

/-- The entry as the turn leaves it when the instruction is not complete. -/
def Run.kept (r : Run) (items : List Item) (x : Pass) (sent : Nat) : VqEntry :=
  { r.e with
    touch := items.map (fun q => (q.i, q.va)), done := r.e.done ++ x.out.map (·.1), passed := true, sent
    held := x.held, places := x.places }

/-- The elements of an instruction that are performed, up to the first that is not. -/
def Run.readyElems (r : Run) (items : List Item) (x : Pass) : List Nat :=
  (items.takeWhile (fun q => (r.e.done ++ x.out.map (·.1)).contains q.i)).map (·.i)

/-- How an instruction stands after a turn: `write` puts results into the strand, `outs` is what it emits element by element as
they are complete, `last` what completing it does besides (R74, R196, R213). -/
def Run.settled (r : Run) (items : List Item) (x : Pass) (write : List (Nat × Nat) → Strand → Strand) (outs : List Nat → List Emit)
    (last : State → State) : Perf :=
  let s1 := if x.out.isEmpty then x.s else x.s.updStrand r.slot (write x.out)
  let em := r.emit s1 ((r.st.emitList (outs (r.readyElems items x))).drop r.e.sent)
  let keep := fun (s : State) => s.updStrand r.slot (fun st => st.putEntry (r.kept items x (r.e.sent + em.2.1)))
  match em.2.2 with
  | some (j, .miss va intent) => .part j (keep (em.1.startWalk r.agent va intent))
  | some (j, res) => res.perf r.agent em.1 (r.healed em.1) j
  | none =>
    match x.stop, x.low with
    | some (k, res), _ => res.perf r.agent (r.healed em.1) (r.healed em.1) k
    | none, some k => .part k (keep em.1)
    | none, none => .done (last (r.closed (r.healed em.1)))

/-- Emissions by element index. -/
def byIndex (l : List Emitted) : List (Nat × List Emitted) :=
  ((l.map (·.i)).eraseDups).map (fun i => (i, l.filter (fun q => q.i == i)))

/-- How an instruction stands after a turn that writes and emits its results only at its end, once it is known which they are: a
chunk that is too long faults before anything is written (R213). It begins again at its first element as long as nothing is
written (R74). -/
def Run.settledLate (r : Run) (items : List Item) (x : Pass) (write : List (Nat × Nat) → Strand → Strand)
    (outs : List Nat → List Emit) (last : State → State) : Perf :=
  let results := r.e.results ++ x.out
  let first := (items.head?.map (·.i)).getD r.from_
  let keep := fun (s : State) => s.updStrand r.slot (fun st => st.putEntry { r.kept items x 0 with results })
  match x.stop, x.low with
  | none, some _ => .part first (keep x.s)
  | stop, _ =>
    let ready := r.readyElems items x
    let elems := ready.filter (fun i => stop.all (fun p => decide (i < p.1)))
    let written := fun (test : Nat → Bool) (st : Strand) =>
      write (results.filter (fun p => elems.contains p.1 && test p.1)) st
    match r.st.tooLong (outs elems) with
    | some k => .fault .streamProtocol (slotTval k) 0 r.s
    | none =>
      let em := r.emitEach (x.s.updStrand r.slot (written (fun _ => true))) (byIndex (r.st.emitList (outs elems)))
      match em.2 with
      | some (_, .miss va intent) => .part first (keep (x.s.startWalk r.agent va intent))
      | some (j, res) =>
        res.perf r.agent x.s (em.1.updStrand r.slot (fun st =>
          { written (fun i => decide (i < j)) r.st with streams := st.streams, exec := st.exec, access := st.access })) j
      | none =>
        match stop with
        | some (k, res) => res.perf r.agent (r.healed em.1) (r.healed em.1) k
        | none => .done (last (r.closed (r.healed em.1)))

/-- A splice gate holds some element of a load: the load waits in the lanes with nothing performed, or its strand ends with its
producer (R278, R283). -/
def Run.spliceHeld (r : Run) (s : State) (items : List Item) : Option Perf :=
  if r.st.group.isNone then none
  else
    let routes := (items.filter (fun q => !r.e.done.contains q.i)).map (fun q => r.s.route r.st r.e.strip .load q.va q.bytes)
    if routes.contains .partnerEnded then some (.partner r.s)
    else if routes.contains .gated then
      some (.hold (s.updStrand r.slot (fun st => st.putEntry { r.e with passed := true })))
    else none

/-- The footprint F of a load, in bytes (R90). -/
def Run.footprint (r : Run) (f : VxM) (w : Nat) : Nat :=
  match r.e.instr with
  | .vlds _ => r.p.n * (r.g f.gstride).toInt.natAbs
  | _ => r.p.n * w / 8

/-- Whether and how a load of the instruction allocates (R90, R91). -/
def Run.alloc (r : Run) (f : VxM) (w : Nat) : L1Alloc :=
  let small := decide (r.footprint f w ≤ r.e.vbypass.toNat)
  let stride := (r.g f.gstride).toInt
  let gathers := match r.e.instr with
    | .vlds _ => decide (2 * (w / 8) ≤ stride.natAbs) && decide (stride.natAbs ≤ 4096)
    | _ => false
  match f.cache.toNat with
  | 0 => if !small then .none else if gathers then .gathered stride else .line
  | 2 => if gathers then .gathered stride else .line
  | 3 => if small then .line else .none
  | _ => .none

/-- The lines that may serve the instruction: ordinary ones; a gathered one by its stride and size, or when it holds every
element a unit-stride or indexed load reads (R91). DESIGN CHOICE: a VLD2D and a VXLAT are served as those are (log 102). -/
def Run.serves (r : Run) (f : VxM) (w : Nat) (items : List Item) (l : L1Line) : Bool :=
  match l.gathered with
  | none => true
  | some (stride, size) =>
    match r.e.instr with
    | .vlds _ => decide (stride = (r.g f.gstride).toInt) && size == w / 8
    | _ =>
      items.all (fun q =>
        match r.s.resolve r.agent q.va .load with
        | .ok (.dev pa) => (l.copy pa q.bytes).isSome
        | _ => false)

/-! ## Gated loads (R10, R115, R244) -/

/-- A gated load proceeds once its watermark exceeds the highest index it touches; it then acquires at its scope. One with no
gated element waits for nothing and does not acquire (log 95). A walk for its watermark is part of the wait: it has not started
(R32, R255). -/
def Run.gate (r : Run) (f : VxM) (items : List Item) (proceed : State → Perf) : Perf :=
  if !f.gate || r.e.passed then proceed r.s
  else
    let b := r.st.watermarks[f.w.toNat]'(f.w.isLt)
    if b.word = 0 then .fault .protection (BitVec.ofNat 64 (r.item f 8 0).va) 0 r.s
    else
      let touched := (items.filter (fun q => decide (b.base.toNat ≤ q.va))).map (fun q => (q.va - b.base.toNat) / b.size)
      if touched.isEmpty then proceed r.s
      else
        match r.s.loadMemory r.agent b.word.toNat 8 (fun _ => false) false with
        | .ok (bs, s1) =>
          if touched.all (fun x => decide (x < leNat bs)) then proceed (s1.acquire (clusterOf r.slot) f.scope)
          else .hold r.s
        | .miss va intent => .hold (r.s.startWalk r.agent va intent)
        | x => x.perf r.agent r.s r.s r.from_

/-! ## Loads and stores (R198, R199) -/

/-- A fault of a chunk that is longer than what remains of its pattern, before anything is done (R213). -/
def Run.unlessTooLong (r : Run) (outs : List Emit) (p : Perf) : Perf :=
  match (if r.fresh then r.st.tooLong outs else none) with
  | some k => .fault .streamProtocol (slotTval k) 0 r.s
  | none => p

/-- Nothing ends the instruction early. -/
def noTrim (_ : Item) (_ : Res (Nat × State)) : Bool := false

/-- A strided load with stride 0 reads one element, for all that are active (R91, R198). -/
def Run.readsOne (r : Run) (f : VxM) : Bool :=
  match r.e.instr with
  | .vlds _ => r.g f.gstride == 0
  | _ => false

/-- The gathered lines of a load's elements allocated, once its accesses have been made (R91). -/
def Run.gather (r : Run) (f : VxM) (w : Nat) (items : List Item) (x : Pass) : Pass :=
  match r.alloc f w with
  | .gathered stride =>
    if x.low.isSome then x
    else
      { x with s := (items.filter (fun q => x.stop.all (fun p => decide (q.i < p.1)))).foldl (fun (s : State) (q : Item) =>
          s.allocGathered { r.agent with held := x.held } (r.serves f w items) q.va stride q.bytes) x.s }
  | _ => x

/-- VLD, VLDS, VLDX and VLD2D. -/
def Run.load (r : Run) (f : VxM) : Perf :=
  let w := tagWidth (r.tag f.vd)
  let active := r.actives f.m f.mi
  let items := if r.readsOne f then (r.items f w).take 1 else r.items f w
  let outs := fun (elems : List Nat) =>
    [({ base := f.vd.toNat, w, elems := if r.readsOne f && !elems.isEmpty then active else elems } : Emit)]
  let results := fun (out : List (Nat × Nat)) =>
    if r.readsOne f then out.flatMap (fun p => active.map (fun i => (i, p.2))) else out
  r.gate f items (fun s1 =>
    r.unlessTooLong (outs (items.map (·.i)))
      ((r.spliceHeld s1 items).getD
        (r.settled items
          (r.gather f w items (r.pass f.ord false (fun _ => r.agent) noTrim (fun a q s =>
            s.loadElem a r.st r.e.strip (r.serves f w items) (r.alloc f w) q.va q.w q.high) s1 items))
          (fun out st => st.setElems f.vd.toNat w (results out)) outs (fun s => s))))

/-- An access above the first ends the instruction: it faults, or its page is not present (R199). -/
def trimsLoad (first : Option Nat) (q : Item) (res : Res (Nat × State)) : Bool :=
  match res with
  | .fault c _ => first != some q.i &&
    (c == .misaligned || c == .translationLoad || c == .translationStore || c == .protection)
  | _ => false

/-- VLDFF: trimmed at the lowest element above the first active one that cannot be loaded (R199, R200). Where vd is bound for
output, nothing is written or emitted before the trim is known. -/
def Run.firstFault (r : Run) (f : VxM) : Perf :=
  let w := tagWidth (r.tag f.vd)
  let items := r.items f w
  let first := items.head?.map (·.i)
  let agent := fun (q : Item) => if first = some q.i then r.agent else { r.agent with who := .probe r.slot }
  let outs := fun (elems : List Nat) => [({ base := f.vd.toNat, w, elems } : Emit)]
  r.gate f items (fun s1 =>
    (r.spliceHeld s1 items).getD
      (let x := r.pass true false agent (trimsLoad first) (fun a q s =>
          s.loadElem a r.st r.e.strip (r.serves f w items) (r.alloc f w) q.va q.w q.high) s1 items
       let write := fun (out : List (Nat × Nat)) (st : Strand) => st.setElems f.vd.toNat w out
       let last := fun (s : State) =>
         (s.dropXlatFaults (.probe r.slot)).updStrand r.slot (fun st => st.sendRead f.gl (BitVec.ofNat 64 (x.trim.getD r.p.n)))
       if (r.st.emitList (outs (items.map (·.i)))).isEmpty then r.settled items x write (fun _ => []) last
       else r.settledLate items x write outs last))

/-- The bytes that the performed elements of a store cover, as places' numbers and counts; of 4-bit elements the bytes of which
both have been stored (R366). -/
def storedSpans (w : Nat) (items : List Item) (places : List (Nat × Place)) : List (Nat × Nat) :=
  let at_ := fun (test : Item → Bool) =>
    (items.filter test).filterMap (fun q => (lookup places q.i).bind (fun p => p.flat))
  if w = 4 then
    let high := at_ (·.high)
    ((at_ (fun q => !q.high)).filter high.contains).map (fun n => (n, 1))
  else (at_ (fun _ => true)).map (fun n => (n, w / 8))

/-- VST, VSTS, VSTX and VST2D (R198, R366). -/
def Run.store (r : Run) (f : VxM) : Perf :=
  let w := tagWidth (r.tag f.vc)
  let items := r.items f w
  let x := r.pass f.ord true (fun _ => r.agent) noTrim (fun a q s =>
    (s.storeElem a r.st r.e.strip q.va w q.high (r.src f.vc.toNat w q.i)).map (fun s1 => (0, s1))) r.s items
  let y := if x.s.poison.isEmpty ∨ x.low.isSome then x
    else { x with s := x.s.heal (storedSpans w (items.filter (fun q => x.stop.all (fun p => decide (q.i < p.1)))) x.places) }
  r.settled items y (fun _ st => st) (fun _ => []) (fun s => s)

/-! ## VAMO (R201, R202) -/

/-- What a VAMO function stores, with the flags of .fadd (R201). -/
def amoElem (fn : Reg) (t : Tag) (m x : Nat) : Nat × Flags :=
  let w := tagWidth t
  match fn.toNat with
  | 0 => (x, 0)
  | 1 => ((m + x) % 2 ^ w, 0)
  | 2 => (m &&& x, 0)
  | 3 => (m ||| x, 0)
  | 4 => (m ^^^ x, 0)
  | 5 => (if intVal t m ≤ intVal t x then m else x, 0)
  | 6 => (if intVal t m ≤ intVal t x then x else m, 0)
  | _ => fpDeliver 14 0 false 0 [decodeF 14 m, decodeF 14 x] (fAdd 0 (decodeF 14 m) (decodeF 14 x))

/-- One atomic element: the old value and the flags, performed at its home (R151, R154, R202). -/
def State.atomicElem (s : State) (a : Agent) (st : Strand) (strip : Nat) (fn : Reg) (t : Tag) (va x : Nat) :
    Res (Nat × Flags × State) :=
  let n := tagWidth t / 8
  if va % n ≠ 0 then .fault .misaligned va
  else
    match s.route st strip .other va n with
    | .memory =>
      match s.resolve a va .atomic with
      | .fault c => .fault c va
      | .miss => .miss va .atomic
      | .absent pa => .stop (.absentAddress pa)
      | .ok p =>
        let isHost := match p with
          | .host _ => true
          | _ => false
        if isHost && decide (2 ≤ fn.toNat) then .fault .protection va
        else if s.poisoned p || s.unreachable p then .fault .uncorrectable va
        else
          if isHost && !Config.hostAccepts s.draws then .fault .protection va
          else
            let m := leNat (s.homeBytes p n)
            let y := amoElem fn t m x
            let s0 := ((if isHost then s.drawn else s).cacheTranslation a va).farRead a.cluster p (s.homeBytes p n)
            .ok (m, y.2, s0.putBytes a.cluster p (leBytes n y.1))
    | _ => .fault .protection va

/-- A VAMO's element performed: its old value and flags in the strand, and emitted where vd is bound for output; the position it
is stored at is translated before the atomic, so that none is performed twice (R202, R213). -/
def Run.amoElem (r : Run) (f : VxM) (t : Tag) (q : Item) (s : State) : Res (Flags × State) :=
  let w := tagWidth t
  let out := r.st.emitList [{ base := f.vd.toNat, w, elems := [q.i] }]
  let room : Res Unit := match out with
    | [] => .ok ()
    | o :: _ => (r.emitOne s o).map (fun _ => ())
  room.bind (fun _ =>
    (s.atomicElem r.agent r.st r.e.strip f.gstride t q.va (r.src f.vc.toNat w q.i)).map (fun y =>
      let s1 := y.2.2.updStrand r.slot (fun st =>
        (st.setElem f.vd.toNat w q.i y.1).raise (laneOf r.lanes (groupIn w q.i)) y.2.1)
      (y.2.1, (r.emit s1 out).1)))

/-- VAMO: elements in ascending order, none performed twice; the element whose flags trap is complete (R201, R202). -/
def Run.amo (r : Run) (f : VxM) : Perf :=
  let t := r.tag f.vc
  let items := r.items f (tagWidth t)
  r.unlessTooLong [{ base := f.vd.toNat, w := tagWidth t, elems := items.map (·.i) }]
    (let x := items.foldl (fun (acc : Pass × Option (Nat × Flags)) (q : Item) =>
        let p := acc.1
        if p.stop.isSome || acc.2.isSome || p.low.isSome || r.e.done.contains q.i then acc
        else if r.putsOff q.i then ({ p with low := some q.i }, none)
        else
          match r.amoElem f t q p.s with
          | .ok (fl, s1) =>
            let tr := trapping fl r.e.trapen
            (r.performed false r.agent items p q 0 s1, if tr = 0 then none else some (q.i, tr))
          | .miss va intent => ({ p with s := p.s.startWalk r.agent va intent, low := some q.i }, none)
          | .fault c va => ({ p with stop := some (q.i, .fault c va) }, none)
          | .gated => ({ p with stop := some (q.i, .gated) }, none)
          | .partnerEnded => ({ p with stop := some (q.i, .partnerEnded) }, none)
          | .stop g => ({ p with stop := some (q.i, .stop g) }, none)) (r.start r.s, none)
     match x.2 with
     | some (k, fl) => .fault .arithmetic (arithmeticTval fl k) (k + 1) (r.healed x.1.s)
     | none => r.settled items x.1 (fun _ st => st) (fun _ => []) (fun s => s))

/-! ## VXLAT (R203, R204) -/

/-- What a table entry gives for a position: the address of its slot, or none where it is unmapped. -/
def slotAddress (d : List Byte) (p : Int) (e : Nat) : Option Nat :=
  if e = 0 then none
  else some ((e + (p % 256).toNat * fieldLE d 12 2 + fieldLE d 16 8) % 2 ^ 64)

/-- The result of a position that is not mapped, which no address equals. -/
def unmapped : Nat := 2 ^ 64

/-- The position of element i, and the address of its table entry, if the table has one. -/
def Run.entryAt (r : Run) (f : VxM) (d : List Byte) (i : Nat) : Int × Option Nat :=
  let t := r.tag f.va
  let p := intVal t (r.src f.va.toNat (tagWidth t) i)
  (p, if p < 0 ∨ (fieldLE d 8 4 : Int) ≤ p / 256 then none
      else some ((fieldLE d 0 8 + 8 * (p / 256).toNat) % 2 ^ 64))

/-- The descriptor of a VXLAT: as it was read when the instruction started, or read now as four doublewords. -/
def Run.xlatDescriptor (r : Run) (f : VxM) : Res (List Byte × State) :=
  let at_ := (r.g f.gbase).toNat
  if !r.e.snap.isEmpty then .ok (r.e.snap, r.s)
  else
    (List.range 4).foldl (fun (acc : Res (List Byte × State)) (j : Nat) =>
      acc.bind (fun p =>
        let q : Item := { i := j, va := (at_ + 8 * j) % 2 ^ 64, w := 64, high := false }
        (p.2.loadElem r.agent r.st r.e.strip (r.serves f 64 [q]) .none q.va 64 false).map
          (fun x => (p.1 ++ leBytes 8 x.1, x.2)))) (.ok ([], r.s))

/-- An element of a VXLAT as it is when the instruction starts: above the address of its table entry, which is that of bit 80
where it has none, its place in the block. Its sources are read then (R75). -/
def Run.xlatItem (r : Run) (f : VxM) (d : List Byte) (i : Nat) : Item :=
  let x := r.entryAt f d i
  { i, va := (x.2.map (fun va => va + 2 ^ 64 * (x.1 % 256).toNat)).getD (2 ^ 80), w := 64, high := false }

/-- The read of an element's table entry. -/
def Item.entry (q : Item) : Item := { q with va := q.va % 2 ^ 64 }

/-- VXLAT's table entry of one element read: the address it maps to. -/
def Run.xlatElem (r : Run) (f : VxM) (d : List Byte) (items : List Item) (a : Agent) (q : Item) (s : State) : Res (Nat × State) :=
  if 2 ^ 80 ≤ q.va then .ok (unmapped, s)
  else
    (s.loadElem a r.st r.e.strip (r.serves f 64 items) (r.alloc f 64) q.entry.va 64 false).map (fun y =>
      ((slotAddress d (q.va / 2 ^ 64 : Nat) y.1).getD unmapped, y.2))

/-- VXLAT.ff ends at the first position that is not mapped (R204). -/
def trimsXlat (ff : Bool) (_ : Item) (res : Res (Nat × State)) : Bool :=
  match res with
  | .ok (x, _) => ff && x == unmapped
  | _ => false

/-- VXLAT. Its elements are unordered as a load's are, but for .ff (R204, log 11, log 94). Where vd or vc is bound for output, all
is written and emitted at its end. DESIGN CHOICE: of vc, the elements of its own tag at the active indices below its VLMAX are
emitted (R78, log 110). -/
def Run.xlat (r : Run) (f : VxM) : Perf :=
  match r.xlatDescriptor f with
  | .ok (d, s1) =>
    if fieldLE d 12 2 = 0 || !zeroBytes d 14 2 || !zeroBytes d 24 8 then
      .fault .protection (r.g f.gbase) r.from_ r.s
    else
      let ff := f.gstride == 1
      let wc := tagWidth (r.tag f.vc)
      let items := if r.fresh then (r.actives f.m f.mi).map (r.xlatItem f d)
        else r.e.touch.map (fun q => ({ i := q.1, va := q.2, w := 64, high := false } : Item))
      let reads := (items.filter (fun q => decide (q.va < 2 ^ 80))).map Item.entry
      let outs := fun (elems : List Nat) =>
        [({ base := f.vd.toNat, w := 64, elems } : Emit),
         { base := f.vc.toNat, w := wc, elems := elems.filter (fun i => decide (i < vlmax wc)) }]
      let all := items.map (·.i)
      let r1 : Run := { r with e := { r.e with snap := d } }
      r1.unlessTooLong (if ff then [] else outs all)
        (let x := r1.pass ff false (fun _ => r.agent) (trimsXlat ff) (r1.xlatElem f d reads) s1 items
         let write := fun (out : List (Nat × Nat)) (st : Strand) =>
           (st.setElems f.vd.toNat 64 (out.map (fun p => (p.1, if p.2 = unmapped then 0 else p.2)))).setElems
             f.vc.toNat 1 (out.map (fun p => (p.1, if p.2 = unmapped then 1 else 0)))
         let last := fun (s : State) =>
           if ff then s.updStrand r.slot (fun st => st.sendRead f.gl (BitVec.ofNat 64 (x.trim.getD r.p.n))) else s
         if (r.st.emitList (outs all)).isEmpty then r1.settled items x write (fun _ => []) last
         else r1.settledLate items x write outs last)
  | res => res.perf r.agent r.s r.s r.from_

/-! ## VPREF (R205) -/

/-- The lines of a cluster's L1 after a prefetch of rows of bytes: what does not translate, or is not device memory, is
skipped. -/
def State.prefetch (s : State) (a : Agent) (base : Nat) (pitch : Int) (len : Word) (cache : BitVec 3) (vbypass : BitVec 25) :
    State :=
  let cols := min (len.toNat % 2 ^ 32) 65536
  let rows := min (max 1 (len.toNat / 2 ^ 32)) 256
  let fills := match cache.toNat with
    | 0 | 3 => decide (rows * cols ≤ vbypass.toNat)
    | 2 => true
    | _ => false
  if !fills || cols = 0 then s
  else
    (List.range rows).foldl (fun (s : State) (row : Nat) =>
      let first := (((base : Int) + row * pitch) % (2 ^ 64 : Nat)).toNat
      (List.range ((first % 64 + cols + 63) / 64)).foldl (fun (s : State) (j : Nat) =>
        match s.resolve a ((first / 64 * 64 + 64 * j) % 2 ^ 64) .load with
        | .ok (.dev pa) =>
          let c := s.cluster a.cluster
          if c.l1.any (fun l => l.gathered.isNone && (l.copy pa 1).isSome) then s
          else s.setCluster a.cluster { c with l1 := s.freshLine pa :: c.l1 }
        | _ => s) s) s

/-- VPREF performed from the VQ. -/
def Run.pref (r : Run) (f : VxM) : Perf :=
  .done (r.s.prefetch r.agent (r.g f.gbase).toNat (r.g f.gstride).toInt (r.g f.gl) f.cache r.e.vbypass)

/-- VPREF: in the access context it completes at issue (R13, R205). -/
def execVpref (f : VxM) (s : State) : Out :=
  if s.cur.ctx = .access then
    s.issue (.vpref f) vectorForm [] (fun e =>
      .done (s.prefetch e.agent (e.reg f.gbase).toNat (e.reg f.gstride).toInt (e.reg f.gl) f.cache e.st.vbypass))
  else s.commit (.vpref f)

/-! ## KVAPP (R206 to R208) -/

/-- Elements packed at a width (R41). -/
def packElems (w : Nat) (l : List Nat) : List Byte :=
  let x := (l.foldr (fun (y : Nat) (acc : Nat) => y % 2 ^ w + 2 ^ w * acc) 0)
  leBytes (ceilDiv (l.length * w) 8) x

/-- Bytes of a journal record (R207). -/
def JournalRecord.size (j : JournalRecord) : Nat := 16 + roundUp j.data.length 16

/-- The record as it lies in the journal or the spill area (R207). -/
def JournalRecord.image (j : JournalRecord) : List Byte :=
  leBytes 8 j.key.toNat ++ leBytes 2 j.count ++ leBytes 1 j.tag.toNat ++ [0] ++ leBytes 4 j.seq ++ j.data ++
    List.replicate (roundUp j.data.length 16 - j.data.length) 0

/-- Bytes of the records of a journal, in the journal or in the spill area. -/
def journalSum (l : List JournalRecord) (spilled : Bool) : Nat :=
  ((l.filter (fun j => j.spilled == spilled)).map JournalRecord.size).sum

/-- The oldest record that is not spilled moves to the spill area; none when there is none. -/
def spillOldest : List JournalRecord → Option (JournalRecord × List JournalRecord)
  | [] => none
  | j :: rest =>
    if j.spilled then (spillOldest rest).map (fun p => (p.1, j :: p.2))
    else some (j, { j with spilled := true } :: rest)

/-- Records moved until a record of a size fits; none when the spill area lacks room. The moved records come with it. -/
def makeRoom (limit spill size : Nat) : Nat → List JournalRecord → List JournalRecord →
    Option (List JournalRecord × List JournalRecord)
  | 0, _, _ => none
  | fuel + 1, l, moved =>
    if journalSum l false + size ≤ limit then some (l, moved)
    else
      match spillOldest l with
      | none => none
      | some (j, l') => if journalSum l' true ≤ spill then makeRoom limit spill size fuel l' (moved ++ [j]) else none

/-- A KVFILE of the strand is in flight (R208). -/
def State.filing (s : State) (st : Strand) : Bool :=
  s.engines.any (fun c => st.owns c.owner && (match c.instr with
    | .kvfile _ => true
    | _ => false))

/-- KVAPP. -/
def Run.append (r : Run) (f : VxM) : Perf :=
  let t := r.tag f.vc
  let w := tagWidth t
  let elems := r.actives f.m f.mi
  if r.st.journalSize = 0 then .fault .protection (Config.freeTval r.s.draws) r.from_ r.s.drawn
  else if elems.isEmpty then .done r.s
  else
    let rec_ : JournalRecord := {
      key := r.g f.gbase, count := elems.length, tag := t, seq := r.st.journalSeq, commit := r.e.seq
      data := packElems w (elems.map (r.src f.vc.toNat w)), spilled := false }
    let full : Perf := .fault .streamProtocol 0 r.from_ r.s
    if r.st.journalSize + r.st.spillSize < rec_.size then full
    else
      let room := if rec_.size ≤ r.st.journalSize then
          makeRoom r.st.journalSize r.st.spillSize rec_.size (r.st.journal.length + 1) r.st.journal []
        else none
      match room with
      | none => if r.s.filing r.st then .again r.s else full
      | some (l, moved) =>
        let start := journalSum r.st.journal true
        let bs := moved.flatMap JournalRecord.image
        match (r.s.writeCheck r.st (r.st.spillAddr.toNat + start) bs.length).bind (fun _ =>
            r.s.storeSpan r.agent r.agent.cluster (r.st.spillAddr.toNat + start) bs) with
        | .ok s1 =>
          .done (s1.updStrand r.slot (fun st =>
            { st with journal := l ++ [rec_], journalSeq := (st.journalSeq + 1) % 2 ^ 32 }))
        | res => res.perf r.agent r.s r.s r.from_

/-- What a memory-form instruction does when it is performed; none for one that is not performed from the VQ or that
VQ_ENTRY_START itself carries out. -/
def Run.memory (r : Run) : Option Perf :=
  match r.e.instr with
  | .vld f | .vlds f | .vldx f | .vld2d f => some (r.load f)
  | .vldff f => some (r.firstFault f)
  | .vst f | .vsts f | .vstx f | .vst2d f => some (r.store f)
  | .vamo f => some (r.amo f)
  | .vxlat f => some (r.xlat f)
  | .vpref f => some (r.pref f)
  | .kvapp f => some (r.append f)
  | _ => none

end Sys2Proof.Machine
end

