-- ==== Sys2Proof/Machine/Matrix.lean ====
section
/-!
DEFINITION. Machine/Matrix.lean: what the MX instructions do: accumulator tiles and their range bounds (R63, R64, R80),
tile descriptors and the tile fetch unit (R220, R221), multiply-accumulate (R222 to R226), moving accumulators (R228 to
R231), their traps (R232) and the shoal (R233 to R238).
-/
namespace Sys2Proof.Machine

/-! ## Tiles -/

/-- A row of zero bits. -/
def accZero : AccRow := { cols := Vector.replicate 128 0, bound := 0 }

/-- The range bound that poisons a row (R63). -/
def rangeTop : Nat := 536870400

/-- Tile k of a strand (R80). -/
def Strand.tile (st : Strand) (k : Nat) : Tile := (st.tiles[k]?).getD (Vector.replicate 128 accZero)

/-- A tile replaced. -/
def Strand.setTile (st : Strand) (k : Nat) (t : Tile) : Strand := { st with tiles := st.tiles.set k t }

/-- Row i of a tile. -/
def accRow (t : Tile) (i : Nat) : AccRow := if h : i < 128 then t[i] else accZero

/-- Element (i, j) of a tile. -/
def accAt (t : Tile) (i j : Nat) : Nat := if h : j < 128 then ((accRow t i).cols[j]).toNat else 0

/-- A row of a tile changed. -/
def accUpd (t : Tile) (i : Nat) (f : AccRow → AccRow) : Tile := if h : i < 128 then t.set i (f t[i]) else t

/-- Element j of a row written. -/
def AccRow.put (r : AccRow) (j x : Nat) : AccRow := if h : j < 128 then { r with cols := r.cols.set j (BitVec.ofNat 32 x) } else r

/-- Elements of a row written, from column 0. -/
def AccRow.putAll (r : AccRow) (xs : List Nat) : AccRow :=
  (List.range xs.length).foldl (fun (r : AccRow) (j : Nat) => r.put j (xs.getD j 0)) r

/-- g of R63: the smallest power of two not below m. -/
def pow2Up (m : Nat) : Nat := if m = 0 then 0 else 2 ^ ceilLog2 64 m 64

/-- The largest of a list of magnitudes. -/
def maxMag (l : List Int) : Nat := l.foldl (fun m (x : Int) => max m x.natAbs) 0

/-- The bound RT32 elements written to a row set (R63). -/
def residueBound (xs : List Nat) : Nat := if xs.any rtBad then rangeTop else pow2Up (maxMag (xs.map rtValue))

/-! ## What a matrix-queue instruction does at its end -/

/-- On whose behalf a matrix-queue instruction accesses memory. -/
def Run.array (r : Run) : Agent :=
  { agentOf r.slot r.st r.st.exec.priv (.matrix r.slot) with charge := some (r.e.pc, r.e.strip) }

/-- A free TVAL, for a fault at no address and in no register (log 26). -/
def Run.freeTval (r : Run) : Nat := (Config.freeTval r.s.draws).toNat

/-- n doublewords of a structure, read at their home. -/
def Run.doublewords (r : Run) (at_ n : Nat) : Res (List Byte) :=
  (List.range n).foldl (fun (acc : Res (List Byte)) (j : Nat) =>
    acc.bind (fun bs =>
      (r.s.loadVA r.array r.st r.e.strip .other ((at_ + 8 * j) % 2 ^ 64) 8 (fun _ => false) false).map
        (fun p => bs ++ p.1))) (.ok [])

/-- Bytes of a structure of an instruction, behind `skip` bytes of others: as they were when it started, or read now (R218). -/
def Run.snapshot (r : Run) (skip n : Nat) (now : Res (List Byte)) : Res (List Byte) :=
  if skip + n ≤ r.e.snap.length then .ok ((r.e.snap.drop skip).take n) else now

/-- The bytes of the tile descriptor at a register, the k-th of its instruction (R218, R220). -/
def Run.descBytes (r : Run) (k : Nat) (x : Reg) : Res (List Byte) :=
  r.snapshot (32 * k) 32 (r.doublewords (r.g x).toNat 4)

/-- The bytes of structures read up to the first that cannot be. -/
def readSoFar : List (Res (List Byte)) → List Byte
  | .ok bs :: rest => bs ++ readSoFar rest
  | _ => []

/-- The instruction once it has read the first n tile descriptors of those at some registers, as the recorder and the fabric see
it (R361, R368). -/
def Run.described (r : Run) (descs : List Reg) (n : Nat) : Run :=
  { r with s := ((descs.take n).drop (r.e.snap.length / 32)).foldl (fun (s : State) (x : Reg) =>
      s.noteRead r.array (r.g x).toNat 32) r.s }

/-- The instruction as it waits in the array for a translation: what it has read of its structures stays as it was (R218). -/
def Run.parked (r : Run) (descs : List Reg) (reads : List (Res (List Byte))) : State :=
  let snap := readSoFar reads
  let s1 := (r.described descs (snap.length / 32)).s
  let c := s1.cluster (clusterOf r.slot)
  s1.setCluster (clusterOf r.slot) { c with mq := c.mq.map (fun q =>
    if q.slot = r.slot ∧ q.entry.seq = r.e.seq then { q with entry := { r.e with snap } } else q) }

/-- The instruction's accesses made, its descriptors at some registers read, or another structure: what it comes to, or how it ends
before it writes anything (R218, R220, R221). -/
def Run.mx {α : Type} (r : Run) (descs : List Reg) (other : List (Res (List Byte))) (x : Res α) (f : Run → α → Perf) : Perf :=
  match x with
  | .ok y => f (r.described descs descs.length) y
  | .fault c va => .fault c (BitVec.ofNat 64 va) r.from_ (r.described descs descs.length).s.drawn
  | .miss va intent =>
    .park r.array va intent (r.parked descs (((List.range descs.length).zip descs).map (fun p => r.descBytes p.1 p.2) ++ other))
  | y => y.perf r.array r.s r.s r.from_

/-- Flags by row, sample or element, in the order met: the instruction has completed in full; it raises 0x0A when one
of them traps, at the lowest such (R218, R232). -/
def Run.complete (r : Run) (s : State) (flags : List (Nat × Flags)) : Perf :=
  let traps := flags.filter (fun p => trapping p.2 r.e.trapen != 0)
  let all := traps.foldl (fun (f : Flags) (p : Nat × Flags) => f ||| trapping p.2 r.e.trapen) 0
  match traps.head? with
  | none => .done s
  | some p => .fault .arithmetic (arithmeticTval all p.1) r.from_ s

/-- The strand with flags raised in its lowest owned lane (R218). -/
def Run.raised (r : Run) (st : Strand) (flags : List (Nat × Flags)) : Strand :=
  st.raise r.lanes.1 (flags.foldl (fun (f : Flags) (p : Nat × Flags) => f ||| p.2) 0)

/-- A tile written, with the flags of its rows. -/
def Run.tileDone (r : Run) (k : Nat) (t : Tile) (flags : List (Nat × Flags)) : Perf :=
  r.complete (r.s.setStrand r.slot (r.raised (r.st.setTile k t) flags)) flags

/-! ## Tile descriptors (R220) -/

/-- A tile descriptor. -/
structure TileDesc where
  base : Nat
  pitch : Nat
  mdim : Nat
  kdim : Nat
  tag : Tag
  scaled : Bool
  scales : Nat
  deriving DecidableEq, Repr

/-- The k-th descriptor of the instruction, at a register, with its checks; `limit` bounds KDIM, `admits` says which types it may
have (R220). DESIGN CHOICE: of several faults the first in the order of the checks is raised, A's before B's (log 111). -/
def Run.tileDesc (r : Run) (k : Nat) (x : Reg) (limit : Nat) (admits : Tag → Bool) : Res TileDesc :=
  let at_ := (r.g x).toNat
  if at_ % 32 ≠ 0 then .fault .misaligned at_
  else
    (r.descBytes k x).bind (fun bs =>
      let d : TileDesc := {
        base := fieldLE bs 0 8, pitch := fieldLE bs 8 4, mdim := fieldLE bs 12 2, kdim := fieldLE bs 14 2
        tag := BitVec.ofNat 4 (fieldLE bs 16 1), scaled := fieldLE bs 17 1 == 1, scales := fieldLE bs 24 8 }
      if d.base % 16 ≠ 0 ∨ d.pitch % 16 ≠ 0 then .fault .misaligned at_
      else if d.mdim = 0 ∨ 128 < d.mdim ∨ (tagWidth d.tag = 4 ∧ d.mdim % 2 = 1) ∨ d.kdim = 0 ∨ limit < d.kdim ∨
          16 ≤ fieldLE bs 16 1 ∨ 2 ≤ fieldLE bs 17 1 ∨ !zeroBytes bs 18 6 then .fault .protection at_
      else if !admits d.tag then .fault .tagMismatch r.freeTval
      else .ok d)

/-- Element e of bytes, at width w (R41). -/
def elemOf (bs : List Byte) (w e : Nat) : Nat :=
  if w = 4 then (if e % 2 = 0 then fieldLE bs (e / 2) 1 % 16 else fieldLE bs (e / 2) 1 / 16) else fieldLE bs (e * w / 8) (w / 8)

/-- n bytes through the tile fetch unit, where the strand may touch them (R221). -/
def Run.fetch (r : Run) (scratch : Bool) (va n : Nat) : Res (List Byte) :=
  (r.s.spanCheck r.st va n).bind (fun _ => r.s.fetchTile r.array scratch va n)

/-- Where the slices at some K positions lie, and with `sc` their scale bytes: addresses and counts (R220). -/
def TileDesc.spans (d : TileDesc) (sc : Bool) (ks : List Nat) : List (Nat × Nat) :=
  ks.map (fun k => ((d.base + k * d.pitch) % 2 ^ 64, ceilDiv (d.mdim * tagWidth d.tag) 8)) ++
    (if sc then ks.map (fun k => ((d.scales + k / 32 * d.mdim) % 2 ^ 64, d.mdim)) else [])

/-- The instruction once it has fetched spans: no older copy of them is served later (R103). -/
def Run.fetched (r : Run) (spans : List (Nat × Nat)) : Run :=
  if (r.s.cluster (clusterOf r.slot)).l1.isEmpty then r
  else { r with s := spans.foldl (fun (s : State) (q : Nat × Nat) => s.noteRead r.array q.1 q.2) r.s }

/-- The elements of slice k. -/
def Run.slice (r : Run) (d : TileDesc) (k : Nat) : Res (List Nat) :=
  (r.fetch false ((d.base + k * d.pitch) % 2 ^ 64) (ceilDiv (d.mdim * tagWidth d.tag) 8)).map (fun bs =>
    (List.range d.mdim).map (elemOf bs (tagWidth d.tag)))

/-- Results of a list of reads, in order. -/
def collect {α β : Type} (l : List α) (f : α → Res β) : Res (List β) :=
  l.foldl (fun (acc : Res (List β)) (x : α) => acc.bind (fun ys => (f x).map (fun y => ys ++ [y]))) (.ok [])

/-- The slices at a list of K positions. -/
def Run.slices (r : Run) (d : TileDesc) (ks : List Nat) : Res (List (List Nat)) := collect ks (r.slice d)

/-- The scale bytes of the slices at a list of K positions (R220); 127, which scales by 1, without sc. -/
def Run.scaleBytes (r : Run) (d : TileDesc) (sc : Bool) (ks : List Nat) : Res (List (List Nat)) :=
  collect ks (fun k =>
    if sc then
      (r.fetch false ((d.scales + k / 32 * d.mdim) % 2 ^ 64) d.mdim).map (fun bs => bs.map BitVec.toNat)
    else .ok (List.replicate d.mdim 127))

/-- Entry (k, e) of a list of slices. -/
def at2 (l : List (List Nat)) (k e : Nat) : Nat := (l.getD k []).getD e 0

/-! ## Multiply-accumulate (R222 to R226) -/

/-- The pair of operand tags names a mode that admits the sc bit (R222). -/
def modeAdmits (a b : Tag) (sc : Bool) : Bool :=
  let fp8 := fun (t : Tag) => t == 10 || t == 11
  let int := fun (t : Tag) => t == 0 || t == 1
  (fp8 a && fp8 b) || (a == 9 && b == 9 && sc) ||
    (!sc && ((a == b && (a == 12 || a == 13 || a == 14)) || (int a && int b)))

/-- The exact sum of the products of a group, and NV where it has none (R64). -/
def groupSum (ps : List Exact) : FVal × Flags :=
  let isNan := fun (p : Exact) => match p with
    | .nan _ => true
    | _ => false
  let isInf := fun (s : Bool) (p : Exact) => match p with
    | .inf t _ => t == s
    | _ => false
  let minusZero := fun (p : Exact) => match p with
    | .zero s => s
    | _ => false
  if ps.any isNan || (ps.any (isInf true) && ps.any (isInf false)) then (.nan, fNV)
  else if ps.any (isInf true) then (.inf true, 0)
  else if ps.any (isInf false) then (.inf false, 0)
  else
    let terms := ps.filterMap (fun (p : Exact) => match p with
      | .val s m e => some (s, m, e)
      | _ => none)
    let q := terms.foldl (fun (q : Int) (t : Bool × Nat × Int) => min q t.2.2) 0
    let total := (terms.map (fun t => alignTo t.1 t.2.1 t.2.2 q)).sum
    if total = 0 then (.fin (ps.all minusZero) 0 0, 0) else (.fin (decide (total < 0)) total.natAbs q, 0)

/-- One accumulator element of an FP mode: the groups of K steps in ascending order, one rounding each (R64). -/
def fpCell (size : Nat) (a b : List FVal) (acc : Nat) : Nat × Flags :=
  let step := fun (x : Nat × Flags) (g : Nat) =>
    let as := (a.drop (g * size)).take size
    let bs := (b.drop (g * size)).take size
    let s := groupSum ((as.zip bs).map (fun p => fMul p.1 p.2))
    let old := decodeF 14 x.1
    let y := (fAdd 0 old s.1).deliver 14 0 false 0
    (y.1, x.2 ||| y.2 ||| s.2 ||| nfOf (old :: as ++ bs))
  (List.range (ceilDiv a.length size)).foldl step (acc, 0)

/-- One accumulator element of the integer mode: the channel sum of it and the exact products (R61). -/
def intCell (a b : List Int) (acc : Nat) : Nat × Flags :=
  if rtBad acc then (rtPoison, fRP)
  else
    let t := dot a b
    let c := rtChannels acc
    (rtPack (((c.1 : Int) + t) % 1023).toNat (((c.2.1 : Int) + t) % 1024).toNat (((c.2.2 : Int) + t) % 1025).toNat, 0)

/-- One row of a multiply-accumulate: `a` its K elements of A, `b` the columns of B, each a list over K. The row and the
flags of its elements (R63, R224). -/
def mmaRow (fp : Bool) (tagA tagB : Tag) (size : Nat) (a : List (Nat × Nat)) (b : List (List (Nat × Nat))) (row : AccRow) :
    AccRow × Flags :=
  if fp then
    let dec := fun (t : Tag) (p : Nat × Nat) => (decodeF t p.1).scaled p.2
    let av := a.map (dec tagA)
    let cells := (List.range b.length).map (fun j =>
      fpCell size av ((b.getD j []).map (dec tagB)) (if h : j < 128 then (row.cols[j]).toNat else 0))
    ({ row.putAll (cells.map (·.1)) with bound := rangeTop }, (cells.map (·.2)).foldl (fun f g => f ||| g) 0)
  else
    let av := a.map (fun p => intVal tagA p.1)
    let bv := b.map (fun c => c.map (fun p => intVal tagB p.1))
    let cells := (List.range b.length).map (fun j =>
      intCell av (bv.getD j []) (if h : j < 128 then (row.cols[j]).toNat else 0))
    let bound := row.bound + a.length * pow2Up (maxMag av) * pow2Up (maxMag (bv.flatMap (fun c => c)))
    if rangeTop ≤ bound then ({ cols := Vector.replicate 128 (BitVec.ofNat 32 rtPoison), bound }, fRP)
    else ({ row.putAll (cells.map (·.1)) with bound }, (cells.map (·.2)).foldl (fun f g => f ||| g) 0)

/-- Multiply-accumulate into a tile over k steps: `a` gives element and scale byte of row i at a step, `b` of column j. -/
def Run.multiply (r : Run) (f : MxF) (tagA tagB : Tag) (m n k : Nat) (a b : Nat → Nat → Nat × Nat) : Perf :=
  if k = 0 then .done r.s
  else
    let size := if f.sc then 32 else 16
    let columns := (List.range n).map (fun j => (List.range k).map (fun q => b j q))
    let rows := (List.range m).map (fun i =>
      (i, mmaRow (isFloat tagA) tagA tagB size ((List.range k).map (fun q => a i q)) columns (accRow (r.st.tile f.acc.toNat) i)))
    let t := rows.foldl (fun (t : Tile) (p : Nat × AccRow × Flags) => accUpd t p.1 (fun _ => p.2.1)) (r.st.tile f.acc.toNat)
    r.tileDone f.acc.toNat t (rows.map (fun p => (p.1, p.2.2)))

/-- MMA (R224). -/
def Run.mma (r : Run) (f : MxF) : Perf :=
  r.mx [f.gdescA, f.gdescB] [] ((r.tileDesc 0 f.gdescA 4096 isMatrix).bind (fun dA =>
      (r.tileDesc 1 f.gdescB 4096 isMatrix).bind (fun dB =>
        if !modeAdmits dA.tag dB.tag f.sc || (f.sc && !(dA.scaled && dB.scaled)) then .fault .tagMismatch r.freeTval
        else
          let ks := List.range (min (r.g f.gl).toNat (min dA.kdim dB.kdim))
          (r.slices dA ks).bind (fun a => (r.slices dB ks).bind (fun b =>
            (r.scaleBytes dA f.sc ks).bind (fun sa => (r.scaleBytes dB f.sc ks).map (fun sb => (dA, dB, ks, a, b, sa, sb)))))))
    ) (fun r x =>
      let (dA, dB, ks, a, b, sa, sb) := x
      (r.fetched (dA.spans f.sc ks ++ dB.spans f.sc ks)).multiply f dA.tag dB.tag dA.mdim dB.mdim ks.length (fun i q => (at2 a q i, at2 sa q i)) (fun j q => (at2 b q j, at2 sb q j)))

/-- A from the register group at va, over the K positions of its steps in B (R225, R226). -/
def Run.fromRegisters (r : Run) (f : MxF) (steps : TileDesc → Option (List Nat)) : Perf :=
  let m := (bits f.imm 0 7).toNat + 1
  let t := r.tag f.va
  r.mx [f.gdescB] [] ((r.tileDesc 0 f.gdescB 4096 isMatrix).bind (fun dB =>
      if !modeAdmits t dB.tag f.sc then .fault .tagMismatch (f.va.toNat * 256 + t.toNat)
      else if f.sc && !dB.scaled then .fault .tagMismatch r.freeTval
      else
        match steps dB with
        | none => .fault .protection r.freeTval
        | some ks =>
          if f.sc && decide (2048 < ceilDiv ks.length 32 * m) then .fault .protection r.freeTval
          else (r.slices dB ks).bind (fun b => (r.scaleBytes dB f.sc ks).map (fun sb => (dB, ks, b, sb))))
    ) (fun r x =>
      let (dB, ks, b, sb) := x
      (r.fetched (dB.spans f.sc ks)).multiply f t dB.tag m dB.mdim ks.length
        (fun i q => (r.src f.va.toNat (tagWidth t) (q * m + i), if f.sc then r.src 1 8 (q / 32 * m + i) else 127))
        (fun j q => (at2 b q j, at2 sb q j)))

/-- MMAV (R225). -/
def Run.mmav (r : Run) (f : MxF) : Perf := r.fromRegisters f (fun d => some (List.range (min r.p.n d.kdim)))

/-- MMAS: step j multiplies by B's slice k_j, its index element (R226). -/
def Run.mmas (r : Run) (f : MxF) : Perf :=
  r.fromRegisters f (fun d =>
    let ks := (List.range r.p.n).map (fun j => r.index f.vb.toNat j)
    if ks.all (fun k => decide (k < d.kdim)) then some ks else none)

/-! ## Moving accumulators (R223, R228 to R231) -/

/-- MZERO (R223). -/
def Run.mzero (r : Run) (f : MxF) : Perf := r.tileDone f.acc.toNat (Vector.replicate 128 accZero) []

/-- An element of FP32, RT32 or I32 as a tile holds it (R228, R230). -/
def tileElem (t : Tag) (x : Nat) : Nat × Flags := if t = 3 then rtEncode (signedOf 32 x) else (x, 0)

/-- The bound of a row after elements of a tag were written to it (R63). -/
def tileBound (t : Tag) (xs : List Nat) : Nat := if t = 14 then rangeTop else residueBound xs

/-- MLOADC (R228). -/
def Run.mloadc (r : Run) (f : MxF) : Perf :=
  r.mx [f.gdescA] [] ((r.tileDesc 0 f.gdescA 128 (fun t => t == 14 || t == 15 || t == 3)).bind (fun d =>
      (r.slices d (List.range d.kdim)).map (fun l => (d, l)))) (fun r0 x =>
    let r := r0.fetched (x.1.spans false (List.range x.1.kdim))
    let rows := (List.range x.1.kdim).map (fun k => (k, (x.2.getD k []).map (tileElem x.1.tag)))
    let t := rows.foldl (fun (t : Tile) (p : Nat × List (Nat × Flags)) =>
      accUpd t p.1 (fun row => { row.putAll (p.2.map (·.1)) with bound := tileBound x.1.tag (p.2.map (·.1)) })) (r.st.tile f.acc.toNat)
    r.tileDone f.acc.toNat t (rows.map (fun p => (p.1, p.2.foldl (fun (g : Flags) (q : Nat × Flags) => g ||| q.2) 0))))

/-- An exact result as a value, with the flags it sets. -/
def Exact.value : Exact → FVal × Flags
  | .val neg m e => (.fin neg m e, 0)
  | .zero neg => (.fin neg 0 0, 0)
  | .inf neg fl => (.inf neg, fl)
  | .nan fl => (.nan, fl)

/-- An accumulator element converted, row-scaled where a scale is given (R59, R62, R229). -/
def accElem (rt : Bool) (dst : Tag) (scale : Option Nat) (rm : BitVec 3) (sat : Bool) (x r : Nat) : Nat × Flags :=
  let src : Tag := if rt then 15 else 14
  match scale with
  | none => convertElem src dst none rm sat x r
  | some k =>
    if rt && rtBad x then
      let p := if isResidue dst then (rtPoison, fRP) else convertElem src dst none rm sat x r
      (p.1, p.2 ||| nfOf [decodeF 14 k])
    else
      let v : FVal := if rt then .fin (decide (rtValue x < 0)) (rtValue x).natAbs 0 else decodeF 14 x
      let y := (fMul v (decodeF 14 k)).value
      let nf := nfOf [v, decodeF 14 k, y.1]
      let p :=
        if isFloat dst then toFloat dst y.1 rm sat r
        else if isResidue dst then
          match y.1 with
          | .fin neg m e =>
            let (n, inexact, _) := choose neg m e 0 rm r
            let q := rtEncode (if neg then -(n : Int) else n)
            (q.1, q.2 ||| flagIf inexact fNX)
          | _ => (rtPoison, fNV ||| fRP)
        else toInteger y.1 (isSigned dst) (tagWidth dst) rm sat r
      (p.1, p.2 ||| y.2 ||| nf)

/-- Types an accumulator element of a source converts into (R229). -/
def accAdmits (rt : Bool) (t : Tag) : Bool :=
  if rt then t == 15 || t == 3 || t == 14 || t == 12 || t == 13
  else t == 14 || t == 12 || t == 13 || t == 11 || t == 10 || t == 3 || t == 2 || t == 1

/-- The conversion consumes stochastic-rounding steps (R50). -/
def accRounds (rt : Bool) (dst : Tag) (scaled : Bool) : Bool := scaled || convertRounds (if rt then 15 else 14) dst false

/-- The elements of one row converted in the strand's lowest owned lane, ascending columns (R229). -/
def Run.storeRow (r : Run) (f : MxF) (d : TileDesc) (acc : Strand × List (Nat × List Nat × Flags)) (j : Nat) :
    Strand × List (Nat × List Nat × Flags) :=
  let rt := bit f.imm 0
  let scale := if f.sc then some (r.src 1 32 j) else none
  let x := (List.range d.mdim).foldl (fun (a : Strand × List Nat × Flags) (c : Nat) =>
    let n := if accRounds rt d.tag f.sc && r.e.rm = 5 then a.1.draw r.lanes.1 else (0, a.1)
    let y := accElem rt d.tag scale r.e.rm (bit f.imm 1) (accAt (r.st.tile f.acc.toNat) j c) n.1
    (n.2, a.2.1 ++ [y.1], a.2.2 ||| y.2)) (acc.1, [], 0)
  (x.1, acc.2 ++ [(j, x.2.1, x.2.2)])

/-- MSTORE: into the shadow of its destination (R229). -/
def Run.mstore (r : Run) (f : MxF) : Perf :=
  r.mx [f.gdescA] [] ((r.tileDesc 0 f.gdescA 128 (accAdmits (bit f.imm 0))).bind (fun d =>
      let x := (List.range d.kdim).foldl (r.storeRow f d) (r.st, [])
      x.2.foldl (fun (acc : Res (State × Strand × List (Nat × Flags))) (row : Nat × List Nat × Flags) =>
        acc.bind (fun p =>
          let va := (d.base + row.1 * d.pitch) % 2 ^ 64
          let bs := packElems (tagWidth d.tag) row.2.1
          (r.s.writeCheck r.st va bs.length).bind (fun _ =>
            (p.1.shadowWrite r.array (r.st.launch, r.st.ordinal, .execute) true va bs).map
              (fun s1 => (s1, p.2.1, p.2.2 ++ [(row.1, row.2.2)]))))) (.ok ((r.described [f.gdescA] 1).s, x.1, [])))) (fun r p =>
    r.complete (p.1.setStrand r.slot (r.raised p.2.1 p.2.2)) p.2.2)

/-- First accumulator row of a lane-run instruction. -/
def rowZero (f : MxF) : Nat := (bits f.imm 0 7).toNat

/-- MREADV (R230). -/
def Run.mreadv (r : Run) (f : MxF) : Perf :=
  let t := r.st.tile f.va.toNat
  let elems := r.actives false false
  r.finish (fun keep => (r.st.setElems f.acc.toNat 32 ((elems.filter keep).map (fun e =>
    (e, accAt t (rowZero f + e / 128) (e % 128)))), none)) [{ base := f.acc.toNat, w := 32, elems }]

/-- MWRITEV (R230). -/
def Run.mwritev (r : Run) (f : MxF) : Perf :=
  let tag := r.tag f.va
  r.finish (fun keep =>
    let sw := r.sweep ((r.actives false false).filter keep) (groupIn 32) false (fun e _ => tileElem tag (r.src f.va.toNat 32 e))
    let t := (List.range 4).foldl (fun (t : Tile) (i : Nat) =>
      let mine := sw.out.filter (fun p => p.1 / 128 == i)
      if mine.isEmpty then t
      else accUpd t (rowZero f + i) (fun row =>
        { mine.foldl (fun (row : AccRow) (p : Nat × Nat) => row.put (p.1 % 128) p.2) row with
          bound := tileBound tag (mine.map (·.2)) })) (r.st.tile f.acc.toNat)
    (sw.st.setTile f.acc.toNat t, sw.trap)) []

/-- MCVT (R231). -/
def Run.mcvt (r : Run) (f : MxF) : Perf :=
  let dst := bits f.imm 7 4
  let rt := bit f.imm 11
  let t := r.st.tile f.va.toNat
  let w := tagWidth dst
  let elems := r.actives false false
  r.finish (fun keep =>
    let sw := r.sweep (elems.filter keep) (groupIn w) (accRounds rt dst f.sc) (fun e x =>
      let row := rowZero f + e / 128
      accElem rt dst (if f.sc then some (r.src 1 32 row) else none) r.e.rm (bit f.imm 12) (accAt t row (e % 128)) x)
    (sw.st.setElems f.acc.toNat w sw.out, sw.trap)) [{ base := f.acc.toNat, w, elems }]

/-! ## The shoal (R233 to R238) -/

/-- One launch holds all four strand slots of a cluster (R25, R233). -/
def State.wholeCluster (s : State) (k : Nat) : Bool :=
  match s.clusterStrands k with
  | [a, b, c, d] => a.2.launch == b.2.launch && b.2.launch == c.2.launch && c.2.launch == d.2.launch
  | _ => false

/-- A shoal instruction in a cluster that one launch does not hold raises 0x07 (R233). -/
def Run.shoal (r : Run) (p : Perf) : Perf :=
  if r.s.wholeCluster (clusterOf r.slot) then p else .fault .protection (Config.freeTval r.s.draws) r.from_ r.s.drawn

/-- Cell c of the bytes of a tree slot, when it is used (R235). -/
def cellOf (bs : List Byte) (c : Nat) : Option TreeCell :=
  let fl := fieldLE bs (16 * c + 3) 1
  if fl / 4 % 2 = 0 then none
  else some {
    thresh := BitVec.ofNat 16 (fieldLE bs (16 * c) 2), feat := BitVec.ofNat 8 (fieldLE bs (16 * c + 2) 1)
    le := fl % 2 == 1, dir := fl / 2 % 2 == 1, mask := BitVec.ofNat 64 (fieldLE bs (16 * c + 8) 8) }

/-- A tree slot with a reserved field or flag bit that is not zero (R235, R236). -/
def badTree (bs : List Byte) : Bool :=
  (List.range 64).any (fun c => decide (8 ≤ fieldLE bs (16 * c + 3) 1) || !zeroBytes bs (16 * c + 4) 4)

/-- TLOAD (R236). -/
def Run.tload (r : Run) (f : MxF) : Perf :=
  let at_ := (r.g f.gdescA).toNat
  let header := r.snapshot 0 64 (r.fetch true at_ 64)
  r.shoal (r.mx [] [header] (if at_ % 64 ≠ 0 then .fault .misaligned at_
    else
      header.bind (fun h =>
        let n := fieldLE h 0 2
        let t := fieldLE h 2 1
        if 256 < n ∨ (t ≠ 2 ∧ t ≠ 12 ∧ t ≠ 13) ∨ !zeroBytes h 3 61 then .fault .protection at_
        else
          (collect (List.range n) (fun k => r.fetch true ((at_ + 64 + 1024 * k) % 2 ^ 64) 1024)).bind (fun trees =>
            if trees.any badTree then .fault .protection at_ else .ok (BitVec.ofNat 4 t, trees)))) (fun r0 x =>
    let r := r0.fetched [(at_, 64 + 1024 * x.2.length)]
    let k := clusterOf r.slot
    .done (r.s.setCluster k { r.s.cluster k with
      forest := some { ftype := x.1, trees := x.2.map (fun bs => (List.range 64).filterMap (cellOf bs)) } })))

/-- TCLR (R236). -/
def Run.tclr (r : Run) : Perf :=
  let k := clusterOf r.slot
  r.shoal (.done (r.s.setCluster k { r.s.cluster k with forest := none }))

/-- A cell contributes its mask on a sample: its test is false, or its feature is missing and DIR is 0 (R237). -/
def TreeCell.contributes (c : TreeCell) (ftype : Tag) (x : Option Nat) : Bool :=
  let missing := !c.dir
  match x with
  | none => missing
  | some v =>
    if ftype = 2 then
      if v = 0x8000 then missing
      else
        let a := signedOf 16 v
        let b := c.thresh.toInt
        !(if c.le then decide (a ≤ b) else decide (a < b))
    else
      match decodeF ftype v with
      | .nan => missing
      | a =>
        match fCompare a (decodeF ftype c.thresh.toNat) with
        | some .lt => false
        | some .eq => !c.le
        | _ => true

/-- Index of the lowest set bit. -/
def lowestBit (x : Word) : Option Nat := (List.range 64).find? (fun i => bit x i)

/-- The leaf code of a tree on a sample, whose features `feature` gives (R237). -/
def leafCode (ftype : Tag) (stride : Nat) (feature : Nat → Nat) (tree : List TreeCell) : Nat :=
  let acc := tree.foldl (fun (acc : Word) (c : TreeCell) =>
    let x := if c.feat.toNat < stride then some (feature c.feat.toNat) else none
    if c.contributes ftype x then acc &&& c.mask else acc) (BitVec.allOnes 64)
  (lowestBit acc).getD 0xFE

/-- TEVAL (R237). -/
def Run.teval (r : Run) (f : MxF) : Perf :=
  let stride := (bits f.imm 0 8).toNat + 1
  let slots := (bits f.imm 8 8).toNat + 1
  let forest := (r.s.cluster (clusterOf r.slot)).forest.getD { ftype := 2, trees := [] }
  let bad := if forest.trees.isEmpty then none else r.p.reads.find? (fun q => tagAt r.e.tags q != forest.ftype)
  r.shoal (match bad with
    | some q => .fault .tagMismatch (tagTval (q, tagAt r.e.tags q)) r.from_ r.s
    | none =>
      let out := (List.range r.p.n).flatMap (fun q => (List.range slots).map (fun k =>
        (q * slots + k,
          match forest.trees[k]? with
          | none => 0xFF
          | some tree => leafCode forest.ftype stride (fun x => r.src f.va.toNat 16 (q * stride + x)) tree)))
      r.finishWhole (r.st.setElems f.acc.toNat 8 out) [{ base := f.acc.toNat, w := 8, elems := out.map (·.1) }] r.from_)

/-- One sample of TLEAF: its sum over the slots in ascending order (R238). -/
def Run.leafSum (r : Run) (f : MxF) (leaf : Nat → Nat → Nat) (acc : Strand × List (Nat × Nat × Flags)) (q : Nat) :
    Strand × List (Nat × Nat × Flags) :=
  let slots := (bits f.imm 8 8).toNat + 1
  let lane := laneOf r.lanes (groupIn 32 q)
  let x := (List.range slots).foldl (fun (a : Strand × Nat × Flags) (k : Nat) =>
    let code := r.src f.va.toNat 8 (q * slots + k)
    if code < 64 then
      let n := if r.e.rm = 5 then a.1.draw lane else (0, a.1)
      let y := addElem 14 r.e.rm false a.2.1 (leaf k code) n.1
      (n.2, y.1, a.2.2 ||| y.2)
    else if code ≠ 0xFF then (a.1, a.2.1, a.2.2 ||| fNV)
    else a) (acc.1, r.src f.acc.toNat 32 q, 0)
  (x.1, acc.2 ++ [(q, x.2.1, x.2.2)])

/-- The leaves TLEAF reads: for each code below 64, its address and bits. -/
def Run.leaves (r : Run) (f : MxF) : Res (List (Nat × Nat)) :=
  let slots := (bits f.imm 8 8).toNat + 1
  let wanted := ((List.range (r.p.n * slots)).filterMap (fun j =>
    let code := r.src f.va.toNat 8 j
    if code < 64 then some (64 * (j % slots) + code) else none)).eraseDups
  collect wanted (fun l =>
    (r.s.loadVA r.array r.st r.e.strip .other (((r.g f.gdescA).toNat + 4 * l) % 2 ^ 64) 4 (fun _ => false) false).map
      (fun p => (l, leNat p.1)))

/-- TLEAF (R238); the whole table lies in the window, below journals and splice buffer (R292). -/
def Run.tleaf (r : Run) (f : MxF) : Perf :=
  let at_ := (r.g f.gdescA).toNat
  let size := 256 * ((bits f.imm 8 8).toNat + 1)
  r.shoal (r.mx [] [] (if at_ % 4 ≠ 0 then .fault .misaligned at_
    else if !(inScratch at_ && inScratch (at_ + size - 1)) ||
        r.s.scratchDenied (clusterOf r.slot) (at_ + size - 1 - Config.scratchBase) then .fault .protection at_
    else r.leaves f) (fun r l =>
      let x := (List.range r.p.n).foldl (r.leafSum f (fun k code => (lookup l (64 * k + code)).getD 0)) (r.st, [])
      let out := x.2.map (fun y => (y.1, y.2.1))
      let flags := x.2.map (fun y => (y.1, y.2.2))
      match r.finishWhole (r.raised (x.1.setElems f.acc.toNat 32 out) flags)
          [{ base := f.acc.toNat, w := 32, elems := out.map (·.1) }] r.from_ with
      | .done s => r.complete s flags
      | p => p))

/-- What an MX instruction does when it is performed, in the lanes or in the matrix array. -/
def Run.matrix (r : Run) : Option Perf :=
  match r.e.instr with
  | .mzero f => some (r.mzero f)
  | .mma f => some (r.mma f)
  | .mmav f => some (r.mmav f)
  | .mmas f => some (r.mmas f)
  | .mloadc f => some (r.mloadc f)
  | .mstore f => some (r.mstore f)
  | .mreadv f => some (r.mreadv f)
  | .mwritev f => some (r.mwritev f)
  | .mcvt f => some (r.mcvt f)
  | .tload f => some (r.tload f)
  | .teval f => some (r.teval f)
  | .tleaf f => some (r.tleaf f)
  | .tclr _ => some r.tclr
  | _ => none

end Sys2Proof.Machine
end

