-- ==== Sys2Proof/Machine/Fetch.lean ====
section
/-!
DEFINITION. Machine/Fetch.lean: fetching and decoding the next instruction of a context (R89, R117 to R119, R130,
R136, R366), and the passing of time between turns (log 1, log 2).
-/
namespace Sys2Proof.Machine

/-- A place's distance from the start of its 64-byte line. -/
def Place.inLine : Place → Nat
  | .scratch _ off => off % 64
  | .dev pa => pa % 64
  | .ws _ off => off % 64
  | .host pa => pa % 64
  | .remote _ pa => pa % 64

/-- The versions of the code line at a place that a fetch may return beside the one that stands there, each with how many launches
had started when it last stood in memory: the one from before the strand's own launch started, and the one that the cluster has
fetched, where it is no older than that (R89). -/
def State.oldLines (s : State) (a : Agent) (p : Place) : List (Nat × List Byte) :=
  match (s.strand? a.slot).bind (fun st => s.launch? st.launch) with
  | none => []
  | some l =>
    match p with
    | .dev pa =>
      (lookup (s.cluster a.cluster).icache (pa / 64)).toList.filter (fun v => decide (l.id < v.1)) ++
        [(l.id + 1, l.codeDev.readBytes pa 64)]
    | .host pa => [(l.id + 1, l.codeHost.readBytes pa 64)]
    | .remote m pa => [(l.id + 1, ((lookup l.codeRemotes m).getD { cells := [] }).readBytes pa 64)]
    | _ => []

/-- The cluster keeps a version of a device line it has fetched (R89). -/
def State.keepLine (s : State) (cluster : Nat) (p : Place) (v : Nat × List Byte) : State :=
  match p with
  | .dev pa =>
    let c := s.cluster cluster
    if lookup c.icache (pa / 64) = some v then s else s.setCluster cluster { c with icache := insertKey c.icache (pa / 64) v }
  | _ => s

/-- The four bytes of a code word at a place: where old versions of its line differ from the one that stands there, a free
value says which of them the fetch returns, whole (R89, log 10). -/
def State.fetchLine (s : State) (a : Agent) (p : Place) : List Byte × State :=
  let q := p.back p.inLine
  let home := (s.nextLaunch, s.homeBytes q 64)
  let part := fun (v : Nat × List Byte) => (v.2.drop p.inLine).take 4
  match (s.oldLines a q).filter (fun v => v.2 != home.2) with
  | [] => (part home, (s.keepLine a.cluster q home).farRead a.cluster q (part home))
  | old =>
    let v := (old[Config.staleFetch s.draws]?).getD home
    (part v, ((s.keepLine a.cluster q v).farRead a.cluster q (part v)).drawn)

/-- A code word at an address (R117, R136). DESIGN CHOICE: the scratchpad window and the weight store are fetched from like other
memory (R85, log 103). -/
def State.fetchWord (s : State) (a : Agent) (va : Nat) : Res (BitVec 32 × State) :=
  if va % 4 ≠ 0 then .fault .misaligned va
  else
    match s.resolve a va .fetch with
    | .fault c => .fault c va
    | .miss => .miss va .fetch
    | .absent pa => .stop (.absentAddress pa)
    | .ok p =>
      if s.poisoned p || s.unreachable p then .fault .uncorrectable va
      else
        let x := (s.cacheTranslation a va).fetchLine a p
        .ok (BitVec.ofNat 32 (leNat x.1), x.2)

/-- What a turn of a context comes to before its instruction executes. -/
inductive Fetched where
  /-- an instruction executes; `fresh` when it issues now, and has not waited since it did -/
  | instr (fresh : Bool) (i : Instr) (s : State)
  | other (s : State)
  | stop (f : Fault)
  deriving DecidableEq, Repr

/-- Fetching failed: a precise fault at the first word of the sequence, or a wait (R136). -/
def State.fetchFailed (s : State) (slot : Nat) (id : CtxId) (a : Agent) : Res (BitVec 32 × State) → Fetched
  | .fault c va => .other (s.trapNow slot id c false (BitVec.ofNat 64 va))
  | .miss va i => .other ((s.startWalk a va i).updCtx slot id (fun c => c.await .translation s.now none))
  | .stop f => .stop f
  | _ => .other s

/-- The next instruction of a context, fetched word by word and decoded; what no format accepts is an unassigned
encoding (R118, R119). -/
def State.fetchInstr (s : State) (slot : Nat) (id : CtxId) (st : Strand) : Fetched :=
  let c := st.ctx id
  let a := st.agent slot id
  let ready := fun (i : Instr) (s : State) =>
    Fetched.instr true i (if c.wait.isNone then s else s.updCtx slot id (fun c => { c with wait := none }))
  match s.fetchWord a c.pc.toNat with
  | .ok (w0, s1) =>
    if c.spoils w0 || wordCount w0 = 1 then
      match decodeWords w0 0 with
      | .ok i => ready i s1
      | .error _ => ready (.unassignedEncoding w0) s1
    else
      match s1.fetchWord a (c.pc + 4).toNat with
      | .ok (w1, s2) =>
        match decodeWords w0 w1 with
        | .ok i => ready i s2
        | .error _ => ready (.unassignedEncoding w0) s2
      | r => s1.fetchFailed slot id a r
  | r => s.fetchFailed slot id a r

/-- A context may issue: its strand runs and is not ending, and the context has neither retired, been cancelled nor yielded (R37,
R255). -/
def Strand.issues (st : Strand) (id : CtxId) : Bool :=
  let c := st.ctx id
  st.life == .running && st.ending.isNone && !c.retired && !c.cancelled && !c.yielded

/-! ## The issue stages (R31, R248) -/

/-- The place of a strand's context in the order of R248. -/
def turnKey (slot : Nat) (id : CtxId) : Nat := 2 * slot + (if id = .access then 1 else 0)

/-- The issue stage for contexts of a kind: the context of the cluster that issued last, and the cycle (R31). -/
def Cluster.stage (c : Cluster) (id : CtxId) : Nat × Option Nat :=
  match id with
  | .execute => (c.execPos, c.execAt)
  | .access => (c.accessPos, c.accessAt)

/-- The stage after a context has issued in a cycle. -/
def Cluster.noteStage (c : Cluster) (id : CtxId) (pos now : Nat) : Cluster :=
  match id with
  | .execute => { c with execPos := pos, execAt := some now }
  | .access => { c with accessPos := pos, accessAt := some now }

/-- The context of a kind in a slot is ready: it may issue and does not wait (R31). -/
def State.isReady (s : State) (slot : Nat) (id : CtxId) : Bool :=
  match s.strand? slot with
  | some st => st.issues id && (st.ctx id).wait.isNone
  | none => false

/-- A context may issue now: its stage has not issued in this cycle, no ready context of its kind comes before it in the
round-robin (R31), and none that comes after it in the order of R248 has issued in this cycle. -/
def State.mayIssue (s : State) (slot : Nat) (id : CtxId) : Bool :=
  let k := clusterOf slot
  let g := (s.cluster k).stage id
  g.2 != some s.now &&
    (List.range ((slot % 4 + 3 - g.1) % 4)).all (fun j => !s.isReady (4 * k + (g.1 + 1 + j) % 4) id) &&
    (match s.issued with
     | some (t, key) => t != s.now || decide (key < turnKey slot id)
     | none => true)

/-- A turn in which a context has issued an instruction, as the issue stages see it (R31); a prefix, or what waits before its
issue, is none. -/
def State.noteIssue (s : State) (slot : Nat) (id : CtxId) : State :=
  let issued := match s.strand? slot with
    | none => true
    | some st =>
      let c := st.ctx id
      c.prefixes.isNone && (c.wait.map Waiting.issued).getD true
  if issued then
    let k := clusterOf slot
    { s.setCluster k ((s.cluster k).noteStage id (slot % 4) s.now) with issued := some (s.now, turnKey slot id) }
  else s

/-- The turn of a context: what is taken at the boundary first, then the instruction that waits, or else the next one, where its
issue stage chooses it. -/
def State.contextTurn (s : State) (slot : Nat) (id : CtxId) : Fetched :=
  let s0 : State := { s with cur := { slot, ctx := id, unit := 0 } }
  match s0.strand? slot with
  | none => .other s0
  | some st =>
    if !st.issues id then .other s0
    else
      match s0.boundary slot id with
      | some t => .other t
      | none =>
        match (st.ctx id).wait.bind (fun w => w.instr.map (fun i => (w, i))) with
        | some (w, i) =>
          if w.issued then .instr false i s0
          else if s0.mayIssue slot id then .instr true i s0
          else .other s0
        | none => if s0.mayIssue slot id then s0.fetchInstr slot id st else .other s0

/-- The turn to come, and the state without it: the agenda's first, or a free value (log 1). -/
def State.takeTurn (s : State) : Turn × State :=
  match s.agenda with
  | t :: rest => (t, { s with agenda := rest })
  | [] => (Config.turn s.draws, s.drawn)

/-- Time units of one cycle at a clock in MHz, a multiple of 125 (R370). -/
def cycleUnits (clockMHz : Nat) : Nat := 360360 / (clockMHz / 125)

/-- Chunks of a stream below a number that are still to be popped, or whose data is still to come; of an output stream, that are
being stored. -/
def Stream.usesBefore (x : Stream) (n : Nat) : Bool :=
  x.chunks.any (fun c => decide (c.1 < n)) || (decide (x.arrived < n) && !(x.feeding.isEmpty && x.pages.isEmpty))

/-- A strand's streams: those bound, and those of VBINDs that have still to be performed. -/
def Strand.allStreams (st : Strand) : List Stream :=
  st.streams.toList.filterMap id ++ (st.vq.filter (fun e => e.progress != .done)).filterMap (·.bind)

/-- Some chunks, given as slot, number of the VBIND and number, have still to be popped or stored. -/
def State.chunksLeft (s : State) (l : List (Nat × Nat × Nat)) : Bool :=
  l.any (fun q =>
    match s.strand? q.1 with
    | some st => st.allStreams.any (fun x => x.born == q.2.1 && x.usesBefore q.2.2)
    | none => false)

/-- The Invalidation Completions that may be sent are sent (R330). -/
def State.sendAts (s : State) : State :=
  let due := s.atsOwed.filter (fun x => !s.chunksLeft x.chunks)
  if due.isEmpty then s
  else { s with atsOwed := s.atsOwed.filter (fun x => s.chunksLeft x.chunks), atsSent := due.reverse ++ s.atsSent }

/-- Cycles pass: what the end of a cycle brings comes first, then resident strands count them (R82, R252, R330, log 2). -/
def State.pass (s : State) (cycles : Nat) : State :=
  if cycles = 0 then s
  else
    let s1 := s.sendAts.sendCancels
    { s1 with
      now := s.now + cycles
      time := s.time + cycles * cycleUnits s.clockMHz
      strands := s1.strands.map (fun p =>
        if p.2.life = .running then (p.1, { p.2 with clocks := p.2.clocks + cycles }) else p) }

/-- s with the bytes of an instruction at device address 4096, a translation of it, a running strand in slot 0 whose
execute context stands there, and its turn next (log 6). -/
def State.placeCode (s : State) (_nbits w : Nat) : State :=
  let st := (s.strand? 0).getD Strand.blank
  let c : Context := { st.exec with
    pc := 4096, prefixes := none, wait := none, retired := false, cancelled := false, yielded := false,
    engineErrors := [], poisoned := none }
  let e : TlbEntry := { quad := 0, asid := st.asid.toNat, va := 4096, size := 4096, home := .device, pa := 4096,
                        read := true, write := true, execute := true, user := true, dirty := true }
  let c0 := s.cluster 0
  let c1 : Cluster := { c0 with icache := [], execPos := 3, execAt := none }
  { s with
    issued := none
    agenda := [{ cycles := 0, who := .context 0 .execute }]
    clocksStopped := false
    dev := s.dev.writeBytes 4096 (leBytes 8 w)
    launches := s.launches.map (fun l => (l.1, { l.2 with codeDev := l.2.codeDev.writeBytes 4096 (leBytes 8 w) }))
    tlb := e :: s.tlb
    xlatFaults := []
    poison := []
    clusters := if c1 = c0 then s.clusters else insertKey s.clusters 0 c1
    strands := insertKey s.strands 0 { st with exec := c, life := .running, fault := none, ending := none, vq := [] } }

/-- A step of a hardware unit, the firmware, the host or the fabric: it is no instruction word (log 1). -/
def isEvent (i : Instr) : Bool := (encode i).isNone

end Sys2Proof.Machine
end

