-- ==== Sys2Proof/Machine/ScalarMem.lean ====
section
/-!
DEFINITION. Machine/ScalarMem.lean: the SM class: loads, stores, LDA, STL, the atomics and FENCE (R103, R104, R107,
R109 to R111, R132, R148 to R154).
-/
namespace Sys2Proof.Machine

/-! ## What the accesses share -/

/-- Attributes of a scalar access (R132). -/
structure Attr where
  scope : BitVec 3
  cache : BitVec 3
  acquire : Bool
  release : Bool
  deriving DecidableEq, Repr

/-- Attributes of a plain access: relaxed, no scope of its own, normal policy (R149). -/
def Attr.plain : Attr := { scope := 0, cache := 0, acquire := false, release := false }

/-- An access's own attributes with those of a MATTR before it (R132). -/
def Env.attr (e : Env) (own : Attr) : Attr :=
  match e.mattr with
  | none => own
  | some (scope, cache, order) =>
    { scope := if scope = 7 then own.scope else scope
      cache := if cache = 7 then own.cache else cache
      acquire := if order = 7 then own.acquire else bit order 0
      release := if order = 7 then own.release else bit order 1 }

/-- The kind of access a context's load or store is for R277: an access context has none but `other`. -/
def Env.accessKind (e : Env) (k : AccessKind) : AccessKind := if e.ctx = .execute then k else .other

/-- A scalar access that has consumed poison, or met an unreachable module: the instruction issues with a free value in
its register, and 0x13, charged to it, is raised at the next boundary of its context (R282, R309, R361, R366, log 25). -/
def State.consumePoison (s : State) (e : Env) (d : Reg) (va : Nat) : Act :=
  .done (((s.setReg e d (Config.poisonValue s.draws)).owePoison e.agent va).drawn)

/-- The form of a load, a store or an atomic. -/
def accessForm (imx : ImxUse) (use : MattrUse) : Form := { words := 1, imx, mattr := use, priv := false }

/-- A load of n bytes at g[a] + offset into d (R148, R149, R150). DESIGN CHOICE: any line may serve it (R91, log 102). -/
def State.scalarLoad (s : State) (i : Instr) (d a : Reg) (plain : Bool) (n : Nat) (offset : Env → Word) (own : Attr)
    (ext : Nat → Word) : Out :=
  s.issue i (accessForm .widens (.load plain)) [d, a] (fun e =>
    let va := (e.reg a + offset e).toNat
    let at_ := e.attr own
    if va % n ≠ 0 then .trap .misaligned (BitVec.ofNat 64 va) s
    else if e.st.novHeld e.ctx then .wait .drain s
    else
      match s.loadVA e.agent e.st e.st.strip (e.accessKind .load) va n (fun _ => !at_.acquire) (at_.cache != 1) with
      | .ok (bs, s1) =>
        let s2 := if at_.acquire then s1.acquire (clusterOf e.slot) at_.scope else s1
        .done (s2.setReg e d (ext (leNat bs)))
      | .fault .uncorrectable _ =>
        (if at_.acquire then s.acquire (clusterOf e.slot) at_.scope else s).consumePoison e d va
      | r => r.act e s (fun _ => .instead s))

/-- A store of the low n bytes of d at g[a] + offset (R148, R149, R150). -/
def State.scalarStore (s : State) (i : Instr) (d a : Reg) (plain : Bool) (n : Nat) (offset : Env → Word) (own : Attr) : Out :=
  s.issue i (accessForm .widens (.store plain)) [d, a] (fun e =>
    let va := (e.reg a + offset e).toNat
    let at_ := e.attr own
    if va % n ≠ 0 then .trap .misaligned (BitVec.ofNat 64 va) s
    else if e.st.novHeld e.ctx || (at_.release && s.releaseHeld e.slot e.ctx e.st at_.scope) then .wait .drain s
    else
      (s.storeVA e.agent e.st e.st.strip (e.accessKind .store) va (leBytes n (e.reg d).toNat)).act e s (fun s1 => .done s1))

/-- An n-byte value sign-extended. -/
def signFill (n : Nat) (x : Nat) : Word := BitVec.ofInt 64 (signedOf (8 * n) x)
/-- A value zero-extended. -/
def zeroFill (x : Nat) : Word := BitVec.ofNat 64 x

/-! ## Loads and stores -/

/-- LDB (R149). -/
def execLdb (d a : Reg) (off : BitVec 13) (s : State) : Out :=
  s.scalarLoad (.ldb d a off) d a true 1 (fun e => e.imm off) .plain (signFill 1)

/-- LDH (R149). -/
def execLdh (d a : Reg) (off : BitVec 13) (s : State) : Out :=
  s.scalarLoad (.ldh d a off) d a true 2 (fun e => e.imm off) .plain (signFill 2)

/-- LDW (R149). -/
def execLdw (d a : Reg) (off : BitVec 13) (s : State) : Out :=
  s.scalarLoad (.ldw d a off) d a true 4 (fun e => e.imm off) .plain (signFill 4)

/-- LDD (R149). -/
def execLdd (d a : Reg) (off : BitVec 13) (s : State) : Out :=
  s.scalarLoad (.ldd d a off) d a true 8 (fun e => e.imm off) .plain zeroFill

/-- LDBU (R149). -/
def execLdbu (d a : Reg) (off : BitVec 13) (s : State) : Out :=
  s.scalarLoad (.ldbu d a off) d a true 1 (fun e => e.imm off) .plain zeroFill

/-- LDHU (R149). -/
def execLdhu (d a : Reg) (off : BitVec 13) (s : State) : Out :=
  s.scalarLoad (.ldhu d a off) d a true 2 (fun e => e.imm off) .plain zeroFill

/-- LDWU (R149). -/
def execLdwu (d a : Reg) (off : BitVec 13) (s : State) : Out :=
  s.scalarLoad (.ldwu d a off) d a true 4 (fun e => e.imm off) .plain zeroFill

/-- STB (R149). -/
def execStb (d a : Reg) (off : BitVec 13) (s : State) : Out :=
  s.scalarStore (.stb d a off) d a true 1 (fun e => e.imm off) .plain

/-- STH (R149). -/
def execSth (d a : Reg) (off : BitVec 13) (s : State) : Out :=
  s.scalarStore (.sth d a off) d a true 2 (fun e => e.imm off) .plain

/-- STW (R149). -/
def execStw (d a : Reg) (off : BitVec 13) (s : State) : Out :=
  s.scalarStore (.stw d a off) d a true 4 (fun e => e.imm off) .plain

/-- STD (R149). -/
def execStd (d a : Reg) (off : BitVec 13) (s : State) : Out :=
  s.scalarStore (.std d a off) d a true 8 (fun e => e.imm off) .plain

/-- LDA: a doubleword load with acquire semantics (R150). -/
def execLda (d a : Reg) (scope : BitVec 3) (off : BitVec 10) (s : State) : Out :=
  s.scalarLoad (.lda d a scope off) d a false 8 (fun e => e.imm off)
    { scope, cache := 0, acquire := true, release := false } zeroFill

/-- STL: a doubleword store with release semantics (R150). -/
def execStl (d a : Reg) (scope : BitVec 3) (off : BitVec 10) (s : State) : Out :=
  s.scalarStore (.stl d a scope off) d a false 8 (fun e => e.imm off)
    { scope, cache := 0, acquire := false, release := true }

/-! ## Atomics -/

/-- An atomic on the doubleword at g[a]: `f` gives the doubleword it writes, if it writes; `host` says whether it has a
PCIe AtomicOp (R151 to R154). -/
def State.atomic (s : State) (i : Instr) (d a : Reg) (regs : List Reg) (scope : BitVec 3) (order : BitVec 2) (host : Bool)
    (f : Env → Word → Option Word) : Out :=
  s.issue i (accessForm .refused .amo) regs (fun e =>
    let va := (e.reg a).toNat
    let at_ := e.attr { scope, cache := 0, acquire := bit order 0, release := bit order 1 }
    if va % 8 ≠ 0 then .trap .misaligned (e.reg a) s
    else if e.st.novHeld e.ctx || (at_.release && s.releaseHeld e.slot e.ctx e.st at_.scope) then .wait .drain s
    else
      match s.route e.st e.st.strip .other va 8 with
      | .memory =>
        match s.resolve e.agent va .atomic with
        | .fault c => .trap c (e.reg a) s
        | .miss => .park e.agent va .atomic s
        | .absent pa => .halt (.absentAddress pa)
        | .ok p =>
          let isHost := match p with
            | .host _ => true
            | _ => false
          let acquired := fun (s : State) => if at_.acquire then s.acquire (clusterOf e.slot) at_.scope else s
          if isHost && !host then .trap .protection (e.reg a) s
          else if s.poisoned p || s.unreachable p then (acquired s).consumePoison e d va
          else
            if isHost && !Config.hostAccepts s.draws then .trap .protection (e.reg a) s.drawn
            else
              let s0 := ((if isHost then s.drawn else s).cacheTranslation e.agent va).farRead (clusterOf e.slot) p (s.homeBytes p 8)
              let m : Word := BitVec.ofNat 64 (leNat (s.homeBytes p 8))
              let s1 := match f e m with
                | some x => s0.putBytes (clusterOf e.slot) p (leBytes 8 x.toNat)
                | none => s0.seen (clusterOf e.slot) p (leBytes 8 m.toNat)
              .done ((acquired s1).setReg e d m)
      | _ => .trap .protection (e.reg a) s)

/-- An atomic with a register source (R152). -/
def State.atomicOp (s : State) (i : Instr) (d a : Reg) (scope : BitVec 3) (order : BitVec 2) (src : Reg) (host : Bool)
    (f : Word → Word → Word) : Out :=
  s.atomic i d a [d, a, src] scope order host (fun e m => some (f m (e.reg src)))

/-- AMOSWAP (R152). -/
def execAmoswap (d a : Reg) (scope : BitVec 3) (order : BitVec 2) (src : Reg) (s : State) : Out :=
  s.atomicOp (.amoswap d a scope order src) d a scope order src true (fun _ x => x)

/-- AMOADD (R152). -/
def execAmoadd (d a : Reg) (scope : BitVec 3) (order : BitVec 2) (src : Reg) (s : State) : Out :=
  s.atomicOp (.amoadd d a scope order src) d a scope order src true (fun m x => m + x)

/-- AMOAND (R152). -/
def execAmoand (d a : Reg) (scope : BitVec 3) (order : BitVec 2) (src : Reg) (s : State) : Out :=
  s.atomicOp (.amoand d a scope order src) d a scope order src false (fun m x => m &&& x)

/-- AMOOR (R152). -/
def execAmoor (d a : Reg) (scope : BitVec 3) (order : BitVec 2) (src : Reg) (s : State) : Out :=
  s.atomicOp (.amoor d a scope order src) d a scope order src false (fun m x => m ||| x)

/-- AMOXOR (R152). -/
def execAmoxor (d a : Reg) (scope : BitVec 3) (order : BitVec 2) (src : Reg) (s : State) : Out :=
  s.atomicOp (.amoxor d a scope order src) d a scope order src false (fun m x => m ^^^ x)

/-- AMOMIN (R152). -/
def execAmomin (d a : Reg) (scope : BitVec 3) (order : BitVec 2) (src : Reg) (s : State) : Out :=
  s.atomicOp (.amomin d a scope order src) d a scope order src false minSigned

/-- AMOMAX (R152). -/
def execAmomax (d a : Reg) (scope : BitVec 3) (order : BitVec 2) (src : Reg) (s : State) : Out :=
  s.atomicOp (.amomax d a scope order src) d a scope order src false maxSigned

/-- AMOCAS: compares with g[d], writes g[d+1], gives the old value (R153). -/
def execAmocas (d a : Reg) (scope : BitVec 3) (order : BitVec 2) (s : State) : Out :=
  s.atomic (.amocas d a scope order) d a [d, d + 1, a] scope order true
    (fun e m => if m = e.reg d then some (e.reg (d + 1)) else none)

/-! ## FENCE -/

/-- A FENCE of a kind mask waits for an entry of the VQ or the matrix queue (R111). -/
def fenceHolds (kinds : BitVec 6) (i : Instr) : Bool :=
  (bit kinds 0 && isVectorLoad i) || (bit kinds 1 && countsAsStore i)

/-- VX or MX work of the strand that a FENCE waits for: memory instructions of an earlier kind, and stores of chunks. DESIGN CHOICE:
in a handler the frozen ones are not counted (R111, log 115). -/
def State.fenceWork (s : State) (slot : Nat) (st : Strand) (kinds : BitVec 6) : Bool :=
  (s.vectorWork slot st).any (fun p => fenceHolds kinds p.1.instr || (bit kinds 1 && p.2))

/-- The engine commands of a context that are not complete. -/
def State.commandsOf (s : State) (st : Strand) (id : CtxId) : List EngineCmd :=
  s.engines.filter (fun c => c.owner == (st.launch, st.ordinal, id))

/-- FENCE (R111): scalar operations are performed as they issue, so it waits for vector work (bit 5) and engine commands
(bit 4) of a named earlier kind, and at domain scope and wider for the acknowledgements of earlier stores (R361). With no earlier or no later kind named it orders nothing. -/
def execFence (scope : BitVec 3) (kinds : BitVec 6) (s : State) : Out :=
  s.issue (.fence scope kinds) { words := 1, imx := .refused, mattr := .refused, priv := false } [] (fun e =>
    let orders := (bit kinds 0 || bit kinds 1) && (bit kinds 2 || bit kinds 3)
    if orders && bit kinds 5 && e.ctx == .execute && s.fenceWork e.slot e.st kinds then .wait .drain s
    else if orders && bit kinds 1 && decide (4 ≤ scope.toNat) && s.acksOwed then .wait .drain s
    else if orders && bit kinds 4 && !(s.commandsOf e.st e.ctx).isEmpty then .wait .engines s
    else .done s)

end Sys2Proof.Machine
end

