-- ==== Sys2Proof/Machine/Sync.lean ====
section
/-!
DEFINITION. Machine/Sync.lean: the user YS instructions that end strands, mark points, publish and wait on progress, and
drive a sibling group's ballot (R108, R239 to R256, R266, R267, R279), and the events that end their waits.
-/
namespace Sys2Proof.Machine

/-! ## What the YS instructions share -/

/-- A user YS instruction that reads no imm32 (R131, R239). -/
def ysForm : Form := { words := 2, imx := .zero, mattr := .refused, priv := false }
/-- A user YS instruction that reads imm32. -/
def ysImmForm : Form := { words := 2, imx := .widens, mattr := .refused, priv := false }

/-- imm32, or the value an IMX widens it to (R131, R267). -/
def Env.ysImm (e : Env) (x : BitVec 32) : Word :=
  match e.imx with
  | some p => sext (p ++ x)
  | none => zext x

/-- The scope field (R239). -/
def scopeField (f : YsF) : BitVec 3 := bits f.fn7 0 3

/-- A protection fault at no virtual address (log 26). -/
def refuse (s : State) : Act := .trap .protection (Config.freeTval s.draws) s.drawn

/-- A scalar memory operation, or one that is a release at a scope first, waits for earlier vector work (R107, R109). -/
def State.heldBack (s : State) (e : Env) (release : Option (BitVec 3)) : Bool :=
  e.st.novHeld e.ctx || (release.map (s.releaseHeld e.slot e.ctx e.st)).getD false

/-- The place of an atomic operation that has no PCIe AtomicOp, on n bytes in one page (R151, R154, R277). -/
def State.atomicPlace (s : State) (e : Env) (va n : Nat) : Res Place :=
  match s.route e.st e.st.strip .other va n with
  | .memory =>
    match s.resolve e.agent va .atomic with
    | .fault c => .fault c va
    | .miss => .miss va .atomic
    | .absent pa => .stop (.absentAddress pa)
    | .ok p =>
      if s.poisoned p || s.unreachable p then .fault .uncorrectable va
      else
        match p with
        | .host _ => .fault .protection va
        | p => .ok p
  | _ => .fault .protection va

/-- An access of a YS instruction: one that consumes poison completes with a free value in gd (R309, R366, log 25). -/
def Res.sync {α : Type} (r : Res α) (e : Env) (s : State) (d : Reg) (ok : α → Act) : Act :=
  match r with
  | .fault .uncorrectable va => s.consumePoison e d va
  | r => r.act e s ok

/-- An acquire by the issuing context at a scope (R110). -/
def State.acquires (s : State) (e : Env) (scope : BitVec 3) : State := s.acquire (clusterOf e.slot) scope

/-! ## Contexts that are done (R37, R39, R242, R317) -/

/-- The strand of a slot leaves it for the pre-empted state, its vector and matrix work lost (R317). -/
def State.enterPreempted (s : State) (slot : Nat) : State :=
  match s.strand? slot with
  | none => s
  | some st =>
    match s.launch? st.launch with
    | none => s
    | some l =>
      let s1 := s.setLaunch st.launch { l with preempted := l.preempted ++ [{ st with life := .preempted, lastMode := (s.cluster (clusterOf slot)).mode }] }
      (({ s1 with strands := eraseKey s1.strands slot }).vacate slot).freeSlots (clusterOf slot) st.launch

/-- Each context has yielded or retired (R317). -/
def Strand.idle (st : Strand) : Bool := (st.exec.yielded || st.exec.retired) && (st.access.yielded || st.access.retired)

/-- What becomes of a strand once a context has completed KEND, or yielded: retired, cancelled or pre-empted when the other
context is done as well (R37, R39, R242, R317). The strands of a spliced group leave together with those on their cluster. -/
def State.contextGone (s : State) (slot : Nat) : State :=
  match s.strand? slot with
  | none => s
  | some st =>
    let cancelled := fun (c : Context) => c.cancelled || (c.yielded && c.cancel.isSome)
    let a := st.exec
    let b := st.access
    if a.retired && b.retired then s.endStrand slot 0 0 none
    else if (cancelled a || cancelled b) && (cancelled a || a.retired) && (cancelled b || b.retired) then
      if ((s.launch? st.launch).map (·.aborted)).getD false then s.endStrand slot 3 0 none
      else s.endStrand slot 2 0x11 none
    else if !st.idle then s
    else
      match st.group with
      | none => s.enterPreempted slot
      | some (gid, _) =>
        let members := (s.clusterStrands (clusterOf slot)).filter (fun p => (p.2.group.map (·.1)) == some gid && p.2.life == .running)
        if members.all (fun p => p.2.idle) then members.foldl (fun (s : State) (p : Nat × Strand) => s.enterPreempted p.1) s else s

/-- The engine commands of a strand that are not complete (R240, R257). -/
def State.commandsOfStrand (s : State) (st : Strand) : List EngineCmd := s.engines.filter (fun c => st.owns c.owner)

/-- The execute context's KEND opens the gate of its strand's output (R279). -/
def State.kendGate (s : State) (st : Strand) : State :=
  match st.group with
  | none => s
  | some (gid, place) =>
    match lookup s.groups gid with
    | none => s
    | some g => { s with groups := insertKey s.groups gid (g.openGate place st.vcluster) }

/-- A context has completed KEND. Its shadows go with it, but for those its commands in flight may still publish (R113); errors
of commands that the access context has not raised go to the execute context (R258). -/
def State.kendDone (s : State) (slot : Nat) (id : CtxId) : State :=
  match s.strand? slot with
  | none => s
  | some st =>
    let c := st.ctx id
    let st1 := if id = .access then { st with exec := { st.exec with engineErrors := st.exec.engineErrors ++ c.engineErrors } } else st
    let s0 := if id = .execute then s.kendGate st else s
    let s1 := s0.setStrand slot (st1.setCtx id { (c.advance (c.pc + 8)) with retired := true, engineErrors := [] })
    let mine := (st.launch, st.ordinal, id)
    let s2 := if (s1.commandsOf st id).isEmpty then s1.dropOwners (fun o => o == mine) else s1
    s2.contextGone slot

/-- The execute context's KEND has nothing left to wait for, and no fault is owed (R240, R258, R309). -/
def State.drained (s : State) (slot : Nat) (st : Strand) : Bool :=
  st.fault.isNone && st.exec.engineErrors.isEmpty && st.vq.isEmpty && ((s.cluster (clusterOf slot)).matrixOf slot).isEmpty && (s.commandsOfStrand st).isEmpty

/-- The context waits at a KEND already. -/
def Context.inKend (c : Context) : Bool :=
  match c.wait with
  | some w => w.kind == .kend
  | none => false

/-- KEND (R240, R242). -/
def execKend (f : YsF) (s : State) : Out :=
  s.issue (.kend f) ysForm [] (fun e =>
    if e.ctx = .access then .instead (s.kendDone e.slot .access)
    else
      match (if e.c.inKend then none else s.takeRequest e.slot .execute true) with
      | some t => .instead t
      | none => if s.drained e.slot e.st && !s.acksOwed then .instead (s.kendDone e.slot .execute) else .wait .kend s)

/-! ## Cancellation points (R242, R243, R279) -/

/-- CANPT (R242). -/
def execCanpt (f : YsF) (s : State) : Out :=
  s.issue (.canpt f) ysForm [] (fun e =>
    match s.takeRequest e.slot e.ctx true with
    | some t => .instead t
    | none => .done s)

/-- The first strip and the count of a member's share on a virtual cluster. -/
def SpliceGroup.share (g : SpliceGroup) (place vcluster : Nat) : Nat × Nat := (g.shares.getD place []).getD vcluster (0, 0)

/-- One strip finished by a member: the consumer counts it, and the producer opens its gate by one (R279). -/
def SpliceGroup.count (g : SpliceGroup) (place vcluster : Nat) : SpliceGroup :=
  { g with runs := g.runs.map (fun (r : PairRun) =>
      match g.pairs[r.place]? with
      | none => r
      | some p =>
        if r.vcluster ≠ vcluster then r
        else if p.producer = place then { r with gate := r.gate + 1 }
        else if p.consumer = place then { r with consumed := r.consumed + 1 }
        else r) }

/-- The region of a producer's next local strip is still owned by a strip that an unfinished strip of the consumer needs
(R279). -/
def SpliceGroup.regionHeld (g : SpliceGroup) (place vcluster : Nat) : Bool :=
  g.runs.any (fun (r : PairRun) =>
    match g.pairs[r.place]? with
    | none => false
    | some p =>
      let share := p.shares.getD vcluster (0, 0)
      let theirs := g.share p.consumer vcluster
      r.vcluster == vcluster && p.producer == place && decide (r.gate < share.2) && decide (p.window ≤ r.gate) &&
        (List.range (theirs.2 - r.consumed)).any (fun j =>
          (p.needs.getD (theirs.1 + r.consumed + j) []).contains (share.1 + r.gate - p.window)))

/-- SPLPT completes: the strand is in its next strip (R279). -/
def State.splptDone (s : State) (e : Env) : Act :=
  .done (s.updStrand e.slot (fun st => { st with splpts := st.splpts + 1, counted := false }))

/-- SPLPT of a member of a spliced group in its execute context, after its requests (R279). -/
def State.stripBoundary (s : State) (e : Env) (gid place : Nat) : Act :=
  match lookup s.groups gid with
  | none => s.splptDone e
  | some g =>
    let st := e.st
    if !(st.vq.isEmpty && ((s.cluster (clusterOf e.slot)).matrixOf e.slot).isEmpty) then .wait .region s
    else if (g.share place st.vcluster).2 ≤ st.splpts then .done s
    else
      let s1 := if st.counted then s
        else ({ s with groups := insertKey s.groups gid (g.count place st.vcluster) }).updStrand e.slot
          (fun st => { st with counted := true })
      if ((lookup s1.groups gid).getD g).regionHeld place st.vcluster then .wait .region s1 else s1.splptDone e

/-- SPLPT (R242, R243, R279). -/
def execSplpt (f : YsF) (s : State) : Out :=
  s.issue (.splpt f) ysForm [] (fun e =>
    match s.takeRequest e.slot e.ctx true with
    | some t => .instead t
    | none =>
      if e.ctx = .access then .done s
      else
        match e.st.group with
        | some (gid, place) => s.stripBoundary e gid place
        | none => s.splptDone e)

/-! ## Watermarks (R115, R244) -/

/-- The watermark binding an instruction names. -/
def Env.watermark (e : Env) (f : YsF) : WmBinding := e.st.watermarks[(bits f.gd 0 3).toNat]'(by omega)

/-- WMPUB (R115, R244). -/
def execWmpub (f : YsF) (s : State) : Out :=
  s.issue (.wmpub f) ysForm [f.ga] (fun e =>
    let b := e.watermark f
    let va := b.word.toNat
    if b.word = 0 then refuse s
    else if s.heldBack e (some (scopeField f)) then .wait .drain s
    else
      (s.atomicPlace e va 8).sync e s 0 (fun p =>
        let old := leNat (s.homeBytes p 8)
        let new := max old (e.reg f.ga).toNat
        if new = old then .done (s.seen (clusterOf e.slot) p (leBytes 8 old))
        else .done (s.putBytes (clusterOf e.slot) p (leBytes 8 new))))

/-- WMWAIT: the limit passes only while the word is still below the value (R244). -/
def execWmwait (f : YsF) (s : State) : Out :=
  s.issue (.wmwait f) ysImmForm [f.ga] (fun e =>
    let b := e.watermark f
    let limit := 1024 * (if e.ysImm f.imm = 0 then b.limit else (e.ysImm f.imm).toNat)
    if b.word = 0 then refuse s
    else if s.heldBack e none then .wait .drain s
    else
      (s.loadVA e.agent e.st e.st.strip (e.accessKind .load) b.word.toNat 8 (fun _ => false) false).sync e s 0 (fun r =>
        if (e.reg f.ga).toNat ≤ leNat r.1 then .done (r.2.acquires e (scopeField f))
        else
          let kind : Wait := .watermark (bits f.gd 0 3).toNat limit
          let expired := match e.c.wait with
            | some w => w.kind == kind && decide (0 < limit) && decide (limit ≤ s.now - w.since)
            | none => false
          if expired then .trap .watermarkTimeout (zext (bits f.gd 0 3)) s else .wait kind s))

/-! ## Barrier objects (R245, R246) -/

/-- Bytes of a structure replaced from an offset upward. -/
def putField (bs : List Byte) (off : Nat) (new : List Byte) : List Byte :=
  bs.take off ++ new ++ bs.drop (off + new.length)

/-- An object with EXPECTED 0 or a reserved byte that is not zero (R246). -/
def badObject (bs : List Byte) : Bool :=
  fieldLE bs 8 4 == 0 || !zeroBytes bs 4 3 || fieldLE bs 7 1 % 128 != 0 || !zeroBytes bs 12 4 || !zeroBytes bs 19 5 ||
    !zeroBytes bs 32 32

/-- The phase bit of an object. -/
def objectPhase (bs : List Byte) : Nat := fieldLE bs 7 1 / 128

/-- The object after an arrival (R246). -/
def arrive (bs : List Byte) : List Byte :=
  let a := fieldLE bs 0 4 + 1
  if fieldLE bs 8 4 ≤ a then putField (putField bs 0 (leBytes 4 0)) 7 (leBytes 1 (128 * (1 - objectPhase bs)))
  else putField bs 0 (leBytes 4 a)

/-- BARRIVE (R246). -/
def execBarrive (f : YsF) (s : State) : Out :=
  s.issue (.barrive f) ysForm [f.gd, f.ga] (fun e =>
    let va := (e.reg f.ga).toNat
    if va % 64 ≠ 0 then .trap .misaligned (e.reg f.ga) s
    else if s.heldBack e (some (scopeField f)) then .wait .drain s
    else
      (s.atomicPlace e va 64).sync e s f.gd (fun p =>
        let bs := s.homeBytes p 64
        if badObject bs then .trap .protection (e.reg f.ga) s
        else
          let new := (arrive bs).take 8
          let s1 := s.putBytes (clusterOf e.slot) p new
          .done (s1.setReg e f.gd (BitVec.ofNat 64 (objectPhase bs)))))

/-- The bytes of a structure of n bytes, a multiple of 8, read as doubleword loads of the context at their home. -/
def State.readObject (s : State) (e : Env) (va n : Nat) : Res (List Byte) :=
  (List.range (n / 8)).foldl (fun (acc : Res (List Byte)) (j : Nat) =>
    acc.bind (fun bs =>
      (s.loadVA e.agent e.st e.st.strip (e.accessKind .load) ((va + 8 * j) % 2 ^ 64) 8 (fun _ => false) false).map
        (fun r => bs ++ r.1))) (.ok [])

/-- BARWAIT (R246). -/
def execBarwait (f : YsF) (s : State) : Out :=
  s.issue (.barwait f) ysForm [f.ga, f.gb] (fun e =>
    let va := (e.reg f.ga).toNat
    if va % 64 ≠ 0 then .trap .misaligned (e.reg f.ga) s
    else if s.heldBack e none then .wait .drain s
    else
      (s.readObject e va 64).sync e s 0 (fun bs =>
        if badObject bs then .trap .protection (e.reg f.ga) s
        else if objectPhase bs ≠ (e.reg f.gb).toNat % 2 then .done ((s.noteRead e.agent va 64).acquires e (scopeField f))
        else .wait .barrier s))

/-! ## Dependency counters (R247, R248, R287) -/

/-- The partition of a strand's launch. -/
def State.partOf (s : State) (st : Strand) : Nat := ((s.launch? st.launch).map (·.part)).getD 0

/-- The graph and the task an identifier names, where DEPINIT and DEPDEC accept it (R247). -/
def State.taskNamed (s : State) (st : Strand) (x : Word) : Option (Nat × Graph × Nat × Task) :=
  let key := s.partOf st * 65536 + (bits x 48 16).toNat
  let t := (bits x 0 16).toNat
  if bits x 16 32 ≠ 0 then none
  else
    match lookup s.graphs key with
    | none => none
    | some g => (g.tasks[t]?).map (fun task => (key, g, t, task))

/-- A task's place in the ready queue: by level, then by number (R247). -/
def insertReady (tasks : List Task) (t : Nat) : List Nat → List Nat
  | [] => [t]
  | u :: rest =>
    let level := fun (n : Nat) => ((tasks[n]?).map (·.level)).getD 0
    if level t < level u ∨ (level t = level u ∧ t < u) then t :: u :: rest else u :: insertReady tasks t rest

/-- A task's release as a decision of its partition (R368). -/
def Graph.release (g : Graph) (t : Nat) : List (Nat × Nat × Nat × List Nat) := [(recRelease, g.queue, g.seq, [t])]

/-- Setting a task's counter has to wait for its turn in a replay: it releases the task (R369). -/
def State.releaseEarly (s : State) (g : Graph) (t : Nat) (task : Task) (n : Nat) : Bool :=
  n == 0 && !task.released && !s.inTurn g.part (g.release t)

/-- A task's counter set; at 0, unless it is released already, the task is released (R247, R339). -/
def State.setCounter (s : State) (key : Nat) (g : Graph) (t : Nat) (task : Task) (n : Nat) : State :=
  let release := n = 0 ∧ !task.released
  let tasks := g.tasks.set t { task with counter := n, released := task.released || n == 0 }
  if release then
    { (s.decided g.part (g.release t)).report g.queue with
      graphs := insertKey s.graphs key { g with tasks, ready := insertReady tasks t g.ready } }
  else { s with graphs := insertKey s.graphs key { g with tasks } }

/-- DEPINIT (R247). -/
def execDepinit (f : YsF) (s : State) : Out :=
  s.issue (.depinit f) ysForm [f.ga, f.gb] (fun e =>
    match s.taskNamed e.st (e.reg f.ga) with
    | none => refuse s
    | some (key, g, t, task) =>
      if task.released || decide (65535 < (e.reg f.gb).toNat) then refuse s
      else if s.heldBack e (some (scopeField f)) || s.releaseEarly g t task (e.reg f.gb).toNat then .wait .drain s
      else .done (s.setCounter key g t task (e.reg f.gb).toNat))

/-- A DEPDEC that comes after this one has reached the counter in this cycle: this one reaches it in another (R248). -/
def decBefore (task : Task) (now key : Nat) : Bool :=
  match task.lastDec with
  | some (t, k) => t == now && decide (key < k)
  | none => false

/-- DEPDEC (R247, R248). -/
def execDepdec (f : YsF) (s : State) : Out :=
  s.issue (.depdec f) ysForm [f.gd, f.ga] (fun e =>
    match s.taskNamed e.st (e.reg f.ga) with
    | none => refuse s
    | some (key, g, t, task) =>
      if s.heldBack e (some (scopeField f)) || decBefore task s.now (turnKey e.slot e.ctx) then .wait .drain s
      else if task.counter = 0 then .trap .depUnderflow (e.reg f.ga) s
      else if s.releaseEarly g t task (task.counter - 1) then .wait .drain s
      else .done ((s.setCounter key g t { task with lastDec := some (s.now, turnKey e.slot e.ctx) } (task.counter - 1)).setReg e f.gd (BitVec.ofNat 64 (task.counter - 1))))

/-! ## Sibling groups (R250 to R254, R290) -/

/-- The reading strand's sibling index, its group's number, the group and its own entry. -/
def State.siblingOf (s : State) (st : Strand) : Option (Nat × Nat × SibGroup × Sibling) :=
  match st.sibling with
  | none => none
  | some (index, gid) =>
    match lookup s.sibgroups gid with
    | none => none
    | some g => (g.siblings[index]?).map (fun x => (index, gid, g, x))

/-- A post handled: the result, and the state after it; the cancel requests of a quorum are sent at the end of the cycle (R251, R252,
R290). -/
def State.handlePost (s : State) (index gid : Nat) (g : SibGroup) (x : Sibling) (hash : Word) : Nat × State :=
  let post := some (hash, g.arrivals)
  let g : SibGroup := { g with lastPost := some (s.now, index) }
  if g.state ≠ .open_ then
    let x' : Sibling := { x with post, status := 4 }
    let g' : SibGroup := { g with siblings := g.siblings.set index x', arrivals := g.arrivals + 1 }
    (2, { s with sibgroups := insertKey s.sibgroups gid g' })
  else
    let g' : SibGroup := { g with siblings := g.siblings.set index { x with post, status := 7 }, arrivals := g.arrivals + 1 }
    let s1 : State := { s with sibgroups := insertKey s.sibgroups gid g' }
    if g'.count hash = g.quorum then (1, s1.decideGroup gid { g' with cancelsDue := true } .quorum index hash)
    else (0, s1.settle gid)

/-- A post as a decision of its partition (R368). -/
def State.postDecision (s : State) (st : Strand) (index : Nat) (hash : Word) : Nat × List (Nat × Nat × Nat × List Nat) :=
  match s.launch? st.launch with
  | some l => (l.part, [(recPost, l.queue, l.seq, [index, hash.toNat])])
  | none => (0, [])

/-- An SBPOST of a sibling has issued, in another context, and has not been handled (R251, R254). -/
def State.posting (s : State) (e : Env) (index gid : Nat) : Bool :=
  s.strands.any (fun p => p.2.sibling == some (index, gid) && [CtxId.execute, .access].any (fun id =>
    !(p.1 == e.slot && id == e.ctx) &&
      (match (p.2.ctx id).wait with
       | some { kind := .drain, instr := some (.sbpost _), .. } => true
       | _ => false)))

/-- A post of a sibling that comes after this one has been handled in this cycle: this one arrives in another (R251). -/
def SibGroup.postBefore (g : SibGroup) (now index : Nat) : Bool :=
  match g.lastPost with
  | some (t, i) => t == now && decide (index < i)
  | none => false

/-- SBPOST (R251, R252, R369). -/
def execSbpost (f : YsF) (s : State) : Out :=
  s.issue (.sbpost f) ysForm [f.gd, f.ga] (fun e =>
    match s.siblingOf e.st with
    | none => refuse s
    | some (index, gid, g, x) =>
      if x.post.isSome || x.left || s.posting e index gid then refuse s
      else if s.heldBack e (some 5) || g.postBefore s.now index then .wait .drain s
      else if !s.inTurn (s.postDecision e.st index (e.reg f.ga)).1 (s.postDecision e.st index (e.reg f.ga)).2 then .wait .drain s
      else
        let d := s.postDecision e.st index (e.reg f.ga)
        let r := (s.decided d.1 d.2).handlePost index gid g x (e.reg f.ga)
        .done (r.2.setReg e f.gd (BitVec.ofNat 64 r.1)))

/-- SBSTAT (R253). -/
def execSbstat (f : YsF) (s : State) : Out :=
  s.issue (.sbstat f) ysForm [f.gd] (fun e =>
    match s.siblingOf e.st with
    | none => refuse s
    | some (_, _, g, x) => .done (s.setReg e f.gd (if bits f.fn7 0 2 = 0 then g.word x.status else g.winHash)))

/-- SBLEAVE (R254, R290). -/
def execSbleave (f : YsF) (s : State) : Out :=
  s.issue (.sbleave f) ysForm [] (fun e =>
    match s.siblingOf e.st with
    | none => refuse s
    | some (index, gid, g, x) =>
      if x.post.isSome || x.left then .done s
      else if s.posting e index gid then .wait .drain s
      else
        let g' : SibGroup := { g with siblings := g.siblings.set index { x with left := true, status := 6 } }
        .done (({ s with sibgroups := insertKey s.sibgroups gid g' }).settle gid))

/-! ## SVFENCE, SYSCALL, BREAK, WSINFO -/

/-- SVFENCE (R108). DESIGN CHOICE: in a handler, instructions that the frame holds frozen have left the VQ (log 115). -/
def execSvfence (f : YsF) (s : State) : Out :=
  s.issue (.svfence f) { words := 2, imx := .refused, mattr := .refused, priv := false } [] (fun e =>
    if e.ctx = .execute ∧ !(e.st.vq.isEmpty && (s.matrixWork e.slot).isEmpty) then .wait .drain s else .done s)

/-- SYSCALL (R267). -/
def execSyscall (f : YsF) (s : State) : Out :=
  s.issue (.syscall f) ysImmForm [] (fun e => .trap .systemCall (e.ysImm f.imm) s)

/-- BREAK (R267). -/
def execBrk (f : YsF) (s : State) : Out :=
  s.issue (.brk f) ysImmForm [] (fun e => .trap .breakpoint (e.ysImm f.imm) s)

/-- The WSINFO word of a binding (R266). -/
def State.wsInfo (s : State) (b : WsBinding) : Word :=
  match lookup s.regions b.region with
  | none => 0
  | some r =>
    BitVec.ofNat 64 (2 ^ 63 + (if r.place = 2 then 2 ^ 62 else 0) + (if r.place = 1 then 2 ^ 61 else 0) +
      (r.offset + b.slot * r.stride) % 2 ^ 30)

/-- WSINFO (R266). -/
def execWsinfo (f : YsF) (s : State) : Out :=
  s.issue (.wsinfo f) ysForm [f.gd, f.ga] (fun e =>
    let n := (e.reg f.ga).toNat
    let x := if 15 < n then 0 else ((e.st.wsBindings[n]?).map s.wsInfo).getD 0
    .done (s.setReg e f.gd x))

/-! ## The ends of waits -/

/-- The context of the turn goes on with the instruction that waits in it, if its wait is of a kind and `run` runs it; what
is taken at the boundary comes first. -/
def State.wake (s : State) (kind : Wait → Bool) (run : Instr → Option (State → Out)) : Out :=
  match s.strand? s.cur.slot with
  | none => .next s
  | some st =>
    match (st.ctx s.cur.ctx).wait with
    | none => .next s
    | some w =>
      if !(kind w.kind && st.issues s.cur.ctx) then .next s
      else
        match s.boundary s.cur.slot s.cur.ctx with
        | some t => .next t
        | none =>
          match w.instr.bind run with
          | some f => f s
          | none => .next s

/-- QUEUE_WAIT_END (R14, R32). -/
def execQueueWaitEnd (s : State) : Out :=
  s.wake (fun w => match w with
    | .queue _ => true
    | _ => false) (fun i => match i with
    | .qpush a q => some (execQpush a q)
    | .qpop d q => some (execQpop d q)
    | .bq q off => some (execBq q off)
    | _ => none)

/-- A WMWAIT goes on, if it has a limit that has passed, or in any case. -/
def State.wakeWatermark (s : State) (limited : Bool) : Out :=
  s.wake (fun w => match w with
    | .watermark _ limit => !limited || decide (0 < limit)
    | _ => false) (fun i => match i with
    | .wmwait f => some (execWmwait f)
    | _ => none)

/-- WATERMARK_WAKE (R244). -/
def execWatermarkWake (s : State) : Out := s.wakeWatermark false

/-- BARWAIT_WAKE (R246). -/
def execBarwaitWake (s : State) : Out :=
  s.wake (fun w => w == .barrier) (fun i => match i with
    | .barwait f => some (execBarwait f)
    | _ => none)

/-- KEND_RETIRE: the execute KEND of the turn's slot goes on (R240). -/
def execKendRetire (s : State) : Out :=
  ({ s with cur := { s.cur with ctx := .execute } }).wake (fun w => w == Wait.kend) (fun i => match i with
    | .kend f => some (execKend f)
    | _ => none)

/-- SPLICE_REGION_FREE: an SPLPT of the turn's slot goes on (R279). -/
def execSpliceRegionFree (s : State) : Out :=
  ({ s with cur := { s.cur with ctx := .execute } }).wake (fun w => w == Wait.region) (fun i => match i with
    | .splpt f => some (execSplpt f)
    | _ => none)

/-- The scalar load that waits at a gate (R278). -/
def gatedScalar (i : Instr) : Option (State → Out) :=
  match i with
  | .ldb d a off => some (execLdb d a off)
  | .ldh d a off => some (execLdh d a off)
  | .ldw d a off => some (execLdw d a off)
  | .ldd d a off => some (execLdd d a off)
  | .ldbu d a off => some (execLdbu d a off)
  | .ldhu d a off => some (execLdhu d a off)
  | .ldwu d a off => some (execLdwu d a off)
  | .lda d a scope off => some (execLda d a scope off)
  | _ => none

/-- SPLICE_GATE_PROCEED: a scalar load that waits at a gate goes on; one in the lanes goes on as its entry starts (R278). -/
def execSpliceGateProceed (s : State) : Out := s.wake (fun w => w == .gate) gatedScalar

end Sys2Proof.Machine
end

