-- ==== Sys2Proof/Machine/Entries.lean ====
section
/-!
DEFINITION. Machine/Entries.lean: the work behind the execute context: VQ entries as they start and leave (R17, R23, R24,
R32), repartition (R24, R25, R167), binding and unbinding of streams (R209, R214), the matrix queue (R18, R218, R219),
results on their way to scalar registers (R19), and the stream units (R78, R211, R212).
-/
namespace Sys2Proof.Machine

/-! ## When an entry may start -/

/-- An element of a list changed. -/
def modifyAt {α : Type} (f : α → α) : Nat → List α → List α
  | _, [] => []
  | 0, x :: rest => f x :: rest
  | n + 1, x :: rest => x :: modifyAt f n rest

/-- A VQ entry changed. -/
def Strand.updEntry (st : Strand) (k : Nat) (f : VqEntry → VqEntry) : Strand := { st with vq := modifyAt f k st.vq }

/-- The entry that starts next: the first that is not complete (R17). DESIGN CHOICE: VX memory instructions whose cells R116 does not
keep are so performed whole, one after another in commit order (log 116). -/
def Strand.nextEntry (st : Strand) : Option (Nat × VqEntry) :=
  (st.vq.findIdx? (fun e => e.progress != .done)).bind (fun k => (st.vq[k]?).map (fun e => (k, e)))

/-- Registers an instruction pops into (R78). -/
def VqEntry.popped (e : VqEntry) : List Nat := e.claims.map (·.reg)

/-- An entry waits for an earlier matrix-queue instruction of its strand: for the registers it has still to read or write
(R219), for a tile (R80), for the stream slots it uses, and, when it accesses memory, for its memory accesses, whether or not
their bytes overlap (R116, log 12). -/
def State.behindMatrix (s : State) (slot : Nat) (st : Strand) (e : VqEntry) : Bool :=
  let p := plan e.instr e.tags e.g
  let written := p.writes ++ e.popped
  let accesses := fun (x : VqEntry) (px : Plan) => isVectorMemory x.instr || overlaps px.writes st.outputRegs
  (s.matrixWork slot).any (fun q =>
    let pq := plan q.instr q.tags q.g
    overlaps pq.reads written || overlaps (pq.writes ++ q.popped) (p.reads ++ written) ||
      overlaps pq.tileWrite.toList p.tiles || overlaps p.tileWrite.toList pq.tiles ||
      ((slotNamed e.instr).isSome && (!q.claims.isEmpty || overlaps pq.writes st.outputRegs)) ||
      (accesses e p && accesses q pq))

/-- An entry at a place in its VQ may start (R18, R23, R24, R311, R316), or go on once it has started (R255). -/
def State.mayStart (s : State) (slot : Nat) (st : Strand) (k : Nat) (e : VqEntry) : Bool :=
  st.life == .running && st.fault.isNone && (e.progress == .waiting ||
    st.ending.isNone && !st.startsNone s.now && !isMatrixQueue e.instr &&
    (if isRepartition e.instr then k == 0 else decide (0 < (s.lanes slot).2)) &&
    ((s.cluster (clusterOf slot)).repartition.isNone || e.marked) && !s.behindMatrix slot st e)

/-! ## How performing an entry ends -/

/-- A fault charged to an entry, to be taken as an imprecise trap (R20, R309). -/
def VqEntry.fault (e : VqEntry) (cause : Cause) (tval : Word) (element : Nat) : ImpreciseFault :=
  { cause, tval, pc := e.pc, strip := e.strip, element }

/-- A strand ended because the producer it waits for has ended (R283). -/
def State.endByPartner (s : State) (slot : Nat) (st : Strand) (e : VqEntry) : State :=
  s.endStrand slot 2 0x11 (some {
    kernelId := st.kernelId, strip := e.strip, pc := e.pc, element := st.vstart.toNat, cause := 0x11
    spliced := true, byPartner := true })

/-- An entry that is complete. -/
def VqEntry.finished (e : VqEntry) : VqEntry := { e.frozen with progress := .done, element := none }

/-- An entry in which a fault has been detected, and the element it begins again at. -/
def VqEntry.faulted (e : VqEntry) (element : Nat) : VqEntry := { e.frozen with element := some element }

/-- What performing the entry at a place of the VQ came to (R32, R74, R311). A fault is detected only once the strand's
earlier matrix work is complete, and not at all when the strand ends meanwhile (R255). No repartition changes VSTART (R23). -/
def State.settleEntry (s : State) (slot : Nat) (st : Strand) (k : Nat) (e : VqEntry) : Perf → Out
  | .done s1 =>
    .next ((s1.updStrand slot (fun st =>
      let st1 := st.updEntry k VqEntry.finished
      if isRepartition e.instr then st1 else { st1 with vstart := 0 })).finishEnd slot)
  | .fault cause tval element s1 =>
    if st.ending.isSome then .next ((s1.updStrand slot (fun st => st.updEntry k VqEntry.finished)).finishEnd slot)
    else if (s.matrixWork slot).isEmpty then
      .next (s1.updStrand slot (fun st =>
        { st.updEntry k (fun x => x.faulted element) with
          vstart := BitVec.ofNat 13 element, fault := some (e.fault cause tval element) }))
    else .next s
  | .hold s1 =>
    .next (s1.updStrand slot (fun st => st.updEntry k (fun x =>
      { x with progress := .gated, since := if e.progress = .gated then e.since else s.now })))
  | .park a va intent s1 =>
    .next ((s1.startWalk a va intent).updStrand slot (fun st => st.updEntry k (fun x =>
      { x with progress := .waiting, element := some st.vstart.toNat })))
  | .part element s1 =>
    .next (s1.updStrand slot (fun st => st.updEntry k (fun x => { x with progress := .waiting, element := some element })))
  | .again s1 => .next s1
  | .partner s1 => .next (s1.endByPartner slot st e)
  | .halt f => .fault f

/-! ## Repartition (R24, R25) -/

/-- The mode a VPART or VJOIN asks for (R24, R167). -/
def partMode (i : Instr) : BitVec 2 :=
  match i with
  | .vpart f => bits f.imm 0 2
  | _ => 0

/-- Entries marked *before*, up to the first VPART or VJOIN (R24). -/
def markBefore : List VqEntry → List VqEntry
  | [] => []
  | e :: rest => if isRepartition e.instr then e :: rest else { e with marked := true } :: markBefore rest

/-- A repartition starts: the instructions present in the VQs of the other strands that own lanes are marked. What has passed
into the matrix queue has left its VQ and is not marked (R24, log 53). -/
def State.startRepartition (s : State) (slot : Nat) (mode : BitVec 2) : State :=
  let k := clusterOf slot
  let c := s.cluster k
  let others := fun (p : Nat × Strand) =>
    clusterOf p.1 == k && p.1 != slot && decide (0 < (lanesOf c.mode (p.1 % 4)).2)
  { s with
    strands := s.strands.map (fun p => if others p then (p.1, { p.2 with vq := markBefore p.2.vq }) else p)
    clusters := insertKey s.clusters k { c with repartition := some { by_ := slot % 4, mode } } }

/-- An instruction marked *before* that is not complete. -/
def VqEntry.before (e : VqEntry) : Bool := e.marked && e.progress != .done

/-- The instructions marked *before* in a cluster are all complete (R24). -/
def State.beforeDone (s : State) (k : Nat) : Bool :=
  (s.clusterStrands k).all (fun p =>
    !p.2.vq.any VqEntry.before &&
      (match p.2.frame with
       | some f => !(f.queued ++ f.matrix).any VqEntry.before
       | none => true)) &&
    !(s.cluster k).mq.any (fun q => q.entry.before)

/-- A repartition of a cluster takes effect if it may: the new mode is in force, and the VPART or VJOIN, which has stood at the
head of its VQ, completes (R24). -/
def State.repartitionEffect (s : State) (k : Nat) : State :=
  let c := s.cluster k
  match c.repartition with
  | none => s
  | some r =>
    if s.beforeDone k then
      (s.setCluster k { c with mode := r.mode, repartition := none }).updStrand (4 * k + r.by_) (fun st =>
        if (st.vq.head?.map (fun e => isRepartition e.instr)).getD false then st.updEntry 0 VqEntry.finished else st)
    else s

/-- A VPART or VJOIN stands at the head of a strand's VQ and may start. -/
def State.mayRepartition (s : State) (slot : Nat) (st : Strand) : Bool :=
  match st.vq with
  | e :: _ => isRepartition e.instr && s.mayStart slot st 0 e
  | [] => false

/-- Those of strands that reach their heads in one cycle are taken in ascending strand order: one waits for a lower-numbered
strand's that stands at its head, and for the next cycle once a higher-numbered strand's has been taken in this one (R24). -/
def State.partTurn (s : State) (slot : Nat) : Bool :=
  (s.clusterStrands (clusterOf slot)).all (fun p => decide (slot ≤ p.1) || !s.mayRepartition p.1 p.2) &&
    (match (s.cluster (clusterOf slot)).lastPart with
     | some (at_, i) => at_ != s.now || decide (i ≤ slot % 4)
     | none => true)

/-- A VPART or VJOIN at the head of its VQ, in its turn; it takes effect at once when nothing is marked (R24, R25). -/
def State.repartition (s0 : State) (slot : Nat) (st : Strand) (e : VqEntry) : Out :=
  let k := clusterOf slot
  let s := s0.setCluster k { s0.cluster k with lastPart := some (s0.now, slot % 4) }
  let complete : Perf := .done s
  if !s.wholeCluster k then
    s.settleEntry slot st 0 e (.fault .protection (Config.freeTval s.draws) st.vstart.toNat s.drawn)
  else if (s.cluster k).mode = partMode e.instr then s.settleEntry slot st 0 e complete
  else .next ((s.startRepartition slot (partMode e.instr)).repartitionEffect k)

/-- REPARTITION_EFFECT: the new mode takes effect once the instructions marked *before* are complete (R24). -/
def execRepartitionEffect (s : State) : Out := .next (s.repartitionEffect (clusterOf s.cur.slot))

/-! ## Binding and unbinding (R209, R214) -/

/-- A register is bound in some slot. -/
def Strand.bound (st : Strand) (reg : Nat) : Bool :=
  st.streams.toList.any (fun o => (o.map (fun (x : Stream) => x.reg == reg)).getD false)

/-- Chunks of a slot that queued instructions have claimed. -/
def Strand.claimsOn (st : Strand) (k : Nat) : Nat :=
  ((st.vq.flatMap (·.claims)).filter (fun c => c.slot == k && (match c.kind with
    | .chunk _ => true
    | _ => false))).length

/-- The stream a VBIND binds: its snapshot, or, when it runs again after a fault, the descriptor read anew. -/
def State.bindStream (s : State) (slot : Nat) (st : Strand) (e : VqEntry) (f : VxM) : Res (Stream × Option (Cause × Word) × State) :=
  match e.bind, e.bindFault with
  | some x, b => .ok (x, b, s)
  | none, some b => .ok (streamOf [] f.vd.toNat 8 0 0 0, some b, s)
  | none, none =>
    (s.readDescriptor (agentOf slot st st.exec.priv (.lanes slot)) st (snapReg e.g f.gbase).toNat).map (fun p =>
      let b := bindOf p.1 f (tagWidth (tagAt e.tags f.vd.toNat)) e.vbypass
      ({ b.1 with claimed := st.claimsOn f.va.toNat, born := e.seq }, b.2, p.2))

/-- VBIND (R209): a fault leaves nothing bound, at commit or here. -/
def State.performBind (s : State) (slot : Nat) (st : Strand) (n : Nat) (e : VqEntry) (f : VxM) : Perf :=
  let k := f.va.toNat
  let unbound := fun (s : State) => s.updStrand slot (fun st => st.updEntry n (fun x => { x with bind := none, bindFault := none }))
  match s.bindStream slot st e f with
  | .ok (x, b, s1) =>
    match b with
    | some (cause, tval) => .fault cause tval st.vstart.toNat (unbound s1)
    | none =>
      if (st.stream k).isSome || st.bound f.vd.toNat then
        .fault .streamProtocol (slotTval k) st.vstart.toNat (unbound s1)
      else .done (s1.updStrand slot (fun st => st.setStream k (some x)))
  | r => r.perf (agentOf slot st st.exec.priv (.lanes slot)) s (unbound s) st.vstart.toNat

/-- VUNBIND (R214, R215). -/
def State.performUnbind (s : State) (slot : Nat) (f : VxM) : Perf :=
  .done (((s.abandon (.stream slot f.va.toNat)).updStrand slot (fun st => st.setStream f.va.toNat none)).sweepPages)

/-! ## The events of a VQ -/

/-- What the entry at a place of the VQ does when it is performed. -/
def State.performEntry (s : State) (slot : Nat) (st : Strand) (k : Nat) (e : VqEntry) : Perf :=
  match e.instr with
  | .vbind f => s.performBind slot st k e f
  | .vunbind f => s.performUnbind slot f
  | _ =>
    s.perform slot st e (fun e' st' => st'.updEntry k (fun _ => e'))
      (fun r => (((r.compute).or r.memory).or r.matrix).getD (.done r.s))

/-- VQ_ENTRY_START: the next entry of the turn's slot is performed (R17). -/
def execVqEntryStart (s : State) : Out :=
  let slot := s.cur.slot
  match s.strand? slot with
  | none => .next s
  | some st =>
    match st.nextEntry with
    | none => .next s
    | some (k, e) =>
      if !s.mayStart slot st k e then .next s
      else if isRepartition e.instr then if s.partTurn slot then s.repartition slot st e else .next s
      else s.settleEntry slot st k e (s.performEntry slot st k e)

/-- The gated load that waits in the lanes of a strand for its watermark has waited for its binding's limit: its place in the VQ,
its entry and the watermark. -/
def Strand.gatedTooLong (st : Strand) (now : Nat) : Option (Nat × VqEntry × Nat) :=
  match st.nextEntry with
  | none => none
  | some (k, e) =>
    match gateOf e.instr with
    | none => none
    | some w =>
      let limit := 1024 * ((st.watermarks.toList[w]?).map (·.limit)).getD 0
      if e.progress == .gated && !e.passed && e.claims.all (·.taken) && decide (0 < limit) && decide (limit ≤ now - e.since) then
        some (k, e, w)
      else none

/-- The entry at a place of the VQ has been let through its gate by a turn. -/
def State.hasPassed (s : State) (slot k : Nat) : Bool :=
  match s.strand? slot with
  | some st => ((st.vq[k]?).map (fun e => e.passed)).getD true
  | none => true

/-- WATERMARK_TIMEOUT: of the WMWAIT of the turn's context, or of the gated load at the head of its strand's lanes, which
reads its watermark once more and faults at its first element if it must still wait (R196, R244, R311). -/
def execWatermarkTimeout (s : State) : Out :=
  let slot := s.cur.slot
  match s.strand? slot with
  | none => .next s
  | some st =>
    match st.gatedTooLong s.now with
    | none => s.wakeWatermark true
    | some (k, e, w) =>
      if !s.mayStart slot st k e then .next s
      else
        match s.performEntry slot st k e with
        | .hold s1 =>
          s.settleEntry slot st k e
            (if s1.hasPassed slot k then .hold s1 else .fault .watermarkTimeout (BitVec.ofNat 64 w) st.vstart.toNat s1)
        | p => s.settleEntry slot st k e p

/-- VQ_ENTRY_COMPLETE: a head entry that is complete leaves (R17). -/
def execVqEntryComplete (s : State) : Out :=
  match s.strand? s.cur.slot with
  | none => .next s
  | some st =>
    match st.vq with
    | [] => .next s
    | e :: rest => s.when (e.progress == .done) (s.setStrand s.cur.slot { st with vq := rest })

/-- SYNC_READ_ARRIVAL: the oldest result arrives in its register, which stops being pending (R19). -/
def execSyncReadArrival (s : State) : Out :=
  match s.strand? s.cur.slot with
  | none => .next s
  | some st =>
    match st.reads with
    | [] => .next s
    | r :: rest =>
      .next (s.setStrand s.cur.slot { st with
        exec := st.exec.setReg (BitVec.ofNat 5 r.reg) r.value
        pending := st.pending.erase r.reg
        reads := rest })

/-! ## The matrix queue -/

/-- Entries the matrix queue holds (R18). -/
def mqDepth : Nat := 32

/-- MATRIX_QUEUE_MOVE: an MX instruction at the head of the VQ moves into the cluster's matrix queue, beside a repartition only
when it is marked *before* (R18, R23, R24, log 53). -/
def execMatrixQueueMove (s : State) : Out :=
  let slot := s.cur.slot
  let c := s.cluster (clusterOf slot)
  match s.strand? slot with
  | none => .next s
  | some st =>
    match st.vq with
    | [] => .next s
    | e :: rest =>
      s.when (isMatrixQueue e.instr && st.life == .running && st.fault.isNone && st.ending.isNone && !st.startsNone s.now &&
          decide (c.mq.length < mqDepth) && decide (0 < (s.lanes slot).2) && (c.repartition.isNone || e.marked))
        ((s.setStrand slot { st with vq := rest }).setCluster (clusterOf slot) { c with mq := c.mq ++ [{ slot, entry := e }] })

/-- The oldest entry of a slot in a matrix queue that is not complete: its place and the entry. -/
def Cluster.nextMatrix (c : Cluster) (slot : Nat) : Option (Nat × VqEntry) :=
  (c.mq.findIdx? (fun q => q.slot == slot && q.entry.progress != .done)).bind (fun k =>
    (c.mq[k]?).map (fun q => (k, q.entry)))

/-- A matrix-queue entry changed. -/
def Cluster.updMatrix (c : Cluster) (k : Nat) (f : VqEntry → VqEntry) : Cluster :=
  { c with mq := modifyAt (fun q => { q with entry := f q.entry }) k c.mq }

/-- A matrix-queue entry may start beside a repartition of its cluster: it is marked *before*, or one of its strand that is
marked stands behind it, or the queue is full and one that is marked waits to enter it, which could not complete otherwise
(R18, R24, log 53). -/
def State.beforePart (s : State) (slot : Nat) (st : Strand) (k : Nat) (e : VqEntry) : Bool :=
  let c := s.cluster (clusterOf slot)
  c.repartition.isNone || e.marked || st.vq.any VqEntry.before ||
    (c.mq.drop (k + 1)).any (fun q => q.slot == slot && q.entry.before) ||
    (decide (mqDepth ≤ c.mq.length) && (s.clusterStrands (clusterOf slot)).any (fun p =>
      (p.2.vq.head?.map (fun x => isMatrixQueue x.instr && x.before)).getD false))

/-- The matrix-queue entry of a slot that may start now, in a strand that owns lanes, or go on (R18, R23, R24, R255). -/
def State.readyMatrix (s : State) (slot : Nat) : Option (Strand × Nat × VqEntry) :=
  let c := s.cluster (clusterOf slot)
  match s.strand? slot, c.nextMatrix slot with
  | some st, some (k, e) =>
    if st.life == .running && st.fault.isNone && (e.progress == .waiting ||
        st.ending.isNone && !st.startsNone s.now && decide (0 < (s.lanes slot).2) && s.beforePart slot st k e) then
      some (st, k, e)
    else none
  | _, _ => none

/-- A cluster's state with a matrix-queue entry changed. -/
def State.updMatrix (s : State) (cluster k : Nat) (f : VqEntry → VqEntry) : State :=
  s.setCluster cluster ((s.cluster cluster).updMatrix k f)

/-- What performing a matrix-queue entry came to. An arithmetic trap is raised by an instruction that is complete (R232);
any other fault leaves VSTART as it stands (R221); none is detected while the strand ends (R255). -/
def settleMatrix (slot : Nat) (st : Strand) (k : Nat) (e : VqEntry) : Perf → Out
  | .done s1 => .next ((s1.updMatrix (clusterOf slot) k VqEntry.finished).finishEnd slot)
  | .fault cause tval element s1 =>
    if st.ending.isSome then .next ((s1.updMatrix (clusterOf slot) k VqEntry.finished).finishEnd slot)
    else
      let s2 := s1.updMatrix (clusterOf slot) k (fun x => if cause = .arithmetic then x.finished else x.faulted element)
      .next (s2.updStrand slot (fun st => { st with fault := some (e.fault cause tval element) }))
  | .hold s1 => .next (s1.updMatrix (clusterOf slot) k (fun x => { x with progress := .gated }))
  | .park a va intent s1 =>
    .next ((s1.startWalk a va intent).updMatrix (clusterOf slot) k (fun x =>
      { x with progress := .waiting, element := some st.vstart.toNat }))
  | .part element s1 =>
    .next (s1.updMatrix (clusterOf slot) k (fun x => { x with progress := .waiting, element := some element }))
  | .again s1 => .next s1
  | .partner s1 => .next (s1.endByPartner slot st e)
  | .halt f => .fault f

/-- The strand of a cluster, 0 to 3, whose instruction the array performs next: the one that has started, else round-robin (R18,
R218). -/
def State.nextForArray (s : State) (k : Nat) : Option (Nat × Strand × Nat × VqEntry) :=
  let c := s.cluster k
  let order := match c.mq.find? (fun q => q.entry.progress == .waiting) with
    | some q => [q.slot % 4]
    | none => (List.range 4).map (fun i => (c.mqNext + i) % 4)
  order.findSome? (fun i => (s.readyMatrix (4 * k + i)).map (fun x => (i, x)))

/-- MATRIX_QUEUE_START: the array of the turn's cluster performs the next instruction, or goes on with the one it performs (R18,
R218). -/
def execMatrixQueueStart (s : State) : Out :=
  let k := clusterOf s.cur.slot
  match s.nextForArray k with
  | none => .next s
  | some (i, st, n, e) =>
    let slot := 4 * k + i
    let s1 := s.setCluster k { s.cluster k with mqNext := (i + 1) % 4 }
    settleMatrix slot st n e
      (s1.perform slot st e (fun _ st' => st') (fun r =>
        (({ r with s := r.s.updMatrix k n (fun _ => r.e) } : Run).matrix).getD (.done r.s)))

/-- MATRIX_QUEUE_COMPLETE: a finished instruction of the turn's slot leaves the matrix queue (R218). -/
def execMatrixQueueComplete (s : State) : Out :=
  let k := clusterOf s.cur.slot
  let c := s.cluster k
  let done := fun (q : MqEntry) => q.slot == s.cur.slot && q.entry.progress == .done
  match c.mq.findIdx? done with
  | none => .next s
  | some i => .next (s.setCluster k { c with mq := c.mq.eraseIdx i })

/-! ## The stream units -/

/-- The elements of a list of addresses read for a stream by `read`: the values and the state after, or how the read ends. A
4-bit element is the nibble of its byte that is named. DESIGN CHOICE: any line may serve the reads (R91, log 102). -/
def State.streamRead (s : State) (x : Stream) (read : Nat → Nat → State → Res (List Byte × State)) (places : List (Nat × Bool)) :
    Res (List Word × State) :=
  places.foldl (fun (acc : Res (List Word × State)) (q : Nat × Bool) =>
    acc.bind (fun p =>
      let n := if x.width = 4 then 1 else x.width / 8
      if q.1 % n ≠ 0 then .fault .misaligned q.1
      else
        (read q.1 n p.2).map (fun r =>
          let v := leNat r.1
          (p.1 ++ [BitVec.ofNat 64 (if x.width = 4 then (if q.2 then v / 16 else v % 16) else v)], r.2)))) (.ok ([], s))

/-- How a stream unit's read ends: `put` stores what the stream becomes. A fault is kept for the instruction that would pop
the chunk (R216). -/
def State.streamEnd (s : State) (slot : Nat) (a : Agent) (st : Strand) (x : Stream) (put : Stream → Strand → Strand)
    (got : List Word → Stream) : Res (List Word × State) → Out
  | .ok (d, s1) => .next (s1.updStrand slot (put (got d)))
  | .fault c va =>
    .next ((s.updStrand slot (put { x with readFault := some (c, BitVec.ofNat 64 va) })).dropXlatFaults a.who)
  | .miss va intent => .next (s.startWalk a va intent)
  | .gated => .next s
  | .partnerEnded =>
    match st.nextEntry with
    | some (_, e) => .next (s.endByPartner slot st e)
    | none => .next s
  | .stop f => .fault f

/-- STREAM_PATTERN_READ: the next chunk of the input pattern of the turn's slot and unit is read ahead, while fewer than four
wait (R211, R215, R216). -/
def execStreamPatternRead (s : State) : Out :=
  let slot := s.cur.slot
  let k := s.cur.unit
  match s.strand? slot with
  | none => .next s
  | some st =>
    match st.stream k with
    | none => .next s
    | some x =>
      if x.output || x.source != .pattern || x.readFault.isSome || st.frame.isSome || st.life != .running ||
          decide (x.total ≤ x.arrived) || decide (4 ≤ x.chunks.length) then .next s
      else
        let a := agentOf slot st st.exec.priv (.stream slot k)
        let first := x.arrived * x.chunk
        let addresses := (List.range (min x.chunk (x.elements - first))).map (fun j => x.address (first + j))
        s.streamEnd slot a st x (fun y st => st.setStream k (some y))
          (fun d =>
            { x.pin a.asid addresses (fun page => x.lastUse page / x.chunk) with
              arrived := x.arrived + 1, chunks := x.chunks ++ [(x.arrived, d)] })
          (s.streamRead x (fun va n s => s.loadVA a st st.strip .load va n (fun _ => true) x.alloc)
            (addresses.map (fun va => (va, false))))

/-- The stream of a slot whose SFEEDs still have data to come, in the slot or in a VBIND not yet started, and how it is
replaced. -/
def Strand.fed (st : Strand) (k : Nat) : Option (Stream × (Stream → Strand → Strand)) :=
  match st.stream k with
  | some x =>
    if x.feeding.isEmpty then (st.committedStream k).map (fun y => (y, fun z (st : Strand) => st.setCommitted k z))
    else some (x, fun z (st : Strand) => st.setStream k (some z))
  | none => (st.committedStream k).map (fun y => (y, fun z (st : Strand) => st.setCommitted k z))

/-- n bytes read at an address of an SFEED, whose pages were translated and checked when it issued (R114, R212, R215). -/
def State.loadFed (s : State) (a : Agent) (st : Strand) (x : Stream) (pages : List HeldPage) (va n : Nat) :
    Res (List Byte × State) :=
  if s.readsElided st va n then .fault .elidedRead va
  else
    match s.route st st.strip .other va n with
    | .memory =>
      s.loadMemory { a with held := pages, priv := true, asid := (pages.head?.map (·.entry.asid)).getD a.asid } va n (fun _ => true)
        x.alloc
    | _ => .fault .protection va

/-- STREAM_CHUNK_ARRIVAL: the data of the oldest SFEED of the turn's slot and unit is read, and its chunk waits to be popped
(R78, R212). -/
def execStreamChunkArrival (s : State) : Out :=
  let slot := s.cur.slot
  let k := s.cur.unit
  match s.strand? slot with
  | none => .next s
  | some st =>
    match st.fed k with
    | none => .next s
    | some (x, put) =>
      match x.feeding with
      | [] => .next s
      | (va, c, pages) :: rest =>
        if x.readFault.isSome || st.life != .running then .next s
        else
          let a := agentOf slot st st.access.priv (.stream slot k)
          let places := (List.range c).map (fun (j : Nat) => ((va.toNat + j * x.width / 8) % 2 ^ 64, j % 2 == 1))
          s.streamEnd slot a st x put
            (fun d => { x with arrived := x.arrived + 1, chunks := x.chunks ++ [(x.arrived, d)], feeding := rest })
            (s.streamRead x (fun va n s => s.loadFed a st x pages va n) places)

/-- Pages that a span of n bytes touches, by their first byte that it touches. -/
def pagesOf (va n : Nat) : List Nat :=
  (List.range (if n = 0 then 0 else (va + n - 1) / 4096 - va / 4096 + 1)).map (fun i =>
    if i = 0 then va else ((va / 4096 + i) * 4096) % 2 ^ 64)

/-- The pages of a span translated for reading, without any being read (R212). -/
def State.translateSpan (s : State) (a : Agent) (va n : Nat) : Res (List HeldPage) :=
  collect (pagesOf va n) (fun p =>
    match s.resolve a p .load with
    | .ok _ => .ok (s.pageUsed a p)
    | .fault c => .fault c p
    | .miss => .miss p .load
    | .absent pa => .stop (.absentAddress pa))

/-- SFEED in the access context (R212, R215). -/
def State.feed (s : State) (e : Env) (f : VxM) : Act :=
  let k := f.va.toNat
  match e.st.committedStream k with
  | none => .trap .streamProtocol (slotTval k) s
  | some x =>
    if x.source != .sfeed || x.ended then .trap .streamProtocol (slotTval k) s
    else if 4 ≤ x.chunks.length + x.feeding.length then .wait (.feed k) s
    else
      let c := min (e.reg f.gl).toNat x.chunk
      let put := fun (y : Stream) => s.updStrand e.slot (fun (st : Strand) => st.setCommitted k y)
      if c = 0 then .done (put { x with ended := true })
      else
        let va := (e.reg f.gbase).toNat
        let n := ceilDiv (c * x.width) 8
        if x.width ≠ 4 ∧ va % (x.width / 8) ≠ 0 then .trap .misaligned (e.reg f.gbase) s
        else
          ((s.spanCheck e.st va n).bind (fun _ => s.translateSpan e.agent va n)).act e s (fun pages =>
            let number := x.arrived + x.feeding.length
            .done (put { x.pin e.st.asid.toNat (pagesOf va n) (fun _ => number) with feeding := x.feeding ++ [(e.reg f.gbase, c, pages)] }))

/-- SFEED: an access-context instruction; at the execute context's commit it raises 0x12 (R13, R16, R212). -/
def execSfeed (f : VxM) (s : State) : Out :=
  s.issue (.sfeed f) vectorForm [] (fun e =>
    if e.ctx = .access then s.feed e f
    else if e.st.frame.isSome then .trap .illegalInstruction (e.c.firstWord (.sfeed f)) s
    else if !e.c.ven then .trap .vectorFirstUse 0 s
    else .trap .streamProtocol (slotTval f.va.toNat) s)

end Sys2Proof.Machine
end

