-- ==== Sys2Proof/Machine/Engines.lean ====
section
/-!
DEFINITION. Machine/Engines.lean: the engine commands CPY, PUB, CRED, UPD, RINV, KVFILE and RQNT (R112 to R114, R257 to
R265, R335): their issue, and what each does when it ends, which is one step (log 29).
-/
namespace Sys2Proof.Machine

/-! ## Issue (R257) -/

/-- Commands a strand may have outstanding (R257). -/
def commandLimit : Nat := 16

/-- The command an instruction issues. -/
def Env.command (e : Env) (i : Instr) (f : YsF) (id : Nat) : EngineCmd where
  id := id
  slot := e.slot
  ctx := e.ctx
  pc := e.c.start
  instr := i
  desc := e.reg f.ga
  object := e.reg f.gb
  scope := scopeField f
  priv := e.c.priv
  asid := e.st.asid.toNat
  root := e.st.ptroot.toNat
  behind := if e.ctx = .execute then e.st.commits else 0
  strip := e.st.strip
  upTo := if e.ctx = .execute then e.st.commits else e.st.journal.foldl (fun (m : Nat) (j : JournalRecord) => max m (j.commit + 1)) 0
  owner := (e.st.launch, e.st.ordinal, e.ctx)
  stopped := false

/-- A command issues, unless its strand has as many outstanding as it may (R257). -/
def State.issueCommand (s : State) (i : Instr) (f : YsF) : Out :=
  s.issue i ysForm [f.ga, f.gb] (fun e =>
    if commandLimit ≤ (s.commandsOfStrand e.st).length then .wait .slots s
    else .done { s with engines := s.engines ++ [e.command i f s.nextCmd], nextCmd := s.nextCmd + 1 })

/-- CPY (R259). -/
def execCpy (f : YsF) (s : State) : Out := s.issueCommand (.cpy f) f
/-- PUB (R260). -/
def execPub (f : YsF) (s : State) : Out := s.issueCommand (.pub f) f
/-- CRED (R261). -/
def execCred (f : YsF) (s : State) : Out := s.issueCommand (.cred f) f
/-- UPD (R262). -/
def execUpd (f : YsF) (s : State) : Out := s.issueCommand (.upd f) f
/-- RINV (R263). -/
def execRinv (f : YsF) (s : State) : Out := s.issueCommand (.rinv f) f
/-- KVFILE (R264). -/
def execKvfile (f : YsF) (s : State) : Out := s.issueCommand (.kvfile f) f
/-- RQNT (R265). -/
def execRqnt (f : YsF) (s : State) : Out := s.issueCommand (.rqnt f) f

/-- The YS fields of a command. -/
def commandFields (i : Instr) : YsF :=
  match i with
  | .cpy f | .pub f | .cred f | .upd f | .rinv f | .kvfile f | .rqnt f => f
  | _ => { gd := 0, ga := 0, gb := 0, fn7 := 0, imm := 0 }

/-! ## Owners -/

/-- A strand is the one a command names as its owner. -/
def EngineCmd.ownedBy (c : EngineCmd) (st : Strand) : Bool := st.owns c.owner && st.life != .retired

/-- The slot and strand of a command's owner, where it is resident. -/
def State.residentOwner (s : State) (c : EngineCmd) : Option (Nat × Strand) := s.strands.find? (fun p => c.ownedBy p.2)

/-- The strand of a command's owner, resident or pre-empted (R317). -/
def State.ownerOf (s : State) (c : EngineCmd) : Option Strand :=
  match s.residentOwner c with
  | some p => some p.2
  | none => (s.launch? c.owner.1).bind (fun l => l.preempted.find? c.ownedBy)

/-- The owner's strand changed. -/
def State.updOwner (s : State) (c : EngineCmd) (f : Strand → Strand) : State :=
  match s.residentOwner c with
  | some p => s.setStrand p.1 (f p.2)
  | none =>
    match s.launch? c.owner.1 with
    | none => s
    | some l =>
      s.setLaunch c.owner.1 { l with preempted := l.preempted.map (fun st => if c.ownedBy st then f st else st) }

/-- Whom a command's accesses are made for (R258, R305). -/
def State.engineAgent (s : State) (c : EngineCmd) : Agent :=
  { slot := c.slot, cluster := clusterOf c.slot, asid := c.asid, root := c.root, priv := c.priv, who := .engine c.id
    ws := ((s.ownerOf c).map (·.wsBindings)).getD [] }

/-- Instructions committed before a command that are still in the VQ, the matrix queue or the held frame, or in a frame that
VFSAVE has written and that has still to be loaded again (R112, log 62). -/
def State.earlierWork (s : State) (c : EngineCmd) : Bool :=
  let saved := ((s.ownerOf c).map (·.away)).getD []
  saved.any (fun n => decide (n < c.behind)) ||
    (match s.residentOwner c with
     | none => false
     | some (slot, st) =>
       let held : List VqEntry := match st.frame with
         | some f => f.queued ++ f.matrix
         | none => []
       (st.vq ++ (s.cluster (clusterOf slot)).matrixOf slot ++ held).any (fun e => e.progress != .done && decide (e.seq < c.behind)))

/-! ## A command at work -/

/-- Why a command stops. -/
inductive Stop where
  /-- with a cause, and the faulting address (R258) -/
  | fault (c : Cause) (va : Nat)
  | miss (va : Nat) (intent : Intent)
  | halt (f : Fault)
  deriving DecidableEq, Repr

/-- A command at work: the state so far, why it went no further, the flags it has set, and the pages whose shadow it wrote
(in which scratchpad, and the page). -/
structure Job where
  s : State
  stop : Option Stop
  flags : Flags
  pages : List (Option Nat × Nat)
  deriving DecidableEq, Repr

/-- What a command works with. -/
structure Work where
  cmd : EngineCmd
  agent : Agent
  st : Strand
  deriving DecidableEq, Repr

/-- The job stopped by a fault. -/
def Job.fault (j : Job) (c : Cause) (va : Nat) : Job := if j.stop.isSome then j else { j with stop := some (.fault c va) }

/-- Flags set. -/
def Job.raise (j : Job) (f : Flags) : Job := { j with flags := j.flags ||| f }

/-- What an access gives, or the job stopped. -/
def Job.take {α : Type} (j : Job) (r : Res α) (default : α) : α × Job :=
  if j.stop.isSome then (default, j)
  else
    match r with
    | .ok a => (a, j)
    | .fault c va => (default, { j with stop := some (.fault c va) })
    | .miss va i => (default, { j with stop := some (.miss va i) })
    | .stop f => (default, { j with stop := some (.halt f) })
    | .gated | .partnerEnded => (default, j)

/-- Each of a list in turn, until the job stops. -/
def Job.each {α : Type} (j : Job) (l : List α) (f : Job → α → Job) : Job :=
  l.foldl (fun (j : Job) (x : α) => if j.stop.isSome then j else f j x) j

/-- n bytes read at their home (R98, R277, R281, R368). DESIGN CHOICE: an engine may read the weight store (R85, log 114). -/
def Job.read (j : Job) (w : Work) (va n : Nat) : List Byte × Job :=
  let x := j.take ((j.s.spanCheck w.st (va % 2 ^ 64) n).bind (fun _ => j.s.loadSpan w.agent .load (va % 2 ^ 64) n)) []
  if x.2.stop.isSome then x else (x.1, { x.2 with s := x.2.s.noteRead w.agent va n })

/-- One byte written into the shadow of its page (R113). -/
def Job.writeByte (j : Job) (w : Work) (va : Nat) (b : Byte) : Job :=
  let at_ := va % 2 ^ 64
  let x := j.take ((j.s.writeCheck w.st at_ 1).bind (fun _ =>
    (j.s.shadowWrite w.agent w.cmd.owner false at_ [b]).map (fun s1 => (s1, true)))) (j.s, false)
  if x.1.2 then
    let scratch := if Config.scratchBase ≤ at_ then some w.agent.cluster else none
    let page := (scratch, pageOf at_)
    { x.2 with s := x.1.1, pages := if x.2.pages.contains page then x.2.pages else x.2.pages ++ [page] }
  else x.2

/-- Bytes written into shadows. -/
def Job.write (j : Job) (w : Work) (va : Nat) (bs : List Byte) : Job :=
  j.each (bs.zip (List.range bs.length)) (fun (j : Job) (p : Byte × Nat) => j.writeByte w (va + p.2) p.1)

/-- An element of n bytes read, naturally aligned (R99, R258). -/
def Job.readElem (j : Job) (w : Work) (va n : Nat) : Nat × Job :=
  if va % n ≠ 0 then (0, j.fault .misaligned va)
  else
    let x := j.read w va n
    (leNat x.1, x.2)

/-- An element of n bytes written, naturally aligned. -/
def Job.writeElem (j : Job) (w : Work) (va n x : Nat) : Job :=
  if va % n ≠ 0 then j.fault .misaligned va else j.write w va (leBytes n x)

/-- A byte as a command's own shadow has it, or the visible one. -/
def State.shadowRead (s : State) (a : Agent) (va : Nat) : Byte :=
  let scratch := if Config.scratchBase ≤ va then some a.cluster else none
  match s.shadows.find? (fun sh => sh.isPage a.asid scratch (pageOf va)) with
  | some sh => sh.bytes.getD (va - pageOf va) 0
  | none =>
    match s.resolve a va .load with
    | .ok p => (s.homeBytes p 1).headD 0
    | _ => 0

/-- A descriptor's checks: a reserved field and a field outside its range raise 0x07, a tag 0x09, at the structure (R258,
R310). -/
def Job.check (j : Job) (w : Work) (ok : Bool) (c : Cause) : Job := if ok then j else j.fault c w.cmd.desc.toNat

/-- How a command ends: status, DETAIL where the spec gives it, and the CAUSE of a PUB that discards errored pages. -/
structure Ending where
  status : Nat
  detail : Option Word
  cause : Option Cause
  deriving DecidableEq, Repr

/-- The command did its work in full. -/
def Ending.complete : Ending := { status := 0, detail := none, cause := none }

/-! ## CPY (R259, R335) -/

/-- Start of each run of a copy: its source and its destination. -/
def cpyRuns (d : List Byte) : List (Nat × Nat) :=
  let at_ := fun (base : Nat) (s1 s2 : Int) (k1 k2 : Nat) => (((base : Int) + k1 * s1 + k2 * s2) % (2 ^ 64 : Int)).toNat
  (List.range (fieldLE d 56 4)).flatMap (fun k2 => (List.range (fieldLE d 52 4)).map (fun k1 =>
    (at_ (fieldLE d 0 8) (fieldLEs d 16 8) (fieldLEs d 24 8) k1 k2,
     at_ (fieldLE d 8 8) (fieldLEs d 32 8) (fieldLEs d 40 8) k1 k2)))

/-- A byte lies in one of a list of runs of n bytes. -/
def covered (runs : List Nat) (n va : Nat) : Bool := runs.any (fun r => decide ((va + 2 ^ 64 - r) % 2 ^ 64 < n))

/-- The pages that runs of n bytes touch. -/
def runPages (runs : List Nat) (n : Nat) : List Nat := (runs.flatMap (fun r => (pagesOf r n).map pageOf)).eraseDups

/-- A copy whose descriptor makes it a migration copy, if its pages are device pages (R335). -/
def migrationShape (w : Work) (d : List Byte) : Bool :=
  let runs := (cpyRuns d).map (·.1)
  w.cmd.priv && fieldLE d 0 8 == fieldLE d 8 8 && fieldLE d 16 8 == fieldLE d 32 8 && fieldLE d 24 8 == fieldLE d 40 8 &&
    (runPages runs (fieldLE d 48 4)).all (fun p => (List.range 4096).all (fun i => covered runs (fieldLE d 48 4) (p + i)))

/-- The device address of a page, none where it lies elsewhere. -/
def Job.devicePage (j : Job) (w : Work) (page : Nat) : Option Nat × Job :=
  j.take (match j.s.resolve w.agent page .load with
    | .ok (.dev pa) => .ok (some pa)
    | .ok _ => .ok none
    | .fault c => .fault c page
    | .miss => .miss page .load
    | .absent pa => .stop (.absentAddress pa)) none

/-- One page of a migration copied at one instant into a page of the other tier's pool (R335). -/
def Job.migratePage (w : Work) (j : Job) (q : Nat × Nat) : Job :=
  let part := j.s.partOf w.st
  let old := j.s.shadows.find? (fun sh => sh.isPage w.agent.asid none q.1)
  if (old.bind (·.moved)).isSome then j.write w q.1 (j.s.homeBytes (.dev q.2) 4096)
  else
    match j.s.pool.find? (fun p => p.1 == part && decide (p.2 < Config.hbmBytes) != decide (q.2 < Config.hbmBytes)) with
    | none => j.fault .protection q.1
    | some m =>
      let x := j.read w q.1 4096
      let j1 := x.2.write w q.1 x.1
      if j1.stop.isSome then j1
      else
        { j1 with s := { j1.s with
            pool := j1.s.pool.erase m
            shadows := j1.s.shadows.map (fun sh => if sh.isPage w.agent.asid none q.1 then { sh with moved := some m, origin := some (q.2 / 4096 * 4096) } else sh) } }

/-- The chunks of an engine stream that a copy of runs of n bytes completes, each with its elements (R210, R259). Of chunks
that lie at the same bytes it completes the lowest not yet delivered. -/
def State.completedChunks (s : State) (a : Agent) (x : Stream) (runs : List Nat) (n : Nat) : List (Nat × List Word) :=
  let size := max 1 (x.width / 8)
  let bytesOf := fun (k : Nat) =>
    (List.range (min x.chunk (x.elements - k * x.chunk))).map (fun j => x.address (k * x.chunk + j))
  ((List.range x.total).foldl (fun (acc : List (Nat × List Word) × List Nat) (k : Nat) =>
    if x.delivered.contains k then acc
    else
      let l := bytesOf k
      let mine := l.flatMap (fun va => (List.range size).map (fun i => va + i))
      if mine.all (covered runs n) && !overlaps mine acc.2 then
        (acc.1 ++ [(k, l.map (fun va =>
          let v := leNat ((List.range size).map (fun i => s.shadowRead a (va + i)))
          BitVec.ofNat 64 (if x.width = 4 then v % 16 else v)))], acc.2 ++ mine)
      else (acc.1, acc.2 ++ mine)) ([], [])).1

/-- The stream of SOURCE 10 that a slot of a strand holds, and how it is replaced. -/
def Strand.engineStream (st : Strand) (k : Nat) : Option (Stream × (Stream → Strand → Strand)) :=
  match st.stream k with
  | some x => if x.source == .engine then some (x, fun z (st : Strand) => st.setStream k (some z)) else none
  | none =>
    match st.committedStream k with
    | some x => if x.source == .engine then some (x, fun z (st : Strand) => st.setCommitted k z) else none
    | none => none

/-- CPY. DESIGN CHOICE: its runs go in ascending order where destinations overlap (log 113). -/
def Job.cpy (j : Job) (w : Work) (d : List Byte) : Ending × Job :=
  let n := fieldLE d 48 4
  let runs := cpyRuns d
  let arrive := fieldLE d 60 1 / 8 % 2 == 1
  let slot := fieldLE d 60 1 % 8
  let target := if arrive then w.st.engineStream slot else none
  let j1 := j.check w (fieldLE d 60 1 < 16 && zeroBytes d 61 3 && n != 0 && fieldLE d 52 4 != 0 && fieldLE d 56 4 != 0 &&
    (!arrive || (target.isSome && runs.all (fun r => decide (Config.scratchBase ≤ r.2))))) .protection
  if j1.stop.isSome then (.complete, j1)
  else
    let pages := if migrationShape w d then runPages (runs.map (·.1)) n else []
    let found := pages.foldl (fun (acc : List (Nat × Option Nat) × Job) (p : Nat) =>
      let x := acc.2.devicePage w p
      (acc.1 ++ [(p, x.1)], x.2)) ([], j1)
    if found.2.stop.isSome then (.complete, found.2)
    else if !pages.isEmpty && found.1.all (fun p => p.2.isSome) then
      (.complete, j1.each (found.1.map (fun p => (p.1, p.2.getD 0))) (Job.migratePage w))
    else
      let j2 := j1.each runs (fun (j : Job) (r : Nat × Nat) =>
        let x := j.read w r.1 n
        x.2.write w r.2 x.1)
      match target, j2.stop with
      | some (x, put), none =>
        let got := j2.s.completedChunks w.agent x (runs.map (·.2)) n
        let x' : Stream := { x with
          chunks := x.chunks ++ got, delivered := x.delivered ++ got.map (·.1), arrived := x.arrived + got.length }
        (.complete, { j2 with s := j2.s.updOwner w.cmd (put x') })
      | _, _ => (.complete, j2)

/-! ## PUB (R114, R260, R335) -/

/-- What an invalidation names (R321). -/
inductive Invalidation where
  | page (asid va : Nat)
  | space (asid : Nat)
  | all
  deriving DecidableEq, Repr

/-- The walk-cache entry is on what an invalidation covers (R334). -/
def Invalidation.cached (i : Invalidation) (w : WalkCacheEntry) : Bool :=
  match i with
  | .page asid va => w.asid == asid && w.pfx == va / 2 ^ (levelBits w.level).1
  | .space asid => w.asid == asid
  | .all => true

/-- The TLB entry is on what an invalidation covers. -/
def Invalidation.held (i : Invalidation) (e : TlbEntry) : Bool :=
  match i with
  | .page asid va => e.asid == asid && decide (e.va ≤ va) && decide (va < e.va + e.size)
  | .space asid => e.asid == asid
  | .all => true

/-- An invalidation overlaps a walk (R334). -/
def Invalidation.overlaps (i : Invalidation) (w : Walk) : Bool :=
  match i with
  | .page asid va => w.asid == asid && w.va / 2 ^ 30 == va / 2 ^ 30
  | .space asid => w.asid == asid
  | .all => true

/-- A pin lies on what an invalidation covers. -/
def Invalidation.pinned (i : Invalidation) (q : Nat × Nat × Nat) : Bool :=
  match i with
  | .page asid va => q.1 == asid && pageOf q.2.1 == pageOf va
  | .space asid => q.1 == asid
  | .all => true

/-- A page in use lies on what an invalidation covers. -/
def Invalidation.uses (i : Invalidation) (h : HeldPage) : Bool :=
  match i with
  | .page asid va => h.covers asid va
  | .space asid => h.entry.asid == asid
  | .all => true

/-- For each stream with a pin on what an invalidation covers, the chunks that use an old translation: by slot and the stream's
VBIND, those below a number (R215). -/
def State.oldChunks (s : State) (i : Invalidation) : List (Nat × Nat × Nat) :=
  s.strands.flatMap (fun p => p.2.allStreams.filterMap (fun (x : Stream) =>
    let n := if x.output then x.arrived + 1 else x.arrived + x.feeding.length
    if (x.pins.any i.pinned || x.pages.any i.uses) && x.usesBefore n then some (p.1, x.born, n) else none))

/-! ### Vector instructions that an invalidation or a swap reaches (R101) -/

/-- The page that an address is translated under, by an instruction that has used some pages: its first byte and its size
(R100). -/
def State.pageUnder (s : State) (cluster asid : Nat) (e : VqEntry) (va : Nat) : Nat × Nat :=
  match ((e.held.find? (fun h => h.covers asid va)).map (·.entry)).or (s.translation cluster asid va) with
  | some x => (x.va, x.size)
  | none => (pageOf va, 4096)

/-- The element at which an instruction that has performed some of its elements starts again (R101). -/
def State.restartElement (s : State) (cluster asid : Nat) (e : VqEntry) : Option Nat :=
  let left := e.touch.filter (fun q => !e.done.contains q.1)
  let page := fun (q : Nat × Nat) => s.pageUnder cluster asid e (q.2 % 2 ^ 64)
  if perPage e.instr then (e.touch.find? (fun q => left.any (fun r => page r == page q))).map (·.1)
  else left.head?.map (·.1)

/-- Elements that an instruction has emitted and that are emitted anew: the stream goes back by as many. -/
def Strand.unemit (st : Strand) (reg n : Nat) : Strand :=
  match (if n = 0 then none else st.outputSlot reg) with
  | none => st
  | some k =>
    match st.stream k with
    | some x => st.setStream k (some { x with emitted := x.emitted - n })
    | none => st

/-- A strand whose started vector memory instruction starts again at an element: what has been performed from there on is
performed anew, with pages translated afresh, but for an atomic (R101). One that has written nothing yet goes on from its first
element as far as a frame is concerned (R74, R213). -/
def Strand.restartAt (st : Strand) (k : Nat) (e : VqEntry) (from_ : Nat) : Strand :=
  let isAmo := match e.instr with
    | .vamo _ => true
    | _ => false
  let stand := fun (i : Nat) => decide (i < from_)
  let sent := if isAmo then e.sent else min e.sent (e.touch.filter (fun q => stand q.1)).length
  let reg := ((plan e.instr e.tags e.g).writes.head?).getD 0
  { (st.updEntry k (fun x => { x with
        done := if isAmo then e.done else e.done.filter stand, element := if e.results.isEmpty then some from_ else e.element, sent
        held := [], places := e.places.filter (fun p => stand p.1), results := e.results.filter (fun p => stand p.1) })).unemit
        reg (e.sent - sent) with
    vstart := BitVec.ofNat 13 from_ }

/-- An invalidation covers a page that an instruction of a strand touches, as it is translated. -/
def Invalidation.reaches (i : Invalidation) (s : State) (slot : Nat) (st : Strand) (e : VqEntry) : Bool :=
  match i with
  | .page asid at_ =>
    st.asid.toNat == asid && e.touch.any (fun q =>
      let page := s.pageUnder (clusterOf slot) asid e (q.2 % 2 ^ 64)
      decide (page.1 ≤ at_) && decide (at_ < page.1 + page.2))
  | .space asid => st.asid.toNat == asid && !e.touch.isEmpty
  | .all => !e.touch.isEmpty

/-- Vector memory instructions that have performed some of their elements and that an invalidation reaches start again (R101). -/
def State.restartOn (s : State) (i : Invalidation) : State :=
  { s with strands := s.strands.map (fun p =>
      match p.2.nextEntry with
      | none => p
      | some (k, e) =>
        if i.reaches s p.1 p.2 e then
          match s.restartElement (clusterOf p.1) p.2.asid.toNat e with
          | some j => (p.1, p.2.restartAt k e j)
          | none => p
        else p) }

/-- An invalidation applied: it takes a TLBSEQ of its own (R321, R334), and the vector instructions it reaches start again
(R101). -/
def State.invalidate (s : State) (i : Invalidation) : State :=
  { s.restartOn i with
    tlb := s.tlb.filter (fun e => !i.held e)
    walkCache := s.walkCache.filter (fun w => !i.cached w)
    walks := s.walks.map (fun p => (p.1, { p.2 with stale := p.2.stale || i.overlaps p.2 }))
    tlbseq := s.tlbseq + 1 }

/-- A migrated page published: the leaf takes the new page's address, with every other bit kept, and its translations are
invalidated (R335). A leaf that maps more than a page is left, and the page's bytes are replaced where they lie (log 28). -/
def State.publishMoved (s : State) (w : Work) (page : Nat) (sh : Shadow) (m : Nat × Nat) (p : Place) : State :=
  match s.walkTable (dieOf w.agent.cluster) w.agent.asid w.agent.root page with
  | .leaf l =>
    if l.level = 5 then
      let old := ptePA l.entry
      let new : Word := (l.entry &&& ~~~(0xFFFFFFFFFFF000 : Word)) ||| BitVec.ofNat 64 m.2
      let s1 := (s.swapPage (.dev m.2) sh.bytes)
      let s2 := (s1.putBytes Config.clusters (.dev l.addr) (leBytes 8 new.toNat)).invalidate (.page w.agent.asid page)
      ({ s2 with leaving := s2.leaving ++ [(w.agent.asid, page, m.1, old)] }).sweepPages
    else { s.swapPage p sh.bytes with pool := s.pool ++ [m] }
  | _ => { s.swapPage p sh.bytes with pool := s.pool ++ [m] }

/-- The virtual address under which a page in use, of a strand on a cluster, holds the page at a place. -/
def HeldPage.pageAt (h : HeldPage) (cluster : Nat) (p : Place) : Option Nat :=
  let e := h.entry
  let mapped := fun (pa : Nat) =>
    if e.va < Config.scratchBase ∧ e.pa ≤ pa ∧ pa < e.pa + e.size then some (e.va + (pa - e.pa)) else none
  match p, e.home with
  | .scratch k off, _ => if k = cluster ∧ e.va = pageOf (Config.scratchBase + off) then some e.va else none
  | .dev pa, .device => mapped pa
  | .host pa, .host => mapped pa
  | .remote m pa, .remote n => if m = n then mapped pa else none
  | _, _ => none

/-- A page in use keeps the bytes it had before the page at a place is swapped (R114). -/
def HeldPage.keepOld (cluster : Nat) (p : Place) (bs : List Byte) (h : HeldPage) : HeldPage :=
  match h.pageAt cluster p with
  | some va => if (lookup h.old va).isSome then h else { h with old := (va, bs) :: h.old }
  | none => h

/-- The same of all the pages a stream uses. -/
def Stream.keepOld (f : HeldPage → HeldPage) (x : Stream) : Stream :=
  { x with pages := x.pages.map f, feeding := x.feeding.map (fun q => (q.1, q.2.1, q.2.2.map f)) }

/-- Every access that has translated the page at a place goes on seeing it as it is: of an instruction that translates once for a
page, of a chunk being stored, of an SFEED (R100, R114, R212). -/
def State.keepOld (s : State) (p : Place) (n : Nat) : State :=
  { s with strands := s.strands.map (fun q =>
      let f := HeldPage.keepOld (clusterOf q.1) p (s.homeBytes p n)
      (q.1, { q.2 with
        vq := q.2.vq.map (fun e => { e with held := e.held.map f, bind := e.bind.map (Stream.keepOld f) })
        streams := q.2.streams.map (fun o => o.map (Stream.keepOld f)) })) }

/-- One shadow page published: who has translated the page sees the old version, who translates it from now on the new one
(R114). -/
def State.publish (s : State) (w : Work) (page : Nat) (sh : Shadow) (p : Place) : State :=
  let s0 := s.keepOld p sh.bytes.length
  let s1 := match sh.moved with
    | some m => s0.publishMoved w page sh m p
    | none => s0.swapPage p sh.bytes
  let s2 : State := match p.flat with
    | some n =>
      if sh.poison.isEmpty then s1
      else { s1 with poison := ((sh.poison.map (fun i => (n + i) / 64)).filter (fun u => !s1.poison.contains u)).eraseDups ++ s1.poison }
    | none => s1
  { s2 with shadows := s2.shadows.filter (fun x => !x.isPage sh.asid sh.scratch sh.va) }

/-- A shadow page discarded; a page a migration took goes back to its pool. -/
def State.discard (s : State) (sh : Shadow) : State :=
  { s with shadows := s.shadows.filter (fun x => !x.isPage sh.asid sh.scratch sh.va), pool := s.pool ++ sh.moved.toList }

/-- The shadow pages of a buffer, lowest first. -/
def State.shadowsIn (s : State) (a : Agent) (base size : Nat) : List Shadow :=
  (List.range (size / 4096)).filterMap (fun i =>
    let page := (base + 4096 * i) % 2 ^ 64
    s.shadows.find? (fun sh => sh.isPage a.asid (if Config.scratchBase ≤ page then some a.cluster else none) page))

/-- PUB: all its pages at one instant. -/
def Job.pub (j : Job) (w : Work) (d : List Byte) : Ending × Job :=
  let base := fieldLE d 0 8
  let size := fieldLE d 8 8
  let j1 := (if base % 4096 ≠ 0 then j.fault .misaligned base else j).check w (size % 4096 == 0) .protection
  if j1.stop.isSome then (.complete, j1)
  else
    let mine := j1.s.shadowsIn w.agent base size
    let bad := mine.filter (fun sh => sh.errored.isSome)
    let partial_ := mine.filter (fun sh => sh.errored.isNone && sh.incomplete)
    let good := mine.filter (fun sh => sh.errored.isNone && !sh.incomplete)
    let found := good.foldl (fun (acc : List (Shadow × Option Place) × Job) (sh : Shadow) =>
      let x := acc.2.take (match acc.2.s.resolve w.agent sh.va .store with
        | .ok p => if acc.2.s.unreachable p then .fault .uncorrectable sh.va else .ok (some p)
        | .fault c => .fault c sh.va
        | .miss => .miss sh.va .store
        | .absent pa => .stop (.absentAddress pa)) none
      (acc.1 ++ [(sh, x.1)], x.2)) ([], j1)
    if found.2.stop.isSome then (.complete, found.2)
    else
      let s1 := found.1.foldl (fun (s : State) (q : Shadow × Option Place) =>
        match q.2 with
        | some p => s.publish w q.1.va q.1 p
        | none => s) j1.s
      let s2 := (bad ++ partial_).foldl State.discard s1
      let ending : Ending := match bad.head? with
        | some sh => { status := 3, detail := some (BitVec.ofNat 64 sh.va), cause := sh.errored }
        | none => { status := if partial_.isEmpty then 0 else 2, detail := none, cause := none }
      (ending, { j1 with s := s2 })

/-! ## CRED (R261) -/

/-- The tags CRED admits. -/
def credTag (t : Nat) : Bool := t == 14 || t == 12 || t == 13 || t == 3 || t == 4

/-- Bytes of a member's source. -/
def credSource (d : List Byte) : Nat :=
  let size := tagWidth (BitVec.ofNat 4 (fieldLE d 29 1)) / 8
  size * fieldLE d 24 4 * (if fieldLE d 28 1 = 1 then 1 else fieldLE d 30 1)

/-- Bytes of a member's destination. -/
def credDest (d : List Byte) : Nat :=
  let size := tagWidth (BitVec.ofNat 4 (fieldLE d 29 1)) / 8
  size * fieldLE d 24 4 * (if fieldLE d 28 1 = 0 then 1 else fieldLE d 30 1)

/-- A member's part of a collective. -/
def State.credPart (s : State) (group member : Nat) : Option CredPart :=
  s.creds.find? (fun p => p.group == group && p.member == member)

/-- A part put in place of the one of its member. -/
def State.setCredPart (s : State) (p : CredPart) : State :=
  { s with creds := s.creds.filter (fun q => !(q.group == p.group && q.member == p.member)) ++ [p] }

/-- Parts of a collective are dropped once every member has contributed or is lost, and every command of this module in it has
ended; until then a lost member stays known as such (R261). -/
def State.endCred (s : State) (group : Nat) : State :=
  let parts := s.creds.filter (fun p => p.group == group)
  let n := parts.foldl (fun (m : Nat) (p : CredPart) => max m p.members) 0
  let size := parts.foldl (fun (m : Nat) (p : CredPart) => max m p.size) 0
  let settledPart := fun (p : CredPart) => p.lost || (if p.here then p.done else decide (size ≤ p.data.length))
  if parts.all (fun p => !p.here || p.done) && (List.range n).all (fun m => parts.any (fun p => p.member == m && settledPart p)) then
    { s with creds := s.creds.filter (fun p => p.group != group) }
  else s

/-- A member's own part has ended, lost or not; its descriptor names the members and the size of a contribution. -/
def State.credOver (s : State) (d : List Byte) (lost : Bool) : State :=
  let group := fieldLE d 36 4
  let member := fieldLE d 31 1
  let p := (s.credPart group member).getD { group, member, data := [], lost := false, here := true, done := false }
  (s.setCredPart { p with lost := p.lost || lost, done := true, members := fieldLE d 30 1, size := credSource d }).endCred group

/-- Members of an unreachable module are lost to a collective (R261). -/
def State.loseMembers (s : State) (group : Nat) (lost : List Nat) : State :=
  lost.foldl (fun (s : State) (m : Nat) =>
    let p := (s.credPart group m).getD { group, member := m, data := [], lost := true, here := false, done := false }
    if p.here then s else s.setCredPart { p with lost := true }) s

/-- The bytes of member m that byte b of the destination of member `self` needs: source offset, for the element's bytes. -/
def credNeeds (d : List Byte) (m b : Nat) : Option Nat :=
  let count := (tagWidth (BitVec.ofNat 4 (fieldLE d 29 1)) / 8) * fieldLE d 24 4
  match fieldLE d 28 1 with
  | 0 => some (fieldLE d 31 1 * count + b)
  | 1 => if b / count = m then some (b % count) else none
  | _ => some b

/-- The sum of one element over the members in ascending index (R261). -/
def credSum (t : Tag) (xs : List Nat) : Nat × Flags :=
  match xs with
  | [] => (0, 0)
  | x :: rest => rest.foldl (fun (acc : Nat × Flags) (y : Nat) =>
      let z := addElem t 0 false acc.1 y 0
      (z.1, acc.2 ||| z.2)) (x, 0)

/-- The destination bytes of one element, and the flags of its sums. -/
def credElem (d : List Byte) (data : Nat → List Byte) (size e : Nat) : List Byte × Flags :=
  let members := List.range (fieldLE d 30 1)
  let part := fun (m : Nat) => (credNeeds d m (e * size)).map (fun off => leNat (((data m).drop off).take size))
  if fieldLE d 28 1 = 1 then (leBytes size ((members.findSome? part).getD 0), 0)
  else
    let x := credSum (BitVec.ofNat 4 (fieldLE d 29 1)) (members.filterMap part)
    (leBytes size x.1, x.2)

/-- CRED: none while it waits for a member, or for an earlier collective of its identifier in which it took part. -/
def Job.cred (j : Job) (w : Work) (d : List Byte) : Option Ending × Job :=
  let n := fieldLE d 30 1
  let self := fieldLE d 31 1
  let chunk := fieldLE d 32 4
  let group := fieldLE d 36 4
  let record := fieldLE d 16 8
  let size := tagWidth (BitVec.ofNat 4 (fieldLE d 29 1)) / 8
  let j1 := ((if record % 8 ≠ 0 then j.fault .misaligned record else j).check w (credTag (fieldLE d 29 1)) .tagMismatch).check w
    (zeroBytes d 48 16 && decide (fieldLE d 28 1 ≤ 2) && decide (1 ≤ n) && decide (n ≤ 64) && decide (self < n) && chunk != 0 &&
      chunk % 4096 == 0) .protection
  if j1.stop.isSome then (none, j1)
  else
    let src := j1.read w (fieldLE d 0 8) (credSource d)
    let src := if fieldLE d 0 8 % size ≠ 0 then (src.1, j1.fault .misaligned (fieldLE d 0 8)) else src
    let mods := src.2.read w (fieldLE d 40 8) (8 * n)
    let j2 := (if fieldLE d 8 8 % size ≠ 0 then mods.2.fault .misaligned (fieldLE d 8 8) else mods.2).check w
      ((List.range n).all (fun m => decide (fieldLE mods.1 (8 * m) 8 < 1024))) .protection
    if j2.stop.isSome then (none, j2)
    else if ((j2.s.credPart group self).map (·.done)).getD false then (none, j)
    else
      let s1 := match j2.s.credPart group self with
        | some _ => j2.s
        | none => j2.s.setCredPart {
            group, member := self, data := src.1, lost := false, here := true, done := false, members := n, size := credSource d }
      let data := fun (m : Nat) => ((s1.credPart group m).map (·.data)).getD []
      let lost := fun (m : Nat) =>
        ((s1.credPart group m).map (·.lost)).getD false || !(s1.remote (fieldLE mods.1 (8 * m) 8)).reachable
      let whole := fun (m : Nat) => decide (credSource d ≤ (data m).length)
      if !(List.range n).all (fun m => whole m || lost m) then (none, { j2 with s := s1 })
      else
        let s1 := s1.loseMembers group ((List.range n).filter (fun m => lost m && !whole m))
        let total := credDest d
        let missing := fun (k m : Nat) => !(List.range (min chunk (total - k * chunk))).all (fun i =>
          match credNeeds d m (k * chunk + i) with
          | some off => decide (off < (data m).length)
          | none => true)
        let chunks := List.range (ceilDiv total chunk)
        let bitmap := fun (k : Nat) => ((List.range n).map (fun m => if missing k m then 2 ^ m else 0)).sum
        let dst := fieldLE d 8 8
        let j3 := ({ j2 with s := s1 }).each chunks (fun (j : Job) (k : Nat) =>
          let first := k * chunk
          let len := min chunk (total - first)
          if bitmap k = 0 then
            j.each (List.range (len / size)) (fun (j : Job) (i : Nat) =>
              let x := credElem d data size (first / size + i)
              (j.write w (dst + first + i * size) x.1).raise x.2)
          else
            let j' := j.each (List.range len) (fun (j : Job) (i : Nat) =>
              j.writeByte w (dst + first + i) (j.s.shadowRead w.agent ((dst + first + i) % 2 ^ 64)))
            let pages := (pagesOf (dst + first) len).map pageOf
            { j' with s := { j'.s with shadows := j'.s.shadows.map (fun (sh : Shadow) =>
                if sh.asid == w.agent.asid && pages.contains sh.va then { sh with incomplete := true } else sh) } })
        if j3.stop.isSome then (none, j3)
        else if chunks.all (fun k => bitmap k == 0) then
          (some .complete, { j3 with s := j3.s.credOver d false })
        else
          let bs := leBytes 8 chunks.length ++ chunks.flatMap (fun k => leBytes 8 (bitmap k))
          let x := j3.take ((j3.s.writeCheck w.st record bs.length).bind (fun _ => j3.s.storeSpan w.agent Config.clusters record bs)) j3.s
          (some { status := 2, detail := none, cause := none },
           if x.2.stop.isSome then x.2 else { x.2 with s := x.1.credOver d false })

/-! ## UPD (R262) -/

/-- An FP32 operation rounded once under RNE, with the flags it adds. -/
def f32 (inputs : List FVal) (x : Exact) (fl : Flags) : FVal × Flags :=
  let p := fpDeliver 14 0 false 0 inputs x
  (decodeF 14 p.1, fl ||| p.2)

/-- The FP32 encoding of a value that is one. -/
def f32Bits (v : FVal) : Nat := (toFloat 14 v 0 false 0).1

/-- Product, fused multiply-add, sum, quotient and square root in FP32. -/
def f32Mul (a b : FVal) (fl : Flags) : FVal × Flags := f32 [a, b] (fMul a b) fl
/-- fused multiply-add -/
def f32Fma (a b c : FVal) (fl : Flags) : FVal × Flags := f32 [a, b, c] (fFma 0 a b c) fl
/-- sum -/
def f32Add (a b : FVal) (fl : Flags) : FVal × Flags := f32 [a, b] (fAdd 0 a b) fl
/-- quotient -/
def f32Div (a b : FVal) (fl : Flags) : FVal × Flags := f32 [a, b] (fDiv a b) fl
/-- square root -/
def f32Sqrt (a : FVal) (fl : Flags) : FVal × Flags := f32 [a] (fSqrt a) fl

/-- One element's step: the new M, V and W, and the flags. `p` gives the parameters by place: LR, WD, B1, OMB1, B2, OMB2,
EPS, C1, C2, GSCALE. -/
def updElem (adaptive : Bool) (p : Nat → FVal) (w g m v : FVal) : FVal × FVal × FVal × Flags :=
  let gs := f32Mul g (p 9) 0
  let finish := fun (m1 v1 d : FVal) (fl : Flags) =>
    let a := f32Fma (p 1) w d fl
    let b := f32Fma (p 0).negate a.1 w a.2
    (m1, v1, b.1, b.2)
  if !adaptive then
    let m1 := f32Fma (p 2) m gs.1 gs.2
    finish m1.1 v m1.1 m1.2
  else
    let a := f32Mul (p 3) gs.1 gs.2
    let m1 := f32Fma (p 2) m a.1 a.2
    let b := f32Mul gs.1 gs.1 m1.2
    let c := f32Mul (p 5) b.1 b.2
    let v1 := f32Fma (p 4) v c.1 c.2
    let num := f32Mul m1.1 (p 7) v1.2
    let x := f32Mul v1.1 (p 8) num.2
    let y := f32Sqrt x.1 x.2
    let z := f32Add y.1 (p 6) y.2
    let q := f32Div num.1 z.1 z.2
    finish m1.1 v1.1 q.1 q.2

/-- UPD; it has read the skip word when it started. DESIGN CHOICE: its elements go in ascending order, each with all its steps,
where destinations overlap (log 113). -/
def Job.upd (j : Job) (w : Work) (d : List Byte) : Ending × Job :=
  let gtag := fieldLE d 45 1
  let j1 := (j.check w (gtag == 14 || gtag == 12 || gtag == 13) .tagMismatch).check w
    (zeroBytes d 46 18 && zeroBytes d 104 24 && decide (fieldLE d 44 1 ≤ 1)) .protection
  let skip := match w.cmd.skip with
    | some x => (x, j1)
    | none => j1.readElem w (fieldLE d 32 8) 8
  if skip.2.stop.isSome then (.complete, skip.2)
  else if skip.1 ≠ 0 then ({ status := 1, detail := some (BitVec.ofNat 64 skip.1), cause := none }, skip.2)
  else
    let adaptive := fieldLE d 44 1 == 1
    let t : Tag := BitVec.ofNat 4 gtag
    let size := tagWidth t / 8
    let p := fun (k : Nat) => decodeF 14 (fieldLE d (64 + 4 * k) 4)
    (.complete, skip.2.each (List.range (fieldLE d 40 4)) (fun (j : Job) (i : Nat) =>
      let at_ := fun (off : Nat) => (fieldLE d off 8 + 4 * i) % 2 ^ 64
      let g := j.readElem w ((fieldLE d 8 8 + size * i) % 2 ^ 64) size
      let x := g.2.readElem w (at_ 0) 4
      let m := x.2.readElem w (at_ 16) 4
      let v := if adaptive then m.2.readElem w (at_ 24) 4 else (0, m.2)
      if v.2.stop.isSome then v.2
      else
        let r := updElem adaptive p (decodeF 14 x.1) (decodeF t g.1) (decodeF 14 m.1) (decodeF 14 v.1)
        let j1 := (v.2.writeElem w (at_ 0) 4 (f32Bits r.2.2.1)).writeElem w (at_ 16) 4 (f32Bits r.1)
        let j2 := if adaptive then j1.writeElem w (at_ 24) 4 (f32Bits r.2.1) else j1
        j2.raise r.2.2.2))

/-! ## RINV (R263) -/

/-- A cluster lies within a scope of another (R11, R103). -/
def inScope (scope : BitVec 3) (a b : Nat) : Bool :=
  match scope.toNat with
  | 0 | 1 => a == b
  | 2 => quadOf a == quadOf b
  | 3 => stackOf a == stackOf b
  | _ => true

/-- RINV: every line of the clusters in its scope that holds a byte of the range is dropped. -/
def Job.rinv (j : Job) (w : Work) (d : List Byte) : Ending × Job :=
  let base := fieldLE d 0 8
  let size := fieldLE d 8 8
  let spans := pagesOf base size
  let found := spans.foldl (fun (acc : List (Nat × Nat) × Job) (va : Nat) =>
    let x := acc.2.devicePage w va
    let n := min (4096 - va % 4096) ((base + size + 2 ^ 64 - va) % 2 ^ 64)
    (acc.1 ++ (x.1.map (fun pa => (pa, n))).toList, x.2)) ([], j)
  if found.2.stop.isSome then (.complete, found.2)
  else
    let touched := fun (a : Nat) => found.1.any (fun q => decide (q.1 ≤ a) && decide (a < q.1 + q.2))
    (.complete, { j with s := { j.s with clusters := j.s.clusters.map (fun p =>
        if inScope w.cmd.scope w.agent.cluster p.1 then
          (p.1, { p.2 with l1 := p.2.l1.filter (fun l => !l.cells.any (fun c => touched c.1)) })
        else p) } })

/-! ## KVFILE (R264) -/

/-- The first record filed: written at its slot, and out of the journal; or why it stays (R264). -/
def Job.fileRecord (w : Work) (d table : List Byte) (j : Job) (r : JournalRecord) : Job :=
  let p := r.key.toNat % 2 ^ 48
  let field := r.key.toNat / 2 ^ 48 % 256
  let here := w.cmd.desc.toNat
  if r.key.toNat / 2 ^ 56 ≠ 0 || decide (fieldLE table 8 4 ≤ p / 256) then j.fault .protection here
  else
    let e := j.readElem w ((fieldLE table 0 8 + 8 * (p / 256)) % 2 ^ 64) 8
    if e.2.stop.isSome then e.2
    else
      match slotAddress table p e.1 with
      | none => e.2.fault .protection here
      | some va =>
        let j1 := e.2.write w (va + field * fieldLE d 8 8) r.data
        if j1.stop.isSome then j1
        else { j1 with s := j1.s.updOwner w.cmd (fun st => { st with journal := st.journal.filter (fun x => x.commit != r.commit) }) }

/-- KVFILE; behind its own descriptor stands the block table's, as both were read when it started. -/
def Job.kvfile (j : Job) (w : Work) (d : List Byte) : Ending × Job :=
  let at_ := fieldLE d 0 8
  let j1 := (if at_ % 8 ≠ 0 then j.fault .misaligned at_ else j).check w (zeroBytes d 16 16) .protection
  let table := d.drop 32
  let j2 := if fieldLE table 12 2 = 0 || !zeroBytes table 14 2 || !zeroBytes table 24 8 then j1.fault .protection at_
    else if fieldLE table 0 8 % 8 ≠ 0 then j1.fault .misaligned (fieldLE table 0 8)
    else j1
  (.complete, j2.each (w.st.journal.filter (fun r => decide (r.commit < w.cmd.upTo))) (Job.fileRecord w d table))

/-! ## RQNT (R265) -/

/-- E of a destination tag. -/
def rqntTop (t : Nat) : Int := if t = 10 then 7 else if t = 11 then 14 else 2

/-- The scale byte of a block (R265). -/
def rqntScale (t : Nat) (vs : List FVal) : Nat :=
  if vs.any FVal.nonFinite then 255
  else
    match vs.foldl (fun (b : FVal) (v : FVal) => if magLarger v b then v else b) (.fin false 0 0) with
    | .fin _ m e => if m = 0 then 127 else (min (max (floorLog2 m e - rqntTop t + 127) 0) 254).toNat
    | _ => 127

/-- RQNT: block by block. The number of mode 101 is a free value for each element (log 27). -/
def Job.rqnt (j : Job) (w : Work) (d : List Byte) : Ending × Job :=
  let n := fieldLE d 24 4
  let stag := fieldLE d 28 1
  let dtag := fieldLE d 29 1
  let mode := fieldLE d 30 1
  let j1 := (j.check w ((stag == 14 || stag == 12 || stag == 13) && (dtag == 10 || dtag == 11 || dtag == 9)) .tagMismatch).check w
    (zeroBytes d 31 33 && mode < 16 && decide (mode % 8 ≤ 5)) .protection
  if j1.stop.isSome then (.complete, j1)
  else
    let rm : BitVec 3 := BitVec.ofNat 3 mode
    let st : Tag := BitVec.ofNat 4 stag
    let dt : Tag := BitVec.ofNat 4 dtag
    let size := tagWidth st / 8
    let draw := j1.s.draws
    let j2 : Job := if rm = 5 then { j1 with s := j1.s.drawn } else j1
    (.complete, j2.each (List.range (ceilDiv n 32)) (fun (j : Job) (k : Nat) =>
      let elems := (List.range (min 32 (n - 32 * k))).map (fun i => 32 * k + i)
      let x := elems.foldl (fun (acc : List FVal × Job) (i : Nat) =>
        let e := acc.2.readElem w ((fieldLE d 0 8 + size * i) % 2 ^ 64) size
        (acc.1 ++ [decodeF st e.1], e.2)) ([], j)
      let byte := rqntScale dtag x.1
      let codes := (x.1.zip elems).map (fun q =>
        if byte = 255 then (0, fNF)
        else
          let p := toFloat dt (unscaled q.1 byte) rm (dtag = 9 || mode / 8 % 2 == 1) (Config.engineRandom draw q.2).toNat
          (p.1, if dtag = 9 then p.2 &&& ~~~fOF else p.2))
      let bs := if dtag = 9 then
          let low := packElems 4 (codes.map (·.1))
          if codes.length % 2 = 0 then low
          else
            let last := (fieldLE d 8 8 + (32 * k + codes.length) / 2) % 2 ^ 64
            let old := (j.s.shadowRead w.agent last).toNat / 16 * 16
            low.dropLast ++ [BitVec.ofNat 8 (old + (low.getLastD 0).toNat % 16)]
        else packElems 8 (codes.map (·.1))
      let first := fieldLE d 8 8 + (if dtag = 9 then 16 * k else 32 * k)
      let j1 := (x.2.write w first bs).write w (fieldLE d 16 8 + k) [BitVec.ofNat 8 byte]
      codes.foldl (fun (j : Job) (c : Nat × Flags) => j.raise c.2) j1))

/-! ## When a command may end -/

/-- Size and alignment of a command's descriptor (R257). -/
def descriptorSize (i : Instr) : Nat × Nat :=
  match i with
  | .upd _ => (128, 64)
  | .kvfile _ => (32, 32)
  | .pub _ | .rinv _ => (16, 16)
  | _ => (64, 64)

/-- The descriptor of a command: its snapshot, or before it has started as it stands, where it can be read. -/
def State.descriptorOf (s : State) (c : EngineCmd) : Option (List Byte) :=
  match c.snap with
  | some d => some d
  | none =>
  if c.desc.toNat % (descriptorSize c.instr).2 ≠ 0 then none
  else
    match s.loadSpan (s.engineAgent c) .load c.desc.toNat (descriptorSize c.instr).1 with
    | .ok d => some d
    | _ => none

/-- A command may write into a buffer (R114); one whose destination cannot be told may. -/
def State.mayWrite (s : State) (c : EngineCmd) (base size : Nat) : Bool :=
  let meets := fun (va n : Nat) => decide (va < base + size) && decide (base < va + n)
  match c.instr, s.descriptorOf c with
  | .cpy _, some d => (cpyRuns d).any (fun r => meets r.2 (fieldLE d 48 4))
  | .cred _, some d => meets (fieldLE d 8 8) (credDest d)
  | .upd _, some d =>
    meets (fieldLE d 0 8) (4 * fieldLE d 40 4) || meets (fieldLE d 16 8) (4 * fieldLE d 40 4) ||
      (fieldLE d 44 1 == 1 && meets (fieldLE d 24 8) (4 * fieldLE d 40 4))
  | .rqnt _, some d => meets (fieldLE d 8 8) (fieldLE d 24 4) || meets (fieldLE d 16 8) (ceilDiv (fieldLE d 24 4) 32)
  | .pub _, _ | .rinv _, _ => false
  | _, _ => true

/-- Commands of a context start in issue order; PUBs of one take effect in issue order, and KVFILEs of a strand file in issue order
(R114, R257, R264). -/
def EngineCmd.precedes (b c : EngineCmd) : Bool :=
  decide (b.id < c.id) &&
    (b.owner == c.owner && b.snap.isNone ||
    match b.instr, c.instr with
     | .pub _, .pub _ => b.owner == c.owner
     | .kvfile _, .kvfile _ => b.owner.1 == c.owner.1 && b.owner.2.1 == c.owner.2.1
     | _, _ => false)

/-- A command may do its work now: instructions committed before it have left the queues (R112), and a PUB has behind it
the commands of its context that write its buffer, and its release (R114), at domain and system scope with every module's
acknowledgement (R361). -/
def State.mayEnd (s : State) (c : EngineCmd) : Bool :=
  let earlier := s.engines.filter (fun b => decide (b.id < c.id) && b.owner == c.owner)
  let pub := match c.instr with
    | .pub _ =>
      let d := (s.descriptorOf c).getD []
      !earlier.any (fun b => s.mayWrite b (fieldLE d 0 8) (fieldLE d 8 8)) &&
        (c.ctx != .access || !((s.residentOwner c).map (fun p => p.2.feeding)).getD false) &&
        !(decide (4 ≤ c.scope.toNat) && s.acksOwed)
    | _ => true
  !s.earlierWork c && !s.engines.any (fun b => b.precedes c) && pub

/-! ## How a command ends (R245, R246, R258) -/

/-- What a command works with, as things stand. -/
def State.workOf (s : State) (c : EngineCmd) : Work :=
  { cmd := c, agent := s.engineAgent c, st := (s.ownerOf c).getD Strand.blank }

/-- What a command reads as a snapshot behind its descriptor: by a KVFILE the block table's descriptor (R264, R346). -/
def Job.structure (j : Job) (w : Work) (i : Instr) (d : List Byte) : List Byte × Job :=
  match i with
  | .kvfile _ => if fieldLE d 0 8 % 8 = 0 && zeroBytes d 16 16 then j.read w (fieldLE d 0 8) 32 else ([], j)
  | _ => ([], j)

/-- A command starts: its descriptor is read as a snapshot, with the block table's by a KVFILE, and by an UPD the skip word (R257,
R262, R346). -/
def State.startCommand (s : State) (c : EngineCmd) : EngineCmd × Job :=
  let w := s.workOf c
  let size := descriptorSize c.instr
  let j : Job := { s, stop := none, flags := 0, pages := [] }
  if c.snap.isSome then (c, j)
  else
    let j1 := if c.desc.toNat % size.2 ≠ 0 then j.fault .misaligned c.desc.toNat else j
    let d := j1.read w c.desc.toNat size.1
    let skip := match c.instr with
      | .upd _ => let x := d.2.readElem w (fieldLE d.1 32 8) 8; (some x.1, x.2)
      | _ => (none, d.2)
    let more := skip.2.structure w c.instr d.1
    let c1 : EngineCmd := { c with snap := some (d.1 ++ more.1), skip := skip.1 }
    if more.2.stop.isSome then (c, more.2)
    else (c1, { more.2 with s := { more.2.s with engines := more.2.s.engines.map (fun b => if b.id = c.id then c1 else b) } })

/-- The command's work, once it has started. -/
def State.work (s : State) (c : EngineCmd) : Option Ending × Job :=
  let x := s.startCommand c
  let j := x.2
  if j.stop.isSome then (none, { j with s })
  else
    let w := s.workOf x.1
    let d := x.1.snap.getD []
    let some_ := fun (r : Ending × Job) => (some r.1, r.2)
    match c.instr with
    | .cpy _ => some_ (j.cpy w d)
    | .pub _ => some_ (j.pub w d)
    | .cred _ => j.cred w d
    | .upd _ => some_ (j.upd w d)
    | .rinv _ => some_ (j.rinv w d)
    | .kvfile _ => some_ (j.kvfile w d)
    | .rqnt _ => some_ (j.rqnt w d)
    | _ => (some .complete, j)

/-- The place of a command's completion object, none where it names none (R246). -/
def State.objectPlace (s : State) (c : EngineCmd) : Res (Option Place) :=
  let va := c.object.toNat
  let a := s.engineAgent c
  let st := (s.ownerOf c).getD Strand.blank
  if (commandFields c.instr).gb = 0 then .ok none
  else if va % 64 ≠ 0 then .fault .misaligned va
  else
    match s.route st 0 .other va 64 with
    | .memory =>
      match s.resolve a va .atomic with
      | .fault e => .fault e va
      | .miss => .miss va .atomic
      | .absent pa => .stop (.absentAddress pa)
      | .ok p =>
        if s.poisoned p || s.unreachable p then .fault .uncorrectable va
        else
          match p with
          | .host _ => .fault .protection va
          | p => if badObject (s.homeBytes p 64) then .fault .protection va else .ok (some p)
    | _ => .fault .protection va

/-- The arrival of a command at its object: LAST, ANY, CAUSE and DETAIL, then the arrival of a BARRIVE (R245, R246). -/
def State.arriveAt (s : State) (p : Place) (status : Nat) (cause : Option Cause) (detail : Word) : State :=
  let bs := s.homeBytes p 64
  let b1 := putField (putField bs 16 (leBytes 1 status)) 17 (leBytes 1 (((BitVec.ofNat 8 (fieldLE bs 17 1)) ||| BitVec.ofNat 8 (2 ^ status)).toNat))
  let b2 := match cause with
    | some x => putField b1 18 (leBytes 1 x.code.toNat)
    | none => b1
  let new := (arrive (putField b2 24 (leBytes 8 detail.toNat))).take 32
  s.putBytes Config.clusters p new

/-- The command is no longer outstanding, which the firmware learns (R339); shadows of a context that is gone lose it as their owner
with its last command. -/
def State.removeCommand (s : State) (c : EngineCmd) : State :=
  let s0 := match s.launch? c.owner.1 with
    | some l => s.report l.queue
    | none => s
  let s1 := ({ s0 with engines := s.engines.filter (fun b => b.id != c.id) }).dropXlatFaults (.engine c.id)
  let gone := match s1.ownerOf c with
    | some st => (st.ctx c.ctx).retired
    | none => true
  if gone && !s1.engines.any (fun b => b.owner == c.owner) then s1.dropOwners (fun o => o == c.owner) else s1

/-- The part of a collective that a command which ended badly was. -/
def State.losePart (s : State) (c : EngineCmd) : State :=
  match c.instr, s.descriptorOf c with
  | .cred _, some d => s.credOver d true
  | _, _ => s

/-- A cause owed to the command's context, or to the execute context where the access context has retired (R258). -/
def State.oweError (s : State) (c : EngineCmd) (cause : Cause) : State :=
  s.updOwner c (fun st =>
    let id : CtxId := if c.ctx = .access ∧ st.access.retired then .execute else c.ctx
    let x := st.ctx id
    st.setCtx id { x with engineErrors := x.engineErrors ++ [(cause, c.pc, c.strip)] })

/-- A command ends with status 0x03: its shadow pages are errored, and it arrives where it names an object it can reach. -/
def commandFails (c : EngineCmd) (j : Job) (object : Option Place) (cause : Cause) (va : Nat) : State :=
  let s1 : State := { j.s with shadows := j.s.shadows.map (fun sh =>
      if sh.asid == c.asid && j.pages.contains (sh.scratch, sh.va) then
        { sh with errored := (match sh.errored with
            | some e => some e
            | none => some cause) }
      else sh) }
  let s2 := (s1.losePart c).updOwner c (fun st =>
    st.setCtx c.ctx { st.ctx c.ctx with flags := (st.ctx c.ctx).flags ||| j.flags })
  let s3 := match object with
    | some p => s2.arriveAt p 3 (some cause) (BitVec.ofNat 64 va)
    | none => s2
  (s3.oweError c cause).removeCommand c

/-- A command ends with another status; DETAIL of one that did its work in full is 0 (log 27). -/
def State.commandEnds (s : State) (c : EngineCmd) (flags : Flags) (object : Option Place) (e : Ending) : State :=
  let s1 := s.updOwner c (fun st => st.setCtx c.ctx { st.ctx c.ctx with flags := (st.ctx c.ctx).flags ||| flags })
  let s2 := match object with
    | some p =>
      match (if e.status = 0 then some 0 else e.detail) with
      | some x => s1.arriveAt p e.status e.cause x
      | none => (s1.arriveAt p e.status e.cause (Config.engineDetail s1.draws)).drawn
    | none => s1
  s2.removeCommand c

/-- ENGINE_COMPLETE: a command that may starts, does its work and arrives. A CRED contributes, and stays until every member has
contributed or is lost; a miss is walked first. -/
def execEngineComplete (cmd : Nat) (s : State) : Out :=
  match s.engines.find? (fun c => c.id == cmd) with
  | none => .next s
  | some c =>
    let idle : Job := { s, stop := none, flags := 0, pages := [] }
    if c.stopped then
      match s.objectPlace c with
      | .ok p => .next ((s.losePart c).commandEnds c 0 p { status := 4, detail := none, cause := none })
      | .miss va i => .next (s.startWalk (s.engineAgent c) va i)
      | .stop f => .fault f
      | _ => .next ((s.losePart c).removeCommand c)
    else if !s.mayEnd c then .next s
    else
      match s.objectPlace c with
      | .miss va i => .next (s.startWalk (s.engineAgent c) va i)
      | .stop f => .fault f
      | .fault cause va => .next (commandFails c idle none cause va)
      | .gated | .partnerEnded => .next s
      | .ok p =>
        let x := s.startCommand c
        let started := if x.2.stop.isSome then s else x.2.s
        match s.work c with
        | (_, { stop := some (.miss va i), .. }) => .next (started.startWalk (s.engineAgent c) va i)
        | (_, { stop := some (.halt f), .. }) => .fault f
        | (_, j@{ stop := some (.fault cause va), .. }) => .next (commandFails x.1 j p cause va)
        | (none, j) => .next j.s
        | (some e, j) => .next (j.s.commandEnds x.1 j.flags p e)

/-- ENGINE_ERROR_DELIVERY: an erring command's cause is raised in the turn's context, at once when it waits (R258, R309). -/
def execEngineErrorDelivery (s : State) : Out :=
  match s.strand? s.cur.slot with
  | none => .next s
  | some st =>
    match (st.ctx s.cur.ctx).engineErrors with
    | [] => .next s
    | _ =>
      if !st.issues s.cur.ctx then .next s
      else .next ((s.boundary s.cur.slot s.cur.ctx).getD s)

end Sys2Proof.Machine
end

