-- ==== Sys2Proof/Machine/Control.lean ====
section
/-!
DEFINITION. Machine/Control.lean: the control registers (R3, R20, R27, R30, R36, R48, R50, R52, R70, R74, R76, R81 to R84,
R90, R95, R96, R135, R250, R305 to R308, R315, R320, R324), YIELD (R317), TRAPRET (R318, R356), VFSAVE and VFLOAD (R312 to
R314, R357), TLBINV (R321, R334) and WFE (R322), and the requests and traps of the hardware (R309, R315, R316).
-/
namespace Sys2Proof.Machine

/-- A YS system instruction in user numbers, or whose privilege its own register decides (R131, R135). -/
def crForm (priv : Bool) : Form := { words := 2, imx := .refused, mattr := .refused, priv }

/-- Illegal instruction, with the first word (R310). -/
def Env.illegal (e : Env) (i : Instr) (s : State) : Act := .trap .illegalInstruction (e.c.firstWord i) s

/-! ## What the registers read -/

/-- A bit at a place. -/
def flagAt (p : Bool) (n : Nat) : Nat := if p then 2 ^ n else 0

/-- VTAGSLO or VTAGSHI from tag k upward (R70). -/
def tagsWord (tags : Vector Tag 32) (k : Nat) : Word :=
  BitVec.ofNat 64 ((List.range 16).map (fun i => (tagAt tags (k + i)).toNat * 16 ^ i)).sum

/-- PART (R27). -/
def State.partWord (s : State) (slot : Nat) : Word :=
  let c := s.cluster (clusterOf slot)
  let l := s.lanes slot
  BitVec.ofNat 64 ((if l.2 = 0 then 0 else l.1) * 2 ^ 16 + l.2 * 2 ^ 8 + flagAt c.repartition.isSome 2 + c.mode.toNat)

/-- STRANDID (R36). -/
def State.strandWord (s : State) (e : Env) : Word :=
  let v := ((s.launch? e.st.launch).map (fun l => l.spec.vclusters)).getD 0
  BitVec.ofNat 64 ((if v = 0 then e.st.vcluster else e.st.vcluster % v) * 2 ^ 16 + flagAt (e.ctx == .access) 7 + e.slot % 4)

/-- Time units between the starts of two banks' refreshes, and of one refresh (R96). -/
def refreshPeriod : Nat := 1407656250
/-- 2 µs -/
def refreshLength : Nat := 90090000

/-- WSCAL of a die: its calendar as it stands in time; a refresh that ends now still reads as busy (R96, R370). -/
def State.calendar (s : State) (die : Nat) : Word :=
  let r := s.refresh.toList.getD die Refresh.blank
  let t := s.time - r.origin
  let k := t / refreshPeriod
  let left := (k + 1) * refreshPeriod - t
  BitVec.ofNat 64 (ceilDiv left (cycleUnits s.clockMHz) % 2 ^ 16 * 2 ^ 32 +
    flagAt (decide (t % refreshPeriod ≤ refreshLength)) 31 + (k + 1) % 1024 * 2 ^ 16 + k % 1024)

/-- WSGEN (R95). -/
def Strand.wsGen (st : Strand) : Word :=
  let valid := ((List.range (min 16 st.wsBindings.length)).map (fun k => 2 ^ k)).sum
  let slots := ((List.range 16).map (fun k => (((st.wsBindings[k]?).map (·.slot)).getD 0) % 2 * 2 ^ k)).sum
  BitVec.ofNat 64 (valid * 2 ^ 32 + slots)

/-- SIBGRP (R250). -/
def State.sibgrp (s : State) (st : Strand) : Word :=
  match s.siblingOf st with
  | none => 0
  | some (index, gid, g, _) =>
    BitVec.ofNat 64 (2 ^ 63 + gid * 2 ^ 32 + (g.quorum - 1) * 2 ^ 16 + (g.n - 1) * 2 ^ 8 + index)

/-- TSTATUS (R306). -/
def Context.tstatus (c : Context) : Word :=
  BitVec.ofNat 64 (flagAt c.intrap 5 + flagAt c.vimprecise 4 + flagAt c.ie 3 + flagAt c.ven 2 + flagAt c.ppriv 1 + flagAt c.priv 0)

/-- What a CRRD returns, none for an unassigned number (R81, R135). XFLAGS and VSTART have rows of their own. -/
def State.controlRead (s : State) (e : Env) (number : Nat) : Option Word :=
  let own := fun (x : Word) => if e.ctx = .execute then x else 0
  match number with
  | 0x000 => some (BitVec.ofNat 64 e.st.clocks)
  | 0x001 => some e.c.issues
  | 0x002 => some (s.strandWord e)
  | 0x003 => some (s.partWord e.slot)
  | 0x011 => some (s.vcommit e.slot e.st e.c.pc)
  | 0x012 => some (own (tagsWord e.st.tags 0))
  | 0x013 => some (own (tagsWord e.st.tags 16))
  | 0x015 => some (zext e.st.xrm)
  | 0x016 => some (zext e.st.seed)
  | 0x017 => some (zext e.st.xtrapen)
  | 0x018 => some (zext e.st.edge)
  | 0x019 => some (zext e.st.vbypass)
  | 0x01A => some (zext e.st.slip)
  | 0x020 => some (s.calendar (dieOf (clusterOf e.slot)))
  | 0x021 => some e.st.wsGen
  | 0x030 => some (s.sibgrp e.st)
  | 0x100 => some e.c.tstatus
  | 0x101 => some (BitVec.ofNat 64 (flagAt e.c.causeVector 8 + e.c.cause.toNat))
  | 0x102 => some e.c.tpc
  | 0x103 => some e.c.tval
  | 0x104 => some e.c.tvec
  | 0x105 => some e.c.tscratch
  | 0x106 => some (own (zext e.st.vdirty))
  | 0x107 => some (own (zext e.st.adirty))
  | 0x108 => some (own 0x4000)
  | 0x110 => some (zext e.st.asid)
  | 0x111 => some e.st.ptroot
  | 0x112 => some s.tlbseq
  | 0x120 => some (zext e.st.canlimit)
  | 0x121 => some (BitVec.ofNat 64 (e.c.reason.toNat * 256 + flagAt e.c.preempt.isSome 0))
  | _ => none

/-- CRRD, of every register but XFLAGS and VSTART (R81, R135, R320). DESIGN CHOICE: of ISSUES it gives the value before it is
counted itself (R82, log 97). -/
def execCrrd (f : YsF) (s : State) : Out :=
  s.issue (.crrd f) (crForm (decide (0x100 ≤ f.imm.toNat))) [f.gd] (fun e =>
    match s.controlRead e f.imm.toNat with
    | some x => .done (s.setReg e f.gd x)
    | none => e.illegal (.crrd f) s)

/-! ## What the registers take -/

/-- TSTATUS as written (R306). -/
def Context.setTstatus (c : Context) (x : Word) : Context :=
  { c with intrap := bit x 5, vimprecise := bit x 4, ie := bit x 3, ven := bit x 2, ppriv := bit x 1, priv := bit x 0 }

/-- SLIP as written (R30). -/
def slipOf (x : Word) : BitVec 4 :=
  let n : BitVec 4 := bits x 0 4
  if n = 0 then 1 else if 8 < n.toNat then 8 else n

/-- VBYPASS as written (R90). -/
def vbypassOf (x : Word) : BitVec 25 :=
  let n : BitVec 25 := bits x 0 25
  if 0x1000000 < n.toNat then 0x1000000 else n

/-- The strand after a CRWR of a register of its own; a read-only register takes nothing (R3). -/
def Strand.controlWrite (st : Strand) (ctx : CtxId) (number : Nat) (x : Word) : Strand :=
  let c := st.ctx ctx
  match number with
  | 0x015 => { st with xrm := if 5 < (bits x 0 3).toNat then 0 else bits x 0 3 }
  | 0x017 => { st with xtrapen := bits x 0 7 &&& 0x5C }
  | 0x018 => { st with edge := bits x 0 2 }
  | 0x019 => { st with vbypass := vbypassOf x }
  | 0x01A => { st with slip := slipOf x }
  | 0x100 => st.setCtx ctx (c.setTstatus x)
  | 0x101 => st.setCtx ctx { c with causeVector := bit x 8, cause := bits x 0 8 }
  | 0x102 => st.setCtx ctx { c with tpc := x }
  | 0x103 => st.setCtx ctx { c with tval := x }
  | 0x104 => st.setCtx ctx { c with tvec := x &&& ~~~0x3F }
  | 0x105 => st.setCtx ctx { c with tscratch := x }
  | 0x106 => if ctx = .execute then { st with vdirty := bits x 0 32 } else st
  | 0x107 => if ctx = .execute then { st with adirty := bits x 0 4 } else st
  | 0x120 => { st with canlimit := bits x 0 32 }
  | _ => st

/-- CRWR, of every register without a row of its own (R76, R81, R135, R320). -/
def execCrwr (f : YsF) (s : State) : Out :=
  s.issue (.crwr f) (crForm (decide (0x100 ≤ f.imm.toNat))) [f.ga] (fun e =>
    let number := f.imm.toNat
    let x := e.reg f.ga
    match s.controlRead e number with
    | none => e.illegal (.crwr f) s
    | some _ =>
      if number = 0x018 ∧ (bits x 0 2 : BitVec 2) = 3 then e.illegal (.crwr f) s
      else .done (s.updStrand e.slot (fun st => st.controlWrite e.ctx number x)))

/-- A CRRD or CRWR of VSTART or XFLAGS, or a CRWR of XSEED, waits for the VQ of its execute context, unless a frame is
held (R50, R74, R83, R312). DEDUCED: in the access context none of them waits (log 98). -/
def Env.vqWait (e : Env) : Bool := e.ctx == .execute && !e.st.vq.isEmpty && e.st.frame.isNone

/-- CRRD of XFLAGS (R83). -/
def execXflagsRead (gd : Reg) (s : State) : Out :=
  s.issue (.xflagsRead gd) (crForm false) [gd] (fun e =>
    if e.vqWait then .wait .drain s
    else
      let x := if e.ctx = .execute then e.st.laneFlags.toList.foldl (fun (f g : Flags) => f ||| g) e.c.flags else e.c.flags
      .done (s.setReg e gd (zext x)))

/-- CRWR of XFLAGS (R83). -/
def execXflagsWrite (ga : Reg) (s : State) : Out :=
  s.issue (.xflagsWrite ga) (crForm false) [ga] (fun e =>
    if e.vqWait then .wait .drain s
    else
      let x : Flags := bits (e.reg ga) 0 7
      .done (s.updStrand e.slot (fun st =>
        let st1 := if e.ctx = .execute then { st with laneFlags := Vector.replicate 64 x } else st
        st1.setCtx e.ctx { st1.ctx e.ctx with flags := x })))

/-- XSEED written: the words of the writing context, and of the lanes in the execute context (R50, R52). DESIGN CHOICE: the seed
is one register for both contexts (log 106). -/
def Strand.reseed (st : Strand) (ctx : CtxId) (z : Half) : Strand :=
  let st1 : Strand := { st with seed := z, sr := if ctx = .execute then srLanes z else st.sr }
  st1.setCtx ctx { st1.ctx ctx with sr := srScalar z }

/-- CRWR of XSEED: what has been committed before draws from the old words, in the matrix queue as well (R50, R52). -/
def execXseedWrite (ga : Reg) (s : State) : Out :=
  s.issue (.xseedWrite ga) (crForm false) [ga] (fun e =>
    if e.vqWait || (e.ctx == .execute && !(s.matrixWork e.slot).isEmpty) then .wait .drain s
    else .done (s.updStrand e.slot (fun st => st.reseed e.ctx (bits (e.reg ga) 0 32))))

/-- CRRD or CRWR of VSTART (R74). -/
def execVstartAccess (write : Bool) (r : Reg) (s : State) : Out :=
  s.issue (.vstartAccess write r) (crForm false) [r] (fun e =>
    if e.vqWait then .wait .drain s
    else if write then
      .done (if e.ctx = .execute then s.updStrand e.slot (fun st => { st with vstart := bits (e.reg r) 0 13 }) else s)
    else .done (s.setReg e r (if e.ctx = .execute then zext e.st.vstart else 0)))

/-! ## ASID and PTROOT (R324) -/

/-- A strand has a bound stream slot. -/
def Strand.anyStream (st : Strand) : Bool := (List.range 8).any (fun k => (st.stream k).isSome || (st.committedStream k).isSome)

/-- A context that waits for a translation keeps the ASID and PTROOT with which its access issued (R324). -/
def Context.keepSpace (c : Context) (st : Strand) : Context :=
  match c.wait with
  | some w => if w.kind = .translation ∧ w.space.isNone then { c with wait := some { w with space := some (st.asid, st.ptroot) } } else c
  | none => c

/-- A CRWR of ASID or PTROOT, its refusals first, then its wait (R324). -/
def State.spaceWrite (s : State) (e : Env) (refused : Bool) (f : Strand → Strand) : Act :=
  if refused || e.st.frame.isSome || e.st.anyStream then refuse s
  else if !(s.drained e.slot e.st) then .wait .drain s
  else .done (s.updStrand e.slot (fun st =>
    f (st.setCtx (otherCtx e.ctx) ((st.ctx (otherCtx e.ctx)).keepSpace st))))

/-- CRWR of ASID. -/
def execAsidWrite (ga : Reg) (s : State) : Out :=
  s.issue (.asidWrite ga) (crForm true) [ga] (fun e =>
    let x : BitVec 16 := bits (e.reg ga) 0 16
    let ours := ((lookup s.spaces x.toNat).map (fun r => r.part == s.partOf e.st)).getD false
    s.spaceWrite e (x == 0 || !ours) (fun st => { st with asid := x }))

/-- PTROOT as written. -/
def rootOfWord (x : Word) : Word := x &&& 0x00FFFFFFFFFFFC00

/-- CRWR of PTROOT. -/
def execPtrootWrite (ga : Reg) (s : State) : Out :=
  s.issue (.ptrootWrite ga) (crForm true) [ga] (fun e =>
    s.spaceWrite e false (fun st => { st with ptroot := rootOfWord (e.reg ga) }))

/-! ## YIELD and TRAPRET (R317, R318, R356) -/

/-- CRWR of PREEMPT: YIELD = 1 ends the context's residence when its cause is 0x10; otherwise it is ignored (R317). -/
def execYield (ga : Reg) (s : State) : Out :=
  s.issue (.yield ga) (crForm true) [ga] (fun e =>
    if bit (e.reg ga) 2 && e.c.cause == 0x10 then
      .instead ((s.updCtx e.slot e.ctx (fun c => { (c.advance (c.pc + 8)) with yielded := true })).contextGone e.slot)
    else .done s)

/-- TRAPRET. -/
def execTrapret (f : YsF) (s : State) : Out :=
  s.issue (.trapret f) (crForm true) [] (fun e => .instead (s.trapReturn e.slot e.ctx))

/-! ## VFSAVE and VFLOAD (R312 to R314, R357) -/

/-- Bytes of a frame of q instructions, with or without a bound stream slot (R357). -/
def frameSize (q : Nat) (streams : Bool) : Nat := 512 + 256 * ceilDiv q 2 + (if streams then 512 else 0)

/-- The frame as it lies in memory (R314, R357). `body` gives the opaque bytes past the first 512. -/
def frameBytes (f : Frame) (streams : Bool) (body : Nat → Byte) : List Byte :=
  let q := f.queued.length + f.matrix.length
  let size := frameSize q streams
  leBytes 2 1 ++ [1, 0] ++ leBytes 4 size ++ leBytes 2 f.queued.length ++ leBytes 1 f.matrix.length ++
    leBytes 1 (flagAt f.vimprecise 0 + flagAt streams 1) ++ List.replicate 4 0 ++ leBytes 8 f.vcommit.toNat ++
    leBytes 1 f.mode.toNat ++ List.replicate 39 0 ++ f.sr.toList.flatMap (fun w => leBytes 4 w.toNat) ++
    List.replicate 192 0 ++ (List.range (size - 512)).map body

/-- The entry as a frame in memory holds it: it is behind no repartition. -/
def VqEntry.stored (e : VqEntry) : VqEntry := { e with marked := false }

/-- The frame VFSAVE writes: the held one, or an empty one, whose VCOMMIT is that of the trap (R20, R314, R357). -/
def State.frameToSave (s : State) (e : Env) : Frame × Bool :=
  let mode := (s.cluster (clusterOf e.slot)).mode
  match e.st.frame with
  | some f =>
    ({ f with
        queued := f.queued.map VqEntry.stored, matrix := f.matrix.map VqEntry.stored
        streams := e.st.streams, mode }, e.st.streams.toList.any (·.isSome))
  | none =>
    ({ queued := [], matrix := [], pending := [], sr := e.st.sr, vimprecise := e.c.vimprecise, vcommit := e.st.charged.getD e.c.tpc, mode
       vstart := e.st.vstart, streams := e.st.streams, owner := (e.st.launch, e.st.ordinal) },
     e.st.streams.toList.any (·.isSome))

/-- VFSAVE; in the access context it is illegal whatever PRIV holds (R119, R313). -/
def execVfsave (f : YsF) (s : State) : Out :=
  s.issue (.vfsave f) (crForm (s.cur.ctx == .execute)) [f.gd, f.ga] (fun e =>
    let va := (e.reg f.ga).toNat
    if e.ctx = .access then e.illegal (.vfsave f) s
    else if va % 256 ≠ 0 then .trap .misaligned (e.reg f.ga) s
    else if s.heldBack e none then .wait .drain s
    else if s.repartitioning e.slot then .wait .frame s
    else
      let x := s.frameToSave e
      let bs := frameBytes x.1 x.2 (Config.frameBody s.draws)
      ((s.writeCheck e.st va bs.length).bind (fun _ => s.storeSpan e.agent e.agent.cluster va bs)).sync e s f.gd (fun s1 =>
        let s2 : State := { s1 with frames := insertKey s1.frames s.draws x.1 }
        .done (((s2.drawn).updStrand e.slot (fun st =>
          { st with frame := none, charged := none, away := st.away ++ (x.1.queued ++ x.1.matrix).map (·.seq) })).setReg e f.gd (BitVec.ofNat 64 bs.length))))

/-- Bytes of a frame that VFSAVE has written. -/
def Frame.size (f : Frame) : Nat := frameSize (f.queued.length + f.matrix.length) (f.streams.toList.any (·.isSome))

/-- A frame without a body was written by another strand: some VFSAVE wrote its lane words, and none of the strand's own (R313,
log 16). -/
def State.foreignEmpty (s : State) (owner : Nat × Nat) (words : Vector Half 64) : Bool :=
  let matching := s.frames.filter (fun p => p.2.size == 512 && p.2.sr == words)
  !matching.isEmpty && matching.all (fun p => p.2.owner != owner)

/-- The saved frame that a header and a body were written for. Only the body decides, but free bodies may agree: then the
header does, and of the strand's own the last (R313, log 16). -/
def State.savedFrame (s : State) (owner : Nat × Nat) (header body : List Byte) : Option Frame :=
  let matching := (s.frames.filter (fun p => p.2.size == body.length + 512 && (List.range body.length).map (Config.frameBody p.1) == body)).reverse
  let own := matching.filter (fun p => p.2.owner == owner)
  let said := fun (f : Frame) => f.queued.length == fieldLE header 8 2 && f.matrix.length == fieldLE header 10 1 &&
    f.vcommit.toNat == fieldLE header 16 8
  match own.find? (fun p => said p.2) with
  | some p => some p.2
  | none => ((own ++ matching).head?).map (·.2)

/-- VFLOAD, once the queues are empty: the header's checks, the lane words, then the frame. Slots that have stayed with the
strand are kept. -/
def State.loadFrame (s : State) (e : Env) (va : Nat) : Res State :=
  (s.readObject e va 64).bind (fun h =>
    if fieldLE h 2 1 % 2 = 0 then .ok (s.noteRead e.agent va 64)
    else
      let size := fieldLE h 4 4
      let q := fieldLE h 8 2 + fieldLE h 10 1
      let bad : Res State := .fault .protection va
      let read := s.noteRead e.agent va size
      if fieldLE h 0 2 ≠ 1 ∨ size % 256 ≠ 0 ∨ size < 512 ∨ 0x4000 < size ∨ e.st.frame.isSome ∨
          fieldLE h 24 1 ≠ (s.cluster (clusterOf e.slot)).mode.toNat then bad
      else
        (s.readObject e (va + 64) (size - 64)).bind (fun b =>
          let words : Vector Half 64 := Vector.ofFn (fun l => BitVec.ofNat 32 (fieldLE b (4 * l.val) 4))
          let own := (e.st.launch, e.st.ordinal)
          if size = 512 ∧ s.foreignEmpty own words then bad
          else if size = 512 then .ok (read.updStrand e.slot (fun st => { st with sr := words }))
          else
            match s.savedFrame own h (b.drop 448) with
            | none => bad
            | some f =>
              if f.owner ≠ own then bad
              else
                let st := e.st
                let streams := if st.streams.toList.any (·.isSome) then st.streams else f.streams
                let frame := if 0 < q then some { f with sr := words, streams := Vector.replicate 8 none } else none
                .ok (read.setStrand e.slot { st with
                  sr := words, streams, frame, savedPins := []
                  away := st.away.filter (fun n => !(f.queued ++ f.matrix).any (fun x => x.seq == n)) })))

/-- VFLOAD; in the access context it is illegal whatever PRIV holds (R119, R313). -/
def execVfload (f : YsF) (s : State) : Out :=
  s.issue (.vfload f) (crForm (s.cur.ctx == .execute)) [f.ga] (fun e =>
    let va := (e.reg f.ga).toNat
    if e.ctx = .access then e.illegal (.vfload f) s
    else if va % 256 ≠ 0 then .trap .misaligned (e.reg f.ga) s
    else if !(e.st.vq.isEmpty && ((s.cluster (clusterOf e.slot)).matrixOf e.slot).isEmpty) then .wait .frame s
    else (s.loadFrame e va).sync e s 0 .done)

/-! ## TLBINV (R215, R321, R334) -/

/-- The invalidation a TLBINV names. -/
def Env.invalidation (e : Env) (f : YsF) : Invalidation :=
  let asid := (bits (e.reg f.gb) 0 16 : BitVec 16).toNat
  match f.fn7.toNat with
  | 1 => .page asid (e.reg f.ga).toNat
  | 2 => .space asid
  | _ => .all

/-- TLBINV: a release, then the invalidation, and then the wait for the chunks that use an old translation. -/
def execTlbinv (f : YsF) (s : State) : Out :=
  s.issue (.tlbinv f) (crForm true) [f.gd, f.ga, f.gb] (fun e =>
    let finish : State → Nat → List (Nat × Nat × Nat) → Act := fun s1 seq l =>
      if s1.chunksLeft l then .wait (.invalidation seq l) s1 else .done (s1.setReg e f.gd (BitVec.ofNat 64 seq))
    match e.c.wait.map (fun (w : Waiting) => w.kind) with
    | some (.invalidation seq l) => finish s seq l
    | _ =>
      if f.fn7.toNat = 3 ∧ (bits (e.reg f.gb) 0 16 : BitVec 16) ≠ 0 then refuse s
      else if s.heldBack e (some 5) then .wait .drain s
      else
        let i := e.invalidation f
        let s1 := s.invalidate i
        finish s1 s1.tlbseq.toNat (s.oldChunks i))

/-! ## WFE (R322) -/

/-- WFE. -/
def execWfe (f : YsF) (s : State) : Out :=
  s.issue (.wfe f) (crForm true) [f.gd] (fun e =>
    let limit := 1024 * f.imm.toNat
    let expired : Bool := match e.c.wait with
      | some w => w.kind == Wait.wfe limit && decide (0 < limit) && decide (limit ≤ s.now - w.since)
      | none => false
    if e.c.preempt.isSome || e.c.cancel.isSome then .done (s.setReg e f.gd 1)
    else if expired then .done (s.setReg e f.gd 0)
    else .wait (.wfe limit) s)

/-- WFE_TIMEOUT. -/
def execWfeTimeout (s : State) : Out :=
  s.wake (fun w => match w with
    | .wfe limit => decide (0 < limit)
    | _ => false) (fun i => match i with
    | .wfe f => some (execWfe f)
    | _ => none)

/-! ## Requests and traps of the hardware -/

/-- A pre-emption request delivered to a context (R242, R315). -/
def Context.request (c : Context) (reason : BitVec 8) (now : Nat) : Context :=
  if c.retired || c.cancelled || c.yielded || c.preempt.isSome then c else { c with preempt := some now, reason }

/-- A pre-emption request delivered to both contexts of a strand, which has started or is to start. -/
def State.requestPreempt (s : State) (slot : Nat) (reason : BitVec 8) : State :=
  s.updStrand slot (fun st =>
    if st.life = .retired then st else { st with exec := st.exec.request reason s.now, access := st.access.request reason s.now })

/-- A context waits as R32 lists it: a translation counts once it is parked on a page request. SFEED's wait is one by R212. -/
def State.waitsLong (s : State) (slot : Nat) (id : CtxId) (w : Waiting) : Bool :=
  match w.kind with
  | .queue _ | .watermark _ _ | .barrier | .commit | .register _ | .wfe _ | .feed _ => true
  | .translation => s.pageReqs.any (fun p => p.2.who.contains (.context slot id))
  | _ => false

/-- A context that is overdue may be stopped now: at once in a wait of R32, else at its boundary, once its started vector
instructions are complete. A walk is waited for; what else holds an instruction before it has an effect is abandoned (R309, R316,
log 112). -/
def State.mayStop (s : State) (slot : Nat) (id : CtxId) (st : Strand) : Bool :=
  let idle := !(id == .execute && (st.vq.any (fun e => e.progress == .waiting) || s.arrayBusy slot))
  match (st.ctx id).wait with
  | none => idle
  | some w => s.waitsLong slot id w || (w.kind != .translation && idle)

/-- CANCEL_LIMIT_STOP: a context that is overdue is stopped where it may be; a cancel takes effect there, a pre-emption is taken
even with IE = 0 (R316). -/
def execCancelLimitStop (s : State) : Out :=
  let slot := s.cur.slot
  let id := s.cur.ctx
  match s.strand? slot with
  | none => .next s
  | some st =>
    let c := st.ctx id
    if !(st.issues id && st.overdue c s.now) || c.midSequence || !s.mayStop slot id st then .next s
    else if c.cancel.isSome then .next (s.takeCancel slot id)
    else .next (if id = .execute ∧ s.arrayBusy slot then s else s.takePreempt slot id true false)

/-- IMPRECISE_TRAP: the imprecise fault that the turn's slot has detected is taken, between instructions (R130, R309, R311). -/
def execImpreciseTrap (s : State) : Out :=
  match s.strand? s.cur.slot with
  | none => .next s
  | some st =>
    s.when (st.issues .execute && st.fault.isSome && !st.exec.midSequence && !s.arrayBusy s.cur.slot)
      (s.impreciseTrap s.cur.slot)

end Sys2Proof.Machine
end

