-- ==== Sys2Proof/Machine/Packets.lean ====
section
/-!
DEFINITION. Machine/Packets.lean: what the bytes of a queue packet, a kernel image header and a kernel descriptor say
(R268 to R272, R341 to R347).
-/
namespace Sys2Proof.Machine

/-! ## Fields -/

/-- An 8-byte field. -/
def wordLE (bs : List Byte) (off : Nat) : Word := BitVec.ofNat 64 (fieldLE bs off 8)

/-- Field of a packet. -/
def Packet.field (p : Packet) (off n : Nat) : Nat := fieldLE p.bytes off n

/-- TAG (R341). -/
def Packet.tag (p : Packet) : Half := BitVec.ofNat 32 (p.field 4 4)

/-- COMPL (R341). -/
def Packet.compl (p : Packet) : Word := wordLE p.bytes 8

/-- A LAUNCH or a SIBLAUNCH. -/
def PacketKind.launches : PacketKind → Bool
  | .launch | .siblaunch => true
  | _ => false

/-- The packet type that a TYPE byte names in a queue of a version (R341). -/
def packetType (version n : Nat) : PacketKind :=
  match n with
  | 0 => .nop
  | 1 => .launch
  | 2 => if version = 2 then .siblaunch else .invalid
  | 3 => .barrier
  | 4 => .waitval
  | 5 => .wsload
  | 6 => .wsrel
  | 7 => if version = 2 then .depgraph else .invalid
  | _ => .invalid

/-! ## The limits of a packet (R341 to R345) -/

/-- Limits of a SHAPE word (R342). -/
def shapeOk (x : Nat) : Bool :=
  x % 4 != 3 && x / 4 % 4 != 3 && decide (x / 16 % 8 ≤ 4) && decide (x / 256 % 8 ≤ 4) && decide (x / 2048 % 256 ≤ 128) &&
    x / 2 ^ 19 % 2 ^ 12 == 0

/-- The common bytes (R341). -/
def commonOk (bs : List Byte) (launches : Bool) : Bool :=
  (if launches then decide (fieldLE bs 1 1 < 4) else zeroBytes bs 1 1) && decide (fieldLE bs 2 1 < 8) && zeroBytes bs 3 1 &&
    fieldLE bs 8 8 % 64 == 0

/-- The bytes of its own type (R342 to R345). What the image header decides is checked with it. -/
def bodyOk (version : Nat) (bs : List Byte) : PacketKind → Bool
  | .launch => fieldLE bs 16 8 % 64 == 0 && fieldLE bs 28 4 / 2 ^ 19 % 2 ^ 12 == 0
  | .siblaunch =>
    fieldLE bs 16 8 % 64 == 0 && fieldLE bs 28 4 / 2 ^ 19 % 2 ^ 12 == 0 && decide (1 ≤ fieldLE bs 88 1) &&
      decide (fieldLE bs 88 1 ≤ 64) && decide (1 ≤ fieldLE bs 89 1) && decide (fieldLE bs 89 1 ≤ fieldLE bs 88 1) &&
      zeroBytes bs 92 4 && fieldLE bs 96 8 % 8 == 0
  | .waitval =>
    fieldLE bs 16 8 % 8 == 0 && decide (fieldLE bs 40 1 < 4) && zeroBytes bs 41 23 && (version == 1 || zeroBytes bs 64 64)
  | .wsload =>
    fieldLE bs 16 8 != 0 && fieldLE bs 24 8 % 64 == 0 && fieldLE bs 32 4 % 1024 == 0 && decide (fieldLE bs 36 1 < 3) &&
      zeroBytes bs 37 3 && zeroBytes bs 48 16
  | .depgraph =>
    zeroBytes bs 18 2 && decide (1 ≤ fieldLE bs 20 4) && decide (fieldLE bs 20 4 ≤ 65536) && zeroBytes bs 32 96
  | .nop | .barrier | .wsrel => true
  | .invalid => false

/-- The type of a packet, or `invalid` (R341). The reserved bit 31 of SHAPE is PRESENT. -/
def packetKind (version : Nat) (bs : List Byte) : PacketKind :=
  let k := packetType version (fieldLE bs 0 1)
  if commonOk bs k.launches && bodyOk version bs k then k else .invalid

/-- The dependence fields of a packet (R342). -/
def depFields (version : Nat) (bs : List Byte) : List Nat :=
  (List.range (if version = 2 then 4 else 2)).map (fun i => fieldLE bs (32 + 4 * i) 4)

/-- No dependence (R342). -/
def noDep : Nat := 0xFFFFFFFF

/-! ## The kernel descriptor (R268 to R272) -/

/-- Operand record k of a descriptor of a kernel of a rank, where it keeps its limits (R271, R272). -/
def parseOperand (rank : Nat) (bs : List Byte) (k : Nat) : Option Operand :=
  let b := bs.drop (192 + 128 * k)
  let r := fieldLE b 9 1
  let tag := fieldLE b 8 1
  let flags := fieldLE b 11 1
  let o : Operand := {
    base := fieldLE b 0 8
    tag, rank := r
    kind := fieldLE b 10 1
    liveout := flags % 2 == 1
    consumedOnce := flags / 2 % 2 == 1
    wmen := flags / 4 % 2 == 1
    wmidx := flags / 8 % 8
    shape := (List.range r).map (fun d => fieldLE b (16 + 4 * d) 4)
    stride := (List.range r).map (fun d => fieldLEs b (32 + 8 * d) 8)
    coef := (List.range r).map (fun d => (List.range rank).map (fun j => fieldLEs b (64 + 4 * d + j) 1))
    offset := (List.range r).map (fun d => fieldLEs b (80 + 4 * d) 4) }
  let used := fun (d j : Nat) => decide (d < r) && decide (j < rank)
  if decide (tag < 16) && fieldLE b 0 8 % o.elemBytes == 0 && decide (1 ≤ r) && decide (r ≤ 4) && decide (o.kind < 3) &&
      decide (flags < 64) && zeroBytes b 12 4 && o.shape.all (fun x => x != 0) && zeroBytes b (16 + 4 * r) (16 - 4 * r) &&
      zeroBytes b (32 + 8 * r) (32 - 8 * r) &&
      (List.range 16).all (fun i => used (i / 4) (i % 4) || zeroBytes b (64 + i) 1) && zeroBytes b 96 32
  then some o else none

/-- Watermark binding k, with the operand that guards it (R115, R270). -/
def parseWatermark (bs : List Byte) (operands : List Operand) (k : Nat) : Option WmBinding :=
  let b := bs.drop (64 + 16 * k)
  let guard := fieldLE b 12 1
  if fieldLE b 0 8 % 8 ≠ 0 ∨ !zeroBytes b 13 3 then none
  else if fieldLE b 0 8 = 0 then some { word := 0, limit := fieldLE b 8 4, base := 0, size := 1 }
  else if guard = 0xFF then some { word := wordLE b 0, limit := fieldLE b 8 4, base := 0, size := 1 }
  else (operands[guard]?).map (fun o =>
    { word := wordLE b 0, limit := fieldLE b 8 4, base := BitVec.ofNat 64 o.base, size := o.elemBytes })

/-- Every one is there. -/
def allSome {α : Type} (l : List (Option α)) : Option (List α) :=
  l.foldr (fun x acc => match x, acc with
    | some a, some as => some (a :: as)
    | _, _ => none) (some [])

/-- A kernel descriptor from its 1,216 bytes, where it keeps its limits (R268). -/
def parseKDesc (addr : Nat) (bs : List Byte) : Option KDesc :=
  let rank := fieldLE bs 2 1
  let nops := fieldLE bs 4 1
  let bounds := (List.range rank).map (fun k => fieldLE bs (16 + 4 * k) 4)
  if addr % 64 == 0 && fieldLE bs 0 2 == 1 && decide (1 ≤ rank) && decide (rank ≤ 4) && decide (fieldLE bs 3 1 < rank) &&
      decide (nops ≤ 8) && decide (fieldLE bs 5 1 < 2) && zeroBytes bs 6 2 && bounds.all (fun x => x != 0) &&
      zeroBytes bs (16 + 4 * rank) (16 - 4 * rank) && fieldLE bs 32 4 != 0 && zeroBytes bs 36 28
  then
    match allSome ((List.range nops).map (parseOperand rank bs)) with
    | none => none
    | some operands =>
      (allSome ((List.range 8).map (parseWatermark bs operands))).map (fun watermarks =>
        { rank
          stripdim := fieldLE bs 3 1
          spliceable := fieldLE bs 5 1 == 1
          kernelId := fieldLE bs 8 8
          bounds
          striplen := fieldLE bs 32 4
          watermarks, operands })
  else none

/-! ## What a launch asks for (R342, R343, R346) -/

/-- SHAPE (R342). -/
def shapeOf (x : Nat) : Shape :=
  { strands := 2 ^ (x % 4)
    mode := BitVec.ofNat 2 (x / 4)
    acc := x / 16 % 8
    idle := x / 128 % 2 == 1
    splice := 262144 * (x / 256 % 8)
    journal := 4096 * (x / 2048 % 256) }

/-- The weight-store binding table at an address: pairs of REGION and GENNUM, up to a REGION of 0 (R342). -/
def parseWsb (bs : List Byte) : Nat → Nat → List (Nat × Nat)
  | 0, _ => []
  | n + 1, off =>
    if fieldLE bs off 8 = 0 then [] else (fieldLE bs off 8, fieldLE bs (off + 8) 8) :: parseWsb bs n (off + 16)

/-- The value, or another where it is zero. -/
def orElse (x y : Nat) : Nat := if x = 0 then y else x

/-- The binding table a packet names, or its header (R342). -/
def bindingTable (two : Bool) (bs h : List Byte) : Nat := orElse (if two then fieldLE bs 120 8 else 0) (fieldLE h 40 8)

/-- What a LAUNCH, SIBLAUNCH or task packet asks for, by the image header, descriptor and binding table as they stand; and
the REASON it is refused for by these, if it is (R268, R341, R342, R350). -/
def State.readSpec (s : State) (q : Queue) (prio : Nat) (bs : List Byte) : LaunchSpec × Option Nat :=
  let two := q.version == 2
  let h := s.fwRead q.asid (fieldLE bs 16 8) 64
  let kd := fieldLE h 16 8
  let kdesc := parseKDesc kd (s.fwRead q.asid kd 1216)
  let own := fieldLE bs 28 4
  let shape := if own / 2 ^ 31 = 1 then own else fieldLE h 28 4
  let sib := fieldLE bs 0 1 == 2
  let nargs := if sib then 5 else if two then 8 else 3
  let args := (List.range 8).map (fun i => if i < nargs then wordLE bs ((if two then 48 else 40) + 8 * i) else 0)
  let spill := orElse (if two then fieldLE bs 112 8 else 0) (fieldLE h 32 8)
  let wsb := bindingTable two bs h
  let vclusters := orElse (fieldLE bs 24 4) (fieldLE h 24 4)
  let flags := fieldLE bs 1 1 ||| fieldLE h 48 1
  let spec : LaunchSpec := {
    entryExec := wordLE h 0
    entryAccess := wordLE h 8
    kdesc, vclusters
    shape := shapeOf shape
    cohort := flags % 2 == 1
    loose := flags / 2 % 2 == 1
    args
    seed := BitVec.ofNat 32 (fieldLE bs 4 4)
    spillAddr := BitVec.ofNat 64 (spill / 4096 * 4096)
    spillSize := 4096 * (spill % 4096)
    wsb := if wsb = 0 then [] else parseWsb (s.fwRead q.asid wsb 256) 16 0
    compl := wordLE bs 8
    prio
    tag := BitVec.ofNat 32 (fieldLE bs 4 4)
    priv := false }
  let headerOk := decide (fieldLE h 48 1 < 4) && zeroBytes h 49 15
  (spec,
    if vclusters = 0 ∨ !headerOk ∨ !shapeOk shape then some 4
    else if kdesc.isNone then some 1
    else none)

/-- The header, the descriptor and the binding table that `readSpec` reads, noted as read by the firmware (R332, R368). -/
def State.specSeen (s : State) (q : Queue) (bs : List Byte) : State :=
  let h := s.fwRead q.asid (fieldLE bs 16 8) 64
  let wsb := bindingTable (q.version == 2) bs h
  let s1 := (s.fwSeen q.part q.asid (fieldLE bs 16 8) 64).fwSeen q.part q.asid (fieldLE h 16 8) 1216
  if wsb = 0 then s1
  else s1.fwSeen q.part q.asid wsb (min 256 (16 * ((parseWsb (s.fwRead q.asid wsb 256) 16 0).length + 1)))

/-! ## Dependences (R347) -/

/-- The packet a dependence field names: its queue and number; an inner none where it names none or one below 0. An outer
none makes the packet invalid. -/
def State.depOf (s : State) (q : Nat) (part seq field : Nat) : Option (Option (Nat × Nat)) :=
  if field = noDep then some none
  else
    let d := field / 2 ^ 20
    match s.queue? d with
    | none => none
    | some x =>
      let bound := if d = q then seq else x.notify.toNat
      let back := ((bound : Int) - ((field % 2 ^ 20 : Nat) : Int)) % (2 ^ 20 : Int)
      if x.part ≠ part then none
      else if d = q ∧ back = 0 then none
      else if (bound : Int) < back then some none
      else some (some (d, bound - back.toNat))

/-- A packet as it is fetched into a queue (R338, R341, R347). -/
def State.parsePacket (s : State) (n : Nat) (q : Queue) (stamp : Nat) (bs : List Byte) : Packet :=
  let seq := q.fetched
  let kind := packetKind q.version bs
  let named := if kind.launches then (depFields q.version bs).map (s.depOf n q.part seq) else []
  let ordered := if q.ordered && kind.launches then
      ((q.packets.filter (fun p => (packetType q.version (p.field 0 1)).launches)).getLast?.map (fun p => (n, p.seq))).toList
    else []
  { seq, stamp
    bytes := bs
    kind := if named.all (·.isSome) then kind else .invalid
    prio := max (fieldLE bs 2 1 % 8) q.priomax
    deps := ordered ++ named.filterMap (fun d => d.getD none)
    spec := none
    refusal := none
    group := none
    state := .fetched }

end Sys2Proof.Machine
end

