-- ==== Sys2Proof/Machine/Queues.lean ====
section
/-!
DEFINITION. Machine/Queues.lean: notification and fetch (R338), the cores' locks and log (R339, R340), the order in which
packets start (R344, R347), the packets that are no launches (R343 to R345), completion records and what follows from
them (R351, R352).
-/
namespace Sys2Proof.Machine

/-! ## Mailboxes, locks and the order of the Inlet (R339, R359) -/

/-- A mailbox that nothing has written. -/
def Mailbox.blank : Mailbox := { addr := 0, last := 0, irqen := false, busy := false, block := [] }

/-- The mailbox of a function. -/
def State.mailbox (s : State) (func : Nat) : Mailbox := (lookup s.mailboxes func).getD Mailbox.blank

/-- CMD. -/
def Mailbox.cmd (m : Mailbox) : Nat := fieldLE m.block 0 2

/-- Operand n of a command: a doubleword from byte 8 on (log 41). -/
def Mailbox.operand (m : Mailbox) (n : Nat) : Nat := fieldLE m.block (8 + 8 * n) 8

/-- A stopped core holds the lock of a queue. -/
def State.locked (s : State) (q : Nat) : Bool := s.cores.any (fun c => c.2.lock == some q)

/-- The partition of a queue is being replayed. -/
def State.replayed (s : State) (q : Nat) : Bool :=
  ((s.queue? q).map (fun x => (lookup s.replaying x.part).isSome)).getD false

/-- An event is one of a queue: it needs the queue's lock (R339). A command is where it destroys the queue (R353), a fetch but in a
replay, which takes no packet from the queue (R369); what a core gave back of a dispatch, whose packet is in its window again or
placed, holds nothing up (R340, R353). -/
def State.concerns (s : State) (e : InletEvent) (q : Nat) : Bool :=
  match e with
  | .fetch k => k == q && !s.replayed q
  | .report k => k == q
  | .dispatch _ _ => false
  | .command func => (s.mailbox func).cmd == 2 && (s.mailbox func).operand 0 == q

/-- No event of the Inlet that came before this one, or none at all where it is not in the Inlet, is one of the queue: events of
one queue are handled in Inlet order (R339). -/
def State.firstOf (s : State) (e : InletEvent) (q : Nat) : Bool := (s.inlet.takeWhile (· != e)).all (fun x => !s.concerns x q)

/-- The core that what follows from earlier events of a queue is handed to, where the queue's lock is free and no event of it
waits: the lowest that runs (R339). -/
def State.coreFor (s : State) (q part : Nat) : Option Nat :=
  if s.locked q || s.inlet.any (fun e => s.concerns e q) then none
  else (((lookup s.partitions part).map (·.cores)).getD []).find? (fun c => s.coreRuns part c)

/-- A core has handled an event to its end. -/
def State.beat (s : State) (core : Nat) : State :=
  { s with cores := insertKey s.cores core { s.core core with heartbeat := (s.core core).heartbeat + 1, checkpoint := s.nextLsn } }

/-! ## Completion records and what follows from them (R351, R352) -/

/-- The attribution record's bytes (R282). -/
def FaultRecord.bytes (f : FaultRecord) : List Byte :=
  leBytes 8 f.kernelId.toNat ++ leBytes 8 f.strip ++ leBytes 8 f.pc.toNat ++ leBytes 2 f.element ++ leBytes 1 f.cause.toNat ++
    leBytes 1 ((if f.spliced then 1 else 0) + (if f.byPartner then 2 else 0)) ++ List.replicate 4 0

/-- A completion record (R351). -/
def completionRecord (status reason : Nat) (flags : Flags) (nfault : Nat) (tag : Half) (seq result : Nat)
    (fault : Option FaultRecord) : List Byte :=
  leBytes 1 status ++ leBytes 1 reason ++ leBytes 1 flags.toNat ++ [0] ++ leBytes 4 nfault ++ leBytes 4 tag.toNat ++
    List.replicate 4 0 ++ leBytes 8 seq ++ leBytes 8 result ++ (fault.map FaultRecord.bytes).getD (List.replicate 32 0)

/-- A record written at a completion address, 0 for none (R341, R351). -/
def State.writeRecord (s : State) (asid : Nat) (compl : Word) (bs : List Byte) : State :=
  if compl = 0 then s else s.fwWrite asid compl.toNat bs

/-- A packet replaced in its queue. -/
def Queue.setPacket (x : Queue) (p : Packet) : Queue := { x with packets := x.packets.set p.seq p }

/-- A packet of a queue updated. -/
def State.updPacket (s : State) (q seq : Nat) (f : Packet → Packet) : State :=
  match s.queue? q with
  | none => s
  | some x =>
    match x.packets[seq]? with
    | none => s
    | some p => s.setQueue q (x.setPacket (f p))

/-- A packet of a queue. -/
def State.packet? (s : State) (q seq : Nat) : Option Packet := (s.queue? q).bind (fun x => x.packets[seq]?)

/-- The log's entry for the end of a packet with a STATUS (R340). -/
def State.logEnd (s : State) (core q seq status : Nat) : State := s.logState core q seq [0, q, seq, 16 + status]

/-- A packet that starts no strand, or none yet, ends (R340, R351). -/
def State.endPacket (s : State) (q : Nat) (x : Queue) (p : Packet) (status reason result : Nat) : State :=
  ((s.logEnd (s.writingCore x.part) q p.seq status).writeRecord x.asid p.compl (completionRecord status reason 0 0 p.tag p.seq result none)).updPacket q p.seq
    (fun p => { p with state := .ended status })

/-- What a dependence has come to. -/
inductive DepState where
  | satisfied
  | waiting
  | failed
  deriving DecidableEq, Repr

/-- A packet is a member of a splice group of which a member has not ended: with the last, the group goes (R294). -/
def State.groupRuns (s : State) (m : Nat × Nat) : Bool := s.groups.any (fun g => g.2.members.contains m)

/-- A dependence on a packet (R347, R352). -/
def State.depState (s : State) (d : Nat × Nat) : DepState :=
  match s.queue? d.1 with
  | none => .satisfied
  | some x =>
    if d.2 + 2 ^ 19 < x.fetched then .satisfied
    else
      match x.packets[d.2]? with
      | none => if x.destroyed.isSome then .failed else .waiting
      | some p =>
        match p.state with
        | .ended status => if s.groupRuns d then .waiting else if status = 1 then .satisfied else .failed
        | _ => .waiting

/-- A packet that has neither started nor ended. -/
def Packet.unstarted (p : Packet) : Bool :=
  match p.state with
  | .fetched | .windowed | .decided => true
  | _ => false

/-- The queue starts the packet no more: it is halted from an earlier one on (R352). -/
def Queue.stopped (x : Queue) (seq : Nat) : Bool := (x.halted.map (fun h => decide (h ≤ seq))).getD false

/-- A packet that its queue's policy has to act on: one of its dependences ended otherwise than complete (R352). -/
def State.struck (s : State) (x : Queue) (p : Packet) : Bool :=
  p.unstarted && x.policy != 1 && !x.stopped p.seq && p.deps.any (fun d => s.depState d == .failed)

/-- The log's entry for a splice group that forms, 1, or goes, 0 (R340). -/
def State.logGroup (s : State) (gid q seq state : Nat) : State :=
  s.logState (((s.queue? q).map (fun x => s.writingCore x.part)).getD 0) q seq [11, gid, state]

/-- A group whose member ends, or is halted, before it starts is given up; its other members run unspliced. -/
def State.leaveGroup (s : State) (q : Nat) (p : Packet) : State :=
  match p.group.bind (fun gid => (lookup s.groups gid).map (fun g => (gid, g))) with
  | none => s
  | some (gid, g) =>
    if p.unstarted then
      g.members.foldl (fun (s : State) m => s.updPacket m.1 m.2 (fun o => if o.unstarted then { o with group := none } else o))
        { s.logGroup gid q p.seq 0 with groups := eraseKey s.groups gid }
    else s

/-- A queue is halted from a packet on (R352). -/
def State.halt (s : State) (q : Nat) (x : Queue) (seq : Nat) : State :=
  (x.packets.drop seq).foldl (fun (s : State) p => s.leaveGroup q p) (s.setQueue q { x with halted := some seq })

/-- The packets that have ended otherwise than complete act on their dependants, and those on theirs in turn (R352). -/
def State.applyPolicies (core : Nat) : Nat → State → State
  | 0, s => s
  | fuel + 1, s =>
    match s.queues.findSome? (fun e => (e.2.packets.find? (s.struck e.2)).map (fun p => (e.1, e.2, p))) with
    | none => s
    | some (q, x, p) =>
      State.applyPolicies core fuel
        (if x.policy = 2 then (s.logState core q p.seq [0, q, p.seq, 10]).halt q x p.seq
         else (s.leaveGroup q p).endPacket q x p 3 0 0)

/-- Packets of all queues, as many as the policies can act on. -/
def State.packetCount (s : State) : Nat := (s.queues.map (fun e => e.2.packets.length)).sum

/-- Every packet has ended, and nothing runs or waits to be released for the queue. -/
def State.queueDone (s : State) (q : Nat) (x : Queue) : Bool :=
  x.packets.all (fun p => match p.state with
    | .ended _ => true
    | _ => false) && !s.launches.any (fun l => l.2.queue == q) && !s.graphs.any (fun g => g.2.queue == q)

/-- A queue kept under another number, above all those in use, which no record and no packet can name: packets that depend on its
own still find them (R352, R353). -/
def State.renumber (s : State) (old new : Nat) : State :=
  let key := fun (m : Nat × Nat) => if m.1 = old then (new, m.2) else m
  let kept := s.queues.map (fun e => (e.1, { e.2 with packets := e.2.packets.map (fun p => { p with deps := p.deps.map key }) }))
  { s with
    queues := eraseKey kept old ++ ((lookup kept old).map (fun x => (new, x))).toList
    groups := s.groups.map (fun g => (g.1, { g.2 with members := g.2.members.map key, ended := g.2.ended.map key })) }

/-- Queue numbers (R337). -/
def queueNumbers : Nat := 4096

/-- The number of a destroyed queue becomes free once every record has been written (R353); the queue is forgotten once no packet
depends on it. -/
def State.reap (s : State) : State :=
  let gone := (s.queues.filter (fun e => decide (e.1 < queueNumbers) && e.2.destroyed.isSome && s.queueDone e.1 e.2)).map (·.1)
  let s1 := gone.foldl (fun (s : State) q =>
    s.renumber q ((s.queues.map (·.1)).foldl (fun m k => max m (k + 1)) queueNumbers)) s
  let named := fun (q : Nat) => s1.queues.any (fun e => e.2.packets.any (fun p => p.deps.any (fun d => d.1 == q))) ||
    s1.groups.any (fun g => g.2.members.any (fun m => m.1 == q))
  { s1 with queues := s1.queues.filter (fun e => decide (e.1 < queueNumbers) || named e.1) }

/-! ## The order of a queue (R344, R345, R347) -/

/-- A packet ahead that holds nothing back: an ended one, or a launch that has started. -/
def Packet.passed (p : Packet) : Bool :=
  match p.state with
  | .ended _ => true
  | .started => p.kind.launches
  | _ => false

/-- The packet is due in its queue's order, given others that start with it. -/
def Queue.due (x : Queue) (seq : Nat) (friends : List Nat) : Bool :=
  x.destroyed.isNone && !x.stopped seq && (x.packets.take seq).all (fun p => p.passed || friends.contains p.seq)

/-- Every dependence of a packet is satisfied, given others that start with it (R347, R352). -/
def State.depsMet (s : State) (x : Queue) (p : Packet) (friends : List (Nat × Nat)) : Bool :=
  p.deps.all (fun d => friends.contains d ||
    (match s.depState d with
     | .satisfied => true
     | .failed => x.policy == 1
     | .waiting => false))

/-! ### What waits for what (log 35) -/

/-- A packet waits for one of a set to end: it depends on it, or is a BARRIER behind it (R344, R347). -/
def Packet.awaitsEnd (p : Packet) (q : Nat) (set : List (Nat × Nat)) : Bool :=
  p.deps.any (fun d => set.contains d) || (p.kind == .barrier && set.any (fun m => m.1 == q && decide (m.2 < p.seq)))

/-- A packet waits for one of a set: to end, or to start before it in their queue's order (R347). -/
def Packet.awaits (p : Packet) (q : Nat) (set : List (Nat × Nat)) : Bool :=
  p.deps.any (fun d => set.contains d) || set.any (fun m => m.1 == q && decide (m.2 < p.seq))

/-- A packet has ended, or is a launch of which a strand has run. -/
def State.begun (s : State) (q : Nat) (p : Packet) : Bool :=
  match p.state with
  | .ended _ => true
  | .started => p.kind.launches && s.launches.all (fun l => l.2.queue != q || l.2.seq != p.seq || l.2.task.isSome || l.2.begun)
  | _ => false

/-- The packets outside a set that have not begun and for which something holds. -/
def State.unbegun (s : State) (outside : List (Nat × Nat)) (which : Nat → Packet → Bool) : List (Nat × Nat) :=
  s.queues.flatMap (fun e =>
    (e.2.packets.filter (fun p => !s.begun e.1 p && !outside.contains (e.1, p.seq) && which e.1 p)).map (fun p => (e.1, p.seq)))

/-- A set with the packets that wait for one of it in turn, but for some members, as far as it grows in n steps. -/
def State.behind (s : State) (members : List (Nat × Nat)) : Nat → List (Nat × Nat) → List (Nat × Nat)
  | 0, set => set
  | n + 1, set =>
    let more := s.unbegun (members ++ set) (fun q p => p.awaits q set)
    if more.isEmpty then set else s.behind members n (set ++ more)

/-- Packets that wait, themselves or through others, until one of some members has ended. -/
def State.heldByEnd (s : State) (members : List (Nat × Nat)) : List (Nat × Nat) :=
  s.behind members s.packetCount (s.unbegun members (fun q p => p.awaitsEnd q members))

/-- Packets that wait, themselves or through others, until some members have started or ended. -/
def State.heldBehind (s : State) (members : List (Nat × Nat)) : List (Nat × Nat) :=
  s.behind members s.packetCount (s.unbegun members (fun q p => p.awaits q members))

/-! ## The splice window (R274, R348) -/

/-- The first eight LAUNCH packets of a queue that have not started (R274). -/
def Queue.windowOf (x : Queue) : List Packet := (x.packets.filter (fun p => p.kind == .launch && p.unstarted)).take 8

/-- One of two packets depends on the other. -/
def linked (q : Nat) (p : Packet) (r : Nat) (o : Packet) : Bool := p.deps.contains (r, o.seq) || o.deps.contains (q, p.seq)

/-- A window with the launches of other queues that are linked to one in it, and with those linked to these in turn (R274). -/
def State.widen (s : State) (q : Nat) : Nat → List (Nat × Packet) → List (Nat × Packet)
  | 0, l => l
  | n + 1, l =>
    let more := s.queues.flatMap (fun e =>
      if e.1 == q then []
      else (e.2.packets.filter (fun o => o.kind == .launch && o.unstarted && !l.any (fun m => m.1 == e.1 && m.2.seq == o.seq) &&
        l.any (fun m => m.1 != e.1 && linked m.1 m.2 e.1 o))).map (fun o => (e.1, o)))
    if more.isEmpty then l else s.widen q n (l ++ more)

/-- The window of a queue, in window order: its own launches, and those of other queues linked to one of the window (R274). -/
def State.window (s : State) (q : Nat) : List (Nat × Packet) :=
  let own := (((s.queue? q).map (·.windowOf)).getD []).map (fun p => (q, p))
  let before := fun (a b : Nat × Packet) => decide (a.2.stamp < b.2.stamp) || (a.2.stamp == b.2.stamp && decide (a.2.seq ≤ b.2.seq))
  (s.widen q s.packetCount own).foldr (fun x l => (l.takeWhile (fun y => !before x y)) ++ x :: l.dropWhile (fun y => !before x y)) []

/-- LAUNCH packets that have become dispatchable are noted, in window order, each with the packets in its window at that moment
(R274, R348). -/
def State.noteReady (s : State) : State :=
  let new := s.queues.flatMap (fun e => ((s.window e.1).filter (fun m =>
    m.1 == e.1 && m.2.ready.isNone && e.2.due m.2.seq [] && s.depsMet e.2 m.2 [])))
  new.foldl (fun (t : State) (m : Nat × Packet) =>
    { t.updPacket m.1 m.2.seq (fun p => { p with ready := some (t.readied, (s.window m.1).map (fun o => (o.1, o.2.seq))) }) with
      readied := t.readied + 1 }) s

/-- What follows once packets have ended, for the core that ends them (R352, R353). -/
def State.followUp (s : State) (core : Nat) : State := (State.applyPolicies core s.packetCount s).reap.noteReady

/-- The packet a row of the table concerns, with its queue and the core that handles it; none where it is not of the kind
or not due. -/
def State.duePacket (s : State) (q seq : Nat) (kind : PacketKind) : Option (Queue × Packet × Nat) :=
  match s.queue? q with
  | none => none
  | some x =>
    match x.packets[seq]?, s.coreFor q x.part with
    | some p, some core => if p.kind = kind ∧ x.due seq [] then some (x, p, core) else none
    | _, _ => none

/-! ## Notification and fetch (R338) -/

/-- A store to a notify word (R338). -/
def State.notify (s : State) (q : Nat) (w : Word) : State :=
  match s.queue? q with
  | none => s
  | some x => if x.destroyed.isSome then s else s.setQueue q { x with notify := w, pending := true }

/-- NOTIFY_WRITE (R338). -/
def execNotifyWrite (queue : Nat) (value : Word) (s : State) : Out := .next (s.notify queue value)

/-- The queues of a partition whose bit of the pending vector is set. -/
def State.pendingQueues (s : State) (part : Nat) : List Nat :=
  (s.queues.filter (fun e => e.2.part == part && e.2.pending)).map (·.1)

/-- The next partition with a set bit at or after the scanner's (R338). -/
def State.nextScan (s : State) : Option Nat :=
  ((List.range 12).map (fun i => (s.scanPart + i) % 12)).find? (fun p => !(s.pendingQueues p).isEmpty)

/-- SCANNER_FIND of the partition that the turn's unit names, when its turn has come (R338). -/
def execScannerFind (s : State) : Out :=
  let part := s.cur.unit
  match lookup s.partitions part with
  | none => .next s
  | some r =>
    if s.nextScan ≠ some part then .next s
    else
      let l := s.pendingQueues part
      match ((l.find? (fun q => decide (r.scan ≤ q))).orElse (fun _ => l.head?)) with
      | none => .next s
      | some q =>
        match s.queue? q with
        | none => .next s
        | some x =>
          let s1 := s.setQueue q { x with pending := false }
          .next { s1 with
            inlet := s1.inlet ++ [.fetch q]
            partitions := insertKey s1.partitions part { r with scan := (q + 1) % 4096 }
            scanPart := (part + 1) % 12 }

/-- One packet taken into a queue from its bytes. -/
def State.takePacket (s : State) (q : Nat) (x : Queue) (stamp : Nat) (bs : List Byte) : State :=
  let p := s.parsePacket q x stamp bs
  s.setQueue q { x with packets := x.packets ++ [p], fetched := x.fetched + 1 }

/-- Bytes of a packet of a queue (R337). -/
def Queue.packetBytes (x : Queue) : Nat := if x.version = 2 then 128 else 64

/-- The bytes in the slot of packet k, as they stand (R338). -/
def State.slotBytes (s : State) (x : Queue) (k : Nat) : List Byte :=
  s.fwRead x.asid (x.ring.toNat + x.packetBytes * (k % 2 ^ x.log2n)) x.packetBytes

/-- Packets read one after another (R338, R368). -/
def State.fetchLoop (q stamp : Nat) : Nat → State → State
  | 0, s => s
  | n + 1, s =>
    match s.queue? q with
    | none => s
    | some x =>
      let bs := s.slotBytes x x.fetched
      let s1 := (s.decided x.part [(recPacket, q, x.fetched, bs.map (·.toNat))]).fwMark x.asid
        (x.ring.toNat + x.packetBytes * (x.fetched % 2 ^ x.log2n)) x.packetBytes .load
      State.fetchLoop q stamp n (s1.takePacket q x stamp bs)

/-- RDIDX takes the number of packets fetched (R338). -/
def State.writeRdidx (s : State) (q : Nat) : State :=
  match s.queue? q with
  | none => s
  | some x => s.fwWrite x.asid x.rdidx.toNat (leBytes 8 x.fetched)

/-- A fetch event handled by a core (R338, R340). -/
def State.fetchQueue (s : State) (core q : Nat) (x : Queue) : State :=
  let w := x.notify.toNat
  if w ≤ x.fetched ∨ x.fetched + 2 ^ x.log2n < w ∨ x.destroyed.isSome then s.beat core
  else
    let s1 := s.logEntry .fetch core q x.fetched w
    (((State.fetchLoop q s.nextLsn (w - x.fetched) s1).writeRdidx q).followUp core).beat core

/-- The first event of the Inlet, a fetch or news for a queue, that a core may take: the queue's lock is free, and no earlier event
of the Inlet is one of the queue (R339). Commands and dispatches have rows of their own. -/
def State.nextEvent (s : State) (core : Nat) : Option (InletEvent × Nat × Option Queue) :=
  s.inlet.findSome? (fun e =>
    let take := fun (q : Nat) =>
      match s.queue? q with
      | none => some (e, q, none)
      | some x => if s.locked q || !s.firstOf e q || !s.coreRuns x.part core then none else some (e, q, some x)
    match e with
    | .fetch q => if s.replayed q then none else take q
    | .report q => take q
    | .command _ | .dispatch _ _ => none)

/-- A replay's next record is an ingress: its packet is taken from the ring (R369). -/
def State.replayIngress (s : State) (core : Nat) : Option State :=
  s.replaying.findSome? (fun e =>
    if !s.coreRuns e.1 core || e.2.diverged.isSome then none
    else
      match e.2.records with
      | (_, 1, q :: old :: bytes) :: rest =>
        match s.queue? q with
        | none => none
        | some x =>
          if s.locked q || x.part != e.1 || x.destroyed.isSome then none
          else
            let shift := if (lookup e.2.shift q).isSome then e.2.shift else insertKey e.2.shift q (old, x.fetched)
            let bs := (bytes.map (BitVec.ofNat 8)).take x.packetBytes
            let s1 := ({ s with replaying := insertKey s.replaying e.1 { e.2 with records := rest, shift } }).logEntry
              .fetch core q x.fetched (x.fetched + 1)
            some ((((s1.takePacket q x s.nextLsn bs).writeRdidx q).followUp core).beat core)
      | _ => none)

/-- A core stops with an event in hand: it keeps the event, and its queue's lock (R340, log 72). -/
def State.stopWith (s : State) (core : Nat) (e : InletEvent) (lock : Option Nat) : State :=
  { s with
    inlet := s.inlet.erase e
    cores := insertKey s.cores core { s.core core with lastBeat := s.now, event := some e, lock, held := [] } }

/-- QUEUE_FETCH by the core that the turn's unit names: a fetch, or news that it takes note of (R338, R339, R369). Slot 1 of the turn
says that the core stops with the event in hand. -/
def execQueueFetch (s : State) : Out :=
  let core := s.cur.unit
  match s.replayIngress core with
  | some t => .next t
  | none =>
    match s.nextEvent core with
    | none => .next s
    | some (e, q, x) =>
      let taken : State := { s with inlet := s.inlet.erase e }
      if s.cur.slot = 1 then .next (s.stopWith core e (some q))
      else
        match e, x with
        | .fetch _, some x => .next (taken.fetchQueue core q x)
        | _, _ => .next (taken.beat core)

/-! ## Packets that are no launches -/

/-- NOP (R344). -/
def execNop (queue seq : Nat) (s : State) : Out :=
  match s.duePacket queue seq .nop with
  | some (x, p, core) => s.when p.unstarted (((s.endPacket queue x p 1 0 0).followUp core).beat core)
  | none => .next s

/-- BARRIER (R344). -/
def execBarrier (queue seq : Nat) (s : State) : Out :=
  match s.duePacket queue seq .barrier with
  | some (x, p, core) =>
    let ended := (x.packets.take seq).all (fun p => match p.state with
      | .ended _ => true
      | _ => false)
    s.when (p.unstarted && ended) (((s.endPacket queue x p 1 0 0).followUp core).beat core)
  | none => .next s

/-- The condition of a WAITVAL on a word (R344). -/
def Packet.holds (p : Packet) (w : Word) : Bool :=
  let a := (w &&& wordLE p.bytes 32).toNat
  let v := p.field 24 8
  match p.field 40 1 with
  | 0 => a == v
  | 1 => a != v
  | 2 => decide (v ≤ a)
  | _ => decide (a < v)

/-- A read of a WAITVAL's word: it ends, or goes on waiting (R344). -/
def State.waitvalRead (s : State) (q : Nat) (x : Queue) (p : Packet) (core : Nat) : State :=
  let w := s.fwDouble x.asid (p.field 16 8)
  let s := s.fwSeen x.part x.asid (p.field 16 8) 8
  if p.holds w then ((s.endPacket q x p 1 0 w.toNat).followUp core).beat core
  else if p.unstarted then
    ((s.logState core q p.seq [0, q, p.seq, 2]).updPacket q p.seq (fun p => { p with state := .started })).beat core
  else s.beat core

/-- WAITVAL: it starts, with its first read (R344). -/
def execWaitval (queue seq : Nat) (s : State) : Out :=
  match s.duePacket queue seq .waitval with
  | some (x, p, core) => s.when p.unstarted (s.waitvalRead queue x p core)
  | none => .next s

/-- WAITVAL_POLL: a later read of it (R344). -/
def execWaitvalPoll (queue seq : Nat) (s : State) : Out :=
  match s.duePacket queue seq .waitval with
  | some (x, p, core) => s.when (p.state == .started) (s.waitvalRead queue x p core)
  | none => .next s

/-! ## Weight-store packets (R94, R95, R345) -/

/-- A generation that no launch pins and that has been released has left its slot (R95). -/
def Generation.gone (g : Generation) : Bool := g.released && g.pins.isEmpty

/-- Slots of regions that have come free are freed, each with an entry of the log; a region without a slot left ceases to exist (R95,
R340, R345). -/
def State.sweepRegions (s : State) (core : Nat) : State :=
  let gone := s.regions.flatMap (fun r => (r.2.slots.toList.filterMap id).filterMap (fun g => if g.gone then some (r.1, g.gennum) else none))
  let s := gone.foldl (fun (s : State) g => s.logState core 0 0 [2, g.1, g.2, 0]) s
  let swept := s.regions.map (fun r =>
    (r.1, { r.2 with slots := r.2.slots.map (fun o => o.bind (fun g => if g.gone then none else some g)) }))
  { s with regions := swept.filter (fun r => r.2.slots.toList.any (·.isSome)) }

/-- The slot a WSLOAD takes in a region: the free one, or of two a free value's choice (log 34). -/
def WsRegion.freeSlot (r : WsRegion) (pick : Bool) : Option (Fin 2) :=
  match r.slots[0].isNone, r.slots[1].isNone with
  | true, true => some (if pick then 1 else 0)
  | true, false => some 0
  | false, true => some 1
  | false, false => none

/-- The region a WSLOAD names, as it is or as it begins (R345). DESIGN CHOICE: one that has ceased to exist begins anew, its
generation numbers too (R94, log 105). -/
def State.regionFor (s : State) (p : Packet) : WsRegion :=
  (lookup s.regions (p.field 16 8)).getD
    { offset := p.field 32 4, place := p.field 36 1, maxSize := p.field 40 8, nextGen := 0, slots := Vector.replicate 2 none }

/-- Bytes written into the weight store of the dies a region lies on; whole units stop being poisoned (R366). -/
def State.wsWrite (s : State) (place off : Nat) (bs : List Byte) : State :=
  let dies := if place = 2 then [0, 1] else [place]
  dies.foldl (fun (s : State) die =>
    (s.putBytes Config.clusters (.ws die off) bs).heal (((Place.ws die off).flat.map (fun n => (n, bs.length))).toList)) s

/-- A WSLOAD carried out: the header and the data copied, REGION and GENNUM written into the header (R345). -/
def State.wsCopy (s : State) (q : Nat) (x : Queue) (p : Packet) (r : WsRegion) (slot : Fin 2) : State :=
  let gen := r.nextGen + 1 + Config.genStep s.draws
  let bs := s.fwRead x.asid (p.field 24 8) (64 + p.field 40 8)
  let bs := leBytes 8 (p.field 16 8) ++ leBytes 8 gen ++ bs.drop 16
  let g : Generation := { gennum := gen, released := false, pins := [] }
  let r' : WsRegion := { r with nextGen := gen, slots := r.slots.set slot (some g) }
  let s1 := (s.fwSeen x.part x.asid (p.field 24 8) (64 + p.field 40 8)).drawn.wsWrite r.place (r.offset + slot.val * r.stride) bs
  (({ s1 with regions := insertKey s1.regions (p.field 16 8) r' }).endPacket q x p 1 0 gen)

/-- WSLOAD (R95, R345): it waits while both slots are occupied. -/
def execWsload (queue seq : Nat) (s : State) : Out :=
  match s.duePacket queue seq .wsload with
  | some (x, p, core) =>
    let r := s.regionFor p
    if !p.unstarted then .next s
    else if r.offset ≠ p.field 32 4 ∨ r.place ≠ p.field 36 1 ∨ r.maxSize < p.field 40 8 then
      .next (((s.endPacket queue x p 5 4 0).followUp core).beat core)
    else
      match r.freeSlot (Config.genSlot s.draws) with
      | none => .next s
      | some slot => .next ((((s.logState core queue seq [2, p.field 16 8, r.nextGen + 1 + Config.genStep s.draws, 1]).wsCopy queue x p r slot).followUp core).beat core)
  | none => .next s

/-- A generation of a region marked released. -/
def WsRegion.release (r : WsRegion) (gennum : Nat) : WsRegion :=
  { r with slots := r.slots.map (fun o => o.map (fun g => if g.gennum = gennum then { g with released := true } else g)) }

/-- The slot of a resident generation (R95). -/
def State.resident (s : State) (region gennum : Nat) : Option Nat :=
  (lookup s.regions region).bind (fun r =>
    (List.range 2).find? (fun i => ((r.slots.toList.getD i none).map (·.gennum)) == some gennum))

/-- WSREL (R95, R345). -/
def execWsrel (queue seq : Nat) (s : State) : Out :=
  match s.duePacket queue seq .wsrel with
  | some (x, p, core) =>
    if !p.unstarted then .next s
    else
      match s.resident (p.field 16 8) (p.field 24 8), lookup s.regions (p.field 16 8) with
      | some _, some r =>
        let s1 : State := { s with regions := insertKey s.regions (p.field 16 8) (r.release (p.field 24 8)) }
        let s2 := s1.logState core queue seq [2, p.field 16 8, p.field 24 8, 2]
        .next ((((s2.sweepRegions core).endPacket queue x p 1 0 0).followUp core).beat core)
      | _, _ => .next (((s.endPacket queue x p 5 4 0).followUp core).beat core)
  | none => .next s

/-! ## Task graphs (R343) -/

/-- The 128 bytes of each task of a DEPGRAPH, as they stand (R346). -/
def State.taskBytes (s : State) (x : Queue) (p : Packet) : List (List Byte) :=
  (List.range (p.field 20 4)).map (fun t => s.fwRead x.asid (p.field 24 8 + 128 * t) 128)

/-- A task packet is a LAUNCH with no dependence (R343). -/
def taskOk (bs : List Byte) : Bool := fieldLE bs 0 1 == 1 && (depFields 2 bs).all (fun d => d == noDep)

/-- A task as its graph begins: its counter 0, not released (R287, R343). -/
def newTask (priomax : Nat) (bs : List Byte) : Task :=
  { counter := 0, released := false, started := false, completed := false, level := max (fieldLE bs 2 1 % 8) priomax, bytes := bs }

/-- DEPGRAPH (R343, R346). -/
def execDepgraph (queue seq : Nat) (s : State) : Out :=
  match s.duePacket queue seq .depgraph with
  | some (x, p, core) =>
    let key := x.part * 65536 + p.field 16 2
    let tasks := s.taskBytes x p
    if !p.unstarted then .next s
    else
      let s := s.fwSeen x.part x.asid (p.field 24 8) (128 * p.field 20 4)
      if (lookup s.graphs key).isSome ∨ 64 ≤ (s.graphs.filter (fun g => g.2.part == x.part)).length ∨ !tasks.all taskOk then
        .next (((s.endPacket queue x p 5 4 0).followUp core).beat core)
      else
        let g : Graph := { queue, seq, part := x.part, tasks := tasks.map (newTask x.priomax), ready := [] }
        let s1 := s.logState core queue seq [1, key, 1]
        .next (((({ s1 with graphs := insertKey s1.graphs key g }).endPacket queue x p 1 0 0).followUp core).beat core)
  | none => .next s

/-! ## Entering the window (R274, R346, R348) -/

/-- LAUNCH: the packet enters the splice window, and its header, descriptor and binding table are read (R346). -/
def execLaunch (queue seq : Nat) (s : State) : Out :=
  match s.queue? queue with
  | none => .next s
  | some x =>
    match (s.queues.findSome? (fun e => (s.window e.1).find? (fun m => m.1 == queue && m.2.seq == seq))).map (·.2), s.coreFor queue x.part with
    | some p, some core =>
      let r := s.readSpec x p.prio p.bytes
      s.when (p.state == .fetched && x.destroyed.isNone)
        ((((s.specSeen x p.bytes).logState core queue seq [0, queue, seq, 1]).updPacket queue seq
          (fun p => { p with state := .windowed, spec := some r.1, refusal := r.2 })).beat core)
    | _, _ => .next s

/-- SIBLAUNCH: never spliced, it goes straight to the dispatcher, which reads its snapshots (R346, R348). -/
def execSiblaunch (queue seq : Nat) (s : State) : Out :=
  match s.queue? queue with
  | none => .next s
  | some x =>
    match x.packets[seq]?, s.coreFor queue x.part with
    | some p, some core =>
      s.when (p.kind == .siblaunch && p.state == .fetched && x.destroyed.isNone)
        (((s.logState core queue seq [0, queue, seq, 3]).updPacket queue seq (fun p => { p with state := .decided })).beat core)
    | _, _ => .next s

/-! ## The end of a launch (R351) -/

/-- Virtual clusters of a launch in all. -/
def Launch.virtualClusters (l : Launch) : Nat := l.spec.vclusters * l.instances

/-- Every strand that is to run has retired: under an abort, those that were placed (R351, R353). -/
def State.launchOver (s : State) (l : Launch) : Bool :=
  let live := s.strands.any (fun p => p.2.launch == l.id && p.2.life != .retired) || !l.preempted.isEmpty
  !live && (l.aborted || l.words.length == l.strandsInAll)

/-- A launch no longer pins its generations (R95). -/
def State.unpin (s : State) (core id : Nat) : State :=
  ({ s with regions := s.regions.map (fun (r : Nat × WsRegion) =>
      (r.1, { r.2 with slots := r.2.slots.map (fun (o : Option Generation) => o.map (fun (g : Generation) => { g with pins := g.pins.filter (· != id) })) })) }).sweepRegions core

/-- A member of a splice group has ended; with the last, the group and its regions go (R294). -/
def State.memberEnded (s : State) (gid : Nat) (m : Nat × Nat) : State :=
  match lookup s.groups gid with
  | none => s
  | some g =>
    let ended := m :: g.ended
    if g.members.all (fun x => ended.contains x) then { s.logGroup gid m.1 m.2 0 with groups := eraseKey s.groups gid }
    else { s with groups := insertKey s.groups gid { g with ended } }

/-- A task of the graph of a queue's DEPGRAPH is complete. A graph with nothing more to release or run is active no longer (R343);
a task may outlive its graph. -/
def State.taskEnded (s : State) (core queue seq key t : Nat) : State :=
  match (lookup s.graphs key).filter (fun g => g.queue == queue && g.seq == seq) with
  | none => s
  | some g =>
    match g.tasks[t]? with
    | none => s
    | some task =>
      let tasks := g.tasks.set t { task with completed := true }
      if tasks.all (fun t => t.released && t.completed) then
        { s.logState core queue seq [1, key, 0] with graphs := eraseKey s.graphs key }
      else { s with graphs := insertKey s.graphs key { g with tasks } }

/-- LAUNCH_COMPLETE (R351, R352). -/
def execLaunchComplete (launch : Nat) (s : State) : Out :=
  match s.launch? launch with
  | none => .next s
  | some l0 =>
    match s.coreFor l0.queue l0.part with
    | none => .next s
    | some core =>
      let s0 := s.abortGroup launch
      let l := (s0.launch? launch).getD l0
      let nfault := (l.words.filter (fun w => w.status == 1)).length
      let status := if l.aborted then 4 else if nfault = 0 then 1 else 2
      let flags := l.words.foldl (fun (f : Flags) w => f ||| w.flags) 0
      let s1 := s0.writeRecord l.asid l.spec.compl
        (completionRecord status 0 flags nfault l.spec.tag l.seq 0 l.faultRecord)
      let s2 := ({ s1 with launches := eraseKey s1.launches launch, returned := s1.returned ++ l.pages }).unpin core launch
      let s3 := match l.task with
        | some (key, t) => s2.taskEnded core l.queue l.seq key t
        | none => (s2.logEnd core l.queue l.seq status).updPacket l.queue l.seq (fun p => { p with state := .ended status })
      let s4 := match l.group with
        | some (gid, _) => s3.memberEnded gid (l.queue, l.seq)
        | none => s3
      s.when (s.launchOver l0) ((s4.followUp core).beat core)

end Sys2Proof.Machine
end

