-- ==== Sys2Proof/Machine/Splice.lean ====
section
/-!
DEFINITION. Machine/Splice.lean: the splice decision: the legality test and its shares (R275), the chain (R274, R276,
R348) and elision (R280).
-/
namespace Sys2Proof.Machine

/-! ## Integer matrices (R275) -/

/-- A matrix without row i and column j. -/
def minorOf (m : List (List Int)) (i j : Nat) : List (List Int) := (m.eraseIdx i).map (fun r => r.eraseIdx j)

/-- (−1)^n. -/
def altSign (n : Nat) : Int := if n % 2 = 0 then 1 else -1

/-- The determinant of an n × n matrix, by its first row. -/
def det : Nat → List (List Int) → Int
  | 0, _ => 1
  | n + 1, m =>
    ((List.range (n + 1)).map (fun j => altSign j * ((m.headD []).getD j 0) * det n (minorOf m 0 j))).sum

/-- The inverse of an n × n matrix whose determinant is 1 or −1. -/
def inverseOf (n : Nat) (m : List (List Int)) : List (List Int) :=
  let d := det n m
  (List.range n).map (fun i => (List.range n).map (fun j => d * altSign (i + j) * det (n - 1) (minorOf m j i)))

/-! ## The legality test (R275) -/

/-- Two operands describe one tensor. -/
def Operand.sameTensor (a b : Operand) : Bool :=
  a.base == b.base && a.tag == b.tag && a.rank == b.rank && a.shape == b.shape && a.stride == b.stride

/-- The ranges of two operands overlap (R271). -/
def Operand.overlaps (a b : Operand) : Bool := decide (a.range.1 ≤ b.range.2) && decide (b.range.1 ≤ a.range.2)

/-- Step 1: the operands of T in the producer and in the consumer. -/
def commonTensor (p c : KDesc) : Option (Operand × Operand) :=
  let match_ := fun (o : Operand) => p.operands.find? (fun w => w.kind == 1 && w.sameTensor o)
  match c.operands.findIdx? (fun o => o.kind == 0 && (match_ o).isSome) with
  | none => none
  | some k =>
    match c.operands[k]? with
    | none => none
    | some o =>
      let clear := (c.operands.eraseIdx k).all (fun x => p.operands.all (fun w => w.kind == 0 || !x.overlaps w))
      if clear then (match_ o).map (fun w => (w, o)) else none

/-- The element lies within the tensor's SHAPE. -/
def Operand.holds (o : Operand) (e : List Int) : Bool :=
  (e.zip o.shape).all (fun p => decide (0 ≤ p.1) && decide (p.1 < (p.2 : Int)))

/-- Least and greatest of a list. -/
def bounds? (l : List Nat) : Option (Nat × Nat) :=
  match l with
  | [] => none
  | x :: rest => some (rest.foldl min x, rest.foldl max x)

/-- Step 4: the producer strips that a consumer strip needs, N(q). -/
def stripNeeds (p c : KDesc) (w o : Operand) (inverse : List (List Int)) (q : Nat) : List Nat :=
  ((c.iterations q).filterMap (fun j =>
    let e := o.touched (j.map Int.ofNat)
    if o.holds e then
      (p.within (matVec inverse ((e.zip w.offset).map (fun x => x.1 - x.2)))).map p.stripOf
    else none)).eraseDups

/-- The shares of R273 for V virtual clusters: first strip and count. -/
def KDesc.plainShares (d : KDesc) (v : Nat) : List (Nat × Nat) :=
  (List.range v).map (fun k => (k * d.strips / v, (k + 1) * d.strips / v - k * d.strips / v))

/-- The least and the greatest strip that each strip of a share needs, in order, of those that need any. -/
def needsIn (needs : List (List Nat)) (share : Nat × Nat) : List (Nat × Nat) :=
  ((needs.drop share.1).take share.2).filterMap bounds?

/-- Step 5: the producer's share that a consumer's share needs; the first strip of an empty one is open (log 33). -/
def shareFor (draws v : Nat) (needs : List (List Nat)) (share : Nat × Nat) : Nat × Nat :=
  let l := needsIn needs share
  match bounds? (l.map (·.1)), bounds? (l.map (·.2)) with
  | some (lo, _), some (_, hi) => (lo, hi + 1 - lo)
  | _, _ => (Config.emptyShare draws v, 0)

/-- Shares are pairwise disjoint and cover every strip: each strip lies in exactly one. -/
def sharesCover (shares : List (Nat × Nat)) (strips : Nat) : Bool :=
  (List.range strips).all (fun q =>
    (shares.filter (fun sh => decide (sh.1 ≤ q) && decide (q < sh.1 + sh.2))).length == 1)

/-- Step 6 for one share: the largest H(q) − m(q) + 1. -/
def shareWindow (l : List (Nat × Nat)) : Nat :=
  (List.range l.length).foldl (fun w i =>
    match bounds? ((l.take (i + 1)).map (·.2)), bounds? ((l.drop i).map (·.1)) with
    | some (_, h), some (m, _) => max w (h + 1 - m)
    | _, _ => w) 0

/-- Steps 1 to 6 for a producer at a place of the chain and the consumer after it, with the consumer's shares and the bytes
an intermediate may take. Whether the pair is elided is settled later. -/
def pairTest (draws place budget : Nat) (p c : KDesc) (theirs : List (Nat × Nat)) : Option Pair :=
  match commonTensor p c with
  | none => none
  | some (w, o) =>
    let d := det w.rank w.coef
    if w.rank ≠ p.rank ∨ (d ≠ 1 ∧ d ≠ -1) then none
    else
      let inverse := inverseOf w.rank w.coef
      let needs := (List.range c.strips).map (stripNeeds p c w o inverse)
      let shares := (List.range theirs.length).map (fun v => shareFor draws v needs (theirs.getD v (0, 0)))
      let window := (theirs.map (fun sh => shareWindow (needsIn needs sh))).foldl max 0
      if sharesCover shares p.strips && decide (window * p.stripIterations * w.elemBytes ≤ budget) then
        some { producer := place, consumer := place + 1, operand := w, desc := p, inverse, elided := false, window, shares, needs }
      else none

/-- Steps 1 to 6 for every adjacent pair of a chain, from its end: the shares of each member, and the pairs (R275). -/
def chainTest (draws v budget : Nat) : Nat → List KDesc → Option (List (List (Nat × Nat)) × List Pair)
  | _, [] => none
  | _, [c] => some ([c.plainShares v], [])
  | place, p :: c :: rest =>
    match chainTest draws v budget (place + 1) (c :: rest) with
    | none => none
    | some (shares, pairs) =>
      (pairTest draws place budget p c (shares.headD [])).map (fun pair => (pair.shares :: shares, pair :: pairs))

/-- A spliced group's size of the splice buffer: the largest its members declare (R276). -/
def groupSplice (specs : List LaunchSpec) : Nat := (specs.map (fun l => l.shape.splice)).foldl max 0

/-- The whole test for a chain of launches, with step 7 (R275, R276). -/
def spliceTest (draws : Nat) (specs : List LaunchSpec) : Option (List (List (Nat × Nat)) × List Pair) :=
  let v := (specs.map (·.vclusters)).foldl max 0
  let sb := groupSplice specs
  let descs := specs.filterMap (·.kdesc)
  if sb = 0 ∨ 4 < (specs.map (fun l => l.shape.acc)).sum ∨ descs.length ≠ specs.length then none
  else chainTest draws v (sb / (specs.length - 1) / 4096 * 4096) 0 descs

/-! ## The chain (R274, R276, R280, R348) -/

/-- The snapshot of a packet that may be spliced: SPLICEABLE, without a cohort, not to be refused, in no group (R274). -/
def Packet.spliceSpec (p : Packet) : Option LaunchSpec :=
  match p.spec with
  | none => none
  | some l =>
    if p.kind == .launch && p.state == .windowed && p.group.isNone && p.refusal.isNone && !l.cohort &&
        ((l.kdesc.map (·.spliceable)).getD false) then some l else none

/-- A packet may follow the last of a chain: one partition and address space, after it in its queue or dependent on it. A
chain of which a member could not start before one of it has ended is none, nor one with a packet whose queue starts no more
(R344, R347, R352, log 35). -/
def State.mayFollow (s : State) (chain : List (Nat × Packet)) (c : Nat × Packet) : Bool :=
  match chain.getLast?, s.queue? c.1 with
  | some (q, p), some x =>
    let all_ := chain ++ [c]
    let held := s.heldByEnd (all_.map (fun m => (m.1, m.2.seq)))
    ((s.queue? q).map (fun y => y.asid == x.asid && y.part == x.part)).getD false &&
      ((c.1 == q && decide (p.seq < c.2.seq)) || c.2.deps.contains (q, p.seq)) &&
      x.destroyed.isNone && !x.stopped c.2.seq && !all_.any (fun m => m.2.awaits m.1 held)
  | _, _ => false

/-- The chain extended by the first packet of the window that passes, up to four members. -/
def State.extend (s : State) (window : List (Nat × Packet)) : Nat → List (Nat × Packet) → List (Nat × Packet)
  | 0, chain => chain
  | n + 1, chain =>
    match window.find? (fun c =>
        c.2.spliceSpec.isSome && !chain.any (fun m => m.1 == c.1 && m.2.seq == c.2.seq) && s.mayFollow chain c &&
          (spliceTest s.draws ((chain ++ [c]).filterMap (fun m => m.2.spec))).isSome) with
    | none => chain
    | some c => s.extend window n (chain ++ [c])

/-- The pair's tensor is elided (R280). -/
def State.elides (s : State) (window chain : List (Nat × Packet)) (pair : Pair) : Bool :=
  let noelide := fun (k : Nat) => ((chain[k]?).bind (fun m => s.queue? m.1)).map (·.noelide) |>.getD true
  let consumer := chain[pair.consumer]?
  let reads := fun (m : Nat × Packet) =>
    ((m.2.spec.bind (·.kdesc)).map (fun d => d.operands.any (fun o => o.kind != 1 && o.overlaps pair.operand))).getD false
  !pair.operand.liveout && pair.operand.consumedOnce && !noelide pair.producer && !noelide pair.consumer &&
    window.all (fun m => (consumer.map (fun c => c.1 == m.1 && c.2.seq == m.2.seq)).getD false || !reads m)

/-- The group of a chain (R276, R277). -/
def State.groupOf (s : State) (window chain : List (Nat × Packet)) (shares : List (List (Nat × Nat))) (pairs : List Pair) :
    SpliceGroup :=
  let specs := chain.filterMap (fun m => m.2.spec)
  let v := (specs.map (·.vclusters)).foldl max 0
  { members := chain.map (fun m => (m.1, m.2.seq))
    vclusters := v
    spliceBytes := groupSplice specs
    shares
    pairs := pairs.map (fun p => { p with elided := s.elides window chain p })
    runs := (List.range pairs.length).flatMap (fun i => (List.range v).map (fun k =>
      { vcluster := k, place := i, gate := 0, consumed := 0, written := [], producerEnded := false }))
    ended := [] }

/-- Packets marked with the group that holds them. -/
def State.joinGroup (s : State) (gid : Nat) (members : List (Nat × Nat)) : State :=
  members.foldl (fun (s : State) m => s.updPacket m.1 m.2 (fun p => { p with state := .decided, group := some gid })) s

/-- No packet of a partition became dispatchable before a moment that has still to be decided on (R274). -/
def State.firstReady (s : State) (part at_ : Nat) : Bool :=
  s.queues.all (fun e => e.2.part != part || e.2.packets.all (fun p =>
    match p.ready with
    | some (n, _) => !(decide (n < at_) && (p.state == .fetched || p.state == .windowed) && e.2.due p.seq [] && s.depsMet e.2 p [])
    | none => true))

/-- What the splice unit decides on a LAUNCH that has become dispatchable, where its turn has come: the window, the chain, and the
shares and pairs of its members; an inner none where it runs unspliced (R274, R275, R348). -/
def State.spliceChoice (s : State) (queue seq : Nat) :
    Option (Queue × Option (List (Nat × Packet) × List (Nat × Packet) × List (List (Nat × Nat)) × List Pair)) :=
  match s.queue? queue with
  | none => none
  | some x =>
    match x.packets[seq]?.bind (fun p => p.ready.map (fun r => (p, r))) with
    | none => none
    | some (p, at_, present) =>
      let window := (s.window queue).filter (fun m => present.contains (m.1, m.2.seq))
      if p.state ≠ .windowed ∨ !x.due seq [] ∨ !s.depsMet x p [] ∨ !s.firstReady x.part at_ ∨
          window.any (fun m => m.2.state == .fetched) then none
      else
        let chain := if p.spliceSpec.isSome then s.extend window 3 [(queue, p)] else [(queue, p)]
        let tested := if chain.length < 2 then none else spliceTest s.draws (chain.filterMap (fun m => m.2.spec))
        some (x, tested.map (fun r => (window, chain, r.1, r.2)))

/-- A splice group of a chain as a decision of its partition (R368). -/
def spliceRecord (queue seq : Nat) (chain : List (Nat × Packet)) : List (Nat × Nat × Nat × List Nat) :=
  [(recSplice, queue, seq, chain.flatMap (fun m => [m.1, m.2.seq]))]

/-- SPLICE_DECISION: once for each LAUNCH that has become dispatchable, in the order in which they have, over the packets that were in
the window at that moment (R274, R348). -/
def execSpliceDecision (queue seq : Nat) (s : State) : Out :=
  match s.spliceChoice queue seq with
  | none => .next s
  | some (x, none) =>
    .next ((s.logState (s.writingCore x.part) queue seq [0, queue, seq, 3]).updPacket queue seq (fun p => { p with state := .decided }))
  | some (x, some (window, chain, shares, pairs)) =>
    let gid := (s.groups.map (·.1)).foldl (fun m x => max m (x + 1)) 0
    let g := s.groupOf window chain shares pairs
    let decision := spliceRecord queue seq chain
    s.when (s.inTurn x.part decision)
      ({ ((s.decided x.part decision).logGroup gid queue seq 1).drawn with groups := insertKey s.groups gid g }.joinGroup gid g.members)

end Sys2Proof.Machine
end

