-- ==== Sys2Proof/Machine/Placing.lean ====
section
/-!
DEFINITION. Machine/Placing.lean: from packet to strand: what is to be placed, refusals (R350), where virtual clusters fit
(R26, R33 to R35, R87, R206, R276), the order among packets (R349), the transaction (R340), and the start and the
resumption of strands (R37, R38, R273, R317).
-/
namespace Sys2Proof.Machine

/-! ## What a dispatch places -/

/-- A packet, a task or a spliced group to be placed, whether or not some of it has been. -/
structure Seating where
  queue : Nat
  /-- packet number; of a task, the DEPGRAPH's -/
  seq : Nat
  part : Nat
  asid : Nat
  /-- the members: queue, number and what each asks for; one but for a group -/
  members : List (Nat × Nat × LaunchSpec)
  group : Option Nat
  task : Option (Nat × Nat)
  /-- of a SIBLAUNCH: its packet -/
  sib : Option Packet
  instances : Nat
  /-- of one instance -/
  vclusters : Nat
  mode : BitVec 2
  /-- slots a virtual cluster takes -/
  slots : Nat
  splice : Nat
  cohort : Bool
  loose : Bool
  idle : Bool
  /-- what is placed already -/
  placed : List Placement
  /-- the REASON it is refused for by its packet alone -/
  refusal : Option Nat
  deriving DecidableEq, Repr

/-- Virtual clusters in all. -/
def Seating.total (p : Seating) : Nat := p.vclusters * p.instances

/-- A launch that is no spliced group, as a plan. -/
def planOf (queue seq : Nat) (x : Queue) (spec : LaunchSpec) (refusal : Option Nat) (task : Option (Nat × Nat))
    (sib : Option Packet) (instances : Nat) : Seating :=
  { queue, seq, part := x.part, asid := x.asid
    members := [(queue, seq, spec)]
    group := none, task, sib, instances
    vclusters := spec.vclusters
    mode := spec.shape.mode
    slots := spec.shape.strands
    splice := spec.shape.splice
    cohort := spec.cohort
    loose := spec.loose
    idle := spec.shape.idle
    placed := []
    refusal }

/-- A member of a group as its launch runs: one strand of each virtual cluster of the group (R276). -/
def SpliceGroup.memberSpec (g : SpliceGroup) (spec : LaunchSpec) : LaunchSpec :=
  { spec with
    vclusters := g.vclusters
    shape := { spec.shape with strands := 1, mode := if g.members.length = 2 then 1 else 2, splice := g.spliceBytes } }

/-- A spliced group as a plan; it keeps R34's grouping unless every member declares loose placement. -/
def State.groupPlan (s : State) (queue seq : Nat) (x : Queue) (gid : Nat) (g : SpliceGroup) : Seating :=
  let members := g.members.filterMap (fun m =>
    ((s.packet? m.1 m.2).bind (·.spec)).map (fun l => (m.1, m.2, g.memberSpec l)))
  { queue, seq, part := x.part, asid := x.asid, members
    group := some gid, task := none, sib := none, instances := 1
    vclusters := g.vclusters
    mode := if g.members.length = 2 then 1 else 2
    slots := g.members.length
    splice := g.spliceBytes
    cohort := false
    loose := members.all (fun m => m.2.2.loose)
    idle := false
    placed := []
    refusal := none }

/-- A launch in progress as a plan, with what is placed of it. -/
def State.launchPlan (s : State) (l : Launch) : Option Seating :=
  (s.queue? l.queue).map (fun x =>
    match l.group.bind (fun m => (lookup s.groups m.1).map (fun g => (m.1, g))) with
    | some (gid, g) => { s.groupPlan l.queue l.seq x gid g with placed := l.placements }
    | none => { planOf l.queue l.seq x l.spec none l.task none l.instances with placed := l.placements })

/-- A decided group may be dispatched: all that its members wait for has come, but for what waits behind the group's own start,
for which its strands wait once they are placed (R347, log 35). -/
def State.groupReady (s : State) (members : List (Nat × Nat)) : Bool :=
  let held := s.heldBehind members
  members.all (fun m =>
    match s.queue? m.1, s.packet? m.1 m.2 with
    | some y, some o =>
      o.unstarted && y.destroyed.isNone && !y.stopped m.2 &&
        (y.packets.take m.2).all (fun p => p.passed || members.contains (m.1, p.seq) || held.contains (m.1, p.seq)) &&
        s.depsMet y o (members ++ held)
    | _, _ => false)

/-- The plan of a packet that is dispatchable and has not started: of a group, through its first member (R276, R347). -/
def State.packetPlan (s : State) (queue : Nat) (x : Queue) (p : Packet) : Option Seating :=
  if !p.unstarted then none
  else
    match p.kind, p.state, p.group with
    | .invalid, _, _ =>
      if x.due p.seq [] then some (planOf queue p.seq x (s.readSpec x p.prio p.bytes).1 (some 4) none none 1) else none
    | .launch, .decided, none =>
      if x.due p.seq [] && s.depsMet x p [] then p.spec.map (fun l => planOf queue p.seq x l p.refusal none none 1) else none
    | .launch, .decided, some gid =>
      match lookup s.groups gid with
      | none => none
      | some g =>
        if g.members.head? = some (queue, p.seq) ∧ s.groupReady g.members then some (s.groupPlan queue p.seq x gid g) else none
    | .siblaunch, .decided, _ =>
      if x.due p.seq [] && s.depsMet x p [] then
        let r := s.readSpec x p.prio p.bytes
        some (planOf queue p.seq x r.1 r.2 none (some p) (p.field 88 1))
      else none
    | _, _, _ => none

/-- The plan of the task at the head of a graph's ready queue (R247, R343). -/
def State.taskPlan (s : State) (key : Nat) (g : Graph) : Option Seating :=
  match g.ready, s.queue? g.queue with
  | t :: _, some x =>
    (g.tasks[t]?).map (fun task =>
      let r := s.readSpec x task.level task.bytes
      let ok := packetKind 2 task.bytes == .launch
      planOf g.queue g.seq x r.1 (if ok then r.2 else some 4) (some (key, t)) none 1)
  | _, _ => none

/-- Every plan of a partition: packets, ready tasks and launches with virtual clusters still to be placed. Under an abort
those are placed no more (R353). -/
def State.plans (s : State) (part : Nat) : List Seating :=
  s.queues.flatMap (fun e => if e.2.part = part then e.2.packets.filterMap (s.packetPlan e.1 e.2) else []) ++
  s.graphs.filterMap (fun g => if g.2.part = part then s.taskPlan g.1 g.2 else none) ++
  s.launches.filterMap (fun l =>
    if l.2.part ≠ part ∨ l.2.aborted ∨ l.2.virtualClusters ≤ l.2.placements.length ∨ 0 < ((l.2.group.map (·.2)).getD 0) then none
    else s.launchPlan l.2)

/-! ## Refusals (R350) -/

/-- Slots that own lanes in a mode (R21). -/
def laneSlots (mode : BitVec 2) : Nat := 2 ^ (min mode.toNat 2)

/-- Bytes of scratchpad a virtual cluster of the plan is denied: splice buffer and journals (R87, R206). -/
def Seating.denied (p : Seating) : Nat :=
  p.splice + (match p.group with
    | some _ => (p.members.map (fun m => m.2.2.shape.journal)).sum
    | none => p.slots * ((p.members.map (fun m => m.2.2.shape.journal)).headD 0))

/-- Accumulators a virtual cluster of the plan takes. -/
def Seating.tiles (p : Seating) : Nat :=
  match p.group with
  | some _ => (p.members.map (fun m => m.2.2.shape.acc)).sum
  | none => p.slots * ((p.members.map (fun m => m.2.2.shape.acc)).headD 0)

/-- Physical clusters of a partition that are in service (R362, R367). -/
def State.serving (s : State) (part : Nat) : List Nat :=
  match lookup s.partitions part with
  | none => []
  | some r => (List.range Config.clusters).filter (fun k => r.owns (stackOf k) && (s.cluster k).inService)

/-- How many remainders of a group of 16, each of `whole` full quads and one quad with `rest` clusters, a stack group takes
whose quads have these numbers of clusters in service. -/
def remaindersIn (quads : List Nat) (whole rest : Nat) : Nat :=
  let full := (quads.filter (· == 4)).length
  let part := quads.filter (· != 4)
  let fits := fun (k : Nat) => decide (k * whole ≤ full) &&
    (rest == 0 || decide (k ≤ (part.map (fun c => c / rest)).sum + (full - k * whole) * (4 / rest)))
  ((List.range 17).filter fits).foldl max 0

/-- A grouping under R34 can be met for every instance on the in-service clusters of a partition, each virtual cluster on a
cluster of its own (R35, log 37). -/
def State.grouping (s : State) (p : Seating) : Bool :=
  let serving := s.serving p.part
  let stackGroups := (List.range 12).map (fun m => (List.range 4).map (fun q =>
    (serving.filter (fun k => quadOf k == 4 * m + q)).length))
  let whole := stackGroups.filter (fun qs => qs.all (· == 4))
  let others := stackGroups.filter (fun qs => !qs.all (· == 4))
  let need16 := p.instances * (p.vclusters / 16)
  let rest := p.vclusters % 16
  let room := ((whole.drop need16 ++ others).map (fun qs => remaindersIn qs (rest / 4) (rest % 4))).sum
  decide (need16 ≤ whole.length) && (rest == 0 || decide (p.instances ≤ room))

/-- The REASONs for which a plan is refused; an invalid packet has no other (R350). -/
def State.reasons (s : State) (p : Seating) : List Nat :=
  if p.refusal = some 4 then [4]
  else
    p.refusal.toList ++
    (if p.cohort && (decide ((s.serving p.part).length < p.total) || (!p.loose && !s.grouping p)) then [2] else []) ++
    (if p.members.all (fun m => m.2.2.wsb.all (fun b => (s.resident b.1 b.2).isSome)) then [] else [3]) ++
    (if Config.scratchBytes < p.denied ∨ 4 < p.tiles then [5] else []) ++
    (if p.group.isNone && !p.idle && decide (laneSlots p.mode < p.slots) then [6] else [])

/-- A refused packet, task or group completes with STATUS 0x05 (R350). Of several REASONs a free value picks one (log 36). -/
def State.refusePlan (s : State) (p : Seating) (reasons : List Nat) : State :=
  let reason := reasons.getD (Config.refusalPick s.draws % reasons.length) 0
  match s.queue? p.queue, p.task with
  | some x, some (key, t) =>
    let s0 := s.logEnd (s.writingCore p.part) p.queue p.seq 5
    let s1 := match p.members with
      | m :: _ => s0.writeRecord x.asid m.2.2.compl (completionRecord 5 reason 0 0 m.2.2.tag p.seq 0 none)
      | [] => s0
    match lookup s1.graphs key with
    | none => s1.drawn
    | some g =>
      let tasks := match g.tasks[t]? with
        | some task => g.tasks.set t { task with started := true }
        | none => g.tasks
      (({ s1 with graphs := insertKey s1.graphs key { g with tasks, ready := g.ready.filter (· != t) } }).taskEnded
        (s.writingCore p.part) p.queue p.seq key t).drawn
  | some _, none =>
    let s1 := p.members.foldl (fun (s : State) m =>
      match s.queue? m.1, s.packet? m.1 m.2.1 with
      | some y, some o => s.endPacket m.1 y o 5 reason 0
      | _, _ => s) s
    (match p.group with
     | some gid => { s1 with groups := eraseKey s1.groups gid }
     | none => s1).drawn
  | none, _ => s

/-! ## Where virtual clusters fit -/

/-- A slot is held: by a strand, or by a core that has placed there without a COMMIT (R39, R340). -/
def State.slotHeld (s : State) (slot : Nat) : Bool :=
  (s.strand? slot).isSome ||
    s.cores.any (fun c => c.2.held.any (fun h => decide (4 * h.1 + h.2.1 ≤ slot) && decide (slot < 4 * h.1 + h.2.1 + h.2.2)))

/-- A virtual cluster of a plan fits a cluster from a slot on (R21, R26, R33, R87, R206). -/
def State.fitsAt (s : State) (p : Seating) (cluster slot : Nat) : Bool :=
  let c := s.cluster cluster
  let here := s.clusterStrands cluster
  let owns := ((lookup s.partitions p.part).map (fun r => r.owns (stackOf cluster))).getD false
  let unit := if p.group.isSome then 4 else p.slots
  decide (cluster < Config.clusters) && c.inService && owns && slot % unit == 0 && decide (slot + p.slots ≤ 4) &&
    (List.range p.slots).all (fun i => !s.slotHeld (4 * cluster + slot + i)) &&
    (here.isEmpty || (c.mode == p.mode && c.asid.toNat == p.asid && c.repartition.isNone)) &&
    (p.idle || (List.range p.slots).all (fun i => (lanesOf p.mode (slot + i)).2 != 0)) &&
    decide ((here.map (fun h => h.2.tiles.length)).sum + p.tiles ≤ 4) &&
    decide (max (if here.isEmpty then 0 else c.spliceBytes) p.splice + (here.map (fun h => h.2.journalSize)).sum +
      (p.denied - p.splice) ≤ Config.scratchBytes)

/-- A virtual cluster on a cluster keeps the grouping of R34 with a placement, of a launch of v virtual clusters an instance. -/
def groupedWith (v : Nat) (q : Placement) (vc cluster : Nat) : Bool :=
  q.vcluster / v != vc / v ||
    ((q.vcluster % v / 4 != vc % v / 4 || quadOf q.cluster == quadOf cluster) &&
     (q.vcluster % v / 16 != vc % v / 16 || stackOf q.cluster == stackOf cluster))

/-- A virtual cluster on a cluster keeps the grouping of R34 with those placed of its instance. -/
def Seating.grouped (p : Seating) (placed : List Placement) (vc cluster : Nat) : Bool :=
  p.loose || placed.all (fun q => groupedWith p.vclusters q vc cluster)

/-- Two placements take no slot in common. -/
def Seating.apart (p : Seating) (a b : Placement) : Bool :=
  a.cluster != b.cluster || decide (a.slot + p.slots ≤ b.slot) || decide (b.slot + p.slots ≤ a.slot)

/-- Tiles, and bytes of journals, that placements of a plan on one cluster take together fit it too. -/
def State.sharedFit (s : State) (p : Seating) (new : List Placement) : Bool :=
  new.all (fun a =>
    let n := (new.filter (fun b => b.cluster == a.cluster)).length
    let here := s.clusterStrands a.cluster
    decide ((here.map (fun h => h.2.tiles.length)).sum + n * p.tiles ≤ 4) &&
      decide (max (if here.isEmpty then 0 else (s.cluster a.cluster).spliceBytes) p.splice +
        (here.map (fun h => h.2.journalSize)).sum + n * (p.denied - p.splice) ≤ Config.scratchBytes))

/-- New placements, checked one after another (R33 to R35): the next virtual clusters in ascending order, all of them with a
cohort. -/
def State.placementOk (s : State) (p : Seating) (new : List Placement) : Bool :=
  let first := p.placed.length
  !new.isEmpty && decide (first + new.length ≤ p.total) && (!p.cohort || new.length == p.total) &&
    (List.range new.length).all (fun i =>
      match new[i]? with
      | none => false
      | some a =>
        a.vcluster == first + i && s.fitsAt p a.cluster a.slot && p.grouped (p.placed ++ new.take i) a.vcluster a.cluster &&
          (new.take i).all (p.apart a)) &&
    s.sharedFit p new

/-- The virtual cluster that another may be taken to come before: the next ones of a quad, of a stack group, of an instance and
the instances themselves can be exchanged, so that a search need look at one order of them only (R34, R343). -/
def Seating.orderedAfter (p : Seating) (vc : Nat) : Option Nat :=
  let v := p.vclusters
  let j := vc % v
  if p.loose then (if vc = 0 then none else some (vc - 1))
  else if j = 0 then (if vc = 0 then none else some (vc - v))
  else if j % 4 ≠ 0 then some (vc - 1)
  else if j % 16 ≠ 0 then (if j + 4 ≤ v then some (vc - 4) else none)
  else if j + 16 ≤ v then some (vc - 16) else none

/-- Places for the next n virtual clusters after those given, found by search. -/
def State.search (s : State) (p : Seating) : Nat → List Placement → Option (List Placement)
  | 0, new => some new
  | n + 1, new =>
    let vc := p.placed.length + new.length
    let at_ := fun (a : Placement) => 4 * a.cluster + a.slot
    let above := ((p.orderedAfter vc).bind (fun w => new.find? (fun a => a.vcluster == w))).map at_
    let spots := (s.serving p.part).flatMap (fun k => [0, 1, 2, 3].map (fun b => ({ vcluster := vc, cluster := k, slot := b } : Placement)))
    spots.findSome? (fun a =>
      if (above.map (fun w => decide (w < at_ a))).getD true && s.fitsAt p a.cluster a.slot &&
          p.grouped (p.placed ++ new) a.vcluster a.cluster && new.all (p.apart a) && s.sharedFit p (new ++ [a])
      then s.search p n (new ++ [a]) else none)

/-! ## The order among packets (R349) -/

/-- A packet of a queue holds a later one behind it: it has not started, or it runs and a BARRIER between them, or the later one
itself, waits for it to complete (R344). -/
def Queue.holds (x : Queue) (seq later : Nat) : Bool :=
  match x.packets[seq]? with
  | none => false
  | some p =>
    match p.state with
    | .ended _ => false
    | .started => (x.packets.take (later + 1)).any (fun b => decide (seq < b.seq) && b.kind == .barrier && b.unstarted)
    | _ => true

/-- Packets that hold a set of packets to their level: those that depend on one of them, and later ones of a queue that one of
them holds behind it. -/
def State.raisers (s : State) (set : List (Nat × Nat)) : List (Nat × Nat) :=
  s.queues.flatMap (fun e => (e.2.packets.filter (fun o =>
      let ended := match o.state with
        | .ended _ => true
        | _ => false
      !ended && (o.deps.any (fun d => set.contains d) ||
        (o.unstarted && set.any (fun m => m.1 == e.1 && decide (m.2 < o.seq) && e.2.holds m.2 o.seq))))).map (fun o => (e.1, o.seq)))

/-- The closure of that, as far as it grows in n steps. -/
def State.raised (s : State) : Nat → List (Nat × Nat) → List (Nat × Nat)
  | 0, set => set
  | n + 1, set =>
    let more := (s.raisers set).filter (fun m => !set.contains m)
    if more.isEmpty then set else s.raised n (set ++ more)

/-- The effective priority of a plan, as a level, 0 the highest. -/
def State.level (s : State) (p : Seating) : Nat :=
  let own := (p.members.map (fun m => m.2.2.prio)).foldl min 7
  if p.task.isSome then own
  else
    (s.raised s.packetCount (p.members.map (fun m => (m.1, m.2.1)))).foldl
      (fun n m => min n (((s.packet? m.1 m.2).map (·.prio)).getD 7)) own

/-- Where a plan stands in the dispatcher's order: its level, then its queue in the rotation. -/
def State.rank (s : State) (p : Seating) : Nat :=
  let served := ((lookup s.partitions p.part).map (·.served)).getD 0
  4096 * s.level p + (p.queue + 4095 - served) % 4096

/-- A plan that is not refused and of which something can be placed now. -/
def State.placeable (s : State) (p : Seating) : Bool :=
  (!p.placed.isEmpty || (s.reasons p).isEmpty) && (s.search p (if p.cohort then p.total else 1) []).isSome

/-! ### Strands to be resumed (R33, R34, R37, R317) -/

/-- A strand's place among the slots of its virtual cluster (R33, R276). -/
def Launch.index (l : Launch) (st : Strand) : Nat :=
  match st.group with
  | some (_, place) => place
  | none => st.ordinal % l.spec.shape.strands

/-- The virtual cluster's other strands that are resident lie where a slot for this one continues them (R33, R276). -/
def State.mates (s : State) (l : Launch) (st : Strand) (slot : Nat) : Bool :=
  s.strands.all (fun p =>
    let same := p.2.launch == st.launch || ((p.2.group.map (·.1)).isSome && (p.2.group.map (·.1)) == (st.group.map (·.1)))
    !(same && p.2.vcluster == st.vcluster && p.2.life != .retired) || p.1 + l.index st == slot + l.index p.2)

/-- All strands of a virtual cluster wait, pre-empted, to be resumed: it may come to any cluster (R33, R37). -/
def Launch.away (l : Launch) (vcluster : Nat) : Bool :=
  (l.preempted.filter (fun st => st.vcluster == vcluster)).length == l.spec.shape.strands

/-- The grouping of R34 with the virtual clusters of a launch that are resident, or have retired strands, where they were placed
last (R37, log 120). -/
def regrouped (l : Launch) (st : Strand) (slot : Nat) : Bool :=
  l.spec.loose || l.placements.all (fun q => l.away q.vcluster ||
    groupedWith l.spec.vclusters q st.vcluster (clusterOf slot))

/-- A slot suits a pre-empted strand: its cluster is in the mode the strand left, or empty, and has room (R37). -/
def State.suits (s : State) (l : Launch) (st : Strand) (slot : Nat) : Bool :=
  let k := clusterOf slot
  let i := l.index st
  let n := match st.group with
    | some _ => 4
    | none => l.spec.shape.strands
  let p : Seating := { planOf l.queue l.seq default l.spec none none none 1 with
    part := l.part, asid := st.asid.toNat, mode := st.lastMode, slots := 1 }
  s.fitsAt p k (slot % 4) && decide (i ≤ slot % 4) && (slot % 4 - i) % n == 0 && s.mates l st slot && regrouped l st slot

/-- A strand of a launch that is pre-empted can be resumed now. -/
def State.resumable (s : State) (l : Launch) : Bool :=
  l.preempted.any (fun st => (s.serving l.part).any (fun k => [0, 1, 2, 3].any (fun i => s.suits l st (4 * k + i))))

/-- Nothing of a partition that could be placed or resumed now comes before a plan (R317, R349). -/
def State.served (s : State) (p : Seating) : Bool :=
  let before := fun (o : Seating) => decide (s.rank o < s.rank p)
  (s.plans p.part).all (fun o => !(before o && s.placeable o)) &&
    s.launches.all (fun l => l.2.part != p.part || !(((s.launchPlan l.2).map before).getD false && s.resumable l.2))

/-! ## Strands as they start (R38, R273, R305) -/

/-- A tile with indeterminate contents (R38, log 15). -/
def freeTile (n t : Nat) : Tile :=
  Vector.ofFn (fun r => { cols := Vector.ofFn (fun c => Config.accInit n (128 * t + r.val) c.val),
                          bound := (Config.accInit n (128 * t + r.val) 128).toNat })

/-- A context at strand start. -/
def startContext (pc : Word) (args : List Word) (priv : Bool) (settings : Word × Word) : Context :=
  { Context.blank with
    pc
    g := Vector.ofFn (fun r => if r.val = 0 then 0 else args.getD (r.val - 1) 0)
    priv
    tvec := settings.1 &&& 0xFFFFFFFFFFFFFFC0
    tscratch := settings.2 }

/-- The share of a virtual cluster of a spliceable launch: as a group gives it, or as R273 does. -/
def State.shareOf (s : State) (l : Launch) (vc : Nat) : Nat × Nat :=
  match l.group.bind (fun m => (lookup s.groups m.1).map (fun g => g.share m.2 vc)) with
  | some sh => sh
  | none =>
    match l.spec.kdesc with
    | some d => (d.plainShares l.spec.vclusters).getD (vc % l.spec.vclusters) (0, 0)
    | none => (0, 0)

/-- Arguments 0 to 7, with the share in g7 and g8 of a spliceable kernel (R38, R273). -/
def Launch.arguments (l : Launch) (share : Nat × Nat) : List Word :=
  if (l.spec.kdesc.map (·.spliceable)).getD false then
    l.spec.args.take 6 ++ [BitVec.ofNat 64 share.1, BitVec.ofNat 64 share.2]
  else l.spec.args

/-- The bindings of R95 that a launch's table names. -/
def State.bindings (s : State) (l : Launch) : List WsBinding :=
  l.spec.wsb.map (fun b => { region := b.1, slot := (s.resident b.1 b.2).getD 0, gennum := b.2 })

/-- Strand i of a virtual cluster of a launch, as placed (R38, R206, R250, R273, R305, R342). -/
def State.newStrand (s : State) (l : Launch) (vc i : Nat) : Strand :=
  let v := l.spec.vclusters
  let share := s.shareOf l vc
  let args := l.arguments share
  let set := l.settings
  let space := lookup s.spaces l.asid
  let ordinal := vc * l.spec.shape.strands + i
  let sib := l.siblings.map (fun gid => (vc / v, gid))
  let seed := l.spec.seed + BitVec.ofNat 32 ((sib.map (·.1)).getD 0)
  let st : Strand := { Strand.blank with
    exec := startContext l.spec.entryExec args l.spec.priv (set.1, set.2.1)
    access := startContext l.spec.entryAccess args l.spec.priv (set.1, set.2.1)
    asid := BitVec.ofNat 16 l.asid
    ptroot := BitVec.ofNat 64 ((space.map (·.root)).getD 0)
    canlimit := set.2.2
    tiles := (List.range l.spec.shape.acc).map (freeTile s.draws)
    launch := l.id
    ordinal
    vcluster := vc
    sibling := sib
    watermarks := Vector.ofFn (fun k => ((l.spec.kdesc.bind (fun d => d.watermarks[k.val]?)).getD
      { word := 0, limit := 0, base := 0, size := 1 }))
    wsBindings := s.bindings l
    journalSize := l.spec.shape.journal
    spillSize := l.spec.spillSize
    spillAddr := l.spec.spillAddr + BitVec.ofNat 64 (ordinal * l.spec.spillSize)
    firstStrip := share.1
    group := l.group
    spliceable := (l.spec.kdesc.map (·.spliceable)).getD false
    kernelId := BitVec.ofNat 64 ((l.spec.kdesc.map (·.kernelId)).getD 0) }
  (st.reseed .access seed).reseed .execute seed

/-- A sibling that has been sent a cancel request before all of its strands were placed: those to come receive it too (R252). -/
def State.owesCancel (s : State) (st : Strand) : Bool :=
  match s.siblingOf st with
  | some (_, _, _, x) => x.cancelReq && !x.finished
  | none => false

/-! ## Clusters as launches take them (R26, R33, R87, R89, R233) -/

/-- A cluster as a virtual cluster of a launch comes to it: one that holds no strand enters the launch's mode, and its scratchpad
bytes are indeterminate. -/
def State.prepare (s : State) (cluster asid splice : Nat) (mode : BitVec 2) : State :=
  let c := s.cluster cluster
  if (s.clusterStrands cluster).isEmpty then
    let lo := 2 ^ 50 / 64 + cluster * 2 ^ 16
    let cleared := if c.asid.toNat = asid then s.poison else s.poison.filter (fun u => !(decide (lo ≤ u) && decide (u < lo + 2 ^ 16)))
    (({ s with poison := cleared }).setCluster cluster { c with
      scratch := { cells := [] }
      scratchEpoch := s.draws + 1
      asid := BitVec.ofNat 16 asid
      mode
      repartition := none
      spliceBytes := splice
      mq := []
      forest := none
      icache := [] }).drawn
  else s.setCluster cluster { c with spliceBytes := max c.spliceBytes splice, icache := [] }

/-- Nothing waits any more on behalf of whoever held a slot before. -/
def State.clearSlot (s : State) (slot : Nat) : State :=
  let who := [.context slot .execute, .context slot .access, .lanes slot, .probe slot, .matrix slot] ++
    (List.range 8).map (fun k => (Requester.stream slot k))
  who.foldl (fun (s : State) w => s.abandon w) s

/-- A strand put into a slot. -/
def State.seat (s : State) (slot : Nat) (st : Strand) : State :=
  ((s.clearSlot slot).setStrand slot (if s.owesCancel st then st.requestCancel s.now else st)).drawn

/-- One virtual cluster of a plan placed, for the launches of its members in order. -/
def State.placeOne (s : State) (p : Seating) (ids : List Nat) (a : Placement) : State :=
  let s1 := s.prepare a.cluster p.asid p.splice p.mode
  let slot := 4 * a.cluster + a.slot
  let note := fun (s : State) (id : Nat) =>
    match s.launch? id with
    | some l => s.setLaunch id { l with placements := l.placements ++ [a] }
    | none => s
  let s2 := ids.foldl note s1
  match p.group with
  | some _ =>
    (List.range ids.length).foldl (fun (s : State) k =>
      match s.launch? (ids.getD k 0) with
      | some l => s.seat (slot + k) (s.newStrand l a.vcluster 0)
      | none => s) s2
  | none =>
    (List.range p.slots).foldl (fun (s : State) i =>
      match s.launch? (ids.headD 0) with
      | some l => s.seat (slot + i) (s.newStrand l a.vcluster i)
      | none => s) s2

/-! ## The start of a packet -/

/-- A sibling that has done nothing yet. -/
def Sibling.blank : Sibling :=
  { post := none, status := 0, left := false, ended := false, cancelReq := false, canpc := 0, cycles := 0, atDecision := 0,
    released := false }

/-- The lowest free GROUP number among the slots of a partition (R250, R362). -/
def State.freeGroup (s : State) (part : Nat) : Option Nat :=
  let units := ((lookup s.partitions part).map (·.ballot)).getD []
  (List.range 4096).find? (fun g => units.contains (g / 64) && (lookup s.sibgroups g).isNone)

/-- The sibling group of a SIBLAUNCH, its page list read now (R250, R255, R343, R346). -/
def State.newGroup (s : State) (asid part launch : Nat) (p : Packet) : SibGroup :=
  let n := p.field 88 1
  let npre := p.field 90 2
  let page := fun (i : Nat) => s.fwDouble asid (p.field 96 8 + 8 * i)
  { launch, part, n
    quorum := p.field 89 1
    siblings := List.replicate n Sibling.blank
    arrivals := 0
    state := .open_
    winner := 0
    hash := 0
    decidedAt := 0
    prefixPages := (List.range npre).map (fun i => (page i, n))
    privatePages := (List.range n).map (fun k => page (npre + k))
    freed := []
    acct := wordLE p.bytes 104 }

/-- The launches of a plan's members, from a first number on. -/
def Seating.launches (p : Seating) (first : Nat) (gid : Option Nat) : List Launch :=
  (List.range p.members.length).filterMap (fun k =>
    (p.members[k]?).map (fun m =>
      { id := first + k, queue := m.1, seq := m.2.1, asid := p.asid, part := p.part, spec := m.2.2
        placements := [], words := [], faultRecord := none
        siblings := gid
        task := p.task
        group := p.group.map (fun g => (g, k))
        preempted := [], aborted := false, byPartner := false, pages := []
        instances := p.instances
        codeDev := { cells := [] }, codeHost := { cells := [] }, codeRemotes := [] }))

/-- Records of elided ranges end where a launch with a write operand over them starts, and those of a group that starts are
kept, the 64 most recent of the partition (R281). -/
def State.elisions (s : State) (p : Seating) (after : Nat) : State :=
  let writes := p.members.flatMap (fun m => ((m.2.2.kdesc.map (·.operands)).getD []).filter (fun o => o.kind != 0))
  let covered := fun (e : Nat × Int × Int × Nat) => e.1 == p.part &&
    writes.any (fun o => decide (o.range.1 ≤ e.2.1) && decide (e.2.2.1 ≤ o.range.2))
  let checks := fun (k : Nat) => ((p.members[k]?).bind (fun m => s.queue? m.1)).map (·.elidechk) |>.getD false
  let new := ((p.group.bind (fun gid => (lookup s.groups gid).map (·.pairs))).getD []).filterMap (fun (q : Pair) =>
    if q.elided && (checks q.producer || checks q.consumer) then
      some (p.part, q.operand.range.1, q.operand.range.2, after)
    else none)
  let kept := s.elided.filter (fun e => !covered e) ++ new
  let mine := kept.filter (fun e => e.1 == p.part)
  { s with elided := kept.filter (fun e => e.1 != p.part) ++ mine.drop (mine.length - 64) }

/-- A packet or a task marked started. -/
def State.markStarted (s : State) (p : Seating) : State :=
  match p.task with
  | some (key, t) =>
    match lookup s.graphs key with
    | none => s
    | some g =>
      let tasks := match g.tasks[t]? with
        | some task => g.tasks.set t { task with started := true }
        | none => g.tasks
      { s with graphs := insertKey s.graphs key { g with tasks, ready := g.ready.filter (· != t) } }
  | none => p.members.foldl (fun (s : State) m => s.updPacket m.1 m.2.1 (fun o => { o with state := .started })) s

/-- Generations that the launches of a plan bind are pinned (R95). -/
def State.pin (s : State) (l : Launch) : State :=
  { s with regions := s.regions.map (fun (r : Nat × WsRegion) =>
      (r.1, { r.2 with slots := r.2.slots.map (fun (o : Option Generation) => o.map (fun (g : Generation) =>
        if l.spec.wsb.contains (r.1, g.gennum) then { g with pins := l.id :: g.pins } else g)) })) }

/-- A plan of which nothing is placed yet starts: its launches exist from now on, with the supervisor's settings as they stand (R365). None where a SIBLAUNCH finds no free slot for
its group (R250). -/
def State.startPlan (s : State) (p : Seating) : Option (List Nat × State) :=
  let first := s.nextLaunch
  let gid := if p.sib.isSome then s.freeGroup p.part else none
  if p.sib.isSome && gid.isNone then none
  else
    let settings := (lookup s.partitions p.part).map (fun r => (r.tvec, r.tscratch, r.canlimit)) |>.getD (0, 0, 0)
    let ls := (p.launches first gid).map (fun (l : Launch) =>
      { l with settings, codeDev := s.dev, codeHost := s.host, codeRemotes := s.remotes.map (fun r => (r.1, r.2.mem)) })
    let s1 : State := { s with
      launches := ls.foldl (fun m l => insertKey m l.id l) s.launches
      nextLaunch := first + ls.length
      sibgroups := (match p.sib, gid with
        | some o, some g => insertKey s.sibgroups g (s.newGroup p.asid p.part first o)
        | _, _ => s.sibgroups) }
    some (ls.map (·.id), ((ls.foldl (fun (s : State) l => s.pin l) s1).markStarted p).elisions p (first + ls.length))

/-- The launches of a plan of which something is placed. -/
def State.plannedLaunches (s : State) (p : Seating) : List Nat :=
  p.members.filterMap (fun m =>
    (s.launches.find? (fun l => l.2.queue == m.1 && l.2.seq == m.2.1 && l.2.task == p.task)).map (·.1))

/-! ## The transaction (R340) -/

/-- DATA of a PLACE entry. -/
def placeData (p : Seating) (a : Placement) : Nat :=
  a.vcluster % 2 ^ 32 + a.cluster * 2 ^ 32 + (2 ^ p.slots - 1) * 2 ^ a.slot * 2 ^ 40

/-- The BEGIN and the PLACE entries of a transaction. -/
def State.logPlaces (s : State) (core : Nat) (p : Seating) (new : List Placement) : State :=
  new.foldl (fun (s : State) a => s.logEntry .place core p.queue p.seq (placeData p a))
    (s.logEntry .begin_ core p.queue p.seq (Config.logData s.nextLsn))

/-- A core stops in a transaction: it keeps the queue's lock, and what it has placed without a COMMIT (R340). -/
def State.stopCore (s : State) (core : Nat) (p : Seating) (held : List (Nat × Nat × Nat)) : State :=
  let t := s.stopWith core (.dispatch p.queue p.seq) (some p.queue)
  { t with cores := insertKey t.cores core { t.core core with held } }

/-- The dispatcher has served a plan's queue (R349). -/
def State.serve (s : State) (p : Seating) : State :=
  match lookup s.partitions p.part with
  | some r => { s with partitions := insertKey s.partitions p.part { r with served := p.queue } }
  | none => s

/-- The transaction's effects, with its COMMIT (R340). -/
def State.commitPlan (s : State) (core : Nat) (p : Seating) (new : List Placement) : Option State :=
  match (if p.placed.isEmpty then s.startPlan p else some (s.plannedLaunches p, s)) with
  | none => none
  | some (ids, s1) =>
    let s2 := (s1.logPlaces core p new).logEntry .commit core p.queue p.seq (Config.logData s1.nextLsn)
    let s3 := new.foldl (fun (s : State) a => s.placeOne p ids a) s2
    some (s3.serve p).noteReady

/-- The placements of a plan as decisions of its partition (R368). -/
def Seating.decisions (p : Seating) (new : List Placement) : List (Nat × Nat × Nat × List Nat) :=
  new.map (fun a => (recPlace, p.queue, p.seq, [(p.task.map (fun t => t.2 + 1)).getD 0, a.vcluster, a.cluster, a.slot]))

/-- The plan that a dispatch of a packet number takes up: one of which virtual clusters from `first` on are still to be placed, and of
several, as tasks of one graph may be, the nth. -/
def State.planNamed (s : State) (queue seq first nth : Nat) : Option Seating :=
  ((s.queue? queue).map (·.part)).bind (fun part =>
    ((s.plans part).filter (fun p => p.queue == queue && p.seq == seq && p.placed.length == first))[nth]?)

/-- What a dispatch reads for a task or a SIBLAUNCH of which nothing is placed, noted as read by the firmware (R332, R346, R368). -/
def State.planSeen (s : State) (p : Seating) : State :=
  match s.queue? p.queue with
  | none => s
  | some x =>
    if !p.placed.isEmpty then s
    else
      match p.task, p.sib with
      | some (key, t), _ =>
        ((((lookup s.graphs key).bind (fun g => g.tasks[t]?)).map (·.bytes)).map (s.specSeen x)).getD s
      | none, some o => (s.specSeen x o.bytes).fwSeen x.part x.asid (o.field 96 8) (8 * (o.field 90 2 + o.field 88 1))
      | none, none => s

/-- The queue's events allow its dispatch: none of them waits (R339). -/
def State.dispatchDue (s : State) (queue : Nat) : Bool := !s.locked queue && !s.inlet.any (fun e => s.concerns e queue)

/-- A dispatch that a core gave back and that has nothing left to do, since its COMMIT had been performed or its packet has ended, is
taken by another (R340). -/
def State.dispatchSpent (s : State) (core queue seq : Nat) : State :=
  match s.queue? queue with
  | some x =>
    if s.inlet.contains (.dispatch queue seq) && s.coreRuns x.part core && s.dispatchDue queue &&
        (s.plans x.part).all (fun p => p.queue != queue || p.seq != seq)
    then ({ s with inlet := s.inlet.erase (.dispatch queue seq) } : State).beat core
    else s
  | none => { s with inlet := s.inlet.erase (.dispatch queue seq) }

/-- DISPATCH: a dispatchable packet, a released task, or the next virtual clusters of a launch, placed in one transaction or
refused (R339, R340, R349, R350). Of several plans that the packet number names, the turn's slot says which. Unit k + 1 of the turn
says that the core stops before its COMMIT with k virtual clusters placed, and the unit after the last of these that it stops
after it. -/
def execDispatch (core queue seq : Nat) (place : List (Nat × Nat × Nat)) (s : State) : Out :=
  let new : List Placement := place.map (fun a => { vcluster := a.1, cluster := a.2.1, slot := a.2.2 })
  match s.planNamed queue seq ((new.head?.map (·.vcluster)).getD 0) s.cur.slot with
  | none => .next (s.dispatchSpent core queue seq)
  | some p =>
    let given : State := { s with inlet := s.inlet.erase (.dispatch queue seq) }
    if !s.dispatchDue queue ∨ !s.coreRuns p.part core then .next s
    else if p.placed.isEmpty ∧ !(s.reasons p).isEmpty then
      .next ((((given.planSeen p).refusePlan p (s.reasons p)).followUp core).beat core)
    else if !s.placementOk p new ∨ !s.served p ∨ !s.inTurn p.part (p.decisions new) then .next s
    else if 0 < s.cur.unit ∧ s.cur.unit ≤ new.length + 1 then
      let done := new.take (s.cur.unit - 1)
      .next ((given.logPlaces core p done).stopCore core p (done.map (fun a => (a.cluster, a.slot, p.slots))))
    else
      match ((given.decided p.part (p.decisions new)).planSeen p).commitPlan core p new with
      | none => .next s
      | some t => .next (if s.cur.unit = new.length + 2 then t.stopCore core p [] else t.beat core)

/-- A core is reset and replays its log: a BEGIN without COMMIT is aborted, a COMMIT changes nothing that is in force already; its
locks are released and the event it held, if it had stopped in one, goes back to the head of the Inlet (R340). -/
def State.recoverCore (s : State) (n : Nat) : State :=
  let c := s.core n
  match c.event with
  | none => { s with cores := insertKey s.cores n { Core.blank with checkpoint := s.nextLsn, lastBeat := s.now } }
  | some e =>
    let last := (s.log.filter (fun x => x.core == n && decide (c.checkpoint ≤ x.lsn))).getLast?
    let s1 := match last with
      | some x => if x.kind = LogKind.begin_ ∨ x.kind = LogKind.place then s.logEntry .abort n x.queue x.seq (Config.logData s.nextLsn) else s
      | none => s
    { s1 with
      inlet := e :: s1.inlet
      cores := insertKey s1.cores n { c with
        lastBeat := s.now, event := none, lock := none, held := [], checkpoint := s1.nextLsn } }

/-- CORE_HEARTBEAT_TIMEOUT: the core that the turn's unit names has stopped 2^20 cycles ago (R340). -/
def execCoreHeartbeatTimeout (s : State) : Out :=
  s.when ((s.core s.cur.unit).event.isSome && decide ((s.core s.cur.unit).lastBeat + 2 ^ 20 ≤ s.now)) (s.recoverCore s.cur.unit)

/-! ## Start and resumption (R37, R38, R317) -/

/-- Of a spliced group's member, what R347 lets it wait for while it is placed has come: the packets before it in its queue hold it no
more, and nothing that it depends on is still to end, but for the group's other members (log 35). An abort ends the wait. -/
def State.groupStarts (s : State) (l : Launch) : Bool :=
  match l.group.bind (fun m => lookup s.groups m.1), s.queue? l.queue with
  | some g, some x =>
    l.aborted || l.begun || ((x.packets.take l.seq).all (fun p => p.passed || g.members.contains (l.queue, p.seq)) &&
      ((s.packet? l.queue l.seq).map (fun p => p.deps.all (fun d =>
        g.members.contains d || s.depState d != .waiting))).getD true)
  | _, _ => true

/-- The strand's turn to start has come: the virtual clusters of its instance below its own have started (R35), and so have the
earlier packets of its queue (R347). -/
def State.startsNext (s : State) (l : Launch) (st : Strand) : Bool :=
  s.strands.all (fun p => !(p.2.launch == l.id && p.2.life == .placed && p.2.vcluster / l.spec.vclusters == st.vcluster / l.spec.vclusters &&
    decide (p.2.vcluster < st.vcluster))) &&
  s.launches.all (fun o => !(o.2.queue == l.queue && decide (o.2.seq < l.seq) && o.2.task.isNone && l.task.isNone && !o.2.begun && !o.2.aborted)) &&
  s.groupStarts l

/-- Two strands run together: of one cohort, or of one spliced group on its cluster (R35, R317). -/
def Launch.together (l : Launch) (st other : Strand) : Bool :=
  (l.spec.cohort && other.launch == l.id) ||
    (st.group.isSome && other.group.map (·.1) == st.group.map (·.1) && other.vcluster == st.vcluster)

/-- Strands that run together with one wait, pre-empted, to be resumed. -/
def State.mateAway (s : State) (l : Launch) (st : Strand) : Bool :=
  s.launches.any (fun o => o.2.preempted.any (l.together st))

/-- A strand that has its slot may start: of a cohort, once all of it is resident (R35, R37). -/
def State.mayRun (s : State) (l : Launch) (st : Strand) : Bool :=
  !s.mateAway l st && (!l.spec.cohort || l.placements.length == l.virtualClusters)

/-- A strand that is being resumed may go on: all that run together with it have left, or ended, and have been resumed (R35, R37,
R317, log 120). -/
def State.mayResume (s : State) (l : Launch) (st : Strand) : Bool :=
  !s.mateAway l st && s.strands.all (fun p => !l.together st p.2 || p.2.life == .preempted || p.2.life == .retired)

/-- No strand of a launch has run on a cluster that still holds its slots. -/
def State.firstOn (s : State) (cluster launch : Nat) : Bool :=
  (s.clusterStrands cluster).all (fun p => p.2.launch != launch || p.2.life == .placed || p.2.life == .preempted)

/-- A strand runs: it starts with an acquire at system scope (R110, R247, R347), and the first of its launch on a cluster finds the
forest empty (R233). -/
def State.run (s : State) (slot : Nat) : State :=
  match s.strand? slot with
  | none => s
  | some st =>
    let k := clusterOf slot
    let s1 := if s.firstOn k st.launch then s.setCluster k { s.cluster k with forest := none } else s
    let s2 := match s1.launch? st.launch with
      | some l => s1.setLaunch st.launch { l with begun := true }
      | none => s1
    (s2.setStrand slot { st with life := .running }).dropL1 k

/-- The strand resumed in a slot goes on with those that run together with it, if it may. -/
def State.goOn (s : State) (slot : Nat) : State :=
  match s.strand? slot with
  | none => s
  | some st =>
    match s.launch? st.launch with
    | none => s
    | some l =>
      if st.life == .preempted && s.mayResume l st then
        ((s.strands.filter (fun p => p.2.life == .preempted && (p.1 == slot || l.together st p.2))).map (·.1)).foldl
          (fun (s : State) k => s.run k) s
      else s

/-- STRAND_START of the turn's slot: of one placed (R37, R38), or of one resumed once those it waits for have been resumed too or
have ended (R37). -/
def execStrandStart (s : State) : Out :=
  match s.strand? s.cur.slot with
  | none => .next s
  | some st =>
    match s.launch? st.launch with
    | none => .next s
    | some l =>
      if st.life == .placed then s.when (s.startsNext l st && s.mayRun l st) (s.run s.cur.slot)
      else .next (s.goOn s.cur.slot)

/-- A context at resumption: it goes to its handler (R317). -/
def Context.resumed (c fresh : Context) : Context :=
  { fresh with
    pc := c.tvec, tvec := c.tvec, tscratch := c.tscratch
    priv := true, intrap := true, ie := false, ven := false, vimprecise := false
    causeVector := false, cause := 0x10, tval := 0xFF, reason := 0xFF
    issues := c.issues
    engineErrors := c.engineErrors
    cancel := c.cancel
    retired := c.retired }

/-- Pages that the streams of a strand pin, and those firmware has kept for it (R215, R317). -/
def Strand.pinnedPages (st : Strand) : List (Nat × Nat) :=
  st.savedPins ++ st.streams.toList.flatMap (fun o =>
    match o with
    | some x => x.pins.map (fun q => (q.1, q.2.1))
    | none => [])

/-- A pre-empted strand as it is resumed: everything as at its start but what the firmware keeps (R317). -/
def Strand.resumed (st fresh : Strand) : Strand :=
  { fresh with
    exec := st.exec.resumed fresh.exec
    access := st.access.resumed fresh.access
    asid := st.asid
    ptroot := st.ptroot
    canlimit := st.canlimit
    clocks := st.clocks
    commits := st.commits
    splpts := st.splpts
    counted := st.counted
    savedPins := st.pinnedPages
    away := st.away
    canpc := st.canpc
    wsBindings := st.wsBindings }

/-- A launch with the place of a virtual cluster noted anew (R34). -/
def Launch.moved (l : Launch) (vcluster cluster slot : Nat) : Launch :=
  { l with placements := l.placements.map (fun a => if a.vcluster = vcluster then { a with cluster, slot } else a) }

/-- STRAND_RESUME: the firmware resumes a pre-empted strand of a launch in a slot; with a cohort, and with a spliced group on
its cluster, strands wait until the last of them is resumed (R37, R317). -/
def execStrandResume (launch index slot : Nat) (s : State) : Out :=
  match s.launch? launch with
  | none => .next s
  | some l =>
    match l.preempted.find? (fun st => st.ordinal == index) with
    | none => .next s
    | some st =>
      if s.locked l.queue ∨ !s.suits l st slot ∨ Config.slots ≤ slot ∨ !((s.launchPlan l).map s.served).getD true then .next s
      else
        let mates := fun (o : Launch) => o.id == launch || (l.group.isSome && o.group.map (·.1) == l.group.map (·.1))
        let s0 : State := { s with launches := s.launches.map (fun o =>
          if mates o.2 then (o.1, o.2.moved st.vcluster (clusterOf slot) (slot % 4 - l.index st)) else o) }
        let s1 := match s0.launch? launch with
          | some o => s0.setLaunch launch { o with preempted := o.preempted.filter (fun x => x.ordinal != index) }
          | none => s0
        let s1 := (((s.launchPlan l).map s1.serve).getD s1).logState (s.writingCore l.part) l.queue l.seq [12, launch, index, slot]
        let s2 := s1.prepare (clusterOf slot) st.asid.toNat (s.launchSplice launch) st.lastMode
        let fresh := s2.newStrand l st.vcluster (st.ordinal % l.spec.shape.strands)
        let s3 := (s2.clearSlot slot).setStrand slot { st.resumed fresh with life := .preempted } |>.drawn
        .next (s3.goOn slot)

/-! ## Pre-emption by the firmware (R35, R279, R315, R349) -/

/-- The slots that a pre-emption of the strand in a slot concerns: a cohort's strands all, a spliced group's on its cluster, else that
one (R35, R279). -/
def State.preemptedWith (s : State) (slot : Nat) : List Nat :=
  match s.strand? slot with
  | none => []
  | some st =>
    let cohort := ((s.launch? st.launch).map (·.spec.cohort)).getD false
    let with_ := fun (p : Nat × Strand) => p.1 == slot || (cohort && p.2.launch == st.launch) ||
      (st.group.isSome && p.2.group.map (·.1) == st.group.map (·.1) && clusterOf p.1 == clusterOf slot)
    (s.strands.filter with_).map (·.1)

/-- Strands pre-empted for a reason, with those that have to go with them. -/
def State.preemptAll (s : State) (slots : List Nat) (reason : BitVec 8) : State :=
  ((slots.flatMap s.preemptedWith).eraseDups).foldl (fun (s : State) k => s.requestPreempt k reason) s

/-- A packet of higher effective priority than a strand's waits because it cannot be placed (R349). -/
def State.outranked (s : State) (slot : Nat) : Bool :=
  match (s.strand? slot).bind (fun st => (s.launch? st.launch).bind s.launchPlan) with
  | none => false
  | some mine => (s.plans mine.part).any (fun p => decide (s.level p < s.level mine) && (s.reasons p).isEmpty && !s.placeable p)

/-- PREEMPT_REQUEST: the reasons the firmware gives (R315); for the scheduler's priority, of a strand that a packet which cannot be
placed outranks (R349). -/
def execPreemptRequest (slot : Nat) (reason : BitVec 8) (s : State) : Out :=
  s.when (decide (reason.toNat ≤ 3) && (reason != 0 || (s.preemptedWith slot).all s.outranked)) (s.preemptAll [slot] reason)

end Sys2Proof.Machine
end

