-- ==== Sys2Proof/Machine/Walks.lean ====
section
/-!
DEFINITION. Machine/Walks.lean: the events of translation: walks and their fills (R326 to R329, R332, R334), host pages
through ATS (R330) and page requests (R331). A walk reads, checks and swaps in the one step in which it fills (log 8).
-/
namespace Sys2Proof.Machine

/-- Walkers of a die (R329). -/
def walkers : Nat := 128

/-- The die of a quad. -/
def dieOfQuad (quad : Nat) : Nat := dieOf (4 * quad)

/-- A walk has a walker: fewer than 128 walks of its die arrived before it and are in flight (R329). -/
def State.hasWalker (s : State) (k : Nat) (w : Walk) : Bool :=
  decide ((s.walks.filter (fun p => decide (p.1 < k) && dieOfQuad p.2.quad == dieOfQuad w.quad)).length < walkers)

/-- The walk ends. -/
def State.dropWalk (s : State) (k : Nat) : State := { s with walks := eraseKey s.walks k }

/-- A fault of a page for some who wait. -/
def State.faultFor (s : State) (who : List Requester) (page : Nat) (cause : Cause) : State :=
  { s with xlatFaults := who.map (fun r => { who := r, page, cause : XlatFault }) ++ s.xlatFaults }

/-- The walk ends in a fault at everyone who waits for it (R327). -/
def State.walkFaults (s : State) (k : Nat) (w : Walk) (cause : Cause) : State :=
  (s.dropWalk k).faultFor (w.who ++ w.also) (pageOf w.va) cause

/-- The walk ends at a leaf that does not permit its access (R327). Those who joined it with another intent or privilege try
again: the leaf may permit theirs. -/
def State.walkDenied (s : State) (k : Nat) (w : Walk) : State := (s.dropWalk k).faultFor w.who (pageOf w.va) .protection

/-- A requester that no page is asked for (R199). -/
def Requester.isProbe : Requester → Bool
  | .probe _ => true
  | _ => false

/-- A page request for those who wait, of the walk's intent; one that is outstanding for the page is joined (R331). -/
def State.requestPage (s : State) (w : Walk) (who : List Requester) : State :=
  match s.pageReqFor w.asid (pageOf w.va) with
  | some (n, r) => { s with pageReqs := insertKey s.pageReqs n { r with who := who.foldr joined r.who } }
  | none =>
    let n := (s.pageReqs.map (·.1)).foldl (fun m x => Nat.max m (x + 1)) 0
    let a := lookup s.spaces w.asid
    let r : PageReq := {
      pasid := (a.map (·.pasid)).getD 0, func := (a.map (·.func)).getD 0, last := true
      asid := w.asid, va := pageOf w.va, intent := w.intent, since := s.now, who }
    { s with pageReqs := insertKey s.pageReqs n r }

/-- The walk ends in a page request where the address space has PRI enabled, else in a translation fault (R327, R331). An element
of a VLDFF above its first asks for no page (R199), and none is asked for when nobody waits any more. -/
def State.askPage (s : State) (k : Nat) (w : Walk) : State :=
  if ((lookup s.spaces w.asid).map (·.pri)).getD false then
    let all := w.who ++ w.also
    let asks := all.filter (fun r => !r.isProbe)
    let s1 := (s.dropWalk k).faultFor (all.filter Requester.isProbe) (pageOf w.va) (intentCause w.intent)
    if asks.isEmpty then s1 else s1.requestPage w asks
  else s.walkFaults k w (intentCause w.intent)

/-- The cluster a requester belongs to. -/
def State.requesterCluster (s : State) : Requester → Option Nat
  | .context slot _ | .lanes slot | .probe slot | .matrix slot | .stream slot _ => some (clusterOf slot)
  | .engine k => (s.engines.find? (fun c => c.id == k)).map (fun c => clusterOf c.slot)

/-- A walk's translation filled into the L2 TLB of its quad and of those who joined it, and into the L1 TLBs of the clusters that
wait for it (R328, R329). -/
def State.fillAll (s : State) (w : Walk) (e : TlbEntry) : State :=
  let ks := ((w.who ++ w.also).filterMap s.requesterCluster).eraseDups
  let s1 := ((w.quad :: ks.map quadOf).eraseDups).foldl (fun (s : State) (q : Nat) => s.fill { e with quad := q }) s
  ks.foldl (fun (s : State) (k : Nat) => s.fill { e with quad := quadOf k, cluster := some k }) s1

/-- The non-leaf entries a walk has read, filled into the walk cache of its die (R328). -/
def State.fillPath (s : State) (w : Walk) : State :=
  let die := dieOfQuad w.quad
  let path := match s.cachedTable die w.asid w.va with
    | some (level, table) => pathFrom s.dev w.va 6 (level + 1) table
    | none => pathFrom s.dev w.va 6 0 w.root
  let news : List WalkCacheEntry := path.map (fun q => { die, asid := w.asid, level := q.1, pfx := q.2.1, table := q.2.2 })
  let same := fun (a b : WalkCacheEntry) => a.die == b.die && a.asid == b.asid && a.level == b.level && a.pfx == b.pfx
  let others := s.walkCache.filter (fun x => !news.any (same x))
  { s with
    walkCache := news ++ evictFor 1024 (fun x => x.die == die) news.length (s.draws + 1) (displace s.draws (fun x => x.die == die) others)
    draws := s.draws + 1 + news.length }

/-- The translation of a leaf that needs no host: A and D are set, then the TLBs are filled (R326, R328, R332). -/
def State.fillLeaf (s : State) (k : Nat) (w : Walk) (l : Leaf) : State :=
  let whole := s.blockWhole l
  let marked := s.entriesOf l
  let s1 := s.markLeaf l w.intent
  let size := if whole then 65536 else leafBytes l.level
  let va := w.va / size * size
  let target := l.target w.va
  let e : TlbEntry := {
    quad := w.quad, asid := w.asid, va, size
    home := target.1
    pa := target.2 - w.va % size
    read := permRead (ptePerm l.entry)
    write := permWrite (ptePerm l.entry)
    execute := permExec (ptePerm l.entry)
    user := pteU l.entry
    dirty := marked.all (fun a => pteD (BitVec.ofNat 64 (s1.dev.readLE a 8))) }
  ((s1.fillPath w).fillAll w e).dropWalk k

/-- PAGE_WALK_FILL: the walk comes to its end, or, where an overlapping invalidation has been applied since it started,
starts again in place of its fill (R327, R330, R334). -/
def execPageWalkFill (walk : Nat) (s : State) : Out :=
  match lookup s.walks walk with
  | none => .next s
  | some w =>
    s.when (!w.ats && s.hasWalker walk w)
      (match s.walkTable (dieOfQuad w.quad) w.asid w.root w.va with
       | .protection => s.walkFaults walk w .protection
       | .notPresent => s.askPage walk w
       | .leaf l =>
         if !l.permits w.intent w.priv then s.walkDenied walk w
         else if pteTier l.entry = 1 ∧ !((lookup s.spaces w.asid).map (·.ats)).getD false then
           s.walkFaults walk w .protection
         else if w.stale then
           { s with walks := insertKey s.walks walk { w with stale := false, startSeq := s.tlbseq.toNat } }
         else if pteTier l.entry = 1 then { s with walks := insertKey s.walks walk { w with ats := true } }
         else s.fillLeaf walk w l)

/-! ## Host pages (R330, R331) -/

/-- The largest device page size, as a power of two, not above a granted one (R330). -/
def grantedLog (log2 : Nat) : Nat := if 30 ≤ log2 then 30 else if 21 ≤ log2 then 21 else if 16 ≤ log2 then 16 else 12

/-- ATS_COMPLETION: the host's answer to the Translation Request of a walk. The walk reads its leaf as it stands now; one
that is no longer this walk's host leaf, or one that an invalidation has overtaken, is walked again (R330, R332, R334). -/
def execAtsCompletion (walk pa log2 : Nat) (read write : Bool) (s : State) : Out :=
  match lookup s.walks walk with
  | none => .next s
  | some w =>
    let again : State := { s with walks := insertKey s.walks walk { w with ats := false, stale := false, startSeq := s.tlbseq.toNat } }
    s.when (w.ats && decide (12 ≤ log2))
      (match s.walkTable (dieOfQuad w.quad) w.asid w.root w.va with
       | .leaf l =>
         if w.stale || pteTier l.entry != 1 || !l.permits w.intent w.priv then again
         else
           let whole := s.blockWhole l
           let size := if l.level == 5 && pteC64 l.entry && !whole then 4096 else 2 ^ grantedLog log2
           let marked := if whole && decide (65536 ≤ size) then l.group else [l.addr]
           let s1 := marked.foldl (fun (s : State) a => s.setAD a w.intent) s
           if !hostGrants read write w.intent then s1.askPage walk w
           else
             let va := w.va / size * size
             let e : TlbEntry := {
               quad := w.quad, asid := w.asid, va, size
               home := .host
               pa := pa / 2 ^ log2 * 2 ^ log2 + va % 2 ^ log2
               read := permRead (ptePerm l.entry)
               write := permWrite (ptePerm l.entry)
               execute := permExec (ptePerm l.entry)
               user := pteU l.entry
               dirty := marked.all (fun a => pteD (BitVec.ofNat 64 (s1.dev.readLE a 8)))
               hostRead := read
               hostWrite := write }
             ((s1.fillPath w).fillAll w e).dropWalk walk
       | _ => again)

/-- The address space a PASID of a function is bound to (R323). -/
def State.spaceOf (s : State) (pasid func : Nat) : Option Nat :=
  (s.spaces.find? (fun p => p.2.pasid == pasid && p.2.func == func)).map (·.1)

/-- ATS_INVALIDATION: as a TLBINV.page of every page it covers, in the ASID bound to its PASID and function (R330). Its Invalidation
Completion is owed until the chunks that use a translation from before it have gone (R215, R321). -/
def execAtsInvalidation (pasid func : Nat) (va : Word) (pages : Nat) (s : State) : Out :=
  let named := match s.spaceOf pasid func with
    | none => []
    | some asid => (List.range pages).map (fun i => Invalidation.page asid ((pageOf va.toNat + 4096 * i) % 2 ^ 64))
  let owed : AtsInval := { pasid, func, va := pageOf va.toNat, pages, chunks := (named.flatMap s.oldChunks).eraseDups }
  .next (({ named.foldl State.invalidate s with atsOwed := s.atsOwed ++ [owed] } : State).sendAts)

/-- A page request that has failed: the access of each one that waits for it faults (R331). -/
def State.failRequest (s : State) (req : Nat) (r : PageReq) : State :=
  { s with
    pageReqs := eraseKey s.pageReqs req
    xlatFaults := r.who.map (fun q => { who := q, page := r.va, cause := intentCause r.intent : XlatFault }) ++ s.xlatFaults }

/-- The queue of the launch that a requester works for. -/
def State.requesterQueue (s : State) (r : Requester) : Option Nat :=
  let launch : Option Nat := match r with
    | .context slot _ | .lanes slot | .probe slot | .matrix slot | .stream slot _ => (s.strand? slot).map (·.launch)
    | .engine k => (s.engines.find? (fun c => c.id == k)).map (fun c => c.owner.1)
  (launch.bind s.launch?).map (·.queue)

/-- The firmware learns of an answer to a page request (R339). -/
def State.reportPage (s : State) (r : PageReq) : State :=
  ((r.who.filterMap s.requesterQueue).eraseDups).foldl State.report s

/-- PRI_RESPONSE: a success makes the accesses that wait walk again; nothing of a failed request is remembered (R331). -/
def execPriResponse (req : Nat) (answer : PriAnswer) (s : State) : Out :=
  match lookup s.pageReqs req with
  | none => .next s
  | some r =>
    match answer with
    | .success => .next (({ s with pageReqs := eraseKey s.pageReqs req }).reportPage r)
    | .invalidRequest | .responseFailure => .next ((s.failRequest req r).reportPage r)

/-- PRI_TIMEOUT: a request without a response after PRITMO × 2^20 cycles fails; PRITMO 0 sets no limit (R323, R331). -/
def execPriTimeout (req : Nat) (s : State) : Out :=
  match lookup s.pageReqs req with
  | none => .next s
  | some r =>
    let limit := ((lookup s.spaces r.asid).map (·.pritmo)).getD 0 * 2 ^ 20
    s.when (decide (0 < limit) && decide (limit ≤ s.now - r.since)) (s.failRequest req r)

end Sys2Proof.Machine
end

