-- ==== Sys2Proof/Machine/Mailbox.lean ====
section
/-!
DEFINITION. Machine/Mailbox.lean: the firmware commands of the mailboxes (R337, R353, R354, R359, R360, R362 to R365, R367 to
R369).
-/
namespace Sys2Proof.Machine

/-! ## Mailboxes (R359, R360) -/

/-- The commands and whether only the physical function issues them (R360). -/
def listed : List (Nat × Bool) :=
  [(0x0001, false), (0x0002, false), (0x0003, false), (0x0004, false), (0x0010, true), (0x0011, true), (0x0020, true),
   (0x0021, true), (0x0030, true), (0x0031, true)]

/-- STATUS values (R359). -/
def stDone : Nat := 1
/-- refused -/
def stRefused : Nat := 2
/-- invalid -/
def stInvalid : Nat := 3
/-- not permitted -/
def stNotPermitted : Nat := 4
/-- replay diverged -/
def stDiverged : Nat := 5

/-- A command ends: its results and then STATUS are written into the block that was read at GO, BUSY is cleared, and vector 0 is signalled if IRQEN says so
(R359). -/
def State.endCommand (s : State) (func status : Nat) (results : List Nat) : State :=
  let m := s.mailbox func
  let host := (List.range results.length).foldl (fun (h : Memory) i =>
    h.writeLE (m.blockAt.toNat + 8 + 8 * i) 8 (results.getD i 0)) s.host
  { s with
    host := host.writeLE (m.blockAt.toNat + 2) 2 status
    mailboxes := insertKey s.mailboxes func { m with busy := false, last := BitVec.ofNat 8 status }
    msix := if m.irqen then s.msix ++ [(func, 0)] else s.msix
    inlet := s.inlet.erase (.command func) }

/-- The partition a virtual function serves (R358). -/
def partOfFunc (func : Nat) : Option Nat := if func = 0 then none else some (func - 1)

/-- A function reaches a partition (R354). -/
def reaches (func part : Nat) : Bool := func == 0 || func == part + 1

/-- The partition whose event a function's command is: its own, or, where the physical function destroys a queue, that queue's
(R339, R353). -/
def State.commandPart (s : State) (func : Nat) : Option Nat :=
  (partOfFunc func).or (if (s.mailbox func).cmd = 2 then (s.queue? ((s.mailbox func).operand 0)).map (·.part) else none)

/-- The core that handles a function's command: one that the partition it is an event of reserves, or any that runs (R339). -/
def State.commandCore (s : State) (func : Nat) : Option Nat :=
  match s.commandPart func with
  | some part => (List.range 12).find? (fun c => s.coreRuns part c)
  | none => (List.range 12).find? (fun c => (s.core c).event.isNone)

/-- A stopped core holds the command of a function (R340). -/
def State.commandHeld (s : State) (func : Nat) : Bool := s.cores.any (fun c => c.2.event == some (.command func))

/-- A command of the function that the turn's unit names, if that is the one in its mailbox: its reserved bytes are checked and
its issuer (R360); then it is carried out, and ends with a STATUS and results. None leaves it waiting, STATUS 0 under way. Slot 1 of
the turn says that the core stops with the command in hand (R340). -/
def State.command (s : State) (cmd : Nat) (body : Nat → Mailbox → Nat → Option (Nat × List Nat × State)) : Out :=
  let func := s.cur.unit
  let m := s.mailbox func
  match s.commandCore func with
  | none => .next s
  | some core =>
    if !m.busy ∨ m.cmd ≠ cmd ∨ !zeroBytes m.block 4 4 ∨ s.commandHeld func then .next s
    else if s.cur.slot = 1 then .next (s.stopWith core (.command func) none)
    else if func ≠ 0 ∧ ((listed.find? (fun c => c.1 == cmd)).map (·.2)).getD false then
      .next ((s.endCommand func stNotPermitted []).beat core)
    else
      match body func m core with
      | none => .next s
      | some (status, results, t) => .next ((if status = 0 then t else t.endCommand func status results).beat core)

/-- INVALID_MAILBOX_COMMAND (R360). -/
def execInvalidMailboxCommand (s : State) : Out :=
  let func := s.cur.unit
  let m := s.mailbox func
  match s.commandCore func with
  | none => .next s
  | some core =>
    s.when (m.busy && !s.commandHeld func && (!listed.any (fun c => c.1 == m.cmd) || !zeroBytes m.block 4 4))
      ((s.endCommand func stInvalid []).beat core)

/-- A free number below a bound: the first at or after where a free value begins the search (log 39). -/
def freeFrom (start bound : Nat) (taken : Nat → Bool) : Option Nat :=
  ((List.range bound).map (fun i => (start + i) % bound)).find? (fun n => !taken n)

/-! ## Queues (R337, R353) -/

/-- The queue a record describes, where it keeps its limits (R337). The record's last eight bytes lie beyond the block. -/
def parseQueue (bs : List Byte) : Option Queue :=
  let attr := fieldLE bs 10 1
  if fieldLE bs 0 8 % 4096 == 0 && decide (4 ≤ fieldLE bs 8 1) && decide (fieldLE bs 8 1 ≤ 16) && decide (1 ≤ fieldLE bs 9 1) &&
      decide (fieldLE bs 9 1 ≤ 2) && decide (attr < 64) && decide (attr / 16 ≠ 3) && decide (fieldLE bs 11 1 < 8) &&
      decide (fieldLE bs 14 1 < 12) && zeroBytes bs 15 1 && fieldLE bs 16 8 % 8 == 0 && zeroBytes bs 24 32
  then
    some {
      ring := wordLE bs 0, log2n := fieldLE bs 8 1, version := fieldLE bs 9 1
      ordered := attr % 2 == 1
      noelide := attr / 2 % 2 == 1
      elidechk := attr / 4 % 2 == 1
      devsub := attr / 8 % 2 == 1
      policy := attr / 16
      priomax := fieldLE bs 11 1
      asid := fieldLE bs 12 2
      part := fieldLE bs 14 1
      rdidx := wordLE bs 16
      notify := 0, pending := false, fetched := 0, packets := [], halted := none, destroyed := none }
  else none

/-- CREATEQ (R337, R354, R360): results are the queue number and the offset of its notify page in BAR 2. -/
def execCreateq (s : State) : Out :=
  s.command 0x0001 (fun func m core =>
    match parseQueue (m.block.drop 8) with
    | none => some (stInvalid, [], s)
    | some x =>
      let bound := ((lookup s.spaces x.asid).map (fun r => r.part == x.part)).getD false
      match (if bound && reaches func x.part then freeFrom (Config.pick s.draws % 4096) 4096 (fun q => (s.queue? q).isSome) else none) with
      | none => some (stRefused, [], s)
      | some q => some (stDone, [q, 4096 * q], ((s.logState core q 0 [0, q, 0, 1]).setQueue q x).drawn))

/-- Packets of a destroyed queue that were not yet fetched are read, for their records (R353); they are ingress as others are, but in a
replay, which takes its packets from its ring (R368, R369). -/
def State.readRest (s : State) (q n : Nat) : State := if s.replayed q then s else State.fetchLoop q s.nextLsn n s

/-- Packets of a queue that are no running launches end with STATUS 0x04 (R353). -/
def State.endRest (s : State) (q : Nat) : State :=
  match s.queue? q with
  | none => s
  | some x =>
    x.packets.foldl (fun (s : State) p =>
      match p.state with
      | .ended _ => s
      | .started => if p.kind.launches then s else s.endPacket q x p 4 0 0
      | _ => (s.leaveGroup q p).endPacket q x p 4 0 0) s

/-- The active graphs of a queue end; tasks that have not been dispatched complete with STATUS 0x04 (R353). -/
def State.endGraphs (s : State) (q : Nat) : State :=
  match s.queue? q with
  | none => s
  | some x =>
    let mine := s.graphs.filter (fun g => g.2.queue == q)
    let s1 := mine.foldl (fun (s : State) g => g.2.tasks.foldl (fun (s : State) t =>
      if t.started then s
      else s.writeRecord x.asid (wordLE t.bytes 8)
        (completionRecord 4 0 0 0 (BitVec.ofNat 32 (fieldLE t.bytes 4 4)) g.2.seq 0 none)) s) s
    { mine.foldl (fun (s : State) g => s.logState (s.writingCore g.2.part) q g.2.seq [1, g.1, 0]) s1 with
      graphs := s1.graphs.filter (fun g => g.2.queue != q) }

/-- A launch is aborted: its strands are cancelled, pre-empted ones at once, and nothing more of it is placed (R242, R353). With
it goes a spliced group of which virtual clusters are still to be placed (log 42). -/
def State.abortLaunch (s : State) (id : Nat) : State :=
  match s.launch? id with
  | none => s
  | some l =>
    let gid := if l.placements.length < l.virtualClusters then l.group.map (·.1) else none
    let hit := fun (o : Launch) => o.id == id || (gid.isSome && o.group.map (·.1) == gid)
    let ls := (s.launches.filter (fun o => hit o.2)).map (·.1)
    let s1 : State := { s with
      launches := s.launches.map (fun o => (o.1, if hit o.2 then { o.2 with aborted := true } else o.2))
      strands := s.strands.map (fun p =>
        if ls.contains p.2.launch && p.2.life != .retired && p.2.life != .preempted then (p.1, p.2.requestCancel s.now) else p) }
    let s2 := s1.endSeated (fun st => ls.contains st.launch) 3 0
    ls.foldl (fun (s : State) i =>
      (((s.launch? i).map (·.preempted)).getD []).foldl (fun (s : State) st => s.endPreempted i st 3 0) s) s2

/-- A queue destroyed in a mode (R353). -/
def State.destroyQueue (s : State) (core q : Nat) (x : Queue) (mode : Nat) : State :=
  let w := x.notify.toNat
  let rest := if w ≤ x.fetched ∨ x.fetched + 2 ^ x.log2n < w then 0 else w - x.fetched
  let s1 := (s.logState core q 0 [0, q, 0, 2 + mode]).readRest q rest
  let s2 := match s1.queue? q with
    | some y => s1.setQueue q { y with destroyed := some mode, pending := false }
    | none => s1
  let s3 := (s2.endRest q).endGraphs q
  let s4 := if mode = 1 then
      ((s3.launches.filter (fun l => l.2.queue == q)).map (·.1)).foldl (fun (s : State) id => s.abortLaunch id) s3
    else s3
  ({ s4 with inlet := s4.inlet.filter (fun e => match e with
      | .fetch k => k != q
      | .dispatch k _ => k != q
      | .command _ | .report _ => true) }).followUp core

/-- DESTROYQ: an event of the queue, so it waits for the queue's lock and for its earlier events (R339, R353, R354). Mode 0 drains, mode 1 aborts (log 41). -/
def execDestroyq (s : State) : Out :=
  s.command 0x0002 (fun func m core =>
    let q := m.operand 0
    if 1 < m.operand 1 then some (stInvalid, [], s)
    else
      match s.queue? q with
      | none => some (stRefused, [], s)
      | some x =>
        if !reaches func x.part || x.destroyed.isSome then some (stRefused, [], s)
        else if s.locked q || !s.firstOf (.command func) q then none
        else some (stDone, [], s.destroyQueue core q x (m.operand 1)))

/-! ## Address spaces (R323, R354) -/

/-- An address-space record, where it keeps its limits (R323). -/
def parseSpace (bs : List Byte) : Option AsRecord :=
  if decide (fieldLE bs 0 3 < 2 ^ 20) && decide (fieldLE bs 3 1 ≤ 12) && decide (fieldLE bs 4 1 < 4) && decide (fieldLE bs 5 1 < 12)
  then
    some { pasid := fieldLE bs 0 3, func := fieldLE bs 3 1
           ats := fieldLE bs 4 1 % 2 == 1
           pri := fieldLE bs 4 1 / 2 == 1
           part := fieldLE bs 5 1
           pritmo := fieldLE bs 6 2
           root := (rootOfWord (wordLE bs 8)).toNat }
  else none

/-- BINDAS (R323, R354): the PASID, then the record, which names it too; the result is the ASID. -/
def execBindas (s : State) : Out :=
  s.command 0x0003 (fun func m core =>
    match parseSpace (m.block.drop 16) with
    | none => some (stInvalid, [], s)
    | some r =>
      if m.operand 0 ≠ r.pasid then some (stInvalid, [], s)
      else
        match (if reaches func r.part && (s.spaceOf r.pasid r.func).isNone then
            freeFrom (Config.pick s.draws % 65536) 65536 (fun a => a == 0 || (lookup s.spaces a).isSome) else none) with
        | none => some (stRefused, [], s)
        | some a => some (stDone, [a], { (s.logState core 0 0 [4, a, 1]).drawn with spaces := insertKey s.spaces a r }))

/-- UNBINDAS (R354). -/
def execUnbindas (s : State) : Out :=
  s.command 0x0004 (fun func m core =>
    let a := m.operand 0
    match lookup s.spaces a with
    | none => some (stRefused, [], s)
    | some r =>
      if !reaches func r.part || s.queues.any (fun q => decide (q.1 < queueNumbers) && q.2.asid == a) then some (stRefused, [], s)
      else some (stDone, [], ({ s.logState core 0 0 [4, a, 0] with spaces := eraseKey s.spaces a }).invalidate (.space a)))

/-! ## Partitions and clusters (R362, R367) -/

/-- The parts of a partition record: number, cores, stacks, ports, banks and ballot slots in units (R362). -/
structure PartRecord where
  part : Nat
  cores : Nat
  stackGroups : BitVec 12
  ports : BitVec 24
  wsBanks : Nat
  ballot : Nat
  deriving DecidableEq, Repr

/-- A partition record, where it keeps its limits. -/
def parsePart (bs : List Byte) : Option PartRecord :=
  if decide (fieldLE bs 0 1 < 12) && decide (1 ≤ fieldLE bs 1 1) && decide (fieldLE bs 1 1 ≤ 12) && decide (fieldLE bs 2 2 < 2 ^ 12) &&
      zeroBytes bs 7 1 && zeroBytes bs 12 44
  then
    some { part := fieldLE bs 0 1, cores := fieldLE bs 1 1, stackGroups := BitVec.ofNat 12 (fieldLE bs 2 2)
           ports := BitVec.ofNat 24 (fieldLE bs 4 3), wsBanks := fieldLE bs 8 2, ballot := fieldLE bs 10 2 }
  else none

/-- A record claims nothing that another partition holds and over-commits nothing; 12 cores, 1,024 banks of each die and 4,096
ballot slots there are (R96, R250, R339, R362). -/
def State.partOk (s : State) (r : PartRecord) : Bool :=
  let others := s.partitions.filter (fun p => p.1 != r.part)
  others.all (fun p => p.2.stackGroups &&& r.stackGroups == 0 && p.2.ports &&& r.ports == 0) &&
    decide ((others.map (fun p => p.2.cores.length)).sum + r.cores ≤ 12) &&
    decide ((others.map (fun p => p.2.wsBanks)).sum + r.wsBanks ≤ 16) &&
    decide ((others.map (fun p => p.2.ballot.length)).sum + r.ballot ≤ 64) &&
    (r.stackGroups != 0 || !s.queues.any (fun q => decide (q.1 < queueNumbers) && q.2.part == r.part))

/-- n numbers assigned out of a bound: those held already, then free ones (log 39). -/
def assign (start bound : Nat) (others : List Nat) : Nat → List Nat → List Nat
  | 0, l => l
  | n + 1, l =>
    match freeFrom start bound (fun k => others.contains k || l.contains k) with
    | some k => assign start bound others n (l ++ [k])
    | none => l

/-- A partition record applied (R335, R362): strands on stack groups it loses are pre-empted with REASON 0x02. -/
def State.applyPart (s : State) (r : PartRecord) : State :=
  let old := lookup s.partitions r.part
  let others := s.partitions.filter (fun p => p.1 != r.part)
  let was := fun (f : Partition → List Nat) => (old.map f).getD []
  let fresh := fun (f : Partition → List Nat) (bound n : Nat) =>
    assign (Config.pick s.draws % bound) bound (others.flatMap (fun p => f p.2)) (n - (was f).length) ((was f).take n)
  let set := match old with
    | some p => (p.tvec, p.tscratch, p.canlimit)
    | none => Config.supervisor s.draws
  let p : Partition := {
    cores := fresh (·.cores) 12 r.cores
    ballot := fresh (·.ballot) 64 r.ballot
    stackGroups := r.stackGroups
    ports := r.ports
    wsBanks := r.wsBanks
    tvec := set.1
    tscratch := set.2.1
    canlimit := set.2.2
    scan := (old.map (·.scan)).getD 0
    served := (old.map (·.served)).getD 0 }
  let s1 : State := { s.drawn with
    partitions := insertKey s.partitions r.part p
    pool := if old.isSome then s.pool else s.pool ++ (Config.poolPages r.part).map (fun page => (r.part, page)) }
  let lost := fun (slot : Nat) => (old.map (fun o => o.owns (stackOf (clusterOf slot)))).getD false && !p.owns (stackOf (clusterOf slot))
  s1.preemptAll ((s1.strands.filter (fun q => q.2.life != .retired && lost q.1)).map (·.1)) 2

/-- PARTCFG (R362). -/
def execPartcfg (s : State) : Out :=
  s.command 0x0010 (fun _ m core =>
    match parsePart (m.block.drop 8) with
    | none => some (stInvalid, [], s)
    | some r => if s.partOk r then some (stDone, [], (s.logState core 0 0 [5, r.part]).applyPart r) else some (stRefused, [], s))

/-- RETIRECL: the cluster's strands are pre-empted with REASON 0x03; a cohort there that no longer fits is aborted (R35, R367). -/
def State.retireCluster (s : State) (k : Nat) : State :=
  let s1 := s.setCluster k { s.cluster k with inService := false }
  let here := s1.clusterStrands k
  let unfit := (s1.launches.filter (fun l =>
    l.2.spec.cohort && (here.any (fun p => p.2.launch == l.1) || !l.2.preempted.isEmpty) &&
      ((s1.launchPlan l.2).map (fun p => decide ((s1.serving p.part).length < p.total) || (!p.loose && !s1.grouping p))).getD false)).map (·.1)
  let s2 := unfit.foldl (fun (s : State) id => s.abortLaunch id) s1
  s2.preemptAll ((here.filter (fun p => p.2.life != .retired && !unfit.contains p.2.launch)).map (·.1)) 3

/-- RETIRECL (R367). -/
def execRetirecl (s : State) : Out :=
  s.command 0x0011 (fun _ m core =>
    if Config.clusters ≤ m.operand 0 then some (stInvalid, [], s)
    else some (stDone, [], (s.logState core 0 0 [6, m.operand 0]).retireCluster (m.operand 0)))

/-! ## Keys and images (R363 to R365) -/

/-- Bytes of an ML-DSA-65 public key and of a signature (log 14). -/
def keyBytes : Nat := 1952
/-- signature -/
def signatureBytes : Nat := 3309

/-- A signature over a message verifies under the key of an enabled slot. -/
def Root.accepts (r : Root) (message signature : List Byte) : Bool :=
  r.keys.any (fun k => k.enabled && Config.mldsaVerify k.key message signature)

/-- KEYINSTALL: slot, key address, signature address, counter; a key address of 0 disables the slot (R364, log 41). -/
def execKeyinstall (s : State) : Out :=
  s.command 0x0020 (fun _ m core =>
    let slot := m.operand 0
    let disable := m.operand 1 == 0
    let key := if disable then [] else s.host.readBytes (m.operand 1) keyBytes
    let message := leBytes 8 slot ++ key ++ leBytes 8 (m.operand 3)
    let keys := s.root.keys.set slot { key, enabled := !disable }
    if decide (slot < 4) && (disable || slot != 0) && s.root.accepts message (s.host.readBytes (m.operand 2) signatureBytes) &&
        m.operand 3 == s.root.installCounter + 1 && keys.any (·.enabled)
    then some (stDone, [], { s.logState core 0 0 [7, slot] with root := { s.root with keys, installCounter := s.root.installCounter + 1 } })
    else some (stRefused, [], s))

/-- The digest of an image (R363). -/
def imageDigest (image : List Byte) : List Byte := Config.shake256 64 image

/-- An image is accepted (R363). -/
def Root.admits (r : Root) (kind : Nat) (image : List Byte) : Bool :=
  r.accepts (imageDigest image) (Config.imageSignature image) && decide (r.versions.getD kind 0 ≤ Config.imageVersion image)

/-- An accepted image, measured and installed (R363, R365). -/
def Root.install (r : Root) (kind : Nat) (image : List Byte) : Root :=
  { r with
    versions := r.versions.set kind (Config.imageVersion image)
    measurements := r.measurements ++ [imageDigest image]
    images := r.images.set kind image }

/-- FWLOAD: image kind, image address, mask of cores. Kinds 0 to 3 are in the order of R365 (log 41). Firmware replaces each
core named as by a reset; a supervisor serves launches to come, with settings of its own. -/
def execFwload (s : State) : Out :=
  s.command 0x0021 (fun _ m core =>
    let kind := m.operand 0
    let image := Config.imageBytes s.draws (m.operand 1)
    if 3 < kind then some (stInvalid, [], s)
    else if !s.root.admits kind image then some (stRefused, [], s.drawn)
    else
      let s1 : State := { (s.logState core 0 0 [8, kind]).drawn with root := s.root.install kind image }
      let s2 := if kind = 0 then
          ((List.range 12).filter (fun n => (BitVec.ofNat 12 (m.operand 2)).getLsbD n)).foldl (fun (s : State) n => s.recoverCore n) s1
        else if kind = 1 then
          { s1 with partitions := s1.partitions.map (fun p =>
              let set := Config.supervisor (s1.draws + p.1)
              (p.1, { p.2 with tvec := set.1, tscratch := set.2.1, canlimit := set.2.2 }))
                    draws := s1.draws + 12 }
        else s1
      some (stDone, [], s2))

/-! ## The recorder (R368, R369) -/

/-- RECCFG: partition, ring base, ring size; the ring lies in the second tier (R368). -/
def execReccfg (s : State) : Out :=
  s.command 0x0030 (fun _ m core =>
    let part := m.operand 0
    let base := m.operand 1
    let size := m.operand 2
    if (lookup s.partitions part).isNone ∨ base < Config.hbmBytes ∨ Config.hbmBytes + Config.tier2Bytes < base + size then
      some (stRefused, [], s)
    else
      let r : Recorder := { base, size, nextIndex := ((lookup s.recorders part).map (·.nextIndex)).getD 0, records := [] }
      some (stDone, [], { s.logState core 0 0 [9, part] with recorders := insertKey s.recorders part r }))

/-- A partition has nothing running and nothing to start (R369). -/
def State.idle (s : State) (part : Nat) : Bool :=
  !s.launches.any (fun l => l.2.part == part) && !s.graphs.any (fun g => g.2.part == part && !g.2.ready.isEmpty) &&
    s.queues.all (fun q => q.2.part != part || q.2.packets.all (fun p => match p.state with
      | .ended _ => true
      | _ => false))

/-- The next record is an ingress that a queue of the partition can take. -/
def State.ingressNext (s : State) (part : Nat) (r : Replay) : Bool :=
  match r.records with
  | (_, 1, q :: _) :: _ => ((s.queue? q).map (fun x => x.part == part && x.destroyed.isNone)).getD false
  | _ => false

/-- Every queue of a partition halts as under POLICY 10 (R352, R369). -/
def State.haltQueues (s : State) (part : Nat) : State :=
  { s with queues := s.queues.map (fun q => (q.1, if q.2.part = part then { q.2 with halted := some 0 } else q.2)) }

/-- A packet number of the recorded run as it is now, if the queue is one of the partition's. -/
def State.presentSeq (s : State) (part : Nat) (r : Replay) (q seq : Nat) : Option Nat :=
  match s.queue? q, lookup r.shift q with
  | some x, some (old, new) => if x.part = part ∧ x.destroyed.isNone then some (new + (seq - old)) else none
  | _, _ => none

/-- A sibling's post of a hash can no more be the next: it has posted, left or retired, or it waits to post another (R251, R369). -/
def State.cannotPost (s : State) (l : Launch) (index hash : Nat) : Bool :=
  match l.siblings.bind (fun gid => (lookup s.sibgroups gid).map (fun g => (gid, g))) with
  | none => true
  | some (gid, g) =>
    (match g.siblings[index]? with
      | some x => x.finished
      | none => true) ||
      s.strands.any (fun p => p.2.sibling == some (index, gid) && [p.2.exec, p.2.access].any (fun c =>
        match c.wait with
        | some { kind := .drain, instr := some (.sbpost f), .. } => (c.reg f.ga).toNat != hash
        | _ => false))

/-- A context goes on only once another does something, or, at a post or a task release, once its turn has come. -/
def Context.stands (c : Context) : Bool :=
  c.retired || c.yielded || (c.cancel.isNone && c.preempt.isNone && c.poisoned.isNone && c.engineErrors.isEmpty &&
    (match c.wait with
     | some { kind := .drain, instr := some (.sbpost _), .. } | some { kind := .drain, instr := some (.depdec _), .. }
     | some { kind := .drain, instr := some (.depinit _), .. } => true
     | some { kind := .queue _, .. } | some { kind := .barrier, .. } | some { kind := .region, .. } | some { kind := .kend, .. }
     | some { kind := .watermark _ 0, .. } | some { kind := .wfe 0, .. } => true
     | _ => false))

/-- A strand goes on only so. -/
def State.strandStands (s : State) (slot : Nat) (st : Strand) : Bool :=
  match st.life with
  | .retired => true
  | .running => st.exec.stands && st.access.stands && st.vq.all (fun e => e.progress == .done) && (s.matrixWork slot).isEmpty
  | .placed => !((s.launch? st.launch).map (fun l => s.startsNext l st && s.mayRun l st)).getD false
  | .preempted => !((s.launch? st.launch).map (fun l => s.mayResume l st)).getD false

/-- The firmware has nothing to do for a packet but by a decision that is recorded. -/
def State.packetStands (s : State) (q : Nat) (x : Queue) (p : Packet) : Bool :=
  match p.state with
  | .ended _ => true
  | .started => p.kind.launches
  | .fetched =>
    match p.kind with
    | .siblaunch => false
    | .launch => !x.windowOf.any (fun o => o.seq == p.seq)
    | _ => !x.due p.seq []
  | .windowed =>
    match s.spliceChoice q p.seq with
    | some (_, none) => false
    | _ => true
  | .decided => ((s.packetPlan q x p).map (fun o => (s.reasons o).isEmpty)).getD true

/-- Nothing of a partition goes on but by a decision that is recorded (R369). -/
def State.quiet (s : State) (part : Nat) : Bool :=
  let mine := fun (slot : Nat) (st : Strand) => s.partOfCluster (clusterOf slot) == some part && st.life != .retired
  s.strands.all (fun p => !mine p.1 p.2 || s.strandStands p.1 p.2) &&
    s.engines.all (fun e => s.partOfCluster (clusterOf e.slot) != some part) &&
    s.launches.all (fun l => l.2.part != part || !(s.launchOver l.2 || s.resumable l.2)) &&
    s.queues.all (fun e => e.2.part != part || e.2.packets.all (s.packetStands e.1 e.2))

/-- A sibling waits to post a hash. -/
def State.postWaits (s : State) (l : Launch) (index hash : Nat) : Bool :=
  s.strands.any (fun p => p.2.launch == l.id && (p.2.sibling.map (·.1)) == some index && [p.2.exec, p.2.access].any (fun c =>
    match c.wait with
    | some { kind := .drain, instr := some (.sbpost f), .. } => (c.reg f.ga).toNat == hash
    | _ => false))

/-- A context waits to release a task of the graph of a queue's DEPGRAPH. -/
def State.releaseWaits (s : State) (q seq t : Nat) : Bool :=
  let names := fun (st : Strand) (w : Word) =>
    ((s.taskNamed st w).map (fun x => x.2.1.queue == q && x.2.1.seq == seq && x.2.2.1 == t)).getD false
  s.strands.any (fun p => [p.2.exec, p.2.access].any (fun c =>
    match c.wait with
    | some { kind := .drain, instr := some (.depdec f), .. } | some { kind := .drain, instr := some (.depinit f), .. } =>
      names p.2 (c.reg f.ga)
    | _ => false))

/-- The next record is a decision that stands to be taken. -/
def State.decisionWaits (s : State) (part : Nat) (r : Replay) (kind : Nat) (data : List Nat) : Bool :=
  match data with
  | q :: seq :: rest =>
    if kind = recPacket then s.ingressNext part r
    else
      match s.presentSeq part r q seq with
      | none => false
      | some n =>
        if kind = recPlace then
          match rest with
          | [task, vc, cluster, slot] => (s.plans part).any (fun p => p.queue == q && p.seq == n &&
              (p.task.map (fun t => t.2 + 1)).getD 0 == task && p.placed.length == vc && s.fitsAt p cluster slot)
          | _ => false
        else if kind = recSplice then
          match s.spliceChoice q n with
          | some (_, some (_, chain, _, _)) => s.inTurn part (spliceRecord q n chain)
          | _ => false
        else if kind = recPost then
          match rest with
          | [index, hash] => s.launches.any (fun l => l.2.queue == q && l.2.seq == n && s.postWaits l.2 index hash)
          | _ => false
        else if kind = recRelease then s.releaseWaits q n (rest.headD 0)
        else false
  | _ => false

/-- A recorded event cannot occur any more, whatever the partition does (R369). -/
def State.cannotOccur (s : State) (part : Nat) (r : Replay) (kind : Nat) (data : List Nat) : Bool :=
  let launchOf := fun (q n task : Nat) => (s.launches.find? (fun l => l.2.queue == q && l.2.seq == n &&
    l.2.task.map (·.2) == (if task = 0 then none else some (task - 1)))).map (·.2)
  match data with
  | q :: seq :: rest =>
    if kind = recHostRead then false
    else if kind = recPacket then !((s.queue? q).map (fun x => x.part == part && x.destroyed.isNone)).getD false
    else
      match s.presentSeq part r q seq with
      | none => true
      | some n =>
        let unstarted := ((s.packet? q n).map (·.unstarted)).getD false
        if kind = recPlace then
          match rest with
          | [task, vc, cluster, _] =>
            !(s.serving part).contains cluster ||
              (match launchOf q n task with
               | some l => decide (vc < l.placements.length)
               | none => task == 0 && !unstarted)
          | _ => true
        else if kind = recSplice then !(unstarted && ((s.packet? q n).map (fun p => p.group.isNone && p.state != .decided)).getD false)
        else if kind = recPost then
          match launchOf q n 0, rest with
          | some l, [index, hash] => s.cannotPost l index hash
          | none, [_, _] => !unstarted
          | _, _ => true
        else if kind = recRelease then
          !s.graphs.any (fun g => g.2.queue == q && g.2.seq == n && ((g.2.tasks[rest.headD 0]?).map (fun t => !t.released)).getD false) && !unstarted
        else (launchOf q n 0).isNone && !unstarted && !s.launches.any (fun l => l.2.queue == q && l.2.seq == n)
  | _ => false

/-- REPLAY: partition, first and last record. Its first turn begins it; a later one ends it, once every record has been met, or
once it has diverged: a digest differed, or the next record is one that cannot occur, or does not while nothing goes on without it
(R369). -/
def execReplay (s : State) : Out :=
  s.command 0x0031 (fun func m core =>
    let part := m.operand 0
    match lookup s.replaying part with
    | some r =>
      if r.func ≠ func then some (stRefused, [], s)
      else
        let ended : State := { s.logState core 0 0 [10, part] with replaying := eraseKey s.replaying part }
        match r.diverged, r.records with
        | some index, _ => some (stDiverged, [index], ended.haltQueues part)
        | none, [] => some (stDone, [], ended)
        | none, x :: _ =>
          if (s.idle part && !s.ingressNext part r) || s.cannotOccur part r x.2.1 x.2.2 ||
              (s.quiet part && !s.decisionWaits part r x.2.1 x.2.2) then
            some (stDiverged, [x.1], ended.haltQueues part)
          else none
    | none =>
      match lookup s.recorders part with
      | none => some (stRefused, [], s)
      | some rec_ =>
        let records := rec_.records.filter (fun x => decide (m.operand 1 ≤ x.1) && decide (x.1 ≤ m.operand 2))
        if !s.idle part ∨ m.operand 2 < m.operand 1 then some (stRefused, [], s)
        else if records.isEmpty then some (stDiverged, [m.operand 1], s.haltQueues part)
        else some (0, [], { s with replaying := insertKey s.replaying part { func, records, shift := [], diverged := none } }))

end Sys2Proof.Machine
end

