-- ==== Sys2Proof/Machine/HostIO.lean ====
section
/-!
DEFINITION. Machine/HostIO.lean: what the host does through the BARs (R338, R358, R359), the failures of its link (R358,
R366), and SPDM (R363).
-/
namespace Sys2Proof.Machine

/-! ## BAR 4 (R358) -/

/-- Stack groups of a partition, ascending. -/
def Partition.stackList (p : Partition) : List Nat := (List.range 12).filter p.owns

/-- The device byte an aperture offset of a function reaches, if it reaches any. -/
def State.apertureByte (s : State) (func off : Nat) : Option Nat :=
  match partOfFunc func with
  | none => if off < Config.hbmBytes then some off else none
  | some part =>
    if 64 * 2 ^ 30 ≤ off then none
    else
      (((lookup s.partitions part).map (·.stackList)).getD [])[off / Config.stackBytes]?.map (fun k =>
        k * Config.stackBytes + off % Config.stackBytes)

/-- The device bytes of an access, if the aperture reaches all of them. -/
def State.apertureBytes (s : State) (func off n : Nat) : Option (List Nat) :=
  allSome ((List.range n).map (fun i => s.apertureByte func (off + i)))

/-- Bytes stored at device addresses by an agent outside the clusters, at system scope (R358, R366). -/
def State.storeDevice (s : State) (at_ : List Nat) (bs : List Byte) : State :=
  let s1 := (at_.zip bs).foldl (fun (s : State) p => s.putBytes Config.clusters (.dev p.1) [p.2]) s
  s1.heal (at_.map (fun pa => (pa, 1)))

/-! ## BAR 0 and BAR 2 (R338, R359) -/

/-- MBCTL as it reads (R359). -/
def Mailbox.control (m : Mailbox) : Word :=
  BitVec.ofNat 64 (m.last.toNat * 256 + (if m.irqen then 4 else 0) + (if m.busy then 2 else 0))

/-- A write of MBCTL: one with GO = 1 while BUSY = 1 changes nothing; another GO reads the block and starts the command (R359). -/
def State.writeControl (s : State) (func : Nat) (x : Word) : State :=
  let m := s.mailbox func
  if bit x 0 && m.busy then s
  else
    let m1 : Mailbox := { m with irqen := bit x 2 }
    if bit x 0 then
      let m2 : Mailbox := { m1 with busy := true, block := s.host.readBytes m.addr.toNat 64, blockAt := m.addr }
      { s with mailboxes := insertKey s.mailboxes func m2, inlet := s.inlet ++ [.command func] }
    else { s with mailboxes := insertKey s.mailboxes func m1 }

/-- The queue whose notify word lies at an offset of a function's BAR 2, if the function reaches one there (R338, R358). -/
def State.notifyAt (s : State) (func off : Nat) : Option (Nat × Queue) :=
  if off % 4096 ≠ 0 then none
  else
    match s.queue? (off / 4096) with
    | some x => if reaches func x.part && x.destroyed.isNone then some (off / 4096, x) else none
    | none => none

/-- HOST_APERTURE_ACCESS: a host access of a function, to its aperture, its mailbox registers or its notify pages. -/
def execHostApertureAccess (func offset : Nat) (op : ApertureOp) (s : State) : Out :=
  if !s.linkUp ∨ 12 < func then .next s
  else
    match op with
    | .read n =>
      match s.apertureBytes func offset n with
      | some l => .next { s with reply := .data (l.map s.dev.read) }
      | none => .next { s with reply := .completerAbort }
    | .write bs =>
      match s.apertureBytes func offset bs.length with
      | some l => .next (s.storeDevice l bs)
      | none => .next { s with reply := .completerAbort }
    | .readRegister =>
      if !s.mailboxOpen then .next s
      else if offset = 0 then .next { s with reply := .data (leBytes 8 (s.mailbox func).addr.toNat) }
      else if offset = 8 then .next { s with reply := .data (leBytes 8 (s.mailbox func).control.toNat) }
      else .next s
    | .writeRegister x =>
      if !s.mailboxOpen then .next s
      else if offset = 0 then
        .next { s with mailboxes := insertKey s.mailboxes func { s.mailbox func with addr := x &&& 0xFFFFFFFFFFFFFFC0 } }
      else if offset = 8 then .next (s.writeControl func x)
      else .next s
    | .readNotify => .next { s with reply := .data (leBytes 8 (((s.notifyAt func offset).map (fun (e : Nat × Queue) => e.2.notify)).getD 0).toNat) }
    | .writeNotify x =>
      match s.notifyAt func offset with
      | some e => .next (s.notify e.1 x)
      | none => .next s

/-! ## Failures of the host link (R358, R366) -/

/-- Host accesses that wait for the host, an ATS translation or a page, and of which a test holds, raise 0x13 (R366). -/
def State.failHostWaits (s : State) (hit : Nat → Bool) : State :=
  let walks := s.walks.filter (fun w => w.2.ats && hit w.1)
  let reqs := s.pageReqs.filter (fun r => hit r.1)
  let faults := walks.flatMap (fun w => (w.2.who ++ w.2.also).map (fun q => ({ who := q, page := pageOf w.2.va, cause := .uncorrectable } : XlatFault))) ++
    reqs.flatMap (fun r => r.2.who.map (fun q => ({ who := q, page := r.2.va, cause := .uncorrectable } : XlatFault)))
  { s with
    walks := s.walks.filter (fun w => !(w.2.ats && hit w.1))
    pageReqs := s.pageReqs.filter (fun r => !hit r.1)
    xlatFaults := faults ++ s.xlatFaults }

/-- HOST_LINK_DROP (R366). -/
def execHostLinkDrop (s : State) : Out := .next { s.failHostWaits (fun _ => true) with linkUp := false }

/-- IDE_INTEGRITY_FAILURE: the stream enters the insecure state; which of the waiting accesses are on it is open (R358, R366,
log 40). -/
def execIdeIntegrityFailure (stream : Nat) (s : State) : Out :=
  .next { (s.failHostWaits (Config.onStream s.draws)).drawn with
    ideFailed := if s.ideFailed.contains stream then s.ideFailed else stream :: s.ideFailed }

/-! ## SPDM (R363) -/

/-- An answer given over a function's DOE mailbox. -/
def State.answer (s : State) (func : Nat) (bs : List Byte) : State := { s with spdm := insertKey s.spdm func bs }

/-- SPDM_GET_MEASUREMENTS from the function that the turn's unit names: the measurement log. -/
def execSpdmGetMeasurements (s : State) : Out := .next (s.answer s.cur.unit s.root.measurements.flatten)

/-- SPDM_CHALLENGE: a signature over the digest of the nonce and the measurements. -/
def execSpdmChallenge (func : Nat) (nonce : List Byte) (s : State) : Out :=
  .next (s.answer func (Config.mldsaSign (Config.shake256 64 (nonce ++ s.root.measurements.flatten))))

/-- SPDM_KEY_EXCHANGE: a signature over the digest of the requester's share. -/
def execSpdmKeyExchange (func : Nat) (share : List Byte) (s : State) : Out :=
  .next (s.answer func (Config.mldsaSign (Config.shake256 64 share)))

end Sys2Proof.Machine
end

