-- ==== Sys2Proof/Machine/Service.lean ====
section
/-!
DEFINITION. Machine/Service.lean: the fabric (R98, R361), errors (R366), live service (R367), the refresh calendar (R96), power,
cooling and bring-up (R370).
-/
namespace Sys2Proof.Machine

/-! ## The fabric (R98, R361, R367) -/

/-- What a remote request addresses here: device memory, or for a read the weight stores (log 5). -/
def State.homePlace (s : State) (addr : Nat) (intent : Intent) : Xlat :=
  s.devicePlace { slot := 0, cluster := 0, asid := 0, root := 0, priv := true, who := .engine 0, ws := [] } addr intent

/-- The new doubleword of an atomic, by its op6, if it writes one (R152, R153). -/
def amoResult (op6 : BitVec 6) (old operand new : Word) : Option Word :=
  match op6.toNat with
  | 0x10 => some operand
  | 0x11 => some (old + operand)
  | 0x12 => some (old &&& operand)
  | 0x13 => some (old ||| operand)
  | 0x14 => some (old ^^^ operand)
  | 0x15 => some (minSigned old operand)
  | 0x16 => some (maxSigned old operand)
  | 0x17 => if old = operand then some new else none
  | _ => none

/-- Bytes stored at a place here by another module. -/
def State.storeHome (s : State) (p : Place) (bs : List Byte) : State :=
  match p with
  | .dev pa => s.storeDevice ((List.range bs.length).map (fun i => pa + i)) bs
  | _ => s

/-- REMOTE_MODULE_ACCESS: a request of another module, performed at its home here (R98, R361). It shows that its module's path
is alive. -/
def execRemoteModuleAccess (module addr : Nat) (op : RemoteOp) (s : State) : Out :=
  let s1 : State := match lookup s.remotes module with
    | some r => { s with remotes := insertKey s.remotes module { r with owedSince := none, askedSince := none } }
    | none => s
  let store := fun (bs : List Byte) (f : Place → State) =>
    match s1.homePlace addr .store with
    | .ok p => if bs.isEmpty then Host.Outcome.next s1 else .next (f p)
    | .absent pa => .fault (.absentAddress pa)
    | _ => .next s1
  match op with
  | .read _ =>
    match s1.homePlace addr .load with
    | .absent pa => .fault (.absentAddress pa)
    | _ => .next s1
  | .write bs => store bs (fun p => s1.storeHome p bs)
  | .amo op6 operand new =>
    store [0] (fun p =>
      match amoResult op6 (BitVec.ofNat 64 (leNat (s1.homeBytes p 8))) operand new with
      | some x => s1.storeHome p (leBytes 8 x.toNat)
      | none => s1)
  | .pub bs => store bs (fun p => s1.swapPage p bs)
  | .cred group member data =>
    .next (s1.setCredPart { group, member, data, lost := false, here := false, done := false, module := some module })
  | .credLost group member =>
    .next (s1.setCredPart { (s1.credPart group member).getD { group, member, data := [], lost := true, here := false, done := false } with
      lost := true, module := some module })

/-- A time lies 2^21 cycles back (R361, R367). -/
def State.longAgo (s : State) (t : Nat) : Bool := decide (t + 2 ^ 21 ≤ s.now)

/-- MODULE_UNREACHABLE: the path has given no acknowledgement for 2^21 cycles, whether one is owed for a store or for a load, or a
link has been training as long (R367; which modules lie behind a link is open, log 99); what the module has still to contribute to
collectives is lost (R261, R361). -/
def execModuleUnreachable (module : Nat) (s : State) : Out :=
  let r := s.remote module
  let late := (r.owedSince.toList ++ r.askedSince.toList).any s.longAgo || s.ports.any (fun p => p.2.training && s.longAgo p.2.since)
  s.when (late && r.reachable) { s with
    remotes := insertKey s.remotes module { r with reachable := false }
    creds := s.creds.map (fun c => if c.module = some module then { c with lost := true } else c) }

/-- A port as it stands. -/
def State.port (s : State) (n : Nat) : Port := (lookup s.ports n).getD { replay := [], inFlight := [], training := false }

/-- FLIT_CRC_FAIL on the port that the turn's unit names: the flits not acknowledged are sent again from the replay buffer (R361). -/
def execFlitCrcFail (s : State) : Out :=
  let p := s.port s.cur.unit
  s.when (decide (s.cur.unit < 24) && !p.training) { s with ports := insertKey s.ports s.cur.unit { p with inFlight := p.replay } }

/-- LINK_RETRAIN of the port that the turn's unit names: flits wait in the replay buffer while it trains, and are sent once it
has (R367). -/
def execLinkRetrain (s : State) : Out :=
  let p := s.port s.cur.unit
  let q : Port := if p.training then { p with training := false, inFlight := p.replay } else { p with training := true, since := s.now, inFlight := [] }
  s.when (decide (s.cur.unit < 24)) { s with ports := insertKey s.ports s.cur.unit q }

/-! ## Errors and service (R366, R367) -/

/-- The poisoned unit an error makes, by `Place.flat`, where there is such a unit. -/
def ErrorSite.unit? : ErrorSite → Option Nat
  | .device u => if 64 * u < Config.hbmBytes + Config.tier2Bytes then some u else none
  | .weightStore die u => if die < 2 ∧ u < 2 ^ 24 then some (2 ^ 40 + die * 2 ^ 24 + u) else none
  | .scratchpad k u => if k < Config.clusters ∧ u < 2 ^ 16 then some (2 ^ 44 + k * 2 ^ 16 + u) else none
  | .hostLink u => if u < 2 ^ 52 then some (2 ^ 58 + u) else none
  | .moduleLink m u => if m < 1024 ∧ u < 2 ^ 40 then some (2 ^ 59 + m * 2 ^ 50 + u) else none

/-- UNCORRECTABLE_ERROR: the damaged unit becomes poison (R366). -/
def execUncorrectableError (site : ErrorSite) (s : State) : Out :=
  match ErrorSite.unit? site with
  | some u => .next { s with poison := if s.poison.contains u then s.poison else u :: s.poison }
  | none => .next s

/-- HBM_ROW_REPAIR: the row is copied to a spare row, its values unchanged (R367). -/
def execHbmRowRepair (row : Nat) (s : State) : Out :=
  .next { s with repairedRows := if s.repairedRows.contains row then s.repairedRows else row :: s.repairedRows }

/-- A die's refresh calendar updated. -/
def State.updRefresh (s : State) (die : Nat) (f : Refresh → Refresh) : State :=
  if h : die < 2 then { s with refresh := s.refresh.set die (f s.refresh[die]) } else s

/-- WS_BANK_SPARE: a spare takes the bank's number and its calendar slot (R367). -/
def execWsBankSpare (die bank : Nat) (s : State) : Out :=
  s.when (decide (bank < 1024)) (s.updRefresh die (fun r =>
    { r with spared := if r.spared.contains bank then r.spared else bank :: r.spared }))

/-- WS_REFRESH_START: the next bank of the die that the turn's unit names starts its refresh, 31.25 µs after the last one (R96). -/
def execWsRefreshStart (s : State) : Out :=
  let r := s.refresh.toList.getD s.cur.unit Refresh.blank
  s.when (!r.busy && decide (r.origin + r.count * refreshPeriod ≤ s.time)) (s.updRefresh s.cur.unit (fun r => { r with busy := true }))

/-- WS_REFRESH_END: the bank in refresh ends it, 2 µs after its start (R96). -/
def execWsRefreshEnd (s : State) : Out :=
  let r := s.refresh.toList.getD s.cur.unit Refresh.blank
  s.when (r.busy && decide (r.origin + r.count * refreshPeriod + refreshLength ≤ s.time))
    (s.updRefresh s.cur.unit (fun r => { r with busy := false, count := r.count + 1 }))

/-! ## Power, cooling, bring-up (R370) -/

/-- The nominal clock in MHz. -/
def nominalMHz : Nat := 1750

/-- POWER_CAP: the clock lowered from the nominal one by steps of 125 MHz, one step at least remaining (R370, log 44). -/
def execPowerCap (steps : Nat) (s : State) : Out := .next { s with clockMHz := max 125 (nominalMHz - 125 * steps) }

/-- THERMAL_TRIP: at 105 °C the clocks stop, and the host sees the link go down (R370). -/
def execThermalTrip (celsius : Nat) (s : State) : Out :=
  s.when (decide (105 ≤ celsius)) { s with clocksStopped := true, linkUp := false }

/-- A cluster as bring-up leaves it; one that was retired stays so (R367, R370). -/
def Cluster.broughtUp (c : Cluster) : Cluster := { Cluster.blank with inService := c.inService }

/-- The image installed for a kind is accepted anew (R363). -/
def Root.verifies (r : Root) (kind : Nat) : Bool := r.admits kind (r.images.getD kind [])

/-- The images installed that are accepted anew at bring-up, in the order of their kinds (R363). -/
def Root.accepted (r : Root) : List (List Byte) := ((List.range 4).filter r.verifies).map (fun k => r.images.getD k [])

/-- BRING_UP, to its end (R370): the installed images verified and those accepted measured, memories and links trained, each die's origin fixed, TLBSEQ 0,
scratchpads clear, the stored partition records applied, mailboxes open; where the firmware's image is not accepted, no firmware runs, and no mailbox opens (log 100). What lies in memory
stays (log 43). -/
def State.broughtUp (s : State) : State :=
  { State.reset with
    agenda := s.agenda
    draws := s.draws
    cur := s.cur
    now := s.now
    time := s.time
    clusters := s.clusters.map (fun c => (c.1, c.2.broughtUp))
    dev := s.dev
    ws := s.ws
    host := s.host
    remotes := s.remotes.map (fun r => (r.1, { r.2 with reachable := true, owedSince := none, askedSince := none }))
    poison := s.poison.filter (fun u => decide (u < 2 ^ 44) || decide (2 ^ 58 ≤ u))
    pool := s.pool
    partitions := s.partitions.map (fun p => (p.1, { p.2 with scan := 0, served := 0 }))
    refresh := s.refresh.map (fun r => { r with origin := s.time, count := 0, busy := false })
    root := { s.root with measurements := (s.root.accepted).map imageDigest }
    mailboxOpen := s.root.verifies 0
    repairedRows := s.repairedRows }

/-- BRING_UP (R370). -/
def execBringUp (s : State) : Out := .next s.broughtUp

end Sys2Proof.Machine
end

