-- ==== Sys2Proof/Machine/Spawn.lean ====
section
/-!
DEFINITION. Machine/Spawn.lean: TSPAWN, by which a strand appends a packet to a queue of its partition (R249).
-/
namespace Sys2Proof.Machine

/-- The queue a TSPAWN names, where it accepts one: created for device submission, in the strand's partition, and of ZQI 2
packets (R249; log 38 on the version). -/
def State.spawnQueue (s : State) (st : Strand) (x : Word) : Option (Nat × Queue) :=
  let q := (bits x 0 12).toNat
  if bits x 12 52 ≠ 0 then none
  else
    match s.queue? q with
    | none => none
    | some r => if r.devsub && r.part == s.partOf st && r.version == 2 && r.destroyed.isNone then some (q, r) else none

/-- A packet written into the next slot of a queue, and its notify word moved past it (R249, R338). -/
def State.append (s : State) (q : Nat) (x : Queue) (bs : List Byte) : State :=
  (s.fwWrite x.asid (x.ring.toNat + x.packetBytes * (x.notify.toNat % 2 ^ x.log2n)) bs).notify q (x.notify + 1)

/-- TSPAWN (R249). -/
def execTspawn (f : YsF) (s : State) : Out :=
  s.issue (.tspawn f) ysForm [f.gd, f.ga, f.gb] (fun e =>
    let va := (e.reg f.ga).toNat
    if va % 128 ≠ 0 then .trap .misaligned (e.reg f.ga) s
    else
      match s.spawnQueue e.st (e.reg f.gb) with
      | none => refuse s
      | some (q, x) =>
        if s.heldBack e (some 5) then .wait .drain s
        else
          (s.readObject e va 128).sync e s f.gd (fun bs =>
            let s1 := s.noteRead e.agent va 128
            if x.fetched + 2 ^ x.log2n ≤ x.notify.toNat then .done (s1.setReg e f.gd 1)
            else .done ((s1.append q x bs).setReg e f.gd 0)))

end Sys2Proof.Machine
end

