-- ==== Sys2Proof/Machine/Dispatch.lean ====
section
/-!
DEFINITION. Machine/Dispatch.lean: every step of the machine and its meaning.
-/
namespace Sys2Proof.Machine

/-- The meaning of each step of the table. -/
def exec (i : Instr) (s : State) : Host.Outcome State Fault Refusal :=
  match i with
  | .add d a b => Sys2Proof.Machine.execAdd d a b s
  | .sub d a b => Sys2Proof.Machine.execSub d a b s
  | .mul d a b => Sys2Proof.Machine.execMul d a b s
  | .mulh d a b => Sys2Proof.Machine.execMulh d a b s
  | .mulhu d a b => Sys2Proof.Machine.execMulhu d a b s
  | .div d a b => Sys2Proof.Machine.execDiv d a b s
  | .divu d a b => Sys2Proof.Machine.execDivu d a b s
  | .rem d a b => Sys2Proof.Machine.execRem d a b s
  | .remu d a b => Sys2Proof.Machine.execRemu d a b s
  | .min d a b => Sys2Proof.Machine.execMin d a b s
  | .max d a b => Sys2Proof.Machine.execMax d a b s
  | .minu d a b => Sys2Proof.Machine.execMinu d a b s
  | .maxu d a b => Sys2Proof.Machine.execMaxu d a b s
  | .and d a b => Sys2Proof.Machine.execAnd d a b s
  | .or d a b => Sys2Proof.Machine.execOr d a b s
  | .xor d a b => Sys2Proof.Machine.execXor d a b s
  | .andn d a b => Sys2Proof.Machine.execAndn d a b s
  | .shl d a b => Sys2Proof.Machine.execShl d a b s
  | .shr d a b => Sys2Proof.Machine.execShr d a b s
  | .sra d a b => Sys2Proof.Machine.execSra d a b s
  | .rol d a b => Sys2Proof.Machine.execRol d a b s
  | .slt d a b => Sys2Proof.Machine.execSlt d a b s
  | .sltu d a b => Sys2Proof.Machine.execSltu d a b s
  | .clz d a => Sys2Proof.Machine.execClz d a s
  | .ctz d a => Sys2Proof.Machine.execCtz d a s
  | .popc d a => Sys2Proof.Machine.execPopc d a s
  | .fadd d a b rm => Sys2Proof.Machine.execFadd d a b rm s
  | .fsub d a b rm => Sys2Proof.Machine.execFsub d a b rm s
  | .fmul d a b rm => Sys2Proof.Machine.execFmul d a b rm s
  | .fma d a b c rm => Sys2Proof.Machine.execFma d a b c rm s
  | .fmin d a b rm => Sys2Proof.Machine.execFmin d a b rm s
  | .fmax d a b rm => Sys2Proof.Machine.execFmax d a b rm s
  | .fcmp d a b rel => Sys2Proof.Machine.execFcmp d a b rel s
  | .fcvt d a sat dir rm => Sys2Proof.Machine.execFcvt d a sat dir rm s
  | .addi d a imm => Sys2Proof.Machine.execAddi d a imm s
  | .andi d a imm => Sys2Proof.Machine.execAndi d a imm s
  | .ori d a imm => Sys2Proof.Machine.execOri d a imm s
  | .xori d a imm => Sys2Proof.Machine.execXori d a imm s
  | .shli d a amount => Sys2Proof.Machine.execShli d a amount s
  | .shri d a amount => Sys2Proof.Machine.execShri d a amount s
  | .srai d a amount => Sys2Proof.Machine.execSrai d a amount s
  | .slti d a imm => Sys2Proof.Machine.execSlti d a imm s
  | .sltui d a imm => Sys2Proof.Machine.execSltui d a imm s
  | .lui d imm => Sys2Proof.Machine.execLui d imm s
  | .auipc d imm => Sys2Proof.Machine.execAuipc d imm s
  | .bfx d a width offset => Sys2Proof.Machine.execBfx d a width offset s
  | .bfxu d a width offset => Sys2Proof.Machine.execBfxu d a width offset s
  | .bfi d a width offset => Sys2Proof.Machine.execBfi d a width offset s
  | .ldb d a off => Sys2Proof.Machine.execLdb d a off s
  | .ldh d a off => Sys2Proof.Machine.execLdh d a off s
  | .ldw d a off => Sys2Proof.Machine.execLdw d a off s
  | .ldd d a off => Sys2Proof.Machine.execLdd d a off s
  | .ldbu d a off => Sys2Proof.Machine.execLdbu d a off s
  | .ldhu d a off => Sys2Proof.Machine.execLdhu d a off s
  | .ldwu d a off => Sys2Proof.Machine.execLdwu d a off s
  | .stb d a off => Sys2Proof.Machine.execStb d a off s
  | .sth d a off => Sys2Proof.Machine.execSth d a off s
  | .stw d a off => Sys2Proof.Machine.execStw d a off s
  | .std d a off => Sys2Proof.Machine.execStd d a off s
  | .lda d a scope off => Sys2Proof.Machine.execLda d a scope off s
  | .stl d a scope off => Sys2Proof.Machine.execStl d a scope off s
  | .amoswap d a scope order src => Sys2Proof.Machine.execAmoswap d a scope order src s
  | .amoadd d a scope order src => Sys2Proof.Machine.execAmoadd d a scope order src s
  | .amoand d a scope order src => Sys2Proof.Machine.execAmoand d a scope order src s
  | .amoor d a scope order src => Sys2Proof.Machine.execAmoor d a scope order src s
  | .amoxor d a scope order src => Sys2Proof.Machine.execAmoxor d a scope order src s
  | .amomin d a scope order src => Sys2Proof.Machine.execAmomin d a scope order src s
  | .amomax d a scope order src => Sys2Proof.Machine.execAmomax d a scope order src s
  | .amocas d a scope order => Sys2Proof.Machine.execAmocas d a scope order s
  | .fence scope kinds => Sys2Proof.Machine.execFence scope kinds s
  | .beq a b off => Sys2Proof.Machine.execBeq a b off s
  | .bne a b off => Sys2Proof.Machine.execBne a b off s
  | .blt a b off => Sys2Proof.Machine.execBlt a b off s
  | .bge a b off => Sys2Proof.Machine.execBge a b off s
  | .bltu a b off => Sys2Proof.Machine.execBltu a b off s
  | .bgeu a b off => Sys2Proof.Machine.execBgeu a b off s
  | .bq q off => Sys2Proof.Machine.execBq q off s
  | .bsend slot off => Sys2Proof.Machine.execBsend slot off s
  | .j off => Sys2Proof.Machine.execJ off s
  | .jal d off => Sys2Proof.Machine.execJal d off s
  | .jalr d a off => Sys2Proof.Machine.execJalr d a off s
  | .qpush a q => Sys2Proof.Machine.execQpush a q s
  | .qpop d q => Sys2Proof.Machine.execQpop d q s
  | .imx payload => Sys2Proof.Machine.execImx payload s
  | .mattr scope cache order => Sys2Proof.Machine.execMattr scope cache order s
  | .vcfg f => Sys2Proof.Machine.execVcfg f s
  | .vsetl f => Sys2Proof.Machine.execVsetl f s
  | .vsetrc f => Sys2Proof.Machine.execVsetrc f s
  | .vpart f => Sys2Proof.Machine.execVpart f s
  | .vjoin f => Sys2Proof.Machine.execVjoin f s
  | .vadd f => Sys2Proof.Machine.execVadd f s
  | .vsub f => Sys2Proof.Machine.execVsub f s
  | .vmul f => Sys2Proof.Machine.execVmul f s
  | .vmulh f => Sys2Proof.Machine.execVmulh f s
  | .vfma f => Sys2Proof.Machine.execVfma f s
  | .vfms f => Sys2Proof.Machine.execVfms f s
  | .vfnma f => Sys2Proof.Machine.execVfnma f s
  | .vdiv f => Sys2Proof.Machine.execVdiv f s
  | .vsqrt f => Sys2Proof.Machine.execVsqrt f s
  | .vrcp f => Sys2Proof.Machine.execVrcp f s
  | .vrsq f => Sys2Proof.Machine.execVrsq f s
  | .vexp2 f => Sys2Proof.Machine.execVexp2 f s
  | .vlog2 f => Sys2Proof.Machine.execVlog2 f s
  | .vmin f => Sys2Proof.Machine.execVmin f s
  | .vmax f => Sys2Proof.Machine.execVmax f s
  | .vabs f => Sys2Proof.Machine.execVabs f s
  | .vneg f => Sys2Proof.Machine.execVneg f s
  | .vand f => Sys2Proof.Machine.execVand f s
  | .vor f => Sys2Proof.Machine.execVor f s
  | .vxor f => Sys2Proof.Machine.execVxor f s
  | .vnot f => Sys2Proof.Machine.execVnot f s
  | .vshl f => Sys2Proof.Machine.execVshl f s
  | .vshr f => Sys2Proof.Machine.execVshr f s
  | .vsra f => Sys2Proof.Machine.execVsra f s
  | .vcmpeq f => Sys2Proof.Machine.execVcmpeq f s
  | .vcmpne f => Sys2Proof.Machine.execVcmpne f s
  | .vcmplt f => Sys2Proof.Machine.execVcmplt f s
  | .vcmple f => Sys2Proof.Machine.execVcmple f s
  | .vsel f => Sys2Proof.Machine.execVsel f s
  | .vclass f => Sys2Proof.Machine.execVclass f s
  | .vcvt f => Sys2Proof.Machine.execVcvt f s
  | .vnarrow f => Sys2Proof.Machine.execVnarrow f s
  | .vwiden f => Sys2Proof.Machine.execVwiden f s
  | .vq4 f => Sys2Proof.Machine.execVq4 f s
  | .vslideup f => Sys2Proof.Machine.execVslideup f s
  | .vslidedn f => Sys2Proof.Machine.execVslidedn f s
  | .vperm f => Sys2Proof.Machine.execVperm f s
  | .vbcast f => Sys2Proof.Machine.execVbcast f s
  | .vmvs f => Sys2Proof.Machine.execVmvs f s
  | .vget f => Sys2Proof.Machine.execVget f s
  | .vredsum f => Sys2Proof.Machine.execVredsum f s
  | .vredmax f => Sys2Proof.Machine.execVredmax f s
  | .vredmin f => Sys2Proof.Machine.execVredmin f s
  | .vredand f => Sys2Proof.Machine.execVredand f s
  | .vredor f => Sys2Proof.Machine.execVredor f s
  | .vscan f => Sys2Proof.Machine.execVscan f s
  | .vcompress f => Sys2Proof.Machine.execVcompress f s
  | .vexpand f => Sys2Proof.Machine.execVexpand f s
  | .viota f => Sys2Proof.Machine.execViota f s
  | .vtrans8 f => Sys2Proof.Machine.execVtrans8 f s
  | .vfirst f => Sys2Proof.Machine.execVfirst f s
  | .vpopm f => Sys2Proof.Machine.execVpopm f s
  | .vld f => Sys2Proof.Machine.execVld f s
  | .vlds f => Sys2Proof.Machine.execVlds f s
  | .vldx f => Sys2Proof.Machine.execVldx f s
  | .vldff f => Sys2Proof.Machine.execVldff f s
  | .vld2d f => Sys2Proof.Machine.execVld2d f s
  | .vst f => Sys2Proof.Machine.execVst f s
  | .vsts f => Sys2Proof.Machine.execVsts f s
  | .vstx f => Sys2Proof.Machine.execVstx f s
  | .vst2d f => Sys2Proof.Machine.execVst2d f s
  | .vamo f => Sys2Proof.Machine.execVamo f s
  | .vxlat f => Sys2Proof.Machine.execVxlat f s
  | .vpref f => Sys2Proof.Machine.execVpref f s
  | .kvapp f => Sys2Proof.Machine.execKvapp f s
  | .vbind f => Sys2Proof.Machine.execVbind f s
  | .vunbind f => Sys2Proof.Machine.execVunbind f s
  | .sfeed f => Sys2Proof.Machine.execSfeed f s
  | .mzero f => Sys2Proof.Machine.execMzero f s
  | .mma f => Sys2Proof.Machine.execMma f s
  | .mmav f => Sys2Proof.Machine.execMmav f s
  | .mmas f => Sys2Proof.Machine.execMmas f s
  | .mloadc f => Sys2Proof.Machine.execMloadc f s
  | .mstore f => Sys2Proof.Machine.execMstore f s
  | .mreadv f => Sys2Proof.Machine.execMreadv f s
  | .mwritev f => Sys2Proof.Machine.execMwritev f s
  | .mcvt f => Sys2Proof.Machine.execMcvt f s
  | .tload f => Sys2Proof.Machine.execTload f s
  | .teval f => Sys2Proof.Machine.execTeval f s
  | .tleaf f => Sys2Proof.Machine.execTleaf f s
  | .tclr f => Sys2Proof.Machine.execTclr f s
  | .kend f => Sys2Proof.Machine.execKend f s
  | .splpt f => Sys2Proof.Machine.execSplpt f s
  | .canpt f => Sys2Proof.Machine.execCanpt f s
  | .wmpub f => Sys2Proof.Machine.execWmpub f s
  | .wmwait f => Sys2Proof.Machine.execWmwait f s
  | .barrive f => Sys2Proof.Machine.execBarrive f s
  | .barwait f => Sys2Proof.Machine.execBarwait f s
  | .depinit f => Sys2Proof.Machine.execDepinit f s
  | .depdec f => Sys2Proof.Machine.execDepdec f s
  | .tspawn f => Sys2Proof.Machine.execTspawn f s
  | .sbpost f => Sys2Proof.Machine.execSbpost f s
  | .sbstat f => Sys2Proof.Machine.execSbstat f s
  | .sbleave f => Sys2Proof.Machine.execSbleave f s
  | .cpy f => Sys2Proof.Machine.execCpy f s
  | .pub f => Sys2Proof.Machine.execPub f s
  | .cred f => Sys2Proof.Machine.execCred f s
  | .upd f => Sys2Proof.Machine.execUpd f s
  | .rinv f => Sys2Proof.Machine.execRinv f s
  | .kvfile f => Sys2Proof.Machine.execKvfile f s
  | .rqnt f => Sys2Proof.Machine.execRqnt f s
  | .wsinfo f => Sys2Proof.Machine.execWsinfo f s
  | .syscall f => Sys2Proof.Machine.execSyscall f s
  | .brk f => Sys2Proof.Machine.execBrk f s
  | .svfence f => Sys2Proof.Machine.execSvfence f s
  | .crrd f => Sys2Proof.Machine.execCrrd f s
  | .crwr f => Sys2Proof.Machine.execCrwr f s
  | .trapret f => Sys2Proof.Machine.execTrapret f s
  | .vfsave f => Sys2Proof.Machine.execVfsave f s
  | .vfload f => Sys2Proof.Machine.execVfload f s
  | .tlbinv f => Sys2Proof.Machine.execTlbinv f s
  | .wfe f => Sys2Proof.Machine.execWfe f s
  | .xflagsRead gd => Sys2Proof.Machine.execXflagsRead gd s
  | .xflagsWrite ga => Sys2Proof.Machine.execXflagsWrite ga s
  | .xseedWrite ga => Sys2Proof.Machine.execXseedWrite ga s
  | .vstartAccess write r => Sys2Proof.Machine.execVstartAccess write r s
  | .asidWrite ga => Sys2Proof.Machine.execAsidWrite ga s
  | .ptrootWrite ga => Sys2Proof.Machine.execPtrootWrite ga s
  | .yield ga => Sys2Proof.Machine.execYield ga s
  | .engineComplete cmd => Sys2Proof.Machine.execEngineComplete cmd s
  | .preemptRequest slot reason => Sys2Proof.Machine.execPreemptRequest slot reason s
  | .strandResume launch index slot => Sys2Proof.Machine.execStrandResume launch index slot s
  | .pageWalkFill walk => Sys2Proof.Machine.execPageWalkFill walk s
  | .priResponse req answer => Sys2Proof.Machine.execPriResponse req answer s
  | .priTimeout req => Sys2Proof.Machine.execPriTimeout req s
  | .atsCompletion walk pa log2 read write => Sys2Proof.Machine.execAtsCompletion walk pa log2 read write s
  | .atsInvalidation pasid func va pages => Sys2Proof.Machine.execAtsInvalidation pasid func va pages s
  | .notifyWrite queue value => Sys2Proof.Machine.execNotifyWrite queue value s
  | .nop queue seq => Sys2Proof.Machine.execNop queue seq s
  | .launch queue seq => Sys2Proof.Machine.execLaunch queue seq s
  | .siblaunch queue seq => Sys2Proof.Machine.execSiblaunch queue seq s
  | .barrier queue seq => Sys2Proof.Machine.execBarrier queue seq s
  | .waitval queue seq => Sys2Proof.Machine.execWaitval queue seq s
  | .waitvalPoll queue seq => Sys2Proof.Machine.execWaitvalPoll queue seq s
  | .wsload queue seq => Sys2Proof.Machine.execWsload queue seq s
  | .wsrel queue seq => Sys2Proof.Machine.execWsrel queue seq s
  | .depgraph queue seq => Sys2Proof.Machine.execDepgraph queue seq s
  | .spliceDecision queue seq => Sys2Proof.Machine.execSpliceDecision queue seq s
  | .dispatch core queue seq place => Sys2Proof.Machine.execDispatch core queue seq place s
  | .launchComplete launch => Sys2Proof.Machine.execLaunchComplete launch s
  | .hostApertureAccess func offset op => Sys2Proof.Machine.execHostApertureAccess func offset op s
  | .spdmChallenge func nonce => Sys2Proof.Machine.execSpdmChallenge func nonce s
  | .spdmKeyExchange func share => Sys2Proof.Machine.execSpdmKeyExchange func share s
  | .ideIntegrityFailure stream => Sys2Proof.Machine.execIdeIntegrityFailure stream s
  | .moduleUnreachable module => Sys2Proof.Machine.execModuleUnreachable module s
  | .uncorrectableError site => Sys2Proof.Machine.execUncorrectableError site s
  | .hbmRowRepair row => Sys2Proof.Machine.execHbmRowRepair row s
  | .wsBankSpare die bank => Sys2Proof.Machine.execWsBankSpare die bank s
  | .powerCap steps => Sys2Proof.Machine.execPowerCap steps s
  | .thermalTrip celsius => Sys2Proof.Machine.execThermalTrip celsius s
  | .remoteModuleAccess module addr op => Sys2Proof.Machine.execRemoteModuleAccess module addr op s
  | .unassignedEncoding w0 => Sys2Proof.Machine.execUnassignedEncoding w0 s
  | .queueWaitEnd => Sys2Proof.Machine.execQueueWaitEnd s
  | .watermarkWake => Sys2Proof.Machine.execWatermarkWake s
  | .watermarkTimeout => Sys2Proof.Machine.execWatermarkTimeout s
  | .barwaitWake => Sys2Proof.Machine.execBarwaitWake s
  | .wfeTimeout => Sys2Proof.Machine.execWfeTimeout s
  | .engineErrorDelivery => Sys2Proof.Machine.execEngineErrorDelivery s
  | .cancelLimitStop => Sys2Proof.Machine.execCancelLimitStop s
  | .vqEntryStart => Sys2Proof.Machine.execVqEntryStart s
  | .matrixQueueMove => Sys2Proof.Machine.execMatrixQueueMove s
  | .syncReadArrival => Sys2Proof.Machine.execSyncReadArrival s
  | .spliceGateProceed => Sys2Proof.Machine.execSpliceGateProceed s
  | .spliceRegionFree => Sys2Proof.Machine.execSpliceRegionFree s
  | .kendRetire => Sys2Proof.Machine.execKendRetire s
  | .impreciseTrap => Sys2Proof.Machine.execImpreciseTrap s
  | .strandStart => Sys2Proof.Machine.execStrandStart s
  | .vqEntryComplete => Sys2Proof.Machine.execVqEntryComplete s
  | .repartitionEffect => Sys2Proof.Machine.execRepartitionEffect s
  | .matrixQueueStart => Sys2Proof.Machine.execMatrixQueueStart s
  | .matrixQueueComplete => Sys2Proof.Machine.execMatrixQueueComplete s
  | .streamChunkArrival => Sys2Proof.Machine.execStreamChunkArrival s
  | .streamPatternRead => Sys2Proof.Machine.execStreamPatternRead s
  | .createq => Sys2Proof.Machine.execCreateq s
  | .destroyq => Sys2Proof.Machine.execDestroyq s
  | .bindas => Sys2Proof.Machine.execBindas s
  | .unbindas => Sys2Proof.Machine.execUnbindas s
  | .partcfg => Sys2Proof.Machine.execPartcfg s
  | .retirecl => Sys2Proof.Machine.execRetirecl s
  | .keyinstall => Sys2Proof.Machine.execKeyinstall s
  | .fwload => Sys2Proof.Machine.execFwload s
  | .reccfg => Sys2Proof.Machine.execReccfg s
  | .replay => Sys2Proof.Machine.execReplay s
  | .invalidMailboxCommand => Sys2Proof.Machine.execInvalidMailboxCommand s
  | .spdmGetMeasurements => Sys2Proof.Machine.execSpdmGetMeasurements s
  | .wsRefreshStart => Sys2Proof.Machine.execWsRefreshStart s
  | .wsRefreshEnd => Sys2Proof.Machine.execWsRefreshEnd s
  | .flitCrcFail => Sys2Proof.Machine.execFlitCrcFail s
  | .linkRetrain => Sys2Proof.Machine.execLinkRetrain s
  | .coreHeartbeatTimeout => Sys2Proof.Machine.execCoreHeartbeatTimeout s
  | .scannerFind => Sys2Proof.Machine.execScannerFind s
  | .queueFetch => Sys2Proof.Machine.execQueueFetch s
  | .hostLinkDrop => Sys2Proof.Machine.execHostLinkDrop s
  | .bringUp => Sys2Proof.Machine.execBringUp s

end Sys2Proof.Machine
end

