-- ==== Sys2Proof/Machine/Step.lean ====
section
/-!
DEFINITION. Machine/Step.lean: one step of the module, and a state in which the next step runs a given instruction.
-/
namespace Sys2Proof.Machine

/-- An outcome with the issue noted. -/
def noted (o : Host.Outcome State Fault Refusal) (slot : Nat) (id : CtxId) : Host.Outcome State Fault Refusal :=
  match o with
  | .next s => .next (s.noteIssue slot id)
  | o => o

/-- One step: the turn to come is taken, its cycles pass, and who moves in it moves (log 1, log 2). -/
def step (s : State) : Host.Outcome State Fault Refusal :=
  if s.clocksStopped then .fault .clocksStopped
  else
    let t := s.takeTurn
    let s1 := t.2.pass t.1.cycles
    match t.1.who with
    | .context slot id =>
      match s1.contextTurn slot id with
      | .instr fresh i s2 => if fresh then noted (exec i s2) slot id else exec i s2
      | .other s2 => .next s2
      | .stop f => .fault f
    | .event i slot id unit =>
      if isEvent i then exec i { s1 with cur := { slot, ctx := id, unit } } else .next s1

/-- s with an instruction of nbits bits w placed at device address 4096, mapped at the same virtual address for the
execute context of the strand in slot 0, which is made to run there in the next turn (log 6). -/
def State.withFetchWord (s : State) (nbits w : Nat) : State := s.placeCode nbits w

end Sys2Proof.Machine
end

