-- ==== Sys2Proof/Safety.lean ====
section
/-!
DEFINITION. Safety.lean: what a run is, and when a run is safe: it stops only where the spec says that the machine does.
-/
namespace Sys2Proof

/-- t is reached from s by steps that each answer a next state. -/
inductive Reaches (s : Machine.State) : Machine.State → Prop where
  | refl : Reaches s s
  | step {t u : Machine.State} : Reaches s t → Machine.step t = .next u → Reaches s u

/-- A state from which no run meets an instruction without meaning or an address at which the spec puts no memory:
every run from it goes on for ever or ends in the thermal trip of R370. -/
def Safe (s : Machine.State) : Prop :=
  ∀ t, Reaches s t → ∀ f, Machine.step t = .fault f → f = Machine.Fault.clocksStopped

/-- A property that every step keeps, from every state that has it. -/
def Kept (P : Machine.State → Prop) : Prop := ∀ s t, P s → Machine.step s = .next t → P t

end Sys2Proof
end

