-- ==== Sys2Proof/Certificates/Slice0/Obligations.lean ====
section
/-!
DEFINITION. Certificates/Slice0/Obligations.lean: what is claimed of the machine. Each claim's docstring names the rules of spec/
that it formalises; where a clause rests on a choice of the model, the docstring names the log entry.
-/
namespace Sys2Proof.Claim
open Sys2Proof.Machine

/-! ## Vocabulary -/

/-- The context whose turn it is, of the strand in its slot. -/
def running (s : State) (st : Strand) : Context := st.ctx s.cur.ctx

/-- The turn's context is one of strand st, and none of these registers is pending for it (R19). -/
abbrev Stands (s : State) (st : Strand) (regs : List Reg) : Prop :=
  s.strand? s.cur.slot = some st ∧ (s.cur.ctx = .execute → ∀ r ∈ regs, r.toNat ∉ st.pending)

/-- No prefix has been read (R130). -/
abbrev Bare (c : Context) : Prop := c.prefixes = none

/-- No prefix but an IMX has been read (R130, R131). -/
abbrev AtMostImx (c : Context) : Prop := c.prefixes.all (fun p => !p.rejected && p.mattr.isNone) = true

/-- An immediate of n bits as the context reads it: sign-extended, or widened by its IMX first (R120, R131). -/
def immediate (c : Context) {n : Nat} (x : BitVec n) : Word :=
  match c.prefixes.bind (·.imx) with
  | some p => (p ++ x).signExtend 64
  | none => x.signExtend 64

/-- The state after the turn's context has completed an instruction with an effect of its own: the PC moves past its words, ISSUES
counts it and its prefixes are used up (R82, R117, R130). -/
def complete (s : State) (words : Nat) (f : Context → Context) : State :=
  s.updCtx s.cur.slot s.cur.ctx (fun c => (f c).advance (c.pc + BitVec.ofNat 64 (4 * words)))

/-- The same for an instruction that goes to an address. -/
def completeAt (s : State) (pc : Word) (f : Context → Context) : State :=
  s.updCtx s.cur.slot s.cur.ctx (fun c => (f c).advance pc)

/-- An instruction of state s that ends in a trap of state t: the trap is entered, but while the matrix array is busy for the
strand a trap of its execute context waits and the turn does nothing (R309, R312). -/
def trapsIn (s t : State) (cause : Cause) (vector : Bool) (tval : Word) : Out :=
  if s.cur.ctx = .execute ∧ s.arrayBusy s.cur.slot = true then .next s
  else .next (t.preciseTrap s.cur.slot s.cur.ctx cause vector tval)

/-- The SR instructions on two registers and what they give (R138); division has a claim of its own. -/
def intOps : List ((Reg → Reg → Reg → Instr) × (Word → Word → Word)) :=
  [ (.add, fun x y => x + y), (.sub, fun x y => x - y), (.mul, fun x y => x * y),
    (.mulh, fun x y => BitVec.ofInt 64 (x.toInt * y.toInt / 2 ^ 64)),
    (.mulhu, fun x y => BitVec.ofNat 64 (x.toNat * y.toNat / 2 ^ 64)),
    (.min, fun x y => if x.slt y then x else y), (.max, fun x y => if x.slt y then y else x),
    (.minu, fun x y => if x.ult y then x else y), (.maxu, fun x y => if x.ult y then y else x),
    (.and, fun x y => x &&& y), (.or, fun x y => x ||| y), (.xor, fun x y => x ^^^ y), (.andn, fun x y => x &&& ~~~y),
    (.shl, fun x y => BitVec.ofNat 64 (x.toNat * 2 ^ (y.toNat % 64))),
    (.shr, fun x y => BitVec.ofNat 64 (x.toNat / 2 ^ (y.toNat % 64))),
    (.sra, fun x y => BitVec.ofInt 64 (x.toInt / 2 ^ (y.toNat % 64))),
    (.rol, fun x y => x.rotateLeft (y.toNat % 64)),
    (.slt, fun x y => if x.toInt < y.toInt then 1 else 0), (.sltu, fun x y => if x.toNat < y.toNat then 1 else 0) ]

/-- The quotient and the remainder of signed division (R139). -/
def signedQuotient (a b : Word) : Word :=
  if b = 0 then (if a = 0 then 0 else if a.slt 0 then BitVec.intMin 64 else BitVec.intMax 64)
  else if a = BitVec.intMin 64 ∧ b = -1 then BitVec.intMax 64
  else a.sdiv b

/-- The division instructions (R138, R139). -/
def divOps : List ((Reg → Reg → Reg → Instr) × (Word → Word → Word)) :=
  [ (.div, signedQuotient),
    (.divu, fun a b => if b = 0 then (if a = 0 then 0 else BitVec.allOnes 64) else a.udiv b),
    (.rem, fun a b => if b = 0 then a else a.srem b),
    (.remu, fun a b => if b = 0 then a else a.umod b) ]

/-- The SI instructions with an immediate and what they give (R145). -/
def immOps : List ((Reg → Reg → BitVec 13 → Instr) × (Word → Word → Word)) :=
  [ (.addi, fun x y => x + y), (.andi, fun x y => x &&& y), (.ori, fun x y => x ||| y), (.xori, fun x y => x ^^^ y),
    (.slti, fun x y => if x.toInt < y.toInt then 1 else 0), (.sltui, fun x y => if x.toNat < y.toNat then 1 else 0) ]

/-- The SI shifts (R145). -/
def shiftOps : List ((Reg → Reg → BitVec 6 → Instr) × (Word → Nat → Word)) :=
  [ (.shli, fun x n => BitVec.ofNat 64 (x.toNat * 2 ^ n)), (.shri, fun x n => BitVec.ofNat 64 (x.toNat / 2 ^ n)),
    (.srai, fun x n => BitVec.ofInt 64 (x.toInt / 2 ^ n)) ]

/-- Bit i of the field of BFX and BFXU, none outside it: k bits lie inside the register (R147). -/
def fieldBit (x : Word) (width : BitVec 7) (offset : BitVec 6) (signed : Bool) (i : Nat) : Bool :=
  let k := min (min width.toNat 64) (64 - offset.toNat)
  if i < k then x.getLsbD (offset.toNat + i) else signed && decide (0 < k) && x.getLsbD (offset.toNat + k - 1)

end Sys2Proof.Claim

open Sys2Proof Sys2Proof.Machine Sys2Proof.Claim

/-! ## Scalar integer instructions -/

/-- R138: every SR integer instruction on two registers completes, writes the value of R138's table to gd and changes nothing else
but the PC and ISSUES. With gd = g0 nothing is written (R12): `Context.setReg` says so. -/
def Sys2Proof.Claim.IntegerRegisterResults : Prop :=
  ∀ op ∈ intOps, ∀ (d a b : Reg) (s : State) (st : Strand), Stands s st [d, a, b] → Bare (running s st) →
    exec (op.1 d a b) s = .next (complete s 1 (fun c => c.setReg d (op.2 (c.reg a) (c.reg b))))

/-- R139: division completes on every pair of operands, a zero divisor and the one overflowing quotient among them. -/
def Sys2Proof.Claim.DivisionNeverTraps : Prop :=
  ∀ op ∈ divOps, ∀ (d a b : Reg) (s : State) (st : Strand), Stands s st [d, a, b] → Bare (running s st) →
    exec (op.1 d a b) s = .next (complete s 1 (fun c => c.setReg d (op.2 (c.reg a) (c.reg b))))

/-- R138: CLZ, CTZ and POPC count bits: the bits CLZ counts are clear and the next one, if any, is set; CTZ alike from bit 0. -/
def Sys2Proof.Claim.BitCounts : Prop :=
  ∀ (d a : Reg) (s : State) (st : Strand), Stands s st [d, a] → Bare (running s st) →
    (∃ n ≤ 64, exec (.clz d a) s = .next (complete s 1 (fun c => c.setReg d (BitVec.ofNat 64 n))) ∧
      (∀ i < n, ((running s st).reg a).getLsbD (63 - i) = false) ∧ (n < 64 → ((running s st).reg a).getLsbD (63 - n) = true)) ∧
    (∃ n ≤ 64, exec (.ctz d a) s = .next (complete s 1 (fun c => c.setReg d (BitVec.ofNat 64 n))) ∧
      (∀ i < n, ((running s st).reg a).getLsbD i = false) ∧ (n < 64 → ((running s st).reg a).getLsbD n = true)) ∧
    exec (.popc d a) s = .next (complete s 1 (fun c => c.setReg d
      (BitVec.ofNat 64 ((List.range 64).countP (fun i => (c.reg a).getLsbD i)))))

/-- R145, R146: the immediate instructions, whose immediate an IMX widens (R131). -/
def Sys2Proof.Claim.ImmediateResults : Prop :=
  ∀ (d a : Reg) (s : State) (st : Strand), Stands s st [d, a] → AtMostImx (running s st) →
    (∀ op ∈ immOps, ∀ imm : BitVec 13,
      exec (op.1 d a imm) s = .next (complete s 1 (fun c => c.setReg d (op.2 (c.reg a) (immediate c imm))))) ∧
    (∀ imm : BitVec 18,
      exec (.lui d imm) s = .next (complete s 1 (fun c => c.setReg d (immediate c (imm ++ 0#14)))) ∧
      exec (.auipc d imm) s = .next (complete s 1 (fun c => c.setReg d (c.pc + immediate c (imm ++ 0#14)))))

/-- R145, R147: the shifts by an amount, and the bit fields, bit by bit: BFXU fills with zeros, BFX with the highest bit
extracted, BFI leaves the bits outside the field as they were. -/
def Sys2Proof.Claim.ShiftAndFieldResults : Prop :=
  ∀ (d a : Reg) (s : State) (st : Strand), Stands s st [d, a] → Bare (running s st) →
    (∀ op ∈ shiftOps, ∀ n : BitVec 6,
      exec (op.1 d a n) s = .next (complete s 1 (fun c => c.setReg d (op.2 (c.reg a) n.toNat)))) ∧
    (∀ (w : BitVec 7) (o : BitVec 6), ∃ x y z : Word,
      exec (.bfxu d a w o) s = .next (complete s 1 (fun c => c.setReg d x)) ∧
      exec (.bfx d a w o) s = .next (complete s 1 (fun c => c.setReg d y)) ∧
      exec (.bfi d a w o) s = .next (complete s 1 (fun c => c.setReg d z)) ∧
      ∀ i < 64,
        x.getLsbD i = fieldBit ((running s st).reg a) w o false i ∧
        y.getLsbD i = fieldBit ((running s st).reg a) w o true i ∧
        z.getLsbD i = (if o.toNat ≤ i ∧ i < o.toNat + w.toNat then ((running s st).reg a).getLsbD (i - o.toNat)
          else ((running s st).reg d).getLsbD i))


/-! ## Scalar FP32 instructions -/

namespace Sys2Proof.Claim
open Sys2Proof.Machine

/-- The mode an instruction rounds under: 110 reads XRM (R47, R48, R141). -/
def mode (st : Strand) (rm : BitVec 3) : BitVec 3 := if rm = 6 then st.xrm else rm

/-- One step of a stochastic-rounding word (R50). -/
def step32 (x : BitVec 32) : BitVec 32 :=
  let a := x ^^^ (x <<< 13)
  let b := a ^^^ (a >>> 17)
  b ^^^ (b <<< 5)

/-- The scalar word after an instruction that rounds under a mode: under SR it has taken one step (R141). -/
def wordAfter (c : Context) (m : BitVec 3) : Half := if m = 5 then step32 c.sr else c.sr

/-- The 16-bit number an SR rounding uses: bits [31:16] of the word after its step (R51). -/
def numberOf (c : Context) (m : BitVec 3) : Nat := if m = 5 then (step32 c.sr).toNat / 65536 else 0

/-- The FP32 value in a register: its bits [31:0] (R43, R68). -/
def fp32 (c : Context) (r : Reg) : FVal := decodeF 14 ((c.reg r).toNat % 2 ^ 32)

/-- What a scalar FP32 instruction does with its result and its flags (R68, R83, R84, R141): the flags are set in the
context's set; when none of them is enabled in XTRAPEN, gd is written, and otherwise 0x0A is raised and gd is not written. -/
def floatOutcome (s : State) (st : Strand) (d : Reg) (m : BitVec 3) (x : Word) (fl : Flags) : Out :=
  let enabled := fl &&& st.xtrapen &&& 0x5C
  if enabled = 0 then
    .next (complete s 1 (fun c => { c with sr := wordAfter c m, flags := c.flags ||| fl }.setReg d x))
  else
    trapsIn s (s.updCtx s.cur.slot s.cur.ctx (fun c => { c with sr := wordAfter c m, flags := c.flags ||| fl })) .arithmetic false
      (zext enabled)

/-- An encoding of FP32 is a NaN (R43). -/
def isNaN32 (x : Nat) : Bool := decide (0x7F800000 < x % 2 ^ 31)

/-- An encoding of FP32 is a NaN or an infinity. -/
def special32 (x : Nat) : Bool := decide (0x7F800000 ≤ x % 2 ^ 31)

/-- A number that orders the encodings of FP32 that are no NaN as R142 does, −0 below +0. -/
def order32 (x : Nat) : Int := if x < 2 ^ 31 then x else -((x - 2 ^ 31 : Nat) : Int) - 1

/-- The same with −0 and +0 equal (R143). -/
def value32 (x : Nat) : Int := if x < 2 ^ 31 then x else -((x - 2 ^ 31 : Nat) : Int)

/-- What FMIN, or FMAX, gives (R142). -/
def minMax32 (larger : Bool) (x y : Nat) : Nat :=
  if isNaN32 x && isNaN32 y then 0x7FC00000
  else if isNaN32 x then y
  else if isNaN32 y then x
  else if larger then (if order32 x ≤ order32 y then y else x) else (if order32 x ≤ order32 y then x else y)

/-- Whether FCMP's relation holds: 00 eq, 01 lt, 10 le (R143). -/
def relation32 (rel : BitVec 2) (x y : Nat) : Bool :=
  !isNaN32 x && !isNaN32 y &&
    (if rel = 0 then decide (value32 x = value32 y)
     else if rel = 1 then decide (value32 x < value32 y) else decide (value32 x ≤ value32 y))

/-- The low 32 bits of a register. -/
def low32 (c : Context) (r : Reg) : Nat := (c.reg r).toNat % 2 ^ 32

/-- A flag (R56, R83) when a condition holds. -/
def flagWhen (p : Bool) (f : Flags) : Flags := if p then f else 0

/-- What a magnitude of num / den rounds to between the integers next to it, and whether it lies between them (R47, R51): mode 1
gives the lower, 2 and 3 the one below and above the signed value, 4 the nearer or, on a tie, the higher, 5 the higher when the
fraction and the 16-bit number r reach 1, any other the nearer or, on a tie, the even one. -/
def roundTo (neg : Bool) (m : BitVec 3) (r num den : Nat) : Nat × Bool :=
  let lo := num / den
  let rest := num % den
  let higher : Bool :=
    if m = 1 then false
    else if m = 2 then neg
    else if m = 3 then !neg
    else if m = 4 then decide (den ≤ 2 * rest)
    else if m = 5 then decide (65536 * den ≤ 65536 * rest + r * den)
    else decide (den < 2 * rest ∨ (2 * rest = den ∧ lo % 2 = 1))
  if rest = 0 then (lo, false) else (if higher then lo + 1 else lo, true)

/-- The magnitude of a finite FP32 encoding, in units of 2^-149, the smallest denormal (R43). -/
def units32 (x : Nat) : Nat :=
  if x / 2 ^ 23 % 256 = 0 then x % 2 ^ 23 else (2 ^ 23 + x % 2 ^ 23) * 2 ^ (x / 2 ^ 23 % 256 - 1)

/-- FP32 to an integer from lower to upper, of w bits: R53's table, with NF for an input that is no number (R56). -/
def integerOf32 (m : BitVec 3) (r : Nat) (sat : Bool) (w : Nat) (lower upper : Int) (x : Nat) : Int × Flags :=
  let neg := decide (2 ^ 31 ≤ x)
  if isNaN32 x then (0, 0x30)
  else if special32 x then (if sat then (if neg then lower else upper) else 0, 0x30)
  else
    let p := roundTo neg m r (units32 x) (2 ^ 149)
    let n : Int := if neg then -(p.1 : Int) else p.1
    if lower ≤ n ∧ n ≤ upper then (n, flagWhen p.2 0x01)
    else if sat then (if n < lower then lower else upper, 0x10)
    else (n % 2 ^ w, 0x10)

/-- The FP32 encoding of an integer of at most 64 bits, rounded once (R43, R54): below 2^24 it is exact. -/
def fp32OfInteger (m : BitVec 3) (r : Nat) (n : Int) : Nat × Flags :=
  let k := Nat.log2 n.natAbs
  let p := if k ≤ 23 then (n.natAbs * 2 ^ (23 - k), false) else roundTo (decide (n < 0)) m r n.natAbs (2 ^ (k - 23))
  if n = 0 then (0, 0)
  else ((if n < 0 then 2 ^ 31 else 0) + (k + 126) * 2 ^ 23 + p.1, flagWhen p.2 0x01)

/-- What FCVT writes, and the flags it sets, by its direction (R144): a signed 32-bit result is sign-extended, an unsigned one
zero-extended. -/
def fcvtGives (dir : BitVec 4) (m : BitVec 3) (r : Nat) (sat : Bool) (x : Word) : Word × Flags :=
  let low := x.toNat % 2 ^ 32
  if dir = 0 then
    let p := integerOf32 m r sat 32 (-2 ^ 31) (2 ^ 31 - 1) low
    ((BitVec.ofInt 32 p.1).signExtend 64, p.2)
  else if dir = 1 then
    let p := integerOf32 m r sat 32 0 (2 ^ 32 - 1) low
    ((BitVec.ofInt 32 p.1).zeroExtend 64, p.2)
  else if dir = 2 then
    let p := integerOf32 m r sat 64 (-2 ^ 63) (2 ^ 63 - 1) low
    (BitVec.ofInt 64 p.1, p.2)
  else if dir = 3 then
    let p := integerOf32 m r sat 64 0 (2 ^ 64 - 1) low
    (BitVec.ofInt 64 p.1, p.2)
  else
    let p := fp32OfInteger m r
      (if dir = 4 then (BitVec.ofNat 32 low).toInt else if dir = 5 then low else if dir = 6 then x.toInt else x.toNat)
    (BitVec.ofNat 64 p.1, p.2)

end Sys2Proof.Claim

/-- R140, R141: FADD, FSUB, FMUL and FMA complete on every operand unless a flag they set is enabled, and otherwise trap
with gd unwritten; the exact result is rounded once, NF is set by an operand that is a NaN or an infinity, and under SR the
context's word takes exactly one step. -/
def Sys2Proof.Claim.ScalarFloatArithmetic : Prop :=
  ∀ (d a b g : Reg) (rm : BitVec 3) (s : State) (st : Strand), Bare (running s st) →
    let c := running s st
    let m := mode st rm
    let out := fun (e : Exact) (inputs : List FVal) =>
      let p := e.deliver 14 m false (numberOf c m)
      floatOutcome s st d m (BitVec.ofNat 64 p.1) (p.2 ||| flagWhen (inputs.any FVal.nonFinite) 0x20)
    (Stands s st [d, a, b] →
      exec (.fadd d a b rm) s = out (fAdd m (fp32 c a) (fp32 c b)) [fp32 c a, fp32 c b] ∧
      exec (.fsub d a b rm) s = out (fAdd m (fp32 c a) (fp32 c b).negate) [fp32 c a, fp32 c b] ∧
      exec (.fmul d a b rm) s = out (fMul (fp32 c a) (fp32 c b)) [fp32 c a, fp32 c b]) ∧
    (Stands s st [d, a, b, g] →
      exec (.fma d a b g rm) s = out (fFma m (fp32 c a) (fp32 c b) (fp32 c g)) [fp32 c a, fp32 c b, fp32 c g])

/-- R44: with XTRAPEN clear, a NaN operand gives the canonical NaN, whatever its payload and sign, and sets NF; a register's
upper half is written zero (R68). -/
def Sys2Proof.Claim.ScalarFloatNaNIsCanonical : Prop :=
  ∀ (d a b g : Reg) (rm : BitVec 3) (s : State) (st : Strand), Bare (running s st) → Stands s st [d, a, b, g] → st.xtrapen = 0 →
    let c := running s st
    let canonical := fun (i : Instr) => ∃ fl : Flags, fl.getLsbD 5 = true ∧
      exec i s = .next (complete s 1 (fun c => { c with sr := wordAfter c (mode st rm), flags := c.flags ||| fl }.setReg d 0x7FC00000))
    (isNaN32 (low32 c a) = true ∨ isNaN32 (low32 c b) = true →
      canonical (.fadd d a b rm) ∧ canonical (.fsub d a b rm) ∧ canonical (.fmul d a b rm) ∧ canonical (.fma d a b g rm)) ∧
    (isNaN32 (low32 c g) = true → canonical (.fma d a b g rm))

/-- R46: adding +0 to a finite value that is not zero gives that value back in every rounding mode and sets no flag, since an
exact result is not rounded. -/
def Sys2Proof.Claim.ScalarFloatAddZeroIsExact : Prop :=
  ∀ (d a b : Reg) (rm : BitVec 3) (s : State) (st : Strand), Bare (running s st) → Stands s st [d, a, b] →
    let c := running s st
    special32 (low32 c a) = false → low32 c a % 2 ^ 31 ≠ 0 → low32 c b = 0 →
      exec (.fadd d a b rm) s = .next (complete s 1 (fun x =>
        { x with sr := wordAfter x (mode st rm) }.setReg d (BitVec.ofNat 64 (low32 c a))))

/-- R142, R143: FMIN, FMAX and FCMP: which operand is the result, −0 below +0 for the first two and equal to it for FCMP; the
flags of each; no stochastic step. -/
def Sys2Proof.Claim.ScalarFloatMinMaxCompare : Prop :=
  ∀ (d a b : Reg) (rm : BitVec 3) (rel : BitVec 2) (s : State) (st : Strand), Bare (running s st) → Stands s st [d, a, b] →
    let c := running s st
    let x := low32 c a
    let y := low32 c b
    let nf := flagWhen (special32 x || special32 y) 0x20
    exec (.fmin d a b rm) s = floatOutcome s st d 0 (BitVec.ofNat 64 (minMax32 false x y)) nf ∧
    exec (.fmax d a b rm) s = floatOutcome s st d 0 (BitVec.ofNat 64 (minMax32 true x y)) nf ∧
    exec (.fcmp d a b rel) s = floatOutcome s st d 0 (if relation32 rel x y then 1 else 0)
      (nf ||| flagWhen ((isNaN32 x || isNaN32 y) && rel != 0) 0x10)

/-- R53, R54, R144: FCVT in each direction, on every operand: FP32 rounded once under the mode to an integer, which is the result,
with NX when it differs, where it lies in the range of the destination; outside the range the nearer bound under `.sat` and the low
bits otherwise, an infinity a bound or 0, a NaN 0, each with NV and not NX (and NF for an input that is no number); and an integer
rounded once to FP32, exact below 2^24. `roundTo` writes R47's modes and R51's stochastic choice out. -/
def Sys2Proof.Claim.ScalarConversions : Prop :=
  ∀ (d a : Reg) (sat : Bool) (dir : BitVec 4) (rm : BitVec 3) (s : State) (st : Strand), Bare (running s st) → Stands s st [d, a] →
    dir.toNat < 8 →
    let c := running s st
    let m := mode st rm
    let p := fcvtGives dir m (numberOf c m) sat (c.reg a)
    exec (.fcvt d a sat dir rm) s = floatOutcome s st d m p.1 p.2


/-! ## Scalar memory instructions -/

namespace Sys2Proof.Claim
open Sys2Proof.Machine

/-- The MATTR read, if any (R132). -/
def mattr (c : Context) : Option (BitVec 3 × BitVec 3 × BitVec 3) := c.prefixes.bind (·.mattr)

/-- The scope of an access: its own, or that of a MATTR (R132). -/
def scopeOf (c : Context) (own : BitVec 3) : BitVec 3 := ((mattr c).map (fun m => if m.1 = 7 then own else m.1)).getD own
/-- The cache policy of a scalar access (R132). -/
def cacheOf (c : Context) : BitVec 3 := ((mattr c).map (fun m => if m.2.1 = 7 then 0 else m.2.1)).getD 0
/-- The order of an access: bit 0 acquires, bit 1 releases (R132). -/
def orderOf (c : Context) (own : BitVec 3) : BitVec 3 := ((mattr c).map (fun m => if m.2.2 = 7 then own else m.2.2)).getD own

/-- The prefixes read are ones a load takes: order 000, 001 or 111, and a plain load made an acquire has a scope (R132). -/
abbrev LoadTakes (c : Context) (plain : Bool) : Prop :=
  c.prefixes.all (fun p => !p.rejected && p.mattr.all (fun m =>
    (m.2.2 == 0 || m.2.2 == 1 || m.2.2 == 7) && !(plain && m.2.2 == 1 && m.1 == 7))) = true

/-- The prefixes read are ones a store takes: order 000, 010 or 111, and a plain store made a release has a scope (R132). -/
abbrev StoreTakes (c : Context) (plain : Bool) : Prop :=
  c.prefixes.all (fun p => !p.rejected && p.mattr.all (fun m =>
    (m.2.2 == 0 || m.2.2 == 2 || m.2.2 == 7) && !(plain && m.2.2 == 2 && m.1 == 7))) = true

/-- The prefixes read are ones an atomic takes: a MATTR with any order, and no IMX (R131, R132). -/
abbrev AtomicTakes (c : Context) : Prop :=
  c.prefixes.all (fun p => !p.rejected && p.imx.isNone && p.mattr.all (fun m => m.2.2 == 7 || decide (m.2.2.toNat < 4))) = true

/-- A load: its instruction, its size in bytes, its offset, what it does by itself, and how it extends what it reads. -/
structure Load where
  instr : Reg → Reg → Instr
  plain : Bool
  bytes : Nat
  offset : Context → Word
  scope : BitVec 3
  order : BitVec 3
  extend : Nat → Word

/-- A plain load of R149. -/
def Load.ofPlain (f : Reg → Reg → BitVec 13 → Instr) (off : BitVec 13) (n : Nat) (signed : Bool) : Load where
  instr := fun d a => f d a off
  plain := true
  bytes := n
  offset := fun c => immediate c off
  scope := 0
  order := 0
  extend := fun x => if signed then (BitVec.ofNat (8 * n) x).signExtend 64 else BitVec.ofNat 64 x

/-- The loads (R149, R150). -/
def loadsOf (off : BitVec 13) (off10 : BitVec 10) (scope : BitVec 3) : List Load :=
  [ .ofPlain .ldb off 1 true, .ofPlain .ldh off 2 true, .ofPlain .ldw off 4 true, .ofPlain .ldd off 8 false,
    .ofPlain .ldbu off 1 false, .ofPlain .ldhu off 2 false, .ofPlain .ldwu off 4 false,
    { instr := fun d a => .lda d a scope off10, plain := false, bytes := 8, offset := fun c => immediate c off10,
      scope := scope, order := 1, extend := fun x => BitVec.ofNat 64 x } ]

/-- A store: its instruction, its size, its offset and what it does by itself. -/
structure Store where
  instr : Reg → Reg → Instr
  plain : Bool
  bytes : Nat
  offset : Context → Word
  scope : BitVec 3
  order : BitVec 3

/-- A plain store of R149. -/
def Store.ofPlain (f : Reg → Reg → BitVec 13 → Instr) (off : BitVec 13) (n : Nat) : Store where
  instr := fun d a => f d a off
  plain := true
  bytes := n
  offset := fun c => immediate c off
  scope := 0
  order := 0

/-- The stores (R149, R150). -/
def storesOf (off : BitVec 13) (off10 : BitVec 10) (scope : BitVec 3) : List Store :=
  [ .ofPlain .stb off 1, .ofPlain .sth off 2, .ofPlain .stw off 4, .ofPlain .std off 8,
    { instr := fun d a => .stl d a scope off10, plain := false, bytes := 8, offset := fun c => immediate c off10,
      scope := scope, order := 2 } ]

/-- On whose behalf the turn's context accesses memory: an access that has waited keeps the address space it issued with (R305, R324). -/
def agent (s : State) (st : Strand) : Agent := st.agent s.cur.slot s.cur.ctx

/-- The kind of a plain access for a splice (R277): an access context's is an access of its own kind. -/
def kindOf (s : State) (k : AccessKind) : AccessKind := if s.cur.ctx = .execute then k else .other

/-- A load of n bytes at va is an ordinary access of memory that is performed at place p: not redirected by a splice (R277), no
read of an elided range (R281), its translation at hand (R328), the place readable (R361, R366). -/
abbrev Reads (s : State) (st : Strand) (va n : Nat) (p : Place) : Prop :=
  s.readsElided st va n = false ∧ s.route st st.strip (kindOf s .load) va n = .memory ∧
    s.resolve (agent s st) va .load = .ok p ∧ s.poisoned p = false ∧ s.unreachable p = false

/-- The same for a store. -/
abbrev Writes (s : State) (st : Strand) (va n : Nat) (p : Place) : Prop :=
  s.route st st.strip (kindOf s .store) va n = .memory ∧ s.resolve (agent s st) va .store = .ok p ∧ s.unreachable p = false

/-- A byte of a memory that programs reach: device memory, a weight store, host memory or another module's. -/
def byteAt (s : State) : Place → Byte
  | .dev a => s.dev.read a
  | .ws die off => if h : die < 2 then (s.ws[die]).read off else 0
  | .host a => s.host.read a
  | .remote m a => (s.remote m).mem.read a
  | .scratch k off => (s.cluster k).scratchByte off

/-- The place n bytes above a place. -/
def above : Place → Nat → Place
  | .dev a, n => .dev (a + n)
  | .ws die off, n => .ws die (off + n)
  | .host a, n => .host (a + n)
  | .remote m a, n => .remote m (a + n)
  | .scratch k off, n => .scratch k (off + n)

/-- A read-modify-write of R152 with a register source, and whether a host has a PCIe AtomicOp for it (R154). -/
def atomicOps : List ((Reg → Reg → BitVec 3 → BitVec 2 → Reg → Instr) × Bool × (Word → Word → Word)) :=
  [ (.amoswap, true, fun _ x => x), (.amoadd, true, fun m x => m + x), (.amoand, false, fun m x => m &&& x),
    (.amoor, false, fun m x => m ||| x), (.amoxor, false, fun m x => m ^^^ x),
    (.amomin, false, fun m x => if x.slt m then x else m), (.amomax, false, fun m x => if m.slt x then x else m) ]

/-- The place is host memory. -/
def isHost : Place → Bool
  | .host _ => true
  | _ => false

/-- The doubleword at a place, at its home. -/
def doubleAt (s : State) (p : Place) : Word := BitVec.ofNat 64 (leNat ((List.range 8).map (fun i => byteAt s (above p i))))

end Sys2Proof.Claim

/-- R148, R149, R150: a load of an aligned address whose translation is at hand completes, writes gd with what it read, extended as
its entry says, and an LDA, or a load that a MATTR makes an acquire, at quad scope or wider, drops the cluster's L1 lines (R110).
The bytes are those that reading the place for the cluster gives: a copy that its L1 holds may serve a read that is no acquire
(R88); where the copy differs from the home, which of them is read is a free value (log 9). The translation it used is held by the
cluster's TLBs afterwards (R328). -/
def Sys2Proof.Claim.LoadsComplete : Prop :=
  ∀ (off : BitVec 13) (off10 : BitVec 10) (scope : BitVec 3), ∀ x ∈ loadsOf off off10 scope,
  ∀ (d a : Reg) (s : State) (st : Strand) (p : Place), Stands s st [d, a] → LoadTakes (running s st) x.plain →
    let c := running s st
    let va := (c.reg a + x.offset c).toNat
    let acquires := (orderOf c x.order).getLsbD 0
    va % x.bytes = 0 → st.novHeld s.cur.ctx = false → Reads s st va x.bytes p →
      let got := (s.cacheTranslation (agent s st) va).readPlace (clusterOf s.cur.slot) p x.bytes (fun _ => !acquires) (cacheOf c != 1)
      let t := if acquires && decide (2 ≤ (scopeOf c x.scope).toNat) then got.2.dropL1 (clusterOf s.cur.slot) else got.2
      exec (x.instr d a) s = .next (complete t 1 (fun c => c.setReg d (x.extend (leNat got.1))))

/-- R2, R148, R149: a plain load from device memory of which the cluster's L1 holds no copy, or from the scratchpad, gives the bytes at the place,
the first least significant, and changes no byte of any memory. -/
def Sys2Proof.Claim.LoadGivesLittleEndianBytes : Prop :=
  ∀ (off : BitVec 13) (off10 : BitVec 10) (scope : BitVec 3), ∀ x ∈ loadsOf off off10 scope, x.plain = true →
  ∀ (d a : Reg) (s : State) (st : Strand) (p : Place), Stands s st [d, a] → AtMostImx (running s st) →
    let c := running s st
    let va := (c.reg a + x.offset c).toNat
    va % x.bytes = 0 → st.novHeld s.cur.ctx = false → Reads s st va x.bytes p →
    (match p with
      | .dev pa => ∀ l ∈ (s.cluster (clusterOf s.cur.slot)).l1, l.copy pa x.bytes = none
      | .scratch _ _ => True
      | _ => False) →
      ∃ t st', exec (x.instr d a) s = .next t ∧ t.strand? s.cur.slot = some st' ∧
        (d ≠ 0 → (running s st').reg d = x.extend (leNat ((List.range x.bytes).map (fun i => byteAt s (above p i))))) ∧
        (∀ r, r ≠ d → (running s st').reg r = c.reg r) ∧ ∀ q, byteAt t q = byteAt s q

/-- R148: a misaligned load or store raises 0x04 precisely with the address in TVAL, and the access is not performed. -/
def Sys2Proof.Claim.MisalignedAccessTraps : Prop :=
  ∀ (off : BitVec 13) (off10 : BitVec 10) (scope : BitVec 3) (d a : Reg) (s : State) (st : Strand), Stands s st [d, a] →
    let c := running s st
    let trapped := fun (va : Word) => trapsIn s s .misaligned false va
    (∀ x ∈ loadsOf off off10 scope, LoadTakes c x.plain → (c.reg a + x.offset c).toNat % x.bytes ≠ 0 →
      exec (x.instr d a) s = trapped (c.reg a + x.offset c)) ∧
    (∀ x ∈ storesOf off off10 scope, StoreTakes c x.plain → (c.reg a + x.offset c).toNat % x.bytes ≠ 0 →
      exec (x.instr d a) s = trapped (c.reg a + x.offset c))

/-- R148, R149, R150: a store of an aligned address whose translation is at hand completes: the low bytes of gd stand at the
place its address translates to, the first least significant (R2), every other byte of every memory is unchanged, and so is
every register; it goes to the home at once (R88). Device and host memory are taken in their canonical form, which every step
keeps. -/
def Obligations.StoresComplete : Prop :=
  ∀ (off : BitVec 13) (off10 : BitVec 10) (scope : BitVec 3), ∀ x ∈ storesOf off off10 scope,
  ∀ (d a : Reg) (s : State) (st : Strand) (p : Place), Stands s st [d, a] → StoreTakes (running s st) x.plain → s.memWf = true →
    let c := running s st
    let va := (c.reg a + x.offset c).toNat
    va % x.bytes = 0 → st.novHeld s.cur.ctx = false →
    ((orderOf c x.order).getLsbD 1 = true → s.releaseHeld s.cur.slot s.cur.ctx st (scopeOf c x.scope) = false) → Writes s st va x.bytes p →
      ∃ t st', exec (x.instr d a) s = .next t ∧ t.strand? s.cur.slot = some st' ∧
        (∀ i < x.bytes, byteAt t (above p i) = ((c.reg d).extractLsb' (8 * i) 8)) ∧
        (∀ q, (∀ i < x.bytes, q ≠ above p i) → byteAt t q = byteAt s q) ∧
        (∀ r, (running s st').reg r = c.reg r) ∧ (running s st').flags = c.flags ∧ (running s st').pc = c.pc + 4

/-- R151, R152, R154: an atomic on an aligned doubleword reads it, writes what its entry computes, and gives the old value in gd, in one
step; no other byte of memory changes, but where host memory is read under a recorder (R368). On host memory AMOSWAP and AMOADD do so
where the host accepts AtomicOps, and raise 0x07 where it does not (log 20). -/
def Sys2Proof.Claim.AtomicsComplete : Prop :=
  ∀ op ∈ atomicOps, ∀ (d a src : Reg) (scope : BitVec 3) (order : BitVec 2) (s : State) (st : Strand) (p : Place),
    Stands s st [d, a, src] → AtomicTakes (running s st) → s.memWf = true →
    let c := running s st
    let ord := orderOf c (order.setWidth 3)
    let va := (c.reg a).toNat
    va % 8 = 0 → st.novHeld s.cur.ctx = false → (ord.getLsbD 1 = true → s.releaseHeld s.cur.slot s.cur.ctx st (scopeOf c scope) = false) →
    s.route st st.strip .other va 8 = .memory → s.resolve (agent s st) va .atomic = .ok p → (isHost p = true → op.2.1 = true) →
    s.poisoned p = false → s.unreachable p = false →
      if isHost p && !Config.hostAccepts s.draws then
        exec (op.1 d a scope order src) s = trapsIn s s.drawn .protection false (c.reg a)
      else ∃ t st', exec (op.1 d a scope order src) s = .next t ∧ t.strand? s.cur.slot = some st' ∧
        (d ≠ 0 → (running s st').reg d = doubleAt s p) ∧ (∀ r, r ≠ d → (running s st').reg r = c.reg r) ∧
        doubleAt t p = op.2.2 (doubleAt s p) (c.reg src) ∧
        ((isHost p = true → s.recorders = []) → ∀ q, (∀ i < 8, q ≠ above p i) → byteAt t q = byteAt s q)

/-- R153, R154: AMOCAS writes g[gd+1] when the doubleword equals g[gd], and nothing otherwise; gd receives the old value. On host memory it
does so where the host accepts AtomicOps (log 20). -/
def Sys2Proof.Claim.CompareAndSwap : Prop :=
  ∀ (d a : Reg) (scope : BitVec 3) (order : BitVec 2) (s : State) (st : Strand) (p : Place),
    Stands s st [d, d + 1, a] → AtomicTakes (running s st) → s.memWf = true →
    let c := running s st
    let ord := orderOf c (order.setWidth 3)
    let va := (c.reg a).toNat
    va % 8 = 0 → st.novHeld s.cur.ctx = false → (ord.getLsbD 1 = true → s.releaseHeld s.cur.slot s.cur.ctx st (scopeOf c scope) = false) →
    s.route st st.strip .other va 8 = .memory → s.resolve (agent s st) va .atomic = .ok p →
    s.poisoned p = false → s.unreachable p = false →
      if isHost p && !Config.hostAccepts s.draws then
        exec (.amocas d a scope order) s = trapsIn s s.drawn .protection false (c.reg a)
      else ∃ t st', exec (.amocas d a scope order) s = .next t ∧ t.strand? s.cur.slot = some st' ∧
        (d ≠ 0 → (running s st').reg d = doubleAt s p) ∧ (∀ r, r ≠ d → (running s st').reg r = c.reg r) ∧
        (doubleAt s p ≠ c.reg d → (isHost p = true → s.recorders = []) → ∀ q, byteAt t q = byteAt s q) ∧
        (doubleAt s p = c.reg d →
          doubleAt t p = c.reg (d + 1) ∧
          ((isHost p = true → s.recorders = []) → ∀ q, (∀ i < 8, q ≠ above p i) → byteAt t q = byteAt s q))

/-- R154: on host memory AMOAND, AMOOR, AMOXOR, AMOMIN and AMOMAX raise 0x07 precisely and access nothing. -/
def Sys2Proof.Claim.HostRefusesSomeAtomics : Prop :=
  ∀ op ∈ atomicOps, op.2.1 = false → ∀ (d a src : Reg) (scope : BitVec 3) (order : BitVec 2) (s : State) (st : Strand) (p : Place),
    Stands s st [d, a, src] → AtomicTakes (running s st) →
    let c := running s st
    let va := (c.reg a).toNat
    va % 8 = 0 → st.novHeld s.cur.ctx = false →
    ((orderOf c (order.setWidth 3)).getLsbD 1 = true → s.releaseHeld s.cur.slot s.cur.ctx st (scopeOf c scope) = false) →
    s.route st st.strip .other va 8 = .memory → s.resolve (agent s st) va .atomic = .ok p → isHost p = true →
      exec (op.1 d a scope order src) s = trapsIn s s .protection false (c.reg a)

/-- R111, R361: a FENCE with nothing earlier to wait for, or that orders nothing, only passes; one that names engine commands waits
while the context has one in flight. -/
def Sys2Proof.Claim.FenceOrders : Prop :=
  ∀ (scope : BitVec 3) (kinds : BitVec 6) (s : State) (st : Strand), Stands s st [] → Bare (running s st) →
    ((kinds.getLsbD 0 = false ∧ kinds.getLsbD 1 = false ∨ kinds.getLsbD 2 = false ∧ kinds.getLsbD 3 = false ∨
      (kinds.getLsbD 5 = true → s.cur.ctx = .execute → s.fenceWork s.cur.slot st kinds = false) ∧
        (kinds.getLsbD 1 = true → 4 ≤ scope.toNat → s.acksOwed = false) ∧
        (kinds.getLsbD 4 = true → ∀ e ∈ s.engines, e.owner ≠ (st.launch, st.ordinal, s.cur.ctx))) →
      exec (.fence scope kinds) s = .next (complete s 1 (fun c => c))) ∧
    ((kinds.getLsbD 0 = true ∨ kinds.getLsbD 1 = true) → (kinds.getLsbD 2 = true ∨ kinds.getLsbD 3 = true) →
      kinds.getLsbD 5 = false → (kinds.getLsbD 1 = true → 4 ≤ scope.toNat → s.acksOwed = false) → kinds.getLsbD 4 = true → (∃ e ∈ s.engines, e.owner = (st.launch, st.ordinal, s.cur.ctx)) →
      exec (.fence scope kinds) s = .next (s.updCtx s.cur.slot s.cur.ctx
        (fun c => c.await .engines s.now (some (.fence scope kinds)))))


/-! ## Branches, queues and prefixes -/

namespace Sys2Proof.Claim
open Sys2Proof.Machine

/-- The conditional branches and their conditions (R155). -/
def branchOps : List ((Reg → Reg → BitVec 13 → Instr) × (Word → Word → Bool)) :=
  [ (.beq, fun x y => x == y), (.bne, fun x y => x != y), (.blt, fun x y => x.slt y), (.bge, fun x y => !x.slt y),
    (.bltu, fun x y => x.ult y), (.bgeu, fun x y => !x.ult y) ]

/-- The target of a branch or jump: the address of its own word, behind any prefix, plus four times its offset (R120). -/
def target (c : Context) {n : Nat} (off : BitVec n) : Word := c.pc + 4 * immediate c off

/-- A precise trap of the turn's context that is no vector instruction's (R309). -/
def traps (s : State) (cause : Cause) (tval : Word) : Out := trapsIn s s cause false tval

/-- The values in a queue, oldest first (R14). -/
def inQueue (st : Strand) (q : BitVec 2) : List Word := st.queues.toList.getD q.toNat []

/-- The context is the one that pops a queue: execute pops q0 and q1, access q2 and q3 (R13, R14). -/
def pops (id : CtxId) (q : BitVec 2) : Prop := (id = .execute ∧ q.toNat < 2) ∨ (id = .access ∧ 2 ≤ q.toNat)

/-- The strand's other context. -/
def other (s : State) (st : Strand) : Context :=
  match s.cur.ctx with
  | .execute => st.access
  | .access => st.exec

/-- After a turn: the strand, its context moved past one word or elsewhere with no prefix left and one instruction more issued,
registers but one as they were, flags as they were. -/
def Moved (s : State) (st : Strand) (t : State) (pc : Word) (d : Reg) (x : Word) (st' : Strand) : Prop :=
  t.strand? s.cur.slot = some st' ∧
    let c := running s st
    let c' := running s st'
    c'.pc = pc ∧ c'.issues = c.issues + 1 ∧ c'.prefixes = none ∧ c'.wait = none ∧ c'.flags = c.flags ∧
      (∀ r, c'.reg r = if r = d ∧ r ≠ 0 then x else c.reg r)

/-- No memory and nothing outside one strand differs: the machine's memories, clusters, translations, engines and launches. -/
def SameOutside (s t : State) : Prop :=
  t.dev = s.dev ∧ t.ws = s.ws ∧ t.host = s.host ∧ t.remotes = s.remotes ∧ t.clusters = s.clusters ∧ t.tlb = s.tlb ∧
    t.engines = s.engines ∧ t.shadows = s.shadows ∧ t.launches = s.launches ∧ t.queues = s.queues ∧
    ∀ k, k ≠ s.cur.slot → t.strand? k = s.strand? k

end Sys2Proof.Claim

/-- R120, R155: a conditional branch goes to its target when its condition holds and to the next instruction otherwise; it writes no
register, and an IMX widens its offset. -/
def Sys2Proof.Claim.ConditionalBranches : Prop :=
  ∀ op ∈ branchOps, ∀ (a b : Reg) (off : BitVec 13) (s : State) (st : Strand), Stands s st [a, b] → AtMostImx (running s st) →
    let c := running s st
    exec (op.1 a b off) s =
      .next (if op.2 (c.reg a) (c.reg b) then completeAt s (target c off) (fun c => c) else complete s 1 (fun c => c))

/-- R120, R156: J and JAL go to their target; JALR goes to a byte address that is a multiple of 4, and raises 0x04 at any other
without writing gd; the link value is the address of the next word. -/
def Sys2Proof.Claim.Jumps : Prop :=
  ∀ (d a : Reg) (s : State) (st : Strand), AtMostImx (running s st) →
    let c := running s st
    (∀ off : BitVec 23, Stands s st [] → exec (.j off) s = .next (completeAt s (target c off) (fun c => c))) ∧
    (∀ off : BitVec 18, Stands s st [d] →
      exec (.jal d off) s = .next (completeAt s (target c off) (fun c => c.setReg d (c.pc + 4)))) ∧
    (∀ off : BitVec 13, Stands s st [d, a] →
      let t := c.reg a + immediate c off
      (t.toNat % 4 = 0 → exec (.jalr d a off) s = .next (completeAt s t (fun c => c.setReg d (c.pc + 4)))) ∧
      (t.toNat % 4 ≠ 0 → exec (.jalr d a off) s = traps s .misaligned t))

/-- R14, R157: QPUSH appends to a queue that is not full, QPOP and BQ each remove exactly one value, the oldest; BQ branches when it is
not zero. Nothing outside the strand changes. -/
def Sys2Proof.Claim.QueuesAreFirstInFirstOut : Prop :=
  ∀ (r : Reg) (q : BitVec 2) (off : BitVec 13) (s : State) (st : Strand),
    let c := running s st
    (Stands s st [r] → Bare c → ¬ pops s.cur.ctx q → (inQueue st q).length < 32 → s.releaseHeld s.cur.slot s.cur.ctx st 0 = false →
      ∃ t st', exec (.qpush r q) s = .next t ∧ Moved s st t (c.pc + 4) 0 0 st' ∧ SameOutside s t ∧
        ∀ k, inQueue st' k = if k = q then inQueue st k ++ [c.reg r] else inQueue st k) ∧
    (Stands s st [r] → Bare c → pops s.cur.ctx q → ∀ x rest, inQueue st q = x :: rest →
      ∃ t st', exec (.qpop r q) s = .next t ∧ Moved s st t (c.pc + 4) r x st' ∧ SameOutside s t ∧
        ∀ k, inQueue st' k = if k = q then rest else inQueue st k) ∧
    (Stands s st [] → AtMostImx c → pops s.cur.ctx q → ∀ x rest, inQueue st q = x :: rest →
      ∃ t st', exec (.bq q off) s = .next t ∧ Moved s st t (if x = 0 then c.pc + 4 else target c off) 0 0 st' ∧ SameOutside s t ∧
        ∀ k, inQueue st' k = if k = q then rest else inQueue st k)

/-- R13, R14, R79: a queue used from the wrong side, a QPUSH into a full queue or a QPOP or BQ of an empty one whose other end has completed
KEND, raise 0x12 with the queue in TVAL (R310). -/
def Sys2Proof.Claim.QueueMisuseTraps : Prop :=
  ∀ (r : Reg) (q : BitVec 2) (off : BitVec 13) (s : State) (st : Strand), Stands s st [r] → Bare (running s st) →
    let fault := traps s .streamProtocol (q.setWidth 64)
    (pops s.cur.ctx q → exec (.qpush r q) s = fault) ∧
    (¬ pops s.cur.ctx q → exec (.qpop r q) s = fault ∧ exec (.bq q off) s = fault) ∧
    (¬ pops s.cur.ctx q → 32 ≤ (inQueue st q).length → (other s st).retired = true → exec (.qpush r q) s = fault) ∧
    (pops s.cur.ctx q → inQueue st q = [] → (other s st).retired = true →
      exec (.qpop r q) s = fault ∧ exec (.bq q off) s = fault)

/-- R9, R158: BSEND branches when the slot's pattern has ended and every chunk has been claimed; a slot that is not bound does not
branch, and no stream changes. That the stream is the one that the commits so far leave in the slot, a VUNBIND that is still queued counted, is
the model's reading (log 49). -/
def Sys2Proof.Claim.StreamEndBranch : Prop :=
  ∀ (k : BitVec 3) (off : BitVec 13) (s : State) (st : Strand), Stands s st [] → AtMostImx (running s st) →
    exec (.bsend k off) s =
      .next (if ((st.committedStream k.toNat).map Stream.finished).getD false then
          completeAt s (target (running s st) off) (fun c => c)
        else complete s 1 (fun c => c))

/-- R130, R132: a first IMX and a first MATTR are kept for the instruction that follows; the PC moves past the prefix, and the
sequence's address stays that of its first word. A second one of its kind raises 0x02 at that address. -/
def Sys2Proof.Claim.PrefixesAreKept : Prop :=
  ∀ (payload : BitVec 27) (scope cache order : BitVec 3) (s : State) (st : Strand), Stands s st [] →
    let c := running s st
    let first := (c.prefixes.map (·.first)).getD c.pc
    let had := fun (f : Prefixes → Bool) => (c.prefixes.map f).getD false
    let kept := fun (i : Instr) (g : Prefixes → Prop) => ∃ t st' p, exec i s = .next t ∧ SameOutside s t ∧
      t.strand? s.cur.slot = some st' ∧ (running s st').prefixes = some p ∧ p.first = first ∧ g p ∧
      (running s st').pc = c.pc + 4 ∧ (running s st').issues = c.issues ∧ ∀ r, (running s st').reg r = c.reg r
    let word := fun (i : Instr) => (c.prefixes.map (fun p => zext p.word)).getD (word0 i)
    (had (·.imx.isSome) = false →
      kept (.imx payload) (fun p => p.imx = some payload ∧ p.mattr = mattr c)) ∧
    (had (·.imx.isSome) = true → exec (.imx payload) s = traps s .illegalPrefix (word (.imx payload))) ∧
    (had (fun p => p.mattr.isSome || p.rejected) = false →
      kept (.mattr scope cache order) (fun p => p.mattr = some (scope, cache, order) ∧ p.imx = c.prefixes.bind (·.imx))) ∧
    (had (fun p => p.mattr.isSome || p.rejected) = true →
      exec (.mattr scope cache order) s = traps s .illegalPrefix (word (.mattr scope cache order)))

/-- R119, R131: an SR instruction, which takes no prefix, raises 0x02 behind any, at the address of the first prefix. -/
def Sys2Proof.Claim.RefusedPrefixTraps : Prop :=
  ∀ op ∈ intOps ++ divOps, ∀ (d a b : Reg) (s : State) (st : Strand) (p : Prefixes), s.strand? s.cur.slot = some st →
    (running s st).prefixes = some p → p.imx.isSome = true ∨ p.mattr.isSome = true ∨ p.rejected = true →
    exec (op.1 d a b) s = traps s .illegalPrefix (zext p.word)

/-! ## Traps -/

namespace Sys2Proof.Claim
open Sys2Proof.Machine

/-- What taking a trap leaves in the context that takes it (R309). -/
def Entered (c c' : Context) (cause : BitVec 8) (vector : Bool) (tval tpc : Word) : Prop :=
  c'.pc = c.tvec ∧ c'.tpc = tpc ∧ c'.cause = cause ∧ c'.causeVector = vector ∧ c'.tval = tval ∧ c'.priv = true ∧ c'.ppriv = c.priv ∧
    c'.ie = false ∧ c'.intrap = true ∧ c'.vimprecise = false ∧ c'.ven = c.ven ∧ c'.issues = c.issues ∧ c'.tvec = c.tvec ∧
    c'.tscratch = c.tscratch ∧ c'.flags = c.flags ∧ c'.prefixes = none ∧ c'.wait = none

/-- imm32, widened by an IMX or zero-extended (R131, R267). -/
def imm32 (c : Context) (x : BitVec 32) : Word :=
  match c.prefixes.bind (·.imx) with
  | some p => (p ++ x).signExtend 64
  | none => x.setWidth 64

end Sys2Proof.Claim

/-- R267, R309, R310: SYSCALL and BREAK, in a context that is in no trap, take the trap of cause 0x0E or 0x0D: TPC holds the address of the
sequence, TVAL the immediate, TSTATUS and TCAUSE what R309 says, and the PC stands at TVEC. No other context and no memory changes. While the
matrix array is busy for the strand, the trap of its execute context waits (R312). -/
def Sys2Proof.Claim.SystemCallAndBreakpointTrap : Prop :=
  ∀ (f : YsF) (s : State) (st : Strand), Stands s st [] → AtMostImx (running s st) → (running s st).intrap = false →
    let c := running s st
    let entry := fun (i : Instr) (cause : BitVec 8) => ∃ t st', exec i s = .next t ∧ t.strand? s.cur.slot = some st' ∧
      Entered c (running s st') cause false (imm32 c f.imm) ((c.prefixes.map (·.first)).getD c.pc) ∧
      other s st' = other s st ∧ t.dev = s.dev ∧ t.ws = s.ws ∧ t.host = s.host ∧ t.remotes = s.remotes ∧
      ∀ k, k ≠ s.cur.slot → t.strand? k = s.strand? k
    ((s.cur.ctx = .execute → s.arrayBusy s.cur.slot = false) → entry (.syscall f) 0x0E ∧ entry (.brk f) 0x0D) ∧
    (s.cur.ctx = .execute → s.arrayBusy s.cur.slot = true → exec (.syscall f) s = .next s ∧ exec (.brk f) s = .next s)

/-- R309: any precise trap of a context that is in none, whatever its cause: what it leaves in the context that takes it. -/
def Sys2Proof.Claim.PreciseTrapEntry : Prop :=
  ∀ (s : State) (st : Strand) (cause : Cause) (vector : Bool) (tval : Word), s.strand? s.cur.slot = some st →
    (running s st).intrap = false → ∃ st', (s.preciseTrap s.cur.slot s.cur.ctx cause vector tval).strand? s.cur.slot = some st' ∧
      Entered (running s st) (running s st') cause.code vector tval
        (((running s st).prefixes.map (·.first)).getD (running s st).pc) ∧
      other s st' = other s st ∧ (s.cur.ctx = .access → ∀ r, (running s st').reg r = (running s st).reg r)

/-- R309, R312: a trap of the execute context freezes its unfinished vector work: the VQ is empty, and the frame holds the VQ
instructions and the matrix-queue entries that were not complete, in their order, with the registers that were pending. -/
def Obligations.TrapFreezesVectorWork : Prop :=
  ∀ (s : State) (st : Strand) (cause : Cause) (tval : Word), s.strand? s.cur.slot = some st → s.cur.ctx = .execute →
    st.exec.intrap = false → st.frame = none → s.repartitioning s.cur.slot = false →
    (∃ e ∈ st.vq, e.progress ≠ .done) →
      ∃ st' fr, (s.preciseTrap s.cur.slot .execute cause false tval).strand? s.cur.slot = some st' ∧ st'.vq = [] ∧ st'.pending = [] ∧
        st'.frame = some fr ∧
        fr.queued.map (·.instr) = (st.vq.filter (fun e => e.progress != .done)).map (·.instr) ∧
        fr.matrix.map (·.instr) = ((((s.cluster (clusterOf s.cur.slot)).matrixOf s.cur.slot).filter
          (fun e => e.progress != .done)).map (·.instr)) ∧
        (∀ r, r ∈ fr.pending ↔ r ∈ st.pending ∧ ∀ x ∈ st.reads, x.reg ≠ r) ∧
        st'.v = st.v ∧ st'.tags = st.tags ∧ st'.tiles = st.tiles

/-- R39, R309: a trap while INTRAP is set ends the strand with STATUS 0x01 and the cause, and no handler runs; SYSCALL is the example. A strand
whose cluster holds another strand of its launch that has not retired keeps its slot. That vector work which has started is completed first is the
model's choice (log 119): R255 says it of a cancelled sibling, and R309 does not. -/
def Sys2Proof.Claim.DoubleTrapEndsTheStrand : Prop :=
  ∀ (f : YsF) (s : State) (st : Strand) (k : Nat) (mate : Strand), Stands s st [] → Bare (running s st) →
    (running s st).intrap = true → st.life ≠ .retired → st.ending = none → st.sibling = none → st.group = none →
    k ≠ s.cur.slot → s.strand? k = some mate → clusterOf k = clusterOf s.cur.slot → mate.launch = st.launch → mate.life ≠ .retired →
      (s.startedWork s.cur.slot st = false →
        ∃ t st', exec (.syscall f) s = .next t ∧ t.strand? s.cur.slot = some st' ∧ st'.life = .retired ∧ st'.status = 1 ∧
          st'.endCause = 0x0E ∧ st'.exec.retired = true ∧ st'.access.retired = true) ∧
      (s.startedWork s.cur.slot st = true → (s.cur.ctx = .execute → s.arrayBusy s.cur.slot = false) →
        ∃ t st', exec (.syscall f) s = .next t ∧ t.strand? s.cur.slot = some st' ∧ st'.life = st.life ∧
          (∃ fr, st'.ending = some (1, 0x0E, fr)) ∧ st'.vq = st.vq.filter (fun e => e.progress == .waiting))

/-- R318: TRAPRET in a context with PRIV = 1: PRIV takes PPRIV, IE is set, INTRAP and VIMPRECISE are cleared, and the PC goes to TPC; TPC, TVAL,
TCAUSE and the registers stay. In the execute context a held frame's instructions are in the VQ again, in their order; where no matrix work
stands before them, the oldest, if it had started, resumes at VSTART as it now stands (R74). With PRIV = 0 it raises 0x03. -/
def Obligations.TrapReturnRestores : Prop :=
  ∀ (f : YsF) (s : State) (st : Strand), Stands s st [] → Bare (running s st) →
    let c := running s st
    (c.priv = true → ∃ t st', exec (.trapret f) s = .next t ∧ t.strand? s.cur.slot = some st' ∧
      (let c' := running s st'
       c'.priv = c.ppriv ∧ c'.ie = true ∧ c'.intrap = false ∧ c'.vimprecise = false ∧ c'.pc = c.tpc ∧ c'.tpc = c.tpc ∧
        c'.tval = c.tval ∧ c'.cause = c.cause ∧ c'.issues = c.issues + 1 ∧ ∀ r, c'.reg r = c.reg r) ∧
      (s.cur.ctx = .access → st'.frame = st.frame ∧ st'.vq = st.vq) ∧
      (s.cur.ctx = .execute → st'.frame = none ∧ (st.frame = none → st'.vq = st.vq) ∧
        ∀ fr, st.frame = some fr → ∃ back, st'.vq = st.vq ++ back ∧
          back.map (fun e => { e with element := none }) = fr.queued.map (fun e => { e with element := none }) ∧
          (fr.matrix ≠ [] → back = fr.queued) ∧
          (∀ x rest, fr.matrix = [] → fr.queued = x :: rest →
            back = { x with element := x.element.map (fun _ => st.vstart.toNat) } :: rest)) ∧
      t.dev = s.dev ∧ t.ws = s.ws ∧ t.host = s.host ∧ ∀ k, k ≠ s.cur.slot → t.strand? k = s.strand? k) ∧
    (c.priv = false → exec (.trapret f) s = traps s .privileged (word0 (.trapret f)))

/-- R6, R118, R119: a word that no row of the opcode map assigns raises 0x01 with the word in TVAL; a word of class PF raises 0x02 where its
kind is 10 or 11; a MATTR whose payload R132 rejects spoils its sequence, which is answered at the instruction that follows. -/
def Obligations.UnassignedWordsTrap : Prop :=
  ∀ (w : BitVec 32) (s : State) (st : Strand), Stands s st [] → Bare (running s st) →
    let cls := w.extractLsb' 29 3
    let kind := w.extractLsb' 27 2
    (cls ≠ 7 → exec (.unassignedEncoding w) s = trapsIn s s .illegalInstruction (cls == 4 || cls == 5) (w.setWidth 64)) ∧
    (cls = 7 → kind = 2 ∨ kind = 3 → exec (.unassignedEncoding w) s = traps s .illegalPrefix (w.setWidth 64)) ∧
    (cls = 7 → kind = 1 → ∃ t st' p, exec (.unassignedEncoding w) s = .next t ∧ t.strand? s.cur.slot = some st' ∧
      (running s st').prefixes = some p ∧ p.rejected = true ∧ p.first = (running s st).pc ∧ (running s st').pc = (running s st).pc + 4)


/-! ## Control registers and system instructions -/

namespace Sys2Proof.Claim
open Sys2Proof.Machine

/-- A flag at a bit of a word. -/
def atBit (p : Bool) (n : Nat) : Word := if p then BitVec.ofNat 64 (2 ^ n) else 0

/-- The OR of all lane sets and the context's own set, in the execute context; the own set alone in the access context (R83). -/
def shownFlags (s : State) (st : Strand) : Flags :=
  match s.cur.ctx with
  | .execute => st.laneFlags.toList.foldl (fun x y => x ||| y) st.exec.flags
  | .access => st.access.flags

/-- What a CRRD of a register returns, for the registers that are fields (R81, R82, R48, R52, R84, R76, R90, R30, R305 to R308, R315, R324,
R334); those of a context are its own, and those that only the execute context has read zero in the access context. -/
def registerValue (s : State) (st : Strand) (n : Nat) : Option Word :=
  let c := running s st
  let own := fun (x : Word) => if s.cur.ctx = .execute then x else 0
  if n = 0x000 then some (BitVec.ofNat 64 st.clocks)
  else if n = 0x001 then some c.issues
  else if n = 0x015 then some (st.xrm.setWidth 64)
  else if n = 0x016 then some (st.seed.setWidth 64)
  else if n = 0x017 then some (st.xtrapen.setWidth 64)
  else if n = 0x018 then some (st.edge.setWidth 64)
  else if n = 0x019 then some (st.vbypass.setWidth 64)
  else if n = 0x01A then some (st.slip.setWidth 64)
  else if n = 0x100 then some (atBit c.intrap 5 ||| atBit c.vimprecise 4 ||| atBit c.ie 3 ||| atBit c.ven 2 ||| atBit c.ppriv 1 ||| atBit c.priv 0)
  else if n = 0x101 then some (atBit c.causeVector 8 ||| c.cause.setWidth 64)
  else if n = 0x102 then some c.tpc
  else if n = 0x103 then some c.tval
  else if n = 0x104 then some c.tvec
  else if n = 0x105 then some c.tscratch
  else if n = 0x106 then some (own (st.vdirty.setWidth 64))
  else if n = 0x107 then some (own (st.adirty.setWidth 64))
  else if n = 0x110 then some (st.asid.setWidth 64)
  else if n = 0x111 then some st.ptroot
  else if n = 0x112 then some s.tlbseq
  else if n = 0x120 then some (st.canlimit.setWidth 64)
  else if n = 0x121 then some ((c.reason.setWidth 64 <<< 8) ||| atBit c.preempt.isSome 0)
  else none

/-- Every register number that R135 assigns. -/
def assigned : List Nat :=
  [0x000, 0x001, 0x002, 0x003, 0x010, 0x011, 0x012, 0x013, 0x014, 0x015, 0x016, 0x017, 0x018, 0x019, 0x01A, 0x020, 0x021, 0x030,
   0x100, 0x101, 0x102, 0x103, 0x104, 0x105, 0x106, 0x107, 0x108, 0x110, 0x111, 0x112, 0x120, 0x121]

/-- The strand after a CRWR of one of its registers (R3, R30, R48, R76, R84, R90, R305 to R308). -/
def registerWritten (id : CtxId) (n : Nat) (x : Word) (st : Strand) : Strand :=
  let c := st.ctx id
  if n = 0x015 then { st with xrm := if 5 < x.toNat % 8 then 0 else x.setWidth 3 }
  else if n = 0x017 then { st with xtrapen := x.setWidth 7 &&& 0x5C }
  else if n = 0x018 then { st with edge := x.setWidth 2 }
  else if n = 0x019 then { st with vbypass := BitVec.ofNat 25 (min (x.toNat % 2 ^ 25) (2 ^ 24)) }
  else if n = 0x01A then { st with slip := BitVec.ofNat 4 (max 1 (min (x.toNat % 16) 8)) }
  else if n = 0x100 then st.setCtx id
    { c with intrap := x.getLsbD 5, vimprecise := x.getLsbD 4, ie := x.getLsbD 3, ven := x.getLsbD 2, ppriv := x.getLsbD 1, priv := x.getLsbD 0 }
  else if n = 0x101 then st.setCtx id { c with causeVector := x.getLsbD 8, cause := x.setWidth 8 }
  else if n = 0x102 then st.setCtx id { c with tpc := x }
  else if n = 0x103 then st.setCtx id { c with tval := x }
  else if n = 0x104 then st.setCtx id { c with tvec := BitVec.ofNat 64 (x.toNat / 64 * 64) }
  else if n = 0x105 then st.setCtx id { c with tscratch := x }
  else if n = 0x106 then (if id = .execute then { st with vdirty := x.setWidth 32 } else st)
  else if n = 0x107 then (if id = .execute then { st with adirty := x.setWidth 4 } else st)
  else if n = 0x120 then { st with canlimit := x.setWidth 32 }
  else st

/-- A context whose access waits for its translation keeps the address space it issued with (R324). -/
def keepsSpace (c : Context) (asid : BitVec 16) (root : Word) : Context :=
  match c.wait with
  | some w => if w.kind = .translation ∧ w.space = none then { c with wait := some { w with space := some (asid, root) } } else c
  | none => c

/-- The strand with its other context keeping the address space of an access that waits (R324). -/
def otherKeeps (id : CtxId) (u : Strand) : Strand :=
  match id with
  | .execute => { u with access := keepsSpace u.access u.asid u.ptroot }
  | .access => { u with exec := keepsSpace u.exec u.asid u.ptroot }

/-- What the turn's context knows as it issues an instruction. -/
def env (s : State) (st : Strand) : Env where
  slot := s.cur.slot
  ctx := s.cur.ctx
  st := st
  c := running s st
  imx := (running s st).prefixes.bind (·.imx)
  mattr := (running s st).prefixes.bind (·.mattr)

end Sys2Proof.Claim

/-- R81, R135, R320: a CRRD completes for every assigned register and returns the field it names; the registers from 0x100 upward raise 0x03
while PRIV = 0, and an unassigned number raises 0x01. (VSTART and XFLAGS have claims of their own.) The model's choices: a CRRD of ISSUES gives the
count without itself (log 97), and XRM and XTRAPEN are one register each per strand (log 106). -/
def Obligations.ControlRegisterReads : Prop :=
  ∀ (f : YsF) (s : State) (st : Strand), Stands s st [f.gd] → Bare (running s st) →
    let n := f.imm.toNat
    let c := running s st
    (0x100 ≤ n → c.priv = false → exec (.crrd f) s = traps s .privileged (word0 (.crrd f))) ∧
    (n < 0x100 ∨ c.priv = true →
      (∀ x, registerValue s st n = some x → exec (.crrd f) s = .next (complete s 2 (fun c => c.setReg f.gd x))) ∧
      (n ∈ assigned → n ≠ 0x010 → n ≠ 0x014 → ∃ x, exec (.crrd f) s = .next (complete s 2 (fun c => c.setReg f.gd x))) ∧
      (n ∉ assigned → exec (.crrd f) s = traps s .illegalInstruction (word0 (.crrd f))))

/-- R3, R81, R135, R320: a CRWR of a register without a row of its own completes and writes what the register takes; one that is read-only takes
nothing; EDGE does not take 3. That both contexts write the one XRM and the one XTRAPEN of their strand is the model's choice (log 106). -/
def Obligations.ControlRegisterWrites : Prop :=
  ∀ (f : YsF) (s : State) (st : Strand), Stands s st [f.ga] → Bare (running s st) →
    let n := f.imm.toNat
    let c := running s st
    let x := c.reg f.ga
    (0x100 ≤ n → c.priv = false → exec (.crwr f) s = traps s .privileged (word0 (.crwr f))) ∧
    (n < 0x100 ∨ c.priv = true →
      (n ∈ assigned → n ∉ [0x010, 0x014, 0x016, 0x110, 0x111, 0x121] → ¬ (n = 0x018 ∧ x.toNat % 4 = 3) →
        exec (.crwr f) s = .next (complete (s.updStrand s.cur.slot (registerWritten s.cur.ctx n x)) 2 (fun c => c))) ∧
      (n = 0x018 → x.toNat % 4 = 3 → exec (.crwr f) s = traps s .illegalInstruction (word0 (.crwr f))) ∧
      (n ∉ assigned → exec (.crwr f) s = traps s .illegalInstruction (word0 (.crwr f))))

/-- R50, R52, R74, R83: XFLAGS, XSEED and VSTART, once the VQ of the execute context is empty or a frame is held, and at once in the access
context (log 98): what each reads and writes. A CRWR of XSEED also follows what has left the VQ for the matrix queue, since that draws from the
old words. -/
def Sys2Proof.Claim.FlagSeedAndStartRegisters : Prop :=
  ∀ (r : Reg) (s : State) (st : Strand), Stands s st [r] → Bare (running s st) →
    (s.cur.ctx = .execute → st.vq = [] ∨ st.frame.isSome = true) →
    let c := running s st
    let x := c.reg r
    let here := s.cur.ctx = .execute
    exec (.xflagsRead r) s = .next (complete s 2 (fun c => c.setReg r ((shownFlags s st).setWidth 64))) ∧
    exec (.xflagsWrite r) s = .next (complete (s.updStrand s.cur.slot (fun u =>
      if here then { u with laneFlags := Vector.replicate 64 (x.setWidth 7) } else u)) 2 (fun c => { c with flags := x.setWidth 7 })) ∧
    ((here → s.matrixWork s.cur.slot = []) → ∃ t st', exec (.xseedWrite r) s = .next t ∧ t.strand? s.cur.slot = some st' ∧ st'.seed = x.setWidth 32 ∧
      (running s st').sr = (if x.setWidth 32 ^^^ 0x8DDE6E40#32 = 0 then 1 else x.setWidth 32 ^^^ 0x8DDE6E40#32) ∧
      (running s st').pc = c.pc + 8 ∧ (other s st').sr = (other s st).sr ∧
      (¬ here → st'.sr = st.sr) ∧
      (here → ∀ l (h : l < 64), st'.sr[l] =
        (let w := x.setWidth 32 ^^^ BitVec.ofNat 32 (l * 0x9E3779B9); if w = 0 then 1 else w))) ∧
    exec (.vstartAccess false r) s = .next (complete s 2 (fun c => c.setReg r (if here then st.vstart.setWidth 64 else 0))) ∧
    exec (.vstartAccess true r) s = .next (complete (s.updStrand s.cur.slot (fun u =>
      if here then { u with vstart := x.setWidth 13 } else u)) 2 (fun c => c))

/-- R324: with PRIV = 1, nothing in the VQ, the matrix queue or the engines, no bound stream slot and no held frame, a CRWR of ASID takes an
address space of the strand's own partition and one of PTROOT the address of a table; ASID takes no other, and raises 0x07 for it. An access of
the other context that waits for its translation keeps the address space it issued with. -/
def Sys2Proof.Claim.AddressSpaceRegisters : Prop :=
  ∀ (r : Reg) (s : State) (st : Strand), Stands s st [r] → Bare (running s st) → (running s st).priv = true →
    st.frame = none → st.anyStream = false →
    let x := (running s st).reg r
    let part := ((s.launch? st.launch).map (·.part)).getD 0
    (s.drained s.cur.slot st = true →
      ((∃ rec, lookup s.spaces (x.toNat % 2 ^ 16) = some rec ∧ rec.part = part) → x.toNat % 2 ^ 16 ≠ 0 →
        exec (.asidWrite r) s = .next (complete (s.updStrand s.cur.slot (fun u =>
          { otherKeeps s.cur.ctx u with asid := x.setWidth 16 })) 2 (fun c => c))) ∧
      exec (.ptrootWrite r) s =
        .next (complete (s.updStrand s.cur.slot (fun u => { otherKeeps s.cur.ctx u with ptroot := x &&& 0x00FFFFFFFFFFFC00 })) 2 (fun c => c))) ∧
    (lookup s.spaces (x.toNat % 2 ^ 16) = none ∨ x.toNat % 2 ^ 16 = 0 →
      ∃ v, exec (.asidWrite r) s = trapsIn s s.drawn .protection false v)

/-- R317: YIELD in a context whose trap has cause 0x10 ends its residence, and with the other context still running the strand keeps its slot;
with another cause, or with bit 2 clear, it changes nothing. -/
def Sys2Proof.Claim.YieldEndsResidence : Prop :=
  ∀ (r : Reg) (s : State) (st : Strand), Stands s st [r] → Bare (running s st) → (running s st).priv = true →
    let c := running s st
    (((c.reg r).getLsbD 2 = false ∨ c.cause ≠ 0x10) → exec (.yield r) s = .next (complete s 2 (fun c => c))) ∧
    ((c.reg r).getLsbD 2 = true → c.cause = 0x10 → c.retired = false → c.cancelled = false → c.cancel = none →
      (other s st).retired = false → (other s st).yielded = false → (other s st).cancelled = false →
      exec (.yield r) s = .next (complete s 2 (fun c => { c with yielded := true })))

namespace Sys2Proof.Claim
open Sys2Proof.Machine

/-- A frame as it lies in memory: its header's fields, the lane words, and the bytes behind the first 512, which the hardware alone
reads (R314, R357). -/
def Layout (bs : List Byte) (fr : Frame) (streams : Bool) (body : Nat → Byte) : Prop :=
  fieldLE bs 0 2 = 1 ∧ fieldLE bs 2 1 = 1 ∧ fieldLE bs 4 4 = bs.length ∧ fieldLE bs 8 2 = fr.queued.length ∧
    fieldLE bs 10 1 = fr.matrix.length ∧ fieldLE bs 11 1 = (if fr.vimprecise then 1 else 0) + (if streams then 2 else 0) ∧
    fieldLE bs 16 8 = fr.vcommit.toNat ∧ fieldLE bs 24 1 = fr.mode.toNat ∧
    (∀ l (h : l < 64), fieldLE bs (64 + 4 * l) 4 = fr.sr[l].toNat) ∧ ∀ i < bs.length - 512, bs.getD (512 + i) 0 = body i

/-- The size of a frame (R314). -/
def sizeOf (fr : Frame) (streams : Bool) : Nat :=
  512 + 256 * ((fr.queued.length + fr.matrix.length + 1) / 2) + (if streams then 512 else 0)

/-- A memory in which bytes have been stored at places, in their order; every other byte is as it was. -/
def Stored (mk : Nat → Place) (place : Nat → Place) (bs : List Byte) (m m' : Memory) : Prop :=
  (∀ i < bs.length, ∀ a, place i = mk a → (∀ j < bs.length, i < j → place j ≠ mk a) → m'.read a = bs.getD i 0) ∧
    ∀ a, (∀ i < bs.length, place i ≠ mk a) → m'.read a = m.read a

/-- A slot of a strand is bound. -/
def anyBound (v : Vector (Option Stream) 8) : Bool := v.toList.any (·.isSome)

end Sys2Proof.Claim

/-- R313, R314, R357: with PRIV = 1, a VFSAVE of the execute context completes at every multiple of 256 whose bytes it may store to, with no
.nov access before it (R107): R357's bytes stand there, gd holds their number, and the frame is held no longer. With none held it stores an
empty frame, whose VCOMMIT is that of the trap. In the access context it raises 0x01 whatever PRIV holds (R119), at another address 0x04. The
bytes behind the first 512 are a free value (log 16). -/
def Sys2Proof.Claim.VectorFrameSave : Prop :=
  ∀ (f : YsF) (s : State) (st : Strand), Stands s st [f.gd, f.ga] → Bare (running s st) →
    let c := running s st
    let va := (c.reg f.ga).toNat
    let bound := anyBound st.streams
    let fr := (s.frameToSave (env s st)).1
    let bytes := frameBytes fr bound (Config.frameBody s.draws)
    (s.cur.ctx = .access → exec (.vfsave f) s = traps s .illegalInstruction (word0 (.vfsave f))) ∧
    (s.cur.ctx = .execute → c.priv = true → va % 256 ≠ 0 → exec (.vfsave f) s = traps s .misaligned (c.reg f.ga)) ∧
    (∀ h, st.frame = some h → fr.queued.map (·.instr) = h.queued.map (·.instr) ∧ fr.matrix.map (·.instr) = h.matrix.map (·.instr) ∧
      fr.pending = h.pending ∧ fr.sr = h.sr ∧ fr.vimprecise = h.vimprecise ∧ fr.vcommit = h.vcommit ∧ fr.streams = st.streams) ∧
    (st.frame = none → fr.queued = [] ∧ fr.matrix = [] ∧ fr.sr = st.sr ∧ fr.vimprecise = c.vimprecise ∧
      fr.vcommit = st.charged.getD c.tpc ∧ fr.streams = st.streams) ∧
    fr.mode = (s.cluster (clusterOf s.cur.slot)).mode ∧ fr.owner = ((st.frame.map (·.owner)).getD (st.launch, st.ordinal)) ∧
    bytes.length = sizeOf fr bound ∧ (fr.queued.length + fr.matrix.length ≤ 96 → Layout bytes fr bound (Config.frameBody s.draws)) ∧
    (s.cur.ctx = .execute → c.priv = true → va % 256 = 0 → s.heldBack (env s st) none = false → s.repartitioning s.cur.slot = false →
      s.route st 0 .other va bytes.length = .memory → s.memWf = true → ∀ place : Nat → Place,
      (∀ i < bytes.length, s.resolve (agent s st) ((va + i) % 2 ^ 64) .store = .ok (place i) ∧ s.unreachable (place i) = false) →
      ∃ t st', exec (.vfsave f) s = .next t ∧ t.strand? s.cur.slot = some st' ∧ st'.frame = none ∧
        Stored .dev place bytes s.dev t.dev ∧ Stored .host place bytes s.host t.host ∧ t.ws = s.ws ∧
        st'.vq = st.vq ∧ st'.sr = st.sr ∧ st'.streams = st.streams ∧ (running s st').pc = c.pc + 8 ∧
        (∀ r, (running s st').reg r = if r = f.gd ∧ r ≠ 0 then BitVec.ofNat 64 bytes.length else c.reg r))

/-- R314, R357: with PRIV = 1, no vector work left and no frame held, a VFLOAD of a frame that a VFSAVE of the strand has stored, in the
cluster's mode, completes on every strand: it holds that frame again, its VQ instructions, matrix-queue entries and pending registers (none when
the frame was empty), the lane words are the frame's, and so are the stream slots, unless slots have stayed with the strand. The saved frame is
the one whose opaque bytes stand in memory (log 16), which no other one saved shares here. A frame whose V is 0 changes nothing; while vector work
is left it waits (R313). What its checks admit is loaded with a step on (log 61). -/
def Sys2Proof.Claim.VectorFrameLoad : Prop :=
  ∀ (f : YsF) (s : State) (st : Strand), Stands s st [f.ga] → Bare (running s st) → (running s st).priv = true → s.cur.ctx = .execute →
    let c := running s st
    let va := (c.reg f.ga).toNat
    va % 256 = 0 →
    (st.vq = [] → (s.cluster (clusterOf s.cur.slot)).matrixOf s.cur.slot = [] →
      (∀ h, s.readObject (env s st) va 64 = .ok h → fieldLE h 2 1 % 2 = 0 →
        exec (.vfload f) s = .next (complete (s.noteRead (agent s st) va 64) 2 (fun c => c))) ∧
      (∀ t, s.loadFrame (env s st) va = .ok t → exec (.vfload f) s = .next (complete t 2 (fun c => c))) ∧
      (∀ k fr bytes, (k, fr) ∈ s.frames → fr.owner = (st.launch, st.ordinal) → fr.mode = (s.cluster (clusterOf s.cur.slot)).mode →
        st.frame = none → fr.queued.length + fr.matrix.length ≤ 96 →
        let bound := anyBound fr.streams
        bytes.length = sizeOf fr bound → Layout bytes fr bound (Config.frameBody k) →
        (512 < bytes.length → ∀ x ∈ s.frames, sizeOf x.2 (anyBound x.2.streams) = bytes.length →
          (∀ i < bytes.length - 512, Config.frameBody x.1 i = Config.frameBody k i) → x.2 = fr) →
        (∀ j < bytes.length / 8, ∃ p, Reads s st ((va + 8 * j) % 2 ^ 64) 8 p ∧ ∀ i < 8, byteAt s (above p i) = bytes.getD (8 * j + i) 0) →
        ∃ t st', exec (.vfload f) s = .next t ∧ t.strand? s.cur.slot = some st' ∧ st'.sr = fr.sr ∧
          (0 < fr.queued.length + fr.matrix.length → ∃ g, st'.frame = some g ∧ g.queued = fr.queued ∧ g.matrix = fr.matrix ∧
            g.pending = fr.pending ∧ g.vcommit = fr.vcommit ∧ g.vimprecise = fr.vimprecise) ∧
          (fr.queued.length + fr.matrix.length = 0 → st'.frame = none) ∧
          st'.streams = (if anyBound st.streams then st.streams else fr.streams) ∧
          st'.vq = [] ∧ st'.v = st.v ∧ (running s st').pc = c.pc + 8 ∧ ∀ r, (running s st').reg r = c.reg r)) ∧
    (st.vq ≠ [] → exec (.vfload f) s = .next (s.updCtx s.cur.slot .execute (fun c => c.await .frame s.now (some (.vfload f)))))

/-- R321, R334: with PRIV = 1, a TLBINV that has nothing earlier to wait for takes a TLBSEQ of its own, gives it in gd, and leaves no entry
of any TLB that it covers; every other entry stays. (No stream has a chunk that uses an old translation here: R215.) -/
def Obligations.TranslationInvalidation : Prop :=
  ∀ (f : YsF) (s : State) (st : Strand), Stands s st [f.gd, f.ga, f.gb] → Bare (running s st) → (running s st).priv = true →
    let c := running s st
    let asid := (c.reg f.gb).toNat % 2 ^ 16
    let va := (c.reg f.ga).toNat
    let hit := fun (e : TlbEntry) =>
      (f.fn7 = 1 ∧ e.asid = asid ∧ e.va ≤ va ∧ va < e.va + e.size) ∨ (f.fn7 = 2 ∧ e.asid = asid) ∨ f.fn7 = 3
    f.fn7 = 1 ∨ f.fn7 = 2 ∨ (f.fn7 = 3 ∧ asid = 0) → c.wait = none → s.heldBack (env s st) (some 5) = false →
    (∀ p ∈ s.strands, p.2.allStreams = []) →
      ∃ t st', exec (.tlbinv f) s = .next t ∧ t.strand? s.cur.slot = some st' ∧ t.tlbseq = s.tlbseq + 1 ∧
        (∀ e, e ∈ t.tlb ↔ e ∈ s.tlb ∧ ¬ hit e) ∧ (running s st').pc = c.pc + 8 ∧
        (∀ r, (running s st').reg r = if r = f.gd ∧ r ≠ 0 then s.tlbseq + 1 else c.reg r) ∧ t.dev = s.dev

/-- R322: WFE with PRIV = 1 gives 1 at once while a request is pending, and 0 when its limit, in units of 1,024 cycles, has passed; otherwise it
waits, and its wait is no cancellation point. -/
def Sys2Proof.Claim.WaitForEvent : Prop :=
  ∀ (f : YsF) (s : State) (st : Strand), Stands s st [f.gd] → Bare (running s st) → (running s st).priv = true →
    let c := running s st
    let limit := 1024 * f.imm.toNat
    let asks := c.preempt.isSome = true ∨ c.cancel.isSome = true
    (asks → exec (.wfe f) s = .next (complete s 2 (fun c => c.setReg f.gd 1))) ∧
    (¬ asks → ∀ w, c.wait = some w → w.kind = .wfe limit → 0 < limit → limit ≤ s.now - w.since →
      exec (.wfe f) s = .next (complete s 2 (fun c => c.setReg f.gd 0)) ) ∧
    (¬ asks → c.wait = none → exec (.wfe f) s =
      .next (s.updCtx s.cur.slot s.cur.ctx (fun c => c.await (.wfe limit) s.now (some (.wfe f)))))


/-! ## Synchronisation instructions -/

namespace Sys2Proof.Claim
open Sys2Proof.Machine

/-- The prefixes read are none, or one IMX with payload 0, as an instruction that reads no imm32 takes it (R131). -/
abbrev AtMostZeroImx (c : Context) : Prop :=
  c.prefixes.all (fun p => !p.rejected && p.mattr.isNone && p.imx.all (· == 0)) = true

/-- No request is pending that the context would take at a cancellation point (R242, R315). -/
abbrev Unasked (c : Context) : Prop := c.cancel = none ∧ (c.preempt = none ∨ c.ie = false)

/-- The watermark word that an instruction names (R115, R244). -/
def watermarkOf (st : Strand) (f : YsF) : WmBinding :=
  st.watermarks.toList.getD (f.gd.toNat % 8) { word := 0, limit := 0, base := 0, size := 1 }

/-- An atomic update of n bytes at va by the turn's context is performed at place p: ordinary, translated, not host memory, readable
(R151, R154, R361, R366). -/
abbrev Updates (s : State) (st : Strand) (va n : Nat) (p : Place) : Prop :=
  s.route st st.strip .other va n = .memory ∧ s.resolve (agent s st) va .atomic = .ok p ∧ isHost p = false ∧
    s.poisoned p = false ∧ s.unreachable p = false

/-- The little-endian number in n bytes at a place. -/
def numberAt (s : State) (p : Place) (n : Nat) : Nat := leNat ((List.range n).map (fun i => byteAt s (above p i)))

/-- Every register as before but gd, which reads x; the PC past two words. -/
def Gave (s : State) (st : Strand) (t : State) (d : Reg) (x : Word) : Prop :=
  ∃ st', t.strand? s.cur.slot = some st' ∧ (running s st').pc = (running s st).pc + 8 ∧
    (∀ r, (running s st').reg r = if r = d ∧ r ≠ 0 then x else (running s st).reg r) ∧ (running s st').flags = (running s st).flags

/-- A precise 0x07 at no virtual address: its TVAL is a free value (R310, log 26). -/
def refuses (s : State) (i : Instr) : Prop :=
  ∃ v, exec i s = trapsIn s s.drawn .protection false v

/-- The task an identifier names in the strand's partition: its graph's key, the graph, its number and its state (R247). -/
def taskOf (s : State) (st : Strand) (x : Word) (key : Nat) (g : Graph) (n : Nat) (task : Task) : Prop :=
  x.extractLsb' 16 32 = 0 ∧ n = x.toNat % 2 ^ 16 ∧
    key = ((s.launch? st.launch).map (·.part)).getD 0 * 65536 + x.toNat / 2 ^ 48 ∧ lookup s.graphs key = some g ∧ g.tasks[n]? = some task

/-- The sibling a strand belongs to: its index, its group's number, the group, and the sibling's entry (R250). -/
def siblingIs (s : State) (st : Strand) (index gid : Nat) (g : SibGroup) (x : Sibling) : Prop :=
  st.sibling = some (index, gid) ∧ lookup s.sibgroups gid = some g ∧ g.siblings[index]? = some x

/-- The posts of a hash in a group. -/
def postsOf (g : SibGroup) (h : Word) : Nat := (g.siblings.filter (fun x => (x.post.map (·.1)) == some h)).length

end Sys2Proof.Claim

/-- R39, R240, R241, R258: KEND of the access context retires that context at once, and errors of engine commands that it has not raised go to the
execute context. KEND of an execute context with no request pending, no vector work, no engine command in flight and no store unacknowledged (R361),
after the access context's, ends the strand: its completion word holds STATUS 0, CAUSE 0 and the OR of all its flags. With work left it waits. -/
def Sys2Proof.Claim.KendRetires : Prop :=
  ∀ (f : YsF) (s : State) (st : Strand), Stands s st [] → AtMostZeroImx (running s st) → st.life ≠ .retired →
    let c := running s st
    let o := other s st
    (s.cur.ctx = .access → c.cancelled = false → c.yielded = false → o.retired = false → o.cancelled = false → o.yielded = false →
      ∃ t st', exec (.kend f) s = .next t ∧ t.strand? s.cur.slot = some st' ∧ st'.access.retired = true ∧
        st'.access.pc = c.pc + 8 ∧ st'.exec = { st.exec with engineErrors := st.exec.engineErrors ++ c.engineErrors } ∧ st'.life = st.life) ∧
    (s.cur.ctx = .execute → Unasked c → s.drained s.cur.slot st = true → s.acksOwed = false → o.retired = true → st.ending = none → st.sibling = none → st.group = none →
      ∀ l, s.launch? st.launch = some l →
        ∃ t l', exec (.kend f) s = .next t ∧ t.launch? st.launch = some l' ∧ l'.words = l.words ++
          [{ ordinal := st.ordinal, status := 0, cause := 0,
             flags := st.laneFlags.toList.foldl (fun x y => x ||| y) (st.exec.flags ||| st.access.flags) }] ∧
          (∀ st', t.strand? s.cur.slot = some st' → st'.life = .retired)) ∧
    (s.cur.ctx = .execute → Unasked c → c.wait = none → st.vq ≠ [] →
      exec (.kend f) s = .next (s.updCtx s.cur.slot .execute (fun c => c.await .kend s.now (some (.kend f)))))

/-- R242, R243, R279: with no request pending, CANPT only passes, and SPLPT of a strand of no spliced group begins its next strip; the access
context's SPLPT counts nothing. With a cancel pending each takes it: the context goes no further, and CANPC is the point's address. -/
def Sys2Proof.Claim.CancellationPoints : Prop :=
  ∀ (f : YsF) (s : State) (st : Strand), Stands s st [] → AtMostZeroImx (running s st) →
    let c := running s st
    (Unasked c → exec (.canpt f) s = .next (complete s 2 (fun c => c)) ∧
      (st.group = none → exec (.splpt f) s = .next (complete (if s.cur.ctx = .execute then
        s.updStrand s.cur.slot (fun u => { u with splpts := u.splpts + 1, counted := false }) else s) 2 (fun c => c)))) ∧
    (c.cancel.isSome = true → (other s st).cancelled = false → (other s st).retired = false → (other s st).yielded = false →
      ∀ i ∈ [Instr.canpt f, Instr.splpt f], ∃ t st', exec i s = .next t ∧ t.strand? s.cur.slot = some st' ∧
        (running s st').cancelled = true ∧ (running s st').cancel = none ∧ (running s st').pc = c.pc ∧ st'.life = st.life ∧
        (s.cur.ctx = .execute → st'.canpc = (c.prefixes.map (·.first)).getD c.pc) ∧ t.dev = s.dev)

/-- R115, R244: WMPUB raises its word to the greater of the word and g[ga], both unsigned, and changes nothing else; an unbound watermark
raises 0x07. -/
def Sys2Proof.Claim.WatermarkPublishes : Prop :=
  ∀ (f : YsF) (s : State) (st : Strand) (p : Place), Stands s st [f.ga] → AtMostZeroImx (running s st) → s.memWf = true →
    let c := running s st
    let b := watermarkOf st f
    (b.word = 0 → refuses s (.wmpub f)) ∧
    (b.word ≠ 0 → s.heldBack (env s st) (some (f.fn7.extractLsb' 0 3)) = false → Updates s st b.word.toNat 8 p →
      ∃ t, exec (.wmpub f) s = .next t ∧ Gave s st t 0 0 ∧
        numberAt t p 8 = max (numberAt s p 8) (c.reg f.ga).toNat ∧ ∀ q, (∀ i < 8, q ≠ above p i) → byteAt t q = byteAt s q)

/-- R244: WMWAIT ends once its word is at or above g[ga], and acquires; below it waits, and once its limit has passed it raises 0x0C with the
watermark in TVAL. What it reads stands at the home (R150): in device memory and the scratchpad the doubleword at the place. -/
def Sys2Proof.Claim.WatermarkWaits : Prop :=
  ∀ (f : YsF) (s : State) (st : Strand) (p : Place), Stands s st [f.ga] → AtMostImx (running s st) →
    let c := running s st
    let b := watermarkOf st f
    let limit := 1024 * (if imm32 c f.imm = 0 then b.limit else (imm32 c f.imm).toNat)
    let got := (s.cacheTranslation (agent s st) b.word.toNat).readPlace (clusterOf s.cur.slot) p 8 (fun _ => false) false
    b.word ≠ 0 → s.heldBack (env s st) none = false → Reads s st b.word.toNat 8 p →
      (match p with
        | .dev _ | .scratch _ _ => leNat got.1 = numberAt s p 8
        | _ => True) ∧
      ((c.reg f.ga).toNat ≤ leNat got.1 → exec (.wmwait f) s = .next (complete
        (if 2 ≤ f.fn7.toNat % 8 then got.2.dropL1 (clusterOf s.cur.slot) else got.2) 2 (fun c => c))) ∧
      (leNat got.1 < (c.reg f.ga).toNat → (∃ w, c.wait = some w ∧ w.kind = .watermark (f.gd.toNat % 8) limit ∧ 0 < limit ∧
          limit ≤ s.now - w.since) →
        exec (.wmwait f) s = traps s .watermarkTimeout (BitVec.ofNat 64 (f.gd.toNat % 8))) ∧
      (leNat got.1 < (c.reg f.ga).toNat → c.wait = none → Unasked c →
        exec (.wmwait f) s = .next (s.updCtx s.cur.slot s.cur.ctx
          (fun c => c.await (.watermark (f.gd.toNat % 8) limit) s.now (some (.wmwait f)))))

/-- R245, R246: an arrival at a barrier object gives the phase it arrived in, counts itself, and the last one clears the count and turns the
phase; bytes 4 to 6, the low bits of byte 7, EXPECTED and every byte behind it stay. A misaligned object raises 0x04, one with EXPECTED 0 raises 0x07. -/
def Sys2Proof.Claim.BarrierArrival : Prop :=
  ∀ (f : YsF) (s : State) (st : Strand) (p : Place), Stands s st [f.gd, f.ga] → AtMostZeroImx (running s st) → s.memWf = true →
    let c := running s st
    let va := (c.reg f.ga).toNat
    let arrived := numberAt s p 4
    let expected := numberAt s (above p 8) 4
    let phase := numberAt s (above p 7) 1 / 128
    (va % 64 ≠ 0 → exec (.barrive f) s = traps s .misaligned (c.reg f.ga)) ∧
    (va % 64 = 0 → s.heldBack (env s st) (some (f.fn7.extractLsb' 0 3)) = false → Updates s st va 64 p →
      (expected = 0 → exec (.barrive f) s = traps s .protection (c.reg f.ga)) ∧
      (badObject ((List.range 64).map (fun i => byteAt s (above p i))) = false →
        ∃ t, exec (.barrive f) s = .next t ∧ Gave s st t f.gd (BitVec.ofNat 64 phase) ∧
          numberAt t p 4 = (if expected ≤ arrived + 1 then 0 else arrived + 1) ∧
          numberAt t (above p 7) 1 / 128 = (if expected ≤ arrived + 1 then 1 - phase else phase) ∧
          numberAt t (above p 7) 1 % 128 = numberAt s (above p 7) 1 % 128 ∧
          (∀ i, 4 ≤ i → i < 7 → byteAt t (above p i) = byteAt s (above p i)) ∧
          ∀ q, (∀ i < 8, q ≠ above p i) → byteAt t q = byteAt s q))

/-- R246: BARWAIT ends, with an acquire, once the object's phase differs from bit 0 of g[gb], and waits before. What it reads beyond the module is
noted (R361, R368). -/
def Sys2Proof.Claim.BarrierWait : Prop :=
  ∀ (f : YsF) (s : State) (st : Strand) (bs : List Byte), Stands s st [f.ga, f.gb] → AtMostZeroImx (running s st) →
    let c := running s st
    let va := (c.reg f.ga).toNat
    (va % 64 ≠ 0 → exec (.barwait f) s = traps s .misaligned (c.reg f.ga)) ∧
    (va % 64 = 0 → s.heldBack (env s st) none = false → s.readObject (env s st) va 64 = .ok bs →
      (fieldLE bs 8 4 = 0 → exec (.barwait f) s = traps s .protection (c.reg f.ga)) ∧
      (badObject bs = false → fieldLE bs 7 1 / 128 ≠ (c.reg f.gb).toNat % 2 → exec (.barwait f) s = .next (complete
        (let t := s.noteRead (agent s st) va 64
         if 2 ≤ f.fn7.toNat % 8 then t.dropL1 (clusterOf s.cur.slot) else t) 2 (fun c => c))) ∧
      (badObject bs = false → fieldLE bs 7 1 / 128 = (c.reg f.gb).toNat % 2 → c.wait = none → Unasked c →
        exec (.barwait f) s = .next (s.updCtx s.cur.slot s.cur.ctx
          (fun c => c.await .barrier s.now (some (.barwait f))))))

/-- R247: DEPINIT sets the counter of a task that is not released, and DEPDEC takes one from it and gives what is left; a counter that
reaches 0 releases its task and puts it into the ready queue; a counter at 0 raises 0x0B; an identifier that names no task raises 0x07.
(No replay holds the partition's decisions to an order here: R369; and no later DEPDEC of this cycle has reached the counter: R248.) -/
def Sys2Proof.Claim.DependencyCounters : Prop :=
  ∀ (f : YsF) (s : State) (st : Strand), AtMostZeroImx (running s st) → s.replaying = [] →
    let c := running s st
    let x := c.reg f.ga
    let n := (c.reg f.gb).toNat
    let set := fun (t : State) (key i m : Nat) (was : Task) => ∃ g' task', lookup t.graphs key = some g' ∧ g'.tasks[i]? = some task' ∧
      task'.counter = m ∧ task'.released = (was.released || m == 0) ∧ (was.released = false → m = 0 → i ∈ g'.ready)
    (Stands s st [f.ga, f.gb] →
      ((∀ key g i task, ¬ taskOf s st x key g i task) → refuses s (.depinit f)) ∧
      (∀ key g i task, taskOf s st x key g i task →
        (task.released = true ∨ 65535 < n → refuses s (.depinit f)) ∧
        (task.released = false → n ≤ 65535 → s.heldBack (env s st) (some (f.fn7.extractLsb' 0 3)) = false →
          ∃ t, exec (.depinit f) s = .next t ∧ Gave s st t 0 0 ∧ set t key i n task))) ∧
    (Stands s st [f.gd, f.ga] →
      ((∀ key g i task, ¬ taskOf s st x key g i task) → refuses s (.depdec f)) ∧
      (∀ key g i task, taskOf s st x key g i task → s.heldBack (env s st) (some (f.fn7.extractLsb' 0 3)) = false →
        decBefore task s.now (turnKey s.cur.slot s.cur.ctx) = false →
        (task.counter = 0 → exec (.depdec f) s = traps s .depUnderflow x) ∧
        (0 < task.counter → ∃ t, exec (.depdec f) s = .next t ∧ Gave s st t f.gd (BitVec.ofNat 64 (task.counter - 1)) ∧
          set t key i (task.counter - 1) task)))

/-- R249: TSPAWN to a queue of the strand's partition that takes packets from strands reads its 128 bytes and gives 0, or gives 1 and appends
nothing when the ring is full; another queue raises 0x07, and a packet address that is no multiple of 128 raises 0x04. -/
def Sys2Proof.Claim.TaskSpawn : Prop :=
  ∀ (f : YsF) (s : State) (st : Strand) (q : Nat) (x : Queue) (bs : List Byte), Stands s st [f.gd, f.ga, f.gb] → AtMostZeroImx (running s st) →
    let c := running s st
    let va := (c.reg f.ga).toNat
    (va % 128 ≠ 0 → exec (.tspawn f) s = traps s .misaligned (c.reg f.ga)) ∧
    (va % 128 = 0 → s.queue? ((c.reg f.gb).toNat % 4096) = none → refuses s (.tspawn f)) ∧
    (va % 128 = 0 → c.reg f.gb = BitVec.ofNat 64 q → q < 4096 → s.queue? q = some x → x.devsub = true →
      x.part = ((s.launch? st.launch).map (·.part)).getD 0 → x.version = 2 → x.destroyed = none → s.heldBack (env s st) (some 5) = false →
      s.readObject (env s st) va 128 = .ok bs →
      (x.fetched + 2 ^ x.log2n ≤ x.notify.toNat → exec (.tspawn f) s = .next (complete (s.noteRead (agent s st) va 128) 2
        (fun c => c.setReg f.gd 1))) ∧
      (x.notify.toNat < x.fetched + 2 ^ x.log2n → ∃ t, exec (.tspawn f) s = .next t ∧ Gave s st t f.gd 0 ∧
        ∃ x', t.queue? q = some x' ∧ x'.notify = x.notify + 1))

/-- R251 to R254: a post into an open group is counted under its hash and gives 1 when it makes the quorum, which decides the group for that
sibling and hash, and 0 otherwise; a post into a decided group gives 2. SBSTAT with sel = 1 gives the winning hash, or 0 while there is none; SBLEAVE
marks the sibling gone; a second post, and each of them in a strand that is no sibling, raises 0x07. (No replay and no recorder here: R368, R369; no
other context of the sibling is posting, and no sibling of a higher index has posted in this cycle: R251.) -/
def Obligations.SiblingBallot : Prop :=
  ∀ (f : YsF) (s : State) (st : Strand), AtMostZeroImx (running s st) → s.replaying = [] → s.recorders = [] →
    let c := running s st
    let hash := c.reg f.ga
    (st.sibling = none → Stands s st [f.gd, f.ga] →
      refuses s (.sbpost f) ∧ refuses s (.sbstat f) ∧ refuses s (.sbleave f)) ∧
    (∀ index gid g x, siblingIs s st index gid g x → st.life = .running → x.ended = false →
      s.posting (env s st) index gid = false → g.postBefore s.now index = false →
      (Stands s st [f.gd, f.ga] → x.post.isSome = true ∨ x.left = true → refuses s (.sbpost f)) ∧
      (Stands s st [f.gd, f.ga] → x.post = none → x.left = false → s.heldBack (env s st) (some 5) = false →
        ∃ t v, exec (.sbpost f) s = .next t ∧ Gave s st t f.gd v ∧
          (g.state ≠ .open_ → v = 2) ∧
          (g.state = .open_ → postsOf g hash + 1 ≠ g.quorum → v = 0) ∧
          (g.state = .open_ → postsOf g hash + 1 = g.quorum → v = 1 ∧
            ∃ g', lookup t.sibgroups gid = some g' ∧ g'.state = .quorum ∧ g'.winner = index ∧ g'.hash = hash)) ∧
      (Stands s st [f.gd] → f.fn7 = 1 → exec (.sbstat f) s = .next (complete s 2 (fun c => c.setReg f.gd
        (if g.state = .quorum ∨ g.state = .tie then g.hash else 0)))) ∧
      (Stands s st [f.gd] → f.fn7 = 0 → ∃ v, exec (.sbstat f) s = .next (complete s 2 (fun c => c.setReg f.gd v))) ∧
      (Stands s st [] → (x.post.isSome = true ∨ x.left = true → exec (.sbleave f) s = .next (complete s 2 (fun c => c))) ∧
        (x.post = none → x.left = false → ∃ t g' x', exec (.sbleave f) s = .next t ∧ Gave s st t 0 0 ∧
          lookup t.sibgroups gid = some g' ∧ g'.siblings[index]? = some x' ∧ x'.left = true ∧ x'.post = none)))

/-- R108, R266, R345: SVFENCE passes once the strand has no vector work left, at once in the access context, and waits before; WSINFO gives a bound
region's word, and 0 for an index above 15 or that binds nothing. That its offset is that of the header of the bound generation's slot, slots lying
as far apart as the region's largest size and header take, is the model's reading (log 58); that what a held frame has frozen is no work left, its
choice (log 115). -/
def Sys2Proof.Claim.FenceAndStoreInformation : Prop :=
  ∀ (f : YsF) (s : State) (st : Strand),
    let c := running s st
    (Stands s st [] → Bare c → (s.cur.ctx = .execute → st.vq = [] ∧ s.matrixWork s.cur.slot = []) →
      exec (.svfence f) s = .next (complete s 2 (fun c => c))) ∧
    (Stands s st [] → Bare c → s.cur.ctx = .execute → st.vq ≠ [] →
      exec (.svfence f) s = .next (s.updCtx s.cur.slot .execute (fun c => c.await .drain s.now (some (.svfence f))))) ∧
    (Stands s st [f.gd, f.ga] → AtMostZeroImx c →
      (15 < (c.reg f.ga).toNat ∨ st.wsBindings.length ≤ (c.reg f.ga).toNat →
        exec (.wsinfo f) s = .next (complete s 2 (fun c => c.setReg f.gd 0))) ∧
      (∀ b r, (c.reg f.ga).toNat ≤ 15 → st.wsBindings[(c.reg f.ga).toNat]? = some b → lookup s.regions b.region = some r →
        exec (.wsinfo f) s = .next (complete s 2 (fun c => c.setReg f.gd (BitVec.ofNat 64 (2 ^ 63 +
          (if r.place = 2 then 2 ^ 62 else 0) + (if r.place = 1 then 2 ^ 61 else 0) +
          (r.offset + b.slot * (64 + (r.maxSize + 1023) / 1024 * 1024)) % 2 ^ 30))))))


/-! ## Vector and matrix instructions at commit -/

namespace Sys2Proof.Claim
open Sys2Proof.Machine

/-- The VX and MX instructions that a commit puts into the VQ and that take effect from there (R15 to R18). -/
def queued : Instr → Bool
  | .vpart _ | .vjoin _ | .vadd _ | .vsub _ | .vmul _ | .vmulh _ | .vfma _ | .vfms _ | .vfnma _ | .vdiv _ | .vsqrt _ | .vrcp _
  | .vrsq _ | .vexp2 _ | .vlog2 _ | .vmin _ | .vmax _ | .vabs _ | .vneg _ | .vand _ | .vor _ | .vxor _ | .vnot _ | .vshl _
  | .vshr _ | .vsra _ | .vcmpeq _ | .vcmpne _ | .vcmplt _ | .vcmple _ | .vsel _ | .vclass _ | .vcvt _ | .vnarrow _ | .vwiden _
  | .vq4 _ | .vslideup _ | .vslidedn _ | .vperm _ | .vbcast _ | .vmvs _ | .vget _ | .vredsum _ | .vredmax _ | .vredmin _
  | .vredand _ | .vredor _ | .vscan _ | .vcompress _ | .vexpand _ | .viota _ | .vtrans8 _ | .vfirst _ | .vpopm _ | .vld _
  | .vlds _ | .vldx _ | .vldff _ | .vld2d _ | .vst _ | .vsts _ | .vstx _ | .vst2d _ | .vamo _ | .vxlat _ | .vpref _ | .kvapp _
  | .vunbind _ | .mzero _ | .mma _ | .mmav _ | .mmas _ | .mloadc _ | .mstore _ | .mreadv _ | .mwritev _ | .mcvt _ | .tload _
  | .teval _ | .tleaf _ | .tclr _ => true
  | _ => false

/-- What a commit resolves: the registers the instruction reads and writes, its length, its tags (R69 to R72, R160, R161). -/
def resolved (st : Strand) (i : Instr) : Plan := plan i st.tags st.exec.g

/-- The commit of an instruction is one that R13, R16, R17, R19, R161, R308 and R312 let happen now: in the execute context, with
VEN = 1, no frame held, no scalar register of it pending, no register group past v31 and no tile that is not allocated, and fewer
than 64 instructions in the VQ. -/
abbrev Commits (s : State) (st : Strand) (i : Instr) : Prop :=
  s.cur.ctx = .execute ∧ st.exec.ven = true ∧ st.frame = none ∧ (∀ r ∈ scalarsC i ++ scalarsM i, r.toNat ∉ st.pending) ∧
    (resolved st i).illegal = false ∧ (∀ k ∈ (resolved st i).tiles, k < st.tiles.length) ∧ st.vq.length < 64

/-- The instruction is the VQ's last entry, with the scalar registers and tags as they stand; the PC is past its two words. -/
def Committed (s : State) (st : Strand) (i : Instr) (t : State) (st' : Strand) : Prop :=
  t.strand? s.cur.slot = some st' ∧ st'.vq.map (·.instr) = st.vq.map (·.instr) ++ [i] ∧
    (∃ e, st'.vq.getLast? = some e ∧ e.instr = i ∧ e.pc = st.exec.pc ∧ e.g = st.exec.g ∧ e.tags = st.tags ∧
      e.rm = mode st (roundingField i) ∧ e.edge = st.edge ∧ e.trapen = st.xtrapen) ∧
    st'.exec.pc = st.exec.pc + 8 ∧ st'.exec.issues = st.exec.issues + 1 ∧ st'.access = st.access

/-- A precise trap charged to a VX or MX instruction: TCAUSE.VECTOR is set (R307). -/
def vectorTraps (s : State) (cause : Cause) (tval : Word) : Out := trapsIn s s cause true tval

end Sys2Proof.Claim

/-- R15, R17, R19, R69, R308: each of these instructions commits: it becomes the VQ's last entry with what R15 takes at commit, its
tags are set, VDIRTY and ADIRTY mark what it may write, and its scalar destination is pending. No register, tile or memory
changes yet. An instruction whose source tags R69 rejects sets no tag. -/
def Sys2Proof.Claim.VectorCommit : Prop :=
  ∀ (i : Instr) (s : State) (st : Strand), queued i = true → s.strand? s.cur.slot = some st → Bare st.exec → Commits s st i →
    let p := resolved st i
    ∃ t st', exec i s = .next t ∧ Committed s st i t st' ∧ SameOutside s t ∧
      (∀ r, st'.exec.reg r = st.exec.reg r) ∧ st'.exec.flags = st.exec.flags ∧ st'.v = st.v ∧ st'.tiles = st.tiles ∧
      st'.vstart = st.vstart ∧ st'.sr = st.sr ∧ st'.laneFlags = st.laneFlags ∧
      st'.pending = st.pending ++ ((pendingDest i).map (·.toNat)).toList ∧
      (∀ r < 32, r ∈ p.writes → st'.vdirty.getLsbD r = true) ∧ (∀ k < 4, p.tileWrite = some k → st'.adirty.getLsbD k = true) ∧
      (p.bad.isSome = true → st'.tags = st.tags) ∧
      (p.bad = none → ∀ r < 32, tagAt st'.tags r = ((p.newTags.reverse.find? (·.1 == r)).map (·.2)).getD (tagAt st.tags r))

/-- R13, R16, R17, R119, R161, R308, R312: what a commit raises or waits for instead: 0x01 in the access context, 0x01 while a vector frame is
held, 0x01 for a register group past v31 or a tile that is not allocated, then 0x08 with TVAL 0 while VEN = 0, then a wait while the VQ is
full. -/
def Sys2Proof.Claim.VectorCommitRefusals : Prop :=
  ∀ (i : Instr) (s : State) (st : Strand), queued i = true → s.strand? s.cur.slot = some st → Bare (running s st) →
    let illegal := vectorTraps s .illegalInstruction (word0 i)
    let free := ∀ r ∈ scalarsC i ++ scalarsM i, r.toNat ∉ st.pending
    let p := resolved st i
    (s.cur.ctx = .access → (∀ f, i ≠ .vpref f) → exec i s = illegal) ∧
    (s.cur.ctx = .execute → st.frame.isSome = true → exec i s = illegal) ∧
    (s.cur.ctx = .execute → st.frame = none → free →
      (p.illegal = true ∨ (∃ k ∈ p.tiles, st.tiles.length ≤ k) → exec i s = illegal) ∧
      (p.illegal = false → (∀ k ∈ p.tiles, k < st.tiles.length) →
        (st.exec.ven = false → exec i s = vectorTraps s .vectorFirstUse 0) ∧
        (st.exec.ven = true → 64 ≤ st.vq.length →
          exec i s = .next (s.updCtx s.cur.slot .execute (fun c => c.await .commit s.now (some i))))))

/-- R71, R72, R74, R163 to R166: VCFG sets the tags of its run of registers, VSETL gives the effective length of a count for the tag of vb,
VSETRC that of rows and columns; each takes its whole effect at commit, and clears VSTART where no earlier instruction is left to use it: that it does so at
commit is the model's reading of R74 and R166 (log 54). -/
def Obligations.TagsAndLengths : Prop :=
  ∀ (f : VxC) (s : State) (st : Strand), s.strand? s.cur.slot = some st → Bare st.exec →
    let c := st.exec
    let limit := fun (r : Reg) => 16384 / tagWidth (tagAt st.tags r.toNat)
    let outcome := fun (i : Instr) (d : Reg) (x : Word) (tag : Nat → Tag) => ∃ t st', exec i s = .next t ∧ Committed s st i t st' ∧
      SameOutside s t ∧ (∀ r, st'.exec.reg r = if r = d ∧ r ≠ 0 then x else c.reg r) ∧ (∀ r < 32, tagAt st'.tags r = tag r) ∧
      st'.v = st.v ∧ (st.vq = [] → st'.vstart = 0)
    let k := (f.imm.extractLsb' 4 5).toNat
    let target : Tag := f.imm.extractLsb' 0 4
    let cols := min (c.reg f.vb).toNat (limit f.vc)
    let rows := if cols = 0 then 0 else min (c.reg f.va).toNat (limit f.vc / cols)
    (f.vd.toNat + k < 32 → Commits s st (.vcfg f) →
      outcome (.vcfg f) 0 0 (fun r => if f.vd.toNat ≤ r ∧ r ≤ f.vd.toNat + k then target else tagAt st.tags r)) ∧
    (Commits s st (.vsetl f) →
      outcome (.vsetl f) f.vd (BitVec.ofNat 64 (min (c.reg f.va).toNat (limit f.vb))) (tagAt st.tags)) ∧
    (Commits s st (.vsetrc f) → outcome (.vsetrc f) f.vd (BitVec.ofNat 64 (rows * 2 ^ 32 + cols)) (tagAt st.tags))


/-! ## What the lanes and the matrix array do -/

namespace Sys2Proof.Claim
open Sys2Proof.Machine

/-- The entry e, of which nothing has been performed, stands at the head of the VQ of the turn's slot and may start (R17, R23, R24, R316):
the strand runs and is not about to end, its execute context has taken no cancel and is not overdue (log 96), no fault of it is detected, it
owns lanes, its cluster is in no repartition, and nothing of it is in the matrix queue. No stream slot is bound, so that nothing is popped or
emitted (R78). -/
structure AtHead (s : State) (st : Strand) (e : VqEntry) (rest : List VqEntry) : Prop where
  here : s.strand? s.cur.slot = some st
  head : st.vq = e :: rest
  fresh : e.progress ≠ .done
  anew : e.touch = [] ∧ e.done = [] ∧ e.sent = 0 ∧ e.snap = [] ∧ e.held = [] ∧ e.places = [] ∧ e.results = []
  runs : st.life = .running
  stays : st.ending = none
  starts : st.startsNone s.now = false
  sound : st.fault = none
  lanes : 0 < (s.lanes s.cur.slot).2
  whole : (s.cluster (clusterOf s.cur.slot)).repartition = none
  matrix : (s.cluster (clusterOf s.cur.slot)).matrixOf s.cur.slot = []
  unclaimed : e.claims = []
  unbound : ∀ k < 8, st.stream k = none

/-- The entry has completed: it is marked so and stands at the head still, and VSTART is 0 (R17, R74). -/
def HeadDone (s : State) (e : VqEntry) (rest : List VqEntry) (t : State) (st' : Strand) : Prop :=
  t.strand? s.cur.slot = some st' ∧ st'.vq = e.finished :: rest ∧ st'.vstart = 0

/-- The effective length of a 1D instruction on elements of w bits (R71). -/
def lengthOf (e : VqEntry) (gl : Reg) (w : Nat) : Nat := min (snapReg e.g gl).toNat (16384 / w)

/-- Element i is active (R73). -/
def activeAt (st : Strand) (n : Nat) (m mi : Bool) (i : Nat) : Prop :=
  i < n ∧ st.vstart.toNat ≤ i ∧ (m = true → (velem (st.vreg 0) 1 i = 1 ↔ mi = false))

/-- Source element i of an instruction of n elements, or its neighbour below (code 01) or above (code 10); past an end EDGE decides: 0
gives zero, 1 the other end, 2 the element itself (R76). -/
def sourceAt (st : Strand) (e : VqEntry) (code : BitVec 2) (r : Reg) (w n i : Nat) : Nat :=
  let edge := fun (j : Nat) => if e.edge = 0 then 0 else if e.edge = 1 then st.elem r.toNat w j else st.elem r.toNat w i
  if code = 1 then (if 0 < i then st.elem r.toNat w (i - 1) else edge (n - 1))
  else if code = 2 then (if i + 1 < n then st.elem r.toNat w (i + 1) else edge 0)
  else st.elem r.toNat w i

/-- The second source: the low bits of a scalar register that imm[4:0] names when imm[12] = 1 (R75), or vb. -/
def secondAt (st : Strand) (e : VqEntry) (f : VxC) (w n i : Nat) : Nat :=
  if f.imm.getLsbD 12 then (snapReg e.g (f.imm.extractLsb' 0 5)).toNat % 2 ^ w else sourceAt st e f.nb f.vb w n i

/-- A bit pattern of w bits as a signed number. -/
def signedAt (w x : Nat) : Int := if x < 2 ^ (w - 1) then x else (x : Int) - 2 ^ w

/-- The value of an element of an integer tag (R41): tags 0 to 4 are signed, 5 to 8 unsigned. -/
def integerAt (t : Tag) (x : Nat) : Int := if t.toNat ≤ 4 then signedAt (tagWidth t) x else x

/-- Element-wise instructions on integer elements, and bitwise ones on elements of any tag (R168 to R173): the tags, and the result. -/
def elementOps : List ((VxC → Instr) × (Tag → Bool) × (Tag → Nat → Nat → Nat)) :=
  let integer := fun (t : Tag) => decide (t.toNat ≤ 8)
  let every := fun (_ : Tag) => true
  [ (.vadd, integer, fun t a b => (a + b) % 2 ^ tagWidth t), (.vsub, integer, fun t a b => (a + 2 ^ tagWidth t - b) % 2 ^ tagWidth t),
    (.vmul, integer, fun t a b => a * b % 2 ^ tagWidth t),
    (.vmin, integer, fun t a b => if integerAt t a ≤ integerAt t b then a else b),
    (.vmax, integer, fun t a b => if integerAt t a ≤ integerAt t b then b else a),
    (.vand, every, fun _ a b => a &&& b), (.vor, every, fun _ a b => a ||| b), (.vxor, every, fun _ a b => a ^^^ b),
    (.vshl, every, fun t a b => a * 2 ^ (b % tagWidth t) % 2 ^ tagWidth t), (.vshr, every, fun t a b => a / 2 ^ (b % tagWidth t)) ]

/-- The address, and for a 4-bit element the nibble, of element i of a load of elements of w bits (R194, R195). -/
def elementAddress (st : Strand) (e : VqEntry) (f : VxM) (w cols : Nat) (i : Nat) : Nat × Bool :=
  let base := (snapReg e.g f.gbase).toNat
  let stride := (snapReg e.g f.gstride).toInt
  let at_ := fun (x : Int) => ((base + x) % (2 ^ 64 : Nat)).toNat
  match e.instr with
  | .vlds _ => (at_ (i * stride), false)
  | .vldx _ =>
    let t := tagAt e.tags f.vb.toNat
    (at_ (integerAt t (st.elem f.vb.toNat (tagWidth t) i)), false)
  | .vld2d _ => (at_ ((i / cols : Nat) * stride + (i % cols * w / 8 : Nat)), i % cols % 2 == 1)
  | _ => (at_ ((i * w / 8 : Nat) : Int), i % 2 == 1)

end Sys2Proof.Claim

/-- R42, R71 to R76, R168 to R173: an element-wise instruction performed from the VQ gives each active element of vd the result of the two
source elements, leaves every other element and every other register as it was, and completes. -/
def Obligations.VectorElementResults : Prop :=
  ∀ op ∈ elementOps, ∀ (f : VxC) (s : State) (st : Strand) (e : VqEntry) (rest : List VqEntry), AtHead s st e rest →
    e.instr = op.1 f → f.sat = false → (plan e.instr e.tags e.g).bad = none →
    let t := tagAt e.tags f.va.toNat
    let w := tagWidth t
    let n := lengthOf e f.gl w
    op.2.1 t = true →
      ∃ u st', exec .vqEntryStart s = .next u ∧ HeadDone s e rest u st' ∧ SameOutside s u ∧
        (∀ i < 16384 / w,
          (activeAt st n f.m f.mi i → st'.elem f.vd.toNat w i = op.2.2 t (sourceAt st e f.na f.va w n i) (secondAt st e f w n i)) ∧
          (¬ activeAt st n f.m f.mi i → st'.elem f.vd.toNat w i = st.elem f.vd.toNat w i)) ∧
        (∀ r < 32, r ≠ f.vd.toNat → st'.vreg r = st.vreg r) ∧ st'.exec = st.exec ∧ st'.tiles = st.tiles

/-- R41, R71 to R74, R194, R195, R198: a vector load, unit-stride, strided, indexed or two-dimensional, of which every active element is an
aligned access of device memory with its translation in the cluster's L1 TLB, no two of whose entries map one address, gives each active element the bytes at its address, and completes; no
other element, and no memory, changes. (With the cache policy that bypasses L1, no copy held there, and no element put off in this turn: log 94.) -/
def Obligations.VectorLoadElements : Prop :=
  ∀ (f : VxM) (s : State) (st : Strand) (e : VqEntry) (rest : List VqEntry) (place : Nat → Nat), AtHead s st e rest →
    e.instr ∈ [Instr.vld f, .vlds f, .vldx f, .vld2d f] → f.gate = false → f.cache = 1 →
    (s.cluster (clusterOf s.cur.slot)).l1 = [] → (plan e.instr e.tags e.g).bad = none → (∀ i, s.cur.unit.testBit i = false) →
    let w := tagWidth (tagAt e.tags f.vd.toNat)
    let x := (snapReg e.g f.gl).toNat
    let cols := min (x % 2 ^ 32) (16384 / w)
    let n := if e.instr = .vld2d f then (if cols = 0 then 0 else min (x / 2 ^ 32) (16384 / w / cols) * cols) else min x (16384 / w)
    let size := if w = 4 then 1 else w / 8
    let where_ := elementAddress st e f w cols
    (∀ x ∈ s.tlb, ∀ y ∈ s.tlb, x.cluster = some (clusterOf s.cur.slot) → y.cluster = x.cluster → x.quad = y.quad → x.asid = y.asid →
      x.va ≤ y.va → y.va < x.va + x.size → x = y) →
    (∀ i, activeAt st n f.m f.mi i → (where_ i).1 % size = 0 ∧ s.readsElided st (where_ i).1 size = false ∧
      s.route st e.strip .load (where_ i).1 size = .memory ∧ s.poisoned (.dev (place i)) = false ∧
      s.cacheTranslation (agentOf s.cur.slot st st.exec.priv (.lanes s.cur.slot)) (where_ i).1 = s ∧
      s.resolve (agentOf s.cur.slot st st.exec.priv (.lanes s.cur.slot)) (where_ i).1 .load = .ok (.dev (place i))) →
      ∃ u st', exec .vqEntryStart s = .next u ∧ HeadDone s e rest u st' ∧ SameOutside s u ∧
        (∀ i < 16384 / w,
          (activeAt st n f.m f.mi i → st'.elem f.vd.toNat w i =
            (if w = 4 then (if (where_ i).2 then numberAt s (.dev (place i)) 1 / 16 else numberAt s (.dev (place i)) 1 % 16)
             else numberAt s (.dev (place i)) size)) ∧
          (¬ activeAt st n f.m f.mi i → st'.elem f.vd.toNat w i = st.elem f.vd.toNat w i)) ∧
        (∀ r < 32, r ≠ f.vd.toNat → st'.vreg r = st.vreg r)

/-- R19, R184, R190: VGET and VPOPM send their result to the synchronising read queue, in the order they are performed; the oldest arrives in its
register, which is pending no more. -/
def Obligations.ScalarResultsArrive : Prop :=
  ∀ (f : VxC) (s : State) (st : Strand) (e : VqEntry) (rest : List VqEntry),
    (AtHead s st e rest → e.instr = .vget f →
      let t := tagAt e.tags f.va.toNat
      let w := tagWidth t
      let k := if f.imm.getLsbD 12 then (snapReg e.g (f.imm.extractLsb' 0 5)).toNat else (f.imm.extractLsb' 0 12).toNat
      ∃ u st' x, exec .vqEntryStart s = .next u ∧ HeadDone s e rest u st' ∧ st'.v = st.v ∧
        st'.reads = st.reads ++ [{ reg := f.vd.toNat, value := x }] ∧
        x = (if k < 16384 / w then BitVec.ofInt 64 (integerAt t (st.elem f.va.toNat w k)) else 0)) ∧
    (AtHead s st e rest → e.instr = .vpopm f →
      let n := min (snapReg e.g f.gl).toNat 16384
      let counts := fun (i : Nat) => decide (st.vstart.toNat ≤ i) && (!f.m || (velem (st.vreg 0) 1 i == 1) != f.mi) &&
        velem (st.vreg f.va.toNat) 1 i == 1
      ∃ u st', exec .vqEntryStart s = .next u ∧ HeadDone s e rest u st' ∧ st'.v = st.v ∧
        st'.reads = st.reads ++ [{ reg := f.vd.toNat, value := BitVec.ofNat 64 ((List.range n).countP counts) }]) ∧
    (∀ x more, s.strand? s.cur.slot = some st → st.reads = x :: more → x.reg < 32 →
      ∃ u st', exec .syncReadArrival s = .next u ∧ u.strand? s.cur.slot = some st' ∧ SameOutside s u ∧ st'.reads = more ∧
        st'.pending = st.pending.erase x.reg ∧
        ∀ r, st'.exec.reg r = if r.toNat = x.reg ∧ r ≠ 0 then x.value else st.exec.reg r)

/-- R17, R18, R23, R24, R218: entries leave the VQ in order, each once it is complete; an MX instruction for the matrix array at the VQ's head moves
to the end of the cluster's matrix queue while that holds fewer than 32, and during a repartition only where it is marked; a complete one leaves
the matrix queue. -/
def Obligations.VectorQueueOrder : Prop :=
  ∀ (s : State) (st : Strand) (e : VqEntry) (rest : List VqEntry), s.strand? s.cur.slot = some st → st.vq = e :: rest →
    let k := clusterOf s.cur.slot
    (e.progress = .done → ∃ t st', exec .vqEntryComplete s = .next t ∧ t.strand? s.cur.slot = some st' ∧ SameOutside s t ∧
      st' = { st with vq := rest }) ∧
    (e.progress ≠ .done → exec .vqEntryComplete s = .next s) ∧
    (isMatrixQueue e.instr = true → st.life = .running → st.fault = none → st.ending = none → st.startsNone s.now = false →
      (s.cluster k).mq.length < 32 → 0 < (s.lanes s.cur.slot).2 → ((s.cluster k).repartition = none ∨ e.marked = true) →
      ∃ t st', exec .matrixQueueMove s = .next t ∧ t.strand? s.cur.slot = some st' ∧ st' = { st with vq := rest } ∧
        (t.cluster k).mq = (s.cluster k).mq ++ [{ slot := s.cur.slot, entry := e }] ∧ t.dev = s.dev) ∧
    (32 ≤ (s.cluster k).mq.length ∨ (s.cluster k).repartition ≠ none ∧ e.marked = false → exec .matrixQueueMove s = .next s) ∧
    (∀ a b q, (s.cluster k).mq = a ++ q :: b → q.slot = s.cur.slot → q.entry.progress = .done →
      (∀ x ∈ a, x.slot = s.cur.slot → x.entry.progress ≠ .done) →
      ∃ t, exec .matrixQueueComplete s = .next t ∧ (t.cluster k).mq = a ++ b ∧ t.strands = s.strands ∧ t.dev = s.dev)


/-- R24, R25, R80, R218, R223, R236: MZERO, started by the matrix array while no repartition runs or marked before it, leaves its tile with zero bits and range bounds of 0; TCLR, in a cluster
whose four slots one launch holds, empties the forest; a repartition of which the earlier instructions are complete takes effect, and the VPART or VJOIN
that asked for it is complete, with VSTART as it was (R23, R167). -/
def Obligations.MatrixAndRepartition : Prop :=
  ∀ (f : MxF) (s : State) (st : Strand) (q : MqEntry) (rest : List MqEntry),
    let slot := s.cur.slot
    let k := clusterOf slot
    let c := s.cluster k
    let ready := s.strand? slot = some st ∧ st.life = .running ∧ st.fault = none ∧ st.ending = none ∧ st.startsNone s.now = false ∧
      0 < (s.lanes slot).2 ∧ c.mqNext = slot % 4 ∧ c.mq = q :: rest ∧ (∀ x ∈ c.mq, x.entry.progress ≠ .waiting) ∧ q.slot = slot ∧
      q.entry.progress ≠ .done ∧ q.entry.claims = [] ∧ (c.repartition = none ∨ q.entry.marked = true) ∧ (∀ j < 8, st.stream j = none)
    let finished := fun (t : State) => (t.cluster k).mq = { q with entry := q.entry.finished } :: rest ∧
      (t.cluster k).mqNext = (slot % 4 + 1) % 4 ∧ t.dev = s.dev
    (ready → q.entry.instr = .mzero f → f.acc.toNat < st.tiles.length →
      ∃ t st', exec .matrixQueueStart s = .next t ∧ finished t ∧ t.strand? slot = some st' ∧ st'.v = st.v ∧
        (∀ (i : Nat) (h : i < 128) (tile : Tile), st'.tiles[f.acc.toNat]? = some tile → tile[i] = { cols := Vector.replicate 128 0, bound := 0 }) ∧
        (∀ j, j ≠ f.acc.toNat → st'.tiles[j]? = st.tiles[j]?)) ∧
    (ready → q.entry.instr = .tclr f → (s.setStrand slot st).wholeCluster k = true →
      ∃ t, exec .matrixQueueStart s = .next t ∧ finished t ∧ (t.cluster k).forest = none) ∧
    (∀ r e vq, c.repartition = some r → s.strand? (4 * k + r.by_) = some st → st.vq = e :: vq → isRepartition e.instr = true →
      s.beforeDone k = true →
      ∃ t st', exec .repartitionEffect s = .next t ∧ (t.cluster k).mode = r.mode ∧ (t.cluster k).repartition = none ∧
        t.strand? (4 * k + r.by_) = some st' ∧ st'.vq = e.finished :: vq ∧ st'.vstart = st.vstart ∧ st'.v = st.v)

/-- R209, R212, R214: VBIND's commit reads its descriptor, and the slot counts as bound from then on; VUNBIND, performed, leaves the slot
unbound; SFEED of the access context joins min(g[gl], CHUNK) elements from g[gb], whose pages it translates at issue, to the stream, or with a count of
0 ends it, and waits while four chunks wait or are on their way; a slot that takes no SFEED, or has ended, raises 0x12. VPREF in the access context
completes, and changes only what L1 holds (R205). -/
def Obligations.StreamCommands : Prop :=
  ∀ (f : VxM) (s : State) (st : Strand),
    let k := f.va.toNat
    let c := running s st
    (s.strand? s.cur.slot = some st → Bare c → Commits s st (.vbind f) → st.novHeld .execute = false →
      ∀ bs s1, s.readDescriptor (agent s st) st (st.exec.reg f.gbase).toNat = .ok (bs, s1) →
        ∃ t st' x, exec (.vbind f) s = .next t ∧ Committed s st (.vbind f) t st' ∧ st'.committedStream k = some x ∧
          x.reg = f.vd.toNat ∧ x.base = BitVec.ofNat 64 (fieldLE bs 0 8) ∧ x.chunk = fieldLE bs 20 2 % 8192 ∧ x.claimed = 0 ∧
          st'.v = st.v ∧ st'.streams = st.streams) ∧
    (s.strand? s.cur.slot = some st → Bare c → Commits s st (.vbind f) → st.novHeld .execute = false →
      (s.cluster (clusterOf s.cur.slot)).l1 = [] → (st.exec.reg f.gbase).toNat % 8 = 0 → ∀ place : Nat → Nat,
      (∀ j < 8, let va := ((st.exec.reg f.gbase).toNat + 8 * j) % 2 ^ 64
        Reads s st va 8 (.dev (place j)) ∧ s.cacheTranslation (agent s st) va = s) →
      let bs := (List.range 8).flatMap (fun j => (List.range 8).map (fun i => s.dev.read (place j + i)))
      ∃ t st' x, exec (.vbind f) s = .next t ∧ Committed s st (.vbind f) t st' ∧ st'.committedStream k = some x ∧
        x.reg = f.vd.toNat ∧ x.width = tagWidth (tagAt st.tags f.vd.toNat) ∧ x.base = BitVec.ofNat 64 (fieldLE bs 0 8) ∧
        x.count0 = fieldLE bs 8 4 ∧ x.count1 = fieldLE bs 12 4 ∧ x.count2 = fieldLE bs 16 4 ∧ x.chunk = fieldLE bs 20 2 % 8192 ∧
        x.output = (fieldLE bs 22 1 % 2 == 1) ∧ x.claimed = 0 ∧ x.arrived = 0 ∧ x.emitted = 0 ∧ x.chunks = [] ∧
        st'.v = st.v ∧ st'.streams = st.streams ∧ t.dev = s.dev) ∧
    (∀ e rest, s.strand? s.cur.slot = some st → st.vq = e :: rest → e.progress ≠ .done → e.claims = [] → st.life = .running →
      st.fault = none → st.ending = none → st.startsNone s.now = false → 0 < (s.lanes s.cur.slot).2 → (s.cluster (clusterOf s.cur.slot)).repartition = none →
      (s.cluster (clusterOf s.cur.slot)).matrixOf s.cur.slot = [] → e.instr = .vunbind f → k < 8 →
      ∃ t st', exec .vqEntryStart s = .next t ∧ HeadDone s e rest t st' ∧ st'.stream k = none ∧ (∀ j, j ≠ k → st'.stream j = st.stream j) ∧
        st'.v = st.v ∧ t.dev = s.dev) ∧
    (s.strand? s.cur.slot = some st → Bare c → s.cur.ctx = .access → st.vq = [] → st.frame = none →
      (∀ x, st.committedStream k = some x → x.source = .sfeed → x.ended = false →
        (4 ≤ x.chunks.length + x.feeding.length → exec (.sfeed f) s = .next (s.updCtx s.cur.slot .access
          (fun c => c.await (.feed k) s.now (some (.sfeed f))))) ∧
        (x.chunks.length + x.feeding.length < 4 → c.reg f.gl = 0 → ∃ t st' y, exec (.sfeed f) s = .next t ∧
          t.strand? s.cur.slot = some st' ∧ st'.committedStream k = some y ∧ y = { x with ended := true } ∧ st'.access.pc = c.pc + 8) ∧
        (x.chunks.length + x.feeding.length < 4 → c.reg f.gl ≠ 0 → 0 < x.chunk →
          let va := (c.reg f.gbase).toNat
          let n := min (c.reg f.gl).toNat x.chunk
          let bytes := (n * x.width + 7) / 8
          (x.width ≠ 4 → va % (x.width / 8) ≠ 0 → exec (.sfeed f) s = vectorTraps s .misaligned (c.reg f.gbase)) ∧
          ((x.width = 4 ∨ va % (x.width / 8) = 0) → 0 < bytes → s.readsElided st va bytes = false →
            s.route st 0 .other va bytes = .memory → ∀ place : Nat → Place,
            (∀ p ∈ pagesOf va bytes, s.resolve (agent s st) p .load = .ok (place p)) →
            ∃ t st' y pages, exec (.sfeed f) s = .next t ∧ t.strand? s.cur.slot = some st' ∧ st'.committedStream k = some y ∧
              y.feeding = x.feeding ++ [(c.reg f.gbase, n, pages)] ∧
              (∀ p ∈ pagesOf va bytes, ∃ h ∈ pages, h.covers (agent s st).asid p = true ∧ h.old = [] ∧
                (p < Config.scratchBase → s.translation (clusterOf s.cur.slot) (agent s st).asid p = some h.entry)) ∧
              { y with feeding := x.feeding, pins := x.pins } = x ∧ (∀ j, j ≠ k → st'.stream j = st.stream j) ∧
              st'.access.pc = c.pc + 8 ∧ (∀ r, st'.access.reg r = c.reg r) ∧ st'.exec = st.exec ∧ t.dev = s.dev))) ∧
      ((st.committedStream k = none ∨ ∃ x, st.committedStream k = some x ∧ (x.source ≠ .sfeed ∨ x.ended = true)) →
        exec (.sfeed f) s = vectorTraps s .streamProtocol (BitVec.ofNat 64 (256 + k % 8)))) ∧
    (s.strand? s.cur.slot = some st → Bare c → s.cur.ctx = .access →
      ∃ t st', exec (.vpref f) s = .next t ∧ t.strand? s.cur.slot = some st' ∧ st'.access.pc = c.pc + 8 ∧ st'.exec = st.exec ∧
        (∀ r, st'.access.reg r = c.reg r) ∧ t.dev = s.dev ∧ t.host = s.host ∧ t.tlb = s.tlb)

/-- R78, R211, R212, R216: a stream unit reads the next chunk of its pattern ahead while fewer than four wait, and keeps a fault for the instruction that
would pop the chunk; a SFEED's data, read at the places its pages had when it issued, arrives as the next chunk. -/
def Obligations.StreamUnits : Prop :=
  ∀ (s : State) (st : Strand) (x : Stream),
    let slot := s.cur.slot
    let k := s.cur.unit
    s.strand? slot = some st → st.life = .running → k < 8 → st.stream k = some x → x.readFault = none →
    let a := fun (c : Context) => agentOf slot st c.priv (.stream slot k)
    (x.output = false → x.source = .pattern → st.frame = none →
      let read := fun (va n : Nat) (s : State) => s.loadVA (a st.exec) st st.strip .load va n (fun _ => true) x.alloc
      let first := x.arrived * x.chunk
      let addresses := (List.range (min x.chunk (x.count0 * x.count1 * x.count2 - first))).map (fun j => (x.address (first + j), false))
      (4 ≤ x.chunks.length ∨ ceilDiv (x.count0 * x.count1 * x.count2) x.chunk ≤ x.arrived → exec .streamPatternRead s = .next s) ∧
      (x.chunks.length < 4 → x.arrived < ceilDiv (x.count0 * x.count1 * x.count2) x.chunk →
        (∀ d s1, s.streamRead x read addresses = .ok (d, s1) → s1.strand? slot = some st →
          ∃ t st' y, exec .streamPatternRead s = .next t ∧ t.strand? slot = some st' ∧ st'.stream k = some y ∧
            y.chunks = x.chunks ++ [(x.arrived, d)] ∧ y.arrived = x.arrived + 1 ∧ y.claimed = x.claimed ∧ st'.v = st.v ∧ t.dev = s1.dev) ∧
        (∀ cause va, s.streamRead x read addresses = .fault cause va →
          ∃ t st' y, exec .streamPatternRead s = .next t ∧ t.strand? slot = some st' ∧ st'.stream k = some y ∧
            y.readFault = some (cause, BitVec.ofNat 64 va) ∧ y.chunks = x.chunks ∧ t.dev = s.dev))) ∧
    (∀ va n pages rest, x.feeding = (va, n, pages) :: rest →
      ∀ d s1, s.streamRead x (fun va n s => s.loadFed (a st.access) st x pages va n)
          ((List.range n).map (fun (j : Nat) => ((va.toNat + j * x.width / 8) % 2 ^ 64, j % 2 == 1))) = .ok (d, s1) →
        s1.strand? slot = some st →
        ∃ t st' y, exec .streamChunkArrival s = .next t ∧ t.strand? slot = some st' ∧ st'.stream k = some y ∧
          y.chunks = x.chunks ++ [(x.arrived, d)] ∧ y.arrived = x.arrived + 1 ∧ y.feeding = rest ∧ t.dev = s1.dev)


/-! ## The ends of waits, and traps of the hardware -/

namespace Sys2Proof.Claim
open Sys2Proof.Machine

/-- The turn's context waits in instruction i, its strand runs, and no trap, error or request is due at its boundary (R32, R309). -/
structure WaitsIn (s : State) (st : Strand) (k : Wait) (i : Instr) (since : Nat) : Prop where
  here : s.strand? s.cur.slot = some st
  waits : (running s st).wait = some { kind := k, since, instr := some i }
  issues : st.issues s.cur.ctx = true
  undisturbed : s.boundary s.cur.slot s.cur.ctx = none

/-- The slot's execute context, whichever context the turn names. -/
def asExecute (s : State) : State := { s with cur := { s.cur with ctx := .execute } }

/-- A context that has neither retired, nor been cancelled, nor yielded. -/
def lives (c : Context) : Prop := c.retired = false ∧ c.cancelled = false ∧ c.yielded = false

/-- An imprecise trap's state (R309): Entered, but for VIMPRECISE and VECTOR, which are 1. -/
def EnteredImprecisely (c c' : Context) (f : ImpreciseFault) : Prop :=
  c'.pc = c.tvec ∧ c'.tpc = (c.prefixes.map (·.first)).getD c.pc ∧ c'.cause = f.cause.code ∧ c'.causeVector = true ∧ c'.tval = f.tval ∧
    c'.priv = true ∧ c'.ppriv = c.priv ∧ c'.ie = false ∧ c'.intrap = true ∧ c'.vimprecise = true ∧ c'.issues = c.issues

/-- A wait of the turn's context that R32 lists, or of an SFEED (R212): a translation counts once a page request is outstanding for it. -/
def LongWait (s : State) (w : Waiting) : Prop :=
  (∃ q, w.kind = .queue q) ∨ (∃ n m, w.kind = .watermark n m) ∨ w.kind = .barrier ∨ w.kind = .commit ∨ (∃ r, w.kind = .register r) ∨
    (∃ n, w.kind = .wfe n) ∨ (∃ k, w.kind = .feed k) ∨
    (w.kind = .translation ∧ ∃ p ∈ s.pageReqs, .context s.cur.slot s.cur.ctx ∈ p.2.who)

/-- A context that a trap between instructions interrupts: an instruction that has issued and waits is abandoned, and counted as issued (R82). -/
def interrupted (c : Context) : Context := c.counted false

end Sys2Proof.Claim

/-- R14, R32, R240, R244, R246, R278, R279, R322: when what it waits for may have come, a context goes on with the instruction that waits in it;
that instruction then completes, or waits on, as if it were issued there. -/
def Sys2Proof.Claim.WaitingInstructionGoesOn : Prop :=
  ∀ (s : State) (st : Strand) (since : Nat),
    (∀ d q r, WaitsIn s st (.queue q) (.qpop d r) since → exec .queueWaitEnd s = exec (.qpop d r) s) ∧
    (∀ d q r, WaitsIn s st (.queue q) (.qpush d r) since → exec .queueWaitEnd s = exec (.qpush d r) s) ∧
    (∀ q r off, WaitsIn s st (.queue q) (.bq r off) since → exec .queueWaitEnd s = exec (.bq r off) s) ∧
    (∀ w n f, WaitsIn s st (.watermark w n) (.wmwait f) since → exec .watermarkWake s = exec (.wmwait f) s) ∧
    (∀ w n f, WaitsIn s st (.watermark w n) (.wmwait f) since → 0 < n → st.vq = [] →
      exec .watermarkTimeout s = exec (.wmwait f) s) ∧
    (∀ f, WaitsIn s st .barrier (.barwait f) since → exec .barwaitWake s = exec (.barwait f) s) ∧
    (∀ n f, WaitsIn s st (.wfe n) (.wfe f) since → 0 < n → exec .wfeTimeout s = exec (.wfe f) s) ∧
    (∀ f, WaitsIn (asExecute s) st .kend (.kend f) since → exec .kendRetire s = exec (.kend f) (asExecute s)) ∧
    (∀ f, WaitsIn (asExecute s) st .region (.splpt f) since → exec .spliceRegionFree s = exec (.splpt f) (asExecute s)) ∧
    (∀ d a off, WaitsIn s st .gate (.ldd d a off) since → exec .spliceGateProceed s = exec (.ldd d a off) s)

/-- R14, R157, R244, R246, R322: the ends of five waits, in full. A QPOP whose queue holds a value pops it; a WMWAIT whose word has reached its
value ends; one whose limit has passed below it raises 0x0C; a BARWAIT whose object has turned its phase ends; a WFE whose limit has
passed gives 0. -/
def Sys2Proof.Claim.WaitEndsInFull : Prop :=
  ∀ (s : State) (st : Strand) (since : Nat), Bare (running s st) → st.vq = [] → st.pending = [] →
    let c := running s st
    (∀ (d : Reg) (q : BitVec 2) x rest, WaitsIn s st (.queue q.toNat) (.qpop d q) since → pops s.cur.ctx q → inQueue st q = x :: rest →
      ∃ t st', exec .queueWaitEnd s = .next t ∧ Moved s st t (c.pc + 4) d x st' ∧ SameOutside s t) ∧
    (∀ (f : YsF) (p : Place) w n, WaitsIn s st (.watermark w n) (.wmwait f) since →
      (watermarkOf st f).word ≠ 0 → s.heldBack (env s st) none = false → Reads s st (watermarkOf st f).word.toNat 8 p →
      let got := (s.cacheTranslation (agent s st) (watermarkOf st f).word.toNat).readPlace (clusterOf s.cur.slot) p 8 (fun _ => false) false
      (match p with
        | .dev _ | .scratch _ _ => leNat got.1 = numberAt s p 8
        | _ => True) ∧
      ((c.reg f.ga).toNat ≤ leNat got.1 → exec .watermarkWake s = .next (complete
        (if 2 ≤ f.fn7.toNat % 8 then got.2.dropL1 (clusterOf s.cur.slot) else got.2) 2 (fun c => c))) ∧
      (leNat got.1 < (c.reg f.ga).toNat → w = f.gd.toNat % 8 → 0 < n →
        n = 1024 * (if f.imm = 0 then (watermarkOf st f).limit else f.imm.toNat) → n ≤ s.now - since →
        exec .watermarkTimeout s = traps s .watermarkTimeout (BitVec.ofNat 64 w))) ∧
    (∀ (f : YsF) bs, WaitsIn s st .barrier (.barwait f) since → (c.reg f.ga).toNat % 64 = 0 →
      s.heldBack (env s st) none = false → s.readObject (env s st) (c.reg f.ga).toNat 64 = .ok bs → badObject bs = false →
      fieldLE bs 7 1 / 128 ≠ (c.reg f.gb).toNat % 2 →
      exec .barwaitWake s = .next (complete
        (let t := s.noteRead (agent s st) (c.reg f.ga).toNat 64
         if 2 ≤ f.fn7.toNat % 8 then t.dropL1 (clusterOf s.cur.slot) else t) 2 (fun c => c))) ∧
    (∀ f : YsF, WaitsIn s st (.wfe (1024 * f.imm.toNat)) (.wfe f) since → c.priv = true → c.preempt = none → c.cancel = none →
      0 < f.imm.toNat → 1024 * f.imm.toNat ≤ s.now - since →
      exec .wfeTimeout s = .next (complete s 2 (fun c => c.setReg f.gd 0)))

/-- R240, R278, R279: the ends of three waits of the execute context, in full. A KEND whose vector work and engine commands are complete, and whose
stores are acknowledged (R361), ends the context; an SPLPT whose strand has no strip left to claim passes, and with a region free begins its next strip; a gated load whose strip is
finished is performed. -/
def Sys2Proof.Claim.ExecuteWaitsEnd : Prop :=
  ∀ (s : State) (st : Strand) (since : Nat), Bare st.exec → st.vq = [] → st.pending = [] → s.cur.ctx = .execute → Unasked st.exec →
    (∀ f, WaitsIn s st .kend (.kend f) since → s.drained s.cur.slot st = true → s.acksOwed = false → lives st.access →
      ∃ t st', exec .kendRetire s = .next t ∧ t.strand? s.cur.slot = some st' ∧ st'.exec.retired = true ∧ st'.exec.pc = st.exec.pc + 8 ∧
        st'.access = st.access ∧ st'.life = .running) ∧
    (∀ f gid place g, WaitsIn s st .region (.splpt f) since → (s.cluster (clusterOf s.cur.slot)).matrixOf s.cur.slot = [] →
      st.group = some (gid, place) → lookup s.groups gid = some g →
      ((g.share place st.vcluster).2 ≤ st.splpts → exec .spliceRegionFree s = .next (complete s 2 (fun c => c))) ∧
      (st.splpts < (g.share place st.vcluster).2 → st.counted = true → g.regionHeld place st.vcluster = false →
        exec .spliceRegionFree s = .next (complete
          (s.updStrand s.cur.slot (fun u => { u with splpts := u.splpts + 1, counted := false })) 2 (fun c => c)))) ∧
    (∀ d a off p, WaitsIn s st .gate (.ldd d a off) since →
      let va := (st.exec.reg a + off.signExtend 64).toNat
      va % 8 = 0 → Reads s st va 8 p → isHost p = false → (s.cluster (clusterOf s.cur.slot)).l1 = [] →
      ∃ t st', exec .spliceGateProceed s = .next t ∧ t.strand? s.cur.slot = some st' ∧ st'.exec.pc = st.exec.pc + 4 ∧
        (∀ r, st'.exec.reg r = if r = d ∧ r ≠ 0 then doubleAt s p else st.exec.reg r) ∧ t.dev = s.dev)

/-- R35, R130, R242, R309, R311, R312, R315, R316, R349: the traps that no instruction raises, taken between instructions and not within a prefixed
sequence, once the matrix array is done with the strand. An imprecise fault that the lanes have found is taken with VIMPRECISE and VECTOR set; an
engine command's error as a trap of its cause, the oldest first; a request that has stood for CANLIMIT cycles at a boundary, once what has started in
the lanes or the array is complete, or at once in a wait that R32 lists (or R212, for SFEED), another wait being given up where nothing has started
(log 112): a pre-emption even with IE = 0. A pre-emption request of the firmware reaches both contexts of a
strand that goes by itself; for the scheduler's priority it is made only where a packet that cannot be placed outranks the strand. -/
def Obligations.HardwareTraps : Prop :=
  ∀ (s : State) (st : Strand), s.strand? s.cur.slot = some st → st.life = .running → st.ending = none →
    let c := running s st
    let idle := s.cur.ctx = .execute → s.arrayBusy s.cur.slot = false
    let started := s.cur.ctx = .execute ∧ ((∃ e ∈ st.vq, e.progress = .waiting) ∨ s.arrayBusy s.cur.slot = true)
    let reached := (∃ w, c.wait = some w ∧ LongWait s w) ∨ ((∀ w, c.wait = some w → w.kind ≠ .translation) ∧ ¬ started)
    (∀ f, lives st.exec → st.exec.intrap = false → st.exec.midSequence = false → s.arrayBusy s.cur.slot = false → st.fault = some f →
      ∃ t st', exec .impreciseTrap s = .next t ∧ t.strand? s.cur.slot = some st' ∧ EnteredImprecisely (interrupted st.exec) st'.exec f ∧
        st'.fault = none ∧ st'.access = st.access ∧ (s.recorders = [] → t.dev = s.dev)) ∧
    (∀ cause va strip rest, lives c → c.intrap = false → c.prefixes = none → idle → c.engineErrors = (cause, va, strip) :: rest →
      ∃ t st', exec .engineErrorDelivery s = .next t ∧ t.strand? s.cur.slot = some st' ∧
        Entered (interrupted c) (running s st') cause.code false va c.pc ∧ (running s st').engineErrors = rest ∧
        (s.recorders = [] → t.dev = s.dev)) ∧
    (∀ since, lives c → c.intrap = false → c.prefixes = none → idle → reached → c.cancel = none → c.preempt = some since →
      st.canlimit ≠ 0 → st.canlimit.toNat ≤ s.now - since →
      ∃ t st', exec .cancelLimitStop s = .next t ∧ t.strand? s.cur.slot = some st' ∧
        Entered (interrupted c) (running s st') 0x10 false (c.reason.setWidth 64) c.pc ∧ (running s st').preempt = none ∧ t.dev = s.dev) ∧
    (∀ since, lives c → lives (other s st) → c.prefixes = none → reached → c.cancel = some since → st.canlimit ≠ 0 →
      st.canlimit.toNat ≤ s.now - since →
      ∃ t st', exec .cancelLimitStop s = .next t ∧ t.strand? s.cur.slot = some st' ∧ (running s st').cancelled = true ∧
        (running s st').cancel = none ∧ (running s st').pc = c.pc ∧ st'.life = .running ∧ t.dev = s.dev) ∧
    (∀ reason : BitVec 8,
      (3 < reason.toNat ∨ (reason = 0 ∧ s.outranked s.cur.slot = false) → exec (.preemptRequest s.cur.slot reason) s = .next s) ∧
      (reason.toNat ≤ 3 → (reason = 0 → s.outranked s.cur.slot = true) → (∀ l, s.launch? st.launch = some l → l.spec.cohort = false) →
        st.group = none → lives st.exec → lives st.access → st.exec.preempt = none → st.access.preempt = none →
        ∃ t st', exec (.preemptRequest s.cur.slot reason) s = .next t ∧ t.strand? s.cur.slot = some st' ∧
          st' = { st with exec := { st.exec with preempt := some s.now, reason }, access := { st.access with preempt := some s.now, reason } } ∧
          SameOutside s t))

/-! ## Engine commands -/

namespace Sys2Proof.Claim
open Sys2Proof.Machine

/-- The engine instructions. -/
def engineOps (f : YsF) : List Instr := [.cpy f, .pub f, .cred f, .upd f, .rinv f, .kvfile f, .rqnt f]

/-- The commands of a strand that are outstanding (R257). -/
def outstanding (s : State) (st : Strand) : Nat :=
  s.engines.countP (fun e => e.owner.1 == st.launch && e.owner.2.1 == st.ordinal)

end Sys2Proof.Claim

/-- R257: an engine instruction issues a command with g[ga], g[gb], the scope, PRIV and the address space as they stand, and completes
at once; with 16 commands of the strand outstanding it waits. -/
def Sys2Proof.Claim.EngineCommandsIssue : Prop :=
  ∀ (f : YsF) (s : State) (st : Strand), Stands s st [f.ga, f.gb] → AtMostZeroImx (running s st) → ∀ i ∈ engineOps f,
    let c := running s st
    (outstanding s st < 16 → ∃ e : EngineCmd,
      exec i s = .next (complete { s with engines := s.engines ++ [e], nextCmd := s.nextCmd + 1 } 2 (fun c => c)) ∧
      e.id = s.nextCmd ∧ e.instr = i ∧ e.slot = s.cur.slot ∧ e.ctx = s.cur.ctx ∧ e.pc = (c.prefixes.map (·.first)).getD c.pc ∧
      e.desc = c.reg f.ga ∧ e.object = c.reg f.gb ∧ e.scope = f.fn7.setWidth 3 ∧ e.priv = c.priv ∧ e.asid = st.asid.toNat ∧
      e.root = st.ptroot.toNat ∧ e.owner = (st.launch, st.ordinal, s.cur.ctx) ∧ e.strip = st.firstStrip + st.splpts ∧ e.stopped = false ∧
      e.snap = none ∧ e.skip = none) ∧
    (16 ≤ outstanding s st → exec i s = .next (s.updCtx s.cur.slot s.cur.ctx (fun c => c.await .slots s.now (some i))))

/-- R112, R246, R258: a command that may start, and that names no completion object: with its descriptor misaligned it ends with 0x04, its address and its
strip owed to its context; stopped, it ends with none of its work done; and when its work comes to an end, it is no longer outstanding and its flags are
in its context's set. A command that is not outstanding does nothing. -/
def Sys2Proof.Claim.EngineCommandsEnd : Prop :=
  ∀ (s : State) (slot : Nat) (st : Strand) (e : EngineCmd), s.residentOwner e = some (slot, st) → s.strand? slot = some st →
    s.engines.find? (fun x => x.id == e.id) = some e → (commandFields e.instr).gb = 0 →
    let c := st.ctx e.ctx
    (∀ n, (∀ x ∈ s.engines, x.id ≠ n) → exec (.engineComplete n) s = .next s) ∧
    (e.stopped = true → ∃ t st', exec (.engineComplete e.id) s = .next t ∧ (∀ x, x ∈ t.engines ↔ x ∈ s.engines ∧ x.id ≠ e.id) ∧
      t.strand? slot = some st' ∧ st'.ctx e.ctx = c ∧ t.dev = s.dev) ∧
    (e.stopped = false → s.mayEnd e = true → e.snap = none → e.desc.toNat % (descriptorSize e.instr).2 ≠ 0 → c.retired = false →
      ∃ t st', exec (.engineComplete e.id) s = .next t ∧ (∀ x, x ∈ t.engines ↔ x ∈ s.engines ∧ x.id ≠ e.id) ∧
        t.strand? slot = some st' ∧ st'.ctx e.ctx = { c with engineErrors := c.engineErrors ++ [(.misaligned, e.pc, e.strip)] } ∧ t.dev = s.dev) ∧
    (∀ ending j, e.stopped = false → s.mayEnd e = true → s.work e = (some ending, j) → j.stop = none → j.s.strands = s.strands →
      (∀ x, x.id ≠ e.id → (x ∈ j.s.engines ↔ x ∈ s.engines)) →
      ∃ t st', exec (.engineComplete e.id) s = .next t ∧ (∀ x, x ∈ t.engines ↔ x ∈ s.engines ∧ x.id ≠ e.id) ∧
        t.strand? slot = some st' ∧ st'.ctx e.ctx = { c with flags := c.flags ||| j.flags } ∧ t.dev = j.s.dev)

namespace Sys2Proof.Claim
open Sys2Proof.Machine

/-- n bytes from va are mapped, for what a command does, into device memory as `pa` says. -/
def Mapped (s : State) (e : EngineCmd) (pa : Nat → Nat) (intent : Intent) (va n : Nat) : Prop :=
  ∀ i < n, s.resolve (s.engineAgent e) ((va + i) % 2 ^ 64) intent = .ok (.dev (pa ((va + i) % 2 ^ 64)))

/-- The visible bytes there. -/
def visible (s : State) (pa : Nat → Nat) (va n : Nat) : List Byte := (List.range n).map (fun i => s.dev.read (pa ((va + i) % 2 ^ 64)))

/-- The shadow page of an address space at an address, outside the scratchpads, and its byte there (R113). -/
def shadowPage (s : State) (asid va : Nat) : Option Shadow := s.shadows.find? (fun sh => sh.isPage asid none (va / 4096 * 4096))

/-- The byte at an address as a command's writes have left it, none in a page that no command has written (R113). -/
def shadowed (s : State) (asid va : Nat) : Option Byte := (shadowPage s asid va).map (fun sh => sh.bytes.getD (va % 4096) 0)

/-- A command of a resident strand that may do its work now and names no completion object. Nothing is spliced, elided or poisoned, no migration is
under way, the mapping is by pages, and the context has not retired. -/
structure Works (s : State) (slot : Nat) (st : Strand) (e : EngineCmd) (pa : Nat → Nat) : Prop where
  owner : s.residentOwner e = some (slot, st)
  here : s.strand? slot = some st
  found : s.engines.find? (fun x => x.id == e.id) = some e
  silent : (commandFields e.instr).gb = 0
  goes : e.stopped = false
  ready : s.mayEnd e = true
  alive : (st.ctx e.ctx).retired = false
  plain : st.group = none ∧ s.elided = [] ∧ s.poison = []
  pages : ∀ va, pa va = pa (va / 4096 * 4096) + va % 4096
  whole : ∀ sh ∈ s.shadows, sh.bytes.length = 4096 ∧ sh.moved = none ∧ sh.origin = none ∧ sh.poison = []
  canonical : s.memWf = true

/-- A command's descriptor: the snapshot it took as it started, or before that what stands at its address, aligned to its size (R257, R346). -/
def Described (s : State) (e : EngineCmd) (pa : Nat → Nat) (size align : Nat) (d : List Byte) : Prop :=
  (e.snap = some d ∧ d.length = size) ∨
    (e.snap = none ∧ e.desc.toNat % align = 0 ∧ Mapped s e pa .load e.desc.toNat size ∧ d = visible s pa e.desc.toNat size)

/-- The step ends the command; no memory that agents see has changed. -/
def EndsUnseen (s : State) (e : EngineCmd) (t : State) : Prop :=
  exec (.engineComplete e.id) s = .next t ∧ (∀ x ∈ t.engines, x.id ≠ e.id) ∧ t.dev = s.dev ∧ t.ws = s.ws ∧ t.host = s.host ∧
    t.remotes = s.remotes

/-- The bytes of a list stand in the shadow from an address on. -/
def InShadow (t : State) (asid va : Nat) (bs : List Byte) : Prop :=
  ∀ i < bs.length, shadowed t asid ((va + i) % 2 ^ 64) = some (bs.getD i 0)

/-- Bytes outside a set of addresses: a shadow keeps its own, and a page whose shadow was made copied the visible ones (R113). -/
def ShadowKeeps (s t : State) (asid : Nat) (pa : Nat → Nat) (dest : Nat → Prop) : Prop :=
  ∀ va, ¬ dest va →
    (∀ b, shadowed s asid va = some b → shadowed t asid va = some b) ∧
    (shadowed s asid va = none → shadowed t asid va = none ∨ shadowed t asid va = some (s.dev.read (pa va)))

/-- An address is one of n bytes from va. -/
def among (va n x : Nat) : Prop := ∃ i < n, x = (va + i) % 2 ^ 64

/-- Start of run (k1, k2) of a copy from a base address, with its strides (R259). -/
def runStart (base : Nat) (stride1 stride2 : Int) (k1 k2 : Nat) : Nat :=
  (((base : Int) + k1 * stride1 + k2 * stride2) % (2 ^ 64 : Int)).toNat

/-- The encoding an FP32 result has, rounded once under RNE. -/
def rne32 (x : Exact) : Nat := (x.deliver 14 0 false 0).1
/-- Product, fused multiply-add, quotient, sum and square root in FP32. -/
def mul32 (a b : Nat) : Nat := rne32 (fMul (decodeF 14 a) (decodeF 14 b))
/-- fused multiply-add -/
def fma32 (a b c : Nat) : Nat := rne32 (fFma 0 (decodeF 14 a) (decodeF 14 b) (decodeF 14 c))
/-- quotient -/
def div32 (a b : Nat) : Nat := rne32 (fDiv (decodeF 14 a) (decodeF 14 b))
/-- sum -/
def add32 (a b : Nat) : Nat := rne32 (fAdd 0 (decodeF 14 a) (decodeF 14 b))
/-- square root -/
def sqrt32 (a : Nat) : Nat := rne32 (fSqrt (decodeF 14 a))
/-- The same number with its sign changed. -/
def neg32 (a : Nat) : Nat := if a < 2 ^ 31 then a + 2 ^ 31 else a - 2 ^ 31

/-- The new M, V and W of an element by R262, from a gradient of a tag, with the parameters LR, WD, B1, OMB1, B2, OMB2, EPS, C1, C2 and GSCALE
in their order in the descriptor. -/
def optimiser (adaptive : Bool) (p : Nat → Nat) (tag : Tag) (w g m v : Nat) : Nat × Nat × Nat :=
  let gs := rne32 (fMul (decodeF tag g) (decodeF 14 (p 9)))
  if !adaptive then
    let m1 := fma32 (p 2) m gs
    (m1, v, fma32 (neg32 (p 0)) (fma32 (p 1) w m1) w)
  else
    let m1 := fma32 (p 2) m (mul32 (p 3) gs)
    let v1 := fma32 (p 4) v (mul32 (p 5) (mul32 gs gs))
    let d := div32 (mul32 m1 (p 7)) (add32 (sqrt32 (mul32 v1 (p 8))) (p 6))
    (m1, v1, fma32 (neg32 (p 0)) (fma32 (p 1) w d) w)

/-- A sum of a collective in its tag: integers wrap, others are rounded under RNE (R261). -/
def collectiveSum (tag : Tag) : List Nat → Nat
  | [] => 0
  | x :: rest => rest.foldl (fun a b =>
      if tag = 3 then (a + b) % 2 ^ 32 else if tag = 4 then (a + b) % 2 ^ 64
      else ((fAdd 0 (decodeF tag a) (decodeF tag b)).deliver tag 0 false 0).1) x

/-- Element e of n bytes of a list, as a number. -/
def elementOf (bs : List Byte) (n e : Nat) : Nat := leNat ((bs.drop (n * e)).take n)

/-- The scale byte of a block of finite elements of RQNT: 127 where all are zero, else ⌊log2 a⌋ − E + 127 of the largest magnitude a, held within 0 to
254 (R265). -/
def blockByte (dtag : Nat) (vs : List FVal) : Nat :=
  let logs := vs.filterMap (fun v => match v with
    | .fin _ m e => if m = 0 then none else some ((Nat.log2 m : Int) + e)
    | _ => none)
  match logs with
  | [] => 127
  | x :: rest => (min (max (rest.foldl max x - (if dtag = 10 then 7 else if dtag = 11 then 14 else 2) + 127) 0) 254).toNat

/-- A value over 2^(byte − 127), rounded once into a format (R265). -/
def quantised (dtag : Tag) (rm : BitVec 3) (sat : Bool) (byte : Nat) (v : FVal) : Nat :=
  match v with
  | .fin neg m e => ((Exact.val neg m (e - byte + 127)).deliver dtag rm sat 0).1
  | _ => 0

end Sys2Proof.Claim

/-- R113, R259, R262 to R265: what commands write, each only into the shadow of its destination, byte by byte, no visible byte changing. CPY: at every
destination byte of one run alone, the source byte of its run. UPD: with SKIP zero the new W and M of R262, and with RULE 1 V; with SKIP not zero
nothing. KVFILE: the oldest record not yet filed at its slot, which leaves the journal. RQNT, by a mode that draws no number: the scale byte and the
codes of each block of finite elements, 8 bits each, or FP4 two in a byte. RINV drops in every cluster of its scope the L1 lines with a byte of its range
and no other line. -/
def Sys2Proof.Claim.CommandsWriteShadows : Prop :=
  ∀ (f : YsF) (s : State) (slot : Nat) (st : Strand) (e : EngineCmd) (pa : Nat → Nat) (d : List Byte),
    (e.instr = .cpy f → Works s slot st e pa → Described s e pa 64 64 d → fieldLE d 0 8 ≠ fieldLE d 8 8 → fieldLE d 60 4 = 0 →
      let n := fieldLE d 48 4
      let src := runStart (fieldLE d 0 8) (fieldLEs d 16 8) (fieldLEs d 24 8)
      let dst := runStart (fieldLE d 8 8) (fieldLEs d 32 8) (fieldLEs d 40 8)
      0 < n → 0 < fieldLE d 52 4 → 0 < fieldLE d 56 4 →
      (∀ k1 < fieldLE d 52 4, ∀ k2 < fieldLE d 56 4, Mapped s e pa .load (src k1 k2) n ∧ Mapped s e pa .store (dst k1 k2) n) →
      ∃ t, EndsUnseen s e t ∧
        (∀ k1 < fieldLE d 52 4, ∀ k2 < fieldLE d 56 4, ∀ i < n,
          (∀ j1 < fieldLE d 52 4, ∀ j2 < fieldLE d 56 4, (j1, j2) ≠ (k1, k2) → ¬ among (dst j1 j2) n ((dst k1 k2 + i) % 2 ^ 64)) →
          shadowed t e.asid ((dst k1 k2 + i) % 2 ^ 64) = some (s.dev.read (pa ((src k1 k2 + i) % 2 ^ 64)))) ∧
        ShadowKeeps s t e.asid pa (fun x => ∃ k1 < fieldLE d 52 4, ∃ k2 < fieldLE d 56 4, among (dst k1 k2) n x)) ∧
    (∀ skip, e.instr = .upd f → Works s slot st e pa → Described s e pa 128 64 d →
      (e.snap.isSome = true ∧ e.skip = some skip) ∨
        (e.snap = none ∧ fieldLE d 32 8 % 8 = 0 ∧ Mapped s e pa .load (fieldLE d 32 8) 8 ∧ skip = leNat (visible s pa (fieldLE d 32 8) 8)) →
      let gtag := fieldLE d 45 1
      let gsize := tagWidth (BitVec.ofNat 4 gtag) / 8
      let adaptive := fieldLE d 44 1 == 1
      let n := fieldLE d 40 4
      let word := fun (off i : Nat) => leNat (visible s pa (fieldLE d off 8 + 4 * i) 4)
      let gradient := fun (i : Nat) => leNat (visible s pa (fieldLE d 8 8 + gsize * i) gsize)
      let new := fun (i : Nat) => optimiser adaptive (fun k => fieldLE d (64 + 4 * k) 4) (BitVec.ofNat 4 gtag) (word 0 i) (gradient i) (word 16 i)
        (if adaptive then word 24 i else 0)
      gtag = 14 ∨ gtag = 12 ∨ gtag = 13 → zeroBytes d 46 18 = true → zeroBytes d 104 24 = true → fieldLE d 44 1 ≤ 1 →
      (skip ≠ 0 → ∃ t, EndsUnseen s e t ∧ t.shadows = s.shadows) ∧
      (skip = 0 → fieldLE d 8 8 % gsize = 0 → Mapped s e pa .load (fieldLE d 8 8) (gsize * n) →
        fieldLE d 8 8 + gsize * n ≤ 2 ^ 64 → (∀ off ∈ [0, 16] ++ (if adaptive then [24] else []),
          fieldLE d off 8 % 4 = 0 ∧ fieldLE d off 8 + 4 * n ≤ Config.scratchBase ∧ Mapped s e pa .load (fieldLE d off 8) (4 * n) ∧
            Mapped s e pa .store (fieldLE d off 8) (4 * n)) →
        (∀ a ∈ [0, 16] ++ (if adaptive then [24] else []), ∀ b ∈ [0, 16] ++ (if adaptive then [24] else []), a < b →
          fieldLE d a 8 + 4 * n ≤ fieldLE d b 8 ∨ fieldLE d b 8 + 4 * n ≤ fieldLE d a 8) →
        ∃ t, EndsUnseen s e t ∧ ∀ i < n,
          InShadow t e.asid (fieldLE d 0 8 + 4 * i) (leBytes 4 (new i).2.2) ∧ InShadow t e.asid (fieldLE d 16 8 + 4 * i) (leBytes 4 (new i).1) ∧
          (adaptive = true → InShadow t e.asid (fieldLE d 24 8 + 4 * i) (leBytes 4 (new i).2.1)))) ∧
    (∀ r, e.instr = .kvfile f → Works s slot st e pa →
      (e.snap = some d ∧ d.length = 64) ∨ (e.snap = none ∧ e.desc.toNat % 32 = 0 ∧ Mapped s e pa .load e.desc.toNat 32 ∧
        Mapped s e pa .load (fieldLE d 0 8) 32 ∧ d = visible s pa e.desc.toNat 32 ++ visible s pa (fieldLE d 0 8) 32) → st.journal.filter (fun x => decide (x.commit < e.upTo)) = [r] →
      let table := d.drop 32
      let p := r.key.toNat % 2 ^ 48
      let entry := (fieldLE table 0 8 + 8 * (p / 256)) % 2 ^ 64
      let block := leNat (visible s pa entry 8)
      let va := (block + p % 256 * fieldLE table 12 2 + fieldLE table 16 8) % 2 ^ 64 + r.key.toNat / 2 ^ 48 % 256 * fieldLE d 8 8
      fieldLE d 0 8 % 8 = 0 → zeroBytes d 16 16 = true → fieldLE table 12 2 ≠ 0 → zeroBytes table 14 2 = true → zeroBytes table 24 8 = true →
      fieldLE table 0 8 % 8 = 0 → r.key.toNat / 2 ^ 56 = 0 → p / 256 < fieldLE table 8 4 → Mapped s e pa .load entry 8 → block ≠ 0 →
      Mapped s e pa .store va r.data.length → r.data.length ≤ 2 ^ 32 →
      ∃ t st', EndsUnseen s e t ∧ t.strand? slot = some st' ∧ InShadow t e.asid va r.data ∧
        ShadowKeeps s t e.asid pa (among va r.data.length) ∧ st'.journal = st.journal.filter (fun x => x.commit != r.commit)) ∧
    (e.instr = .rqnt f → Works s slot st e pa → Described s e pa 64 64 d →
      let n := fieldLE d 24 4
      let stag := fieldLE d 28 1
      let dtag := fieldLE d 29 1
      let mode := fieldLE d 30 1
      let size := tagWidth (BitVec.ofNat 4 stag) / 8
      let value := fun (i : Nat) => decodeF (BitVec.ofNat 4 stag) (leNat (visible s pa (fieldLE d 0 8 + size * i) size))
      let bytes := if dtag = 9 then (n + 1) / 2 else n
      let byte := fun (k : Nat) => blockByte dtag ((List.range (min 32 (n - 32 * k))).map (fun i => value (32 * k + i)))
      let code := fun (i : Nat) => quantised (BitVec.ofNat 4 dtag) (BitVec.ofNat 3 mode) (dtag = 9 || mode / 8 % 2 == 1) (byte (i / 32)) (value i)
      (stag = 14 ∨ stag = 12 ∨ stag = 13) → (dtag = 10 ∨ dtag = 11 ∨ dtag = 9) → zeroBytes d 31 33 = true → mode < 16 → mode % 8 < 5 →
      fieldLE d 0 8 % size = 0 → Mapped s e pa .load (fieldLE d 0 8) (size * n) → fieldLE d 0 8 + size * n ≤ 2 ^ 64 →
      Mapped s e pa .store (fieldLE d 8 8) bytes → fieldLE d 8 8 + bytes ≤ Config.scratchBase →
      Mapped s e pa .store (fieldLE d 16 8) ((n + 31) / 32) → fieldLE d 16 8 + (n + 31) / 32 ≤ Config.scratchBase →
      (fieldLE d 8 8 + bytes ≤ fieldLE d 16 8 ∨ fieldLE d 16 8 + (n + 31) / 32 ≤ fieldLE d 8 8) →
      (∀ i < n, (value i).nonFinite = false) → dtag ≠ 9 ∨ n % 2 = 0 →
      ∃ t, EndsUnseen s e t ∧ (∀ k < (n + 31) / 32, shadowed t e.asid (fieldLE d 16 8 + k) = some (BitVec.ofNat 8 (byte k))) ∧
        (dtag ≠ 9 → ∀ i < n, shadowed t e.asid (fieldLE d 8 8 + i) = some (BitVec.ofNat 8 (code i))) ∧
        (dtag = 9 → ∀ i < n / 2, shadowed t e.asid (fieldLE d 8 8 + i) = some (BitVec.ofNat 8 (code (2 * i) + 16 * code (2 * i + 1))))) ∧
    (e.instr = .rinv f → Works s slot st e pa → Described s e pa 16 16 d → Mapped s e pa .load (fieldLE d 0 8) (fieldLE d 8 8) →
      fieldLE d 0 8 + fieldLE d 8 8 ≤ 2 ^ 64 →
      let near := fun (k : Nat) => if e.scope.toNat ≤ 1 then k == e.slot / 4 else if e.scope = 2 then k / 4 == e.slot / 16
        else if e.scope = 3 then k / 16 == e.slot / 64 else true
      ∃ t, EndsUnseen s e t ∧ t.shadows = s.shadows ∧ ∀ k, (t.cluster k).l1 = (s.cluster k).l1.filter (fun l =>
        !(near k && l.cells.any (fun c => (List.range (fieldLE d 8 8)).any (fun i => c.1 == pa (fieldLE d 0 8 + i))))))

/-- R114, R260: PUB swaps at one step every shadow page of its buffer that is neither errored nor incomplete into the visible page at its place, of which
no L1 keeps a copy; those errored or incomplete are discarded; every other byte, and every shadow page elsewhere, stays. -/
def Sys2Proof.Claim.PublicationSwapsPages : Prop :=
  ∀ (f : YsF) (s : State) (slot : Nat) (st : Strand) (e : EngineCmd) (pa : Nat → Nat) (d : List Byte),
    e.instr = .pub f → Works s slot st e pa → Described s e pa 16 16 d → fieldLE d 0 8 % 4096 = 0 → fieldLE d 8 8 % 4096 = 0 →
    fieldLE d 0 8 + fieldLE d 8 8 ≤ Config.scratchBase →
    let page := fun (i : Nat) => fieldLE d 0 8 + 4096 * i
    let n := fieldLE d 8 8 / 4096
    let good := fun (i : Nat) (sh : Shadow) => shadowPage s e.asid (page i) = some sh ∧ sh.errored = none ∧ sh.incomplete = false
    (∀ i < n, ∀ sh, good i sh → Mapped s e pa .store (page i) 1 ∧ pa (page i) % 4096 = 0 ∧
      ∀ j < n, ∀ x, good j x → pa (page i) = pa (page j) → i = j) →
      ∃ t, exec (.engineComplete e.id) s = .next t ∧ (∀ x ∈ t.engines, x.id ≠ e.id) ∧
        (∀ i < n, ∀ sh, good i sh → (∀ k < 4096, t.dev.read (pa (page i) + k) = sh.bytes.getD k 0) ∧
          ∀ p ∈ t.clusters, ∀ l ∈ p.2.l1, ∀ c ∈ l.cells, c.1 / 4096 ≠ pa (page i) / 4096) ∧
        (∀ a, (∀ i < n, ∀ sh, good i sh → a / 4096 ≠ pa (page i) / 4096) → t.dev.read a = s.dev.read a) ∧
        (∀ i < n, shadowPage t e.asid (page i) = none) ∧
        (∀ sh ∈ s.shadows, (∀ i < n, sh.isPage e.asid none (page i) = false) → sh ∈ t.shadows) ∧
        t.ws = s.ws ∧ t.host = s.host ∧ t.remotes = s.remotes

/-- R261: CRED, once each member's contribution is there or lost: with all there, element by element, an all-reduce leaves in the shadow of DST the sum over
the members in ascending order, a reduce-scatter the segment SELF of it, an all-gather the members' segments one behind the other. With members lost that
contributed nothing, a reduction leaves at RECORD the number of chunks and for each the members that miss it. -/
def Sys2Proof.Claim.CollectivesCombine : Prop :=
  ∀ (f : YsF) (s : State) (slot : Nat) (st : Strand) (e : EngineCmd) (pa : Nat → Nat) (d : List Byte) (data : Nat → List Byte) (lost : Nat → Bool),
    e.instr = .cred f → Works s slot st e pa → Described s e pa 64 64 d →
    let tag := fieldLE d 29 1
    let size := tagWidth (BitVec.ofNat 4 tag) / 8
    let count := fieldLE d 24 4
    let op := fieldLE d 28 1
    let n := fieldLE d 30 1
    let self := fieldLE d 31 1
    let chunk := fieldLE d 32 4
    let group := fieldLE d 36 4
    let record := fieldLE d 16 8
    let source := size * count * (if op = 1 then 1 else n)
    let target := size * count * (if op = 0 then 1 else n)
    let dst := fieldLE d 8 8
    record % 8 = 0 → tag ∈ [14, 12, 13, 3, 4] → zeroBytes d 48 16 = true → op ≤ 2 → 1 ≤ n → n ≤ 64 → self < n → chunk ≠ 0 → chunk % 4096 = 0 →
    fieldLE d 0 8 % size = 0 → Mapped s e pa .load (fieldLE d 0 8) source → fieldLE d 0 8 + source ≤ 2 ^ 64 →
    Mapped s e pa .load (fieldLE d 40 8) (8 * n) → (∀ m < n, leNat (visible s pa (fieldLE d 40 8 + 8 * m) 8) < 1024) →
    dst % size = 0 → Mapped s e pa .store dst target → dst + target ≤ Config.scratchBase →
    s.credPart group self = none → data self = visible s pa (fieldLE d 0 8) source → lost self = false →
    (∀ m < n, m ≠ self → (s.credPart group m).map (fun p => (p.data, p.lost, p.here)) = some (data m, lost m, false)) →
    (∀ m < n, (s.remote (leNat (visible s pa (fieldLE d 40 8 + 8 * m) 8))).reachable = true) →
    ((∀ m < n, (data m).length = source) →
      ∃ t, EndsUnseen s e t ∧
        (op ≠ 1 → ∀ i < target / size, InShadow t e.asid (dst + size * i) (leBytes size (collectiveSum (BitVec.ofNat 4 tag)
          ((List.range n).map (fun m => elementOf (data m) size (if op = 0 then self * count + i else i)))))) ∧
        (op = 1 → ∀ m < n, InShadow t e.asid (dst + source * m) (data m))) ∧
    (op ≠ 1 → 0 < target → (∀ m < n, m ≠ self → (lost m = true ∧ data m = []) ∨ (data m).length = source) → (∃ m < n, lost m = true ∧ data m = []) →
      let chunks := (target + chunk - 1) / chunk
      Mapped s e pa .store record (8 + 8 * chunks) → record + 8 + 8 * chunks ≤ Config.scratchBase →
      (∀ i < 8 + 8 * chunks, ∀ j < 8 + 8 * chunks, pa (record + i) = pa (record + j) → i = j) →
      ∃ t, exec (.engineComplete e.id) s = .next t ∧ (∀ x ∈ t.engines, x.id ≠ e.id) ∧
        leNat (visible t pa record 8) = chunks ∧
        ∀ k < chunks, leNat (visible t pa (record + 8 + 8 * k) 8) =
          ((List.range n).map (fun m => if lost m && (data m).isEmpty then 2 ^ m else 0)).sum)

/-! ## Start and resumption -/

/-- R35, R37, R38, R110, R233, R347: a placed strand whose turn to start has come, of a launch that is no cohort and in no spliced group, starts, with an
acquire that drops its cluster's L1 lines; the first of its launch on the cluster finds the forest empty. One whose turn has not come does not start. -/
def Sys2Proof.Claim.StrandStarts : Prop :=
  ∀ (s : State) (st : Strand) (l : Launch), s.strand? s.cur.slot = some st → s.launch? st.launch = some l →
    (st.life = .placed → s.startsNext l st = true → l.spec.cohort = false → l.group = none →
      ∃ t, exec .strandStart s = .next t ∧ t.strand? s.cur.slot = some { st with life := .running } ∧
        (t.cluster (clusterOf s.cur.slot)).l1 = [] ∧ t.dev = s.dev ∧ t.launch? st.launch = some { l with begun := true } ∧
        (s.firstOn (clusterOf s.cur.slot) st.launch = true → (t.cluster (clusterOf s.cur.slot)).forest = none) ∧
        (∀ k, k ≠ st.launch → t.launch? k = s.launch? k) ∧ ∀ k, k ≠ s.cur.slot → t.strand? k = s.strand? k) ∧
    (st.life ≠ .placed → st.life ≠ .preempted → exec .strandStart s = .next s) ∧
    (st.life = .placed → s.startsNext l st = false → exec .strandStart s = .next s)

/-- R317: a pre-empted strand that is resumed in a slot that suits it, when the dispatcher comes to its launch: each context stands at its handler with cause
0x10, TVAL and REASON 0xFF, in a trap with PRIV = 1, IE = 0 and VEN = 0; ASID, PTROOT, CANLIMIT, CLOCKS, TVEC, TSCRATCH and ISSUES are what they were; it
leaves the pre-empted ones, and runs unless its cohort or group still waits for others (R37). That CLOCKS and ISSUES are kept is the model's
reading (log 69). -/
def Sys2Proof.Claim.StrandResumes : Prop :=
  ∀ (launch index slot : Nat) (s : State) (l : Launch) (st : Strand), s.launch? launch = some l →
    l.preempted.find? (fun x => x.ordinal == index) = some st → s.locked l.queue = false → s.suits l st slot = true → slot < Config.slots →
    (∀ p, s.launchPlan l = some p → s.served p = true) →
    ∃ t st' l', exec (.strandResume launch index slot) s = .next t ∧ t.strand? slot = some st' ∧ t.launch? launch = some l' ∧
      (∀ x ∈ l'.preempted, x.ordinal ≠ index) ∧ (st'.life = .running ∨ st'.life = .preempted) ∧
      (l.spec.cohort = false → l.group = none → l.id = launch → st'.life = .running) ∧
      (∀ id, let c := st.ctx id
        let c' := st'.ctx id
        c'.pc = c.tvec ∧ c'.cause = 0x10 ∧ c'.causeVector = false ∧ c'.tval = 0xFF ∧ c'.reason = 0xFF ∧ c'.priv = true ∧ c'.intrap = true ∧
          c'.ie = false ∧ c'.ven = false ∧ c'.tvec = c.tvec ∧ c'.tscratch = c.tscratch ∧ c'.issues = c.issues) ∧
      st'.asid = st.asid ∧ st'.ptroot = st.ptroot ∧ st'.canlimit = st.canlimit ∧ st'.clocks = st.clocks ∧ t.dev = s.dev


/-! ## Translation -/

namespace Sys2Proof.Claim
open Sys2Proof.Machine

/-- An entry is gone from a table of numbered entries, and the others are what they were. -/
def Dropped {α : Type} (l l' : List (Nat × α)) (k : Nat) : Prop := l'.length + 1 = l.length ∧ ∀ j, j ≠ k → lookup l' j = lookup l j

/-- Everyone who waits faults with a cause at a page, and the page is asked for no more (R327, R331). -/
def FaultsFor (s t : State) (who : List Requester) (page : Nat) (cause : Cause) : Prop :=
  t.xlatFaults = who.map (fun r => { who := r, page, cause : XlatFault }) ++ s.xlatFaults ∧ t.tlb = s.tlb ∧ t.dev = s.dev

/-- The cause of a translation fault (R327). -/
def causeOf : Intent → Cause
  | .store | .atomic => .translationStore
  | .load | .fetch => .translationLoad

/-- A leaf's bits of R326 and R332: its page-table entry with A set, and D for a store or an atomic. -/
def marked (e : Word) (intent : Intent) : Word :=
  e ||| 0x20 ||| (match intent with | .store | .atomic => 0x40 | .load | .fetch => 0)

/-- An address space takes part in PRI, or in ATS (R323). -/
def takesPri (s : State) (asid : Nat) : Bool := ((lookup s.spaces asid).map (·.pri)).getD false
/-- ATS (R323) -/
def takesAts (s : State) (asid : Nat) : Bool := ((lookup s.spaces asid).map (·.ats)).getD false

end Sys2Proof.Claim

/-- R326 to R329, R331, R332, R334: what a walk that has a walker comes to, for every walk in flight the event completes. A malformed
entry, and a host leaf of a space without ATS, fault with 0x07 at everyone who waits, and a forbidden leaf at those whose access it is; an entry that is not
present faults by its access, or is asked for where the space has PRI, joining the page's request if one is outstanding; a leaf of device memory that maps no
64 KiB block has A set, and D for a write, in its entry, eight bytes of memory, and is filled into the quad's L2 TLB; a walk that an invalidation has overtaken
starts again. While its completion is awaited from the host, or no walker is free, the walk stays as it is. -/
def Obligations.WalksEnd : Prop :=
  ∀ (k : Nat) (s : State) (w : Walk), lookup s.walks k = some w →
    (∃ t, exec (.pageWalkFill k) s = .next t ∧ t.host = s.host ∧ t.strands = s.strands) ∧
    (w.ats = true ∨ s.hasWalker k w = false → exec (.pageWalkFill k) s = .next s) ∧
    (w.ats = false → s.hasWalker k w = true →
    let r := s.walkTable (dieOf (4 * w.quad)) w.asid w.root w.va
    let page := w.va / 4096 * 4096
    let denied := fun (who : List Requester) =>
      ∃ t, exec (.pageWalkFill k) s = .next t ∧ Dropped s.walks t.walks k ∧ FaultsFor s t who page .protection
    let all := w.who ++ w.also
    (r = .protection → denied all) ∧
    (r = .notPresent → takesPri s w.asid = false →
      ∃ t, exec (.pageWalkFill k) s = .next t ∧ Dropped s.walks t.walks k ∧ FaultsFor s t all page (causeOf w.intent)) ∧
    (r = .notPresent → takesPri s w.asid = true → all ≠ [] → (∀ slot, .probe slot ∉ all) →
      ∃ t n q, exec (.pageWalkFill k) s = .next t ∧ Dropped s.walks t.walks k ∧ t.tlb = s.tlb ∧ t.xlatFaults = s.xlatFaults ∧
        lookup t.pageReqs n = some q ∧ q.asid = w.asid ∧ q.va = page ∧ (∀ x ∈ all, x ∈ q.who) ∧
        (∀ space, (∀ e ∈ s.pageReqs, e.2.asid = w.asid → e.2.va ≠ page) → lookup s.spaces w.asid = some space →
          q.pasid = space.pasid ∧ q.func = space.func ∧ q.last = true ∧ q.intent = w.intent ∧ q.since = s.now ∧ q.who = all)) ∧
    (∀ l, r = .leaf l →
      (l.permits w.intent w.priv = false → denied w.who) ∧
      (l.permits w.intent w.priv = true → pteTier l.entry = 1 → takesAts s w.asid = false → denied all) ∧
      (l.permits w.intent w.priv = true → (pteTier l.entry = 1 → takesAts s w.asid = true) → w.stale = true →
        ∃ t w', exec (.pageWalkFill k) s = .next t ∧ lookup t.walks k = some w' ∧ w' = { w with stale := false, startSeq := s.tlbseq.toNat } ∧
          t.tlb = s.tlb ∧ t.dev = s.dev) ∧
      (l.permits w.intent w.priv = true → pteTier l.entry = 1 → takesAts s w.asid = true → w.stale = false →
        ∃ t, exec (.pageWalkFill k) s = .next t ∧ lookup t.walks k = some { w with ats := true } ∧ t.tlb = s.tlb ∧ t.dev = s.dev) ∧
      (l.permits w.intent w.priv = true → pteTier l.entry = 0 → pteC64 l.entry = false → w.stale = false → s.memWf = true →
        let size := leafBytes l.level
        ∃ t e, exec (.pageWalkFill k) s = .next t ∧ Dropped s.walks t.walks k ∧ t.xlatFaults = s.xlatFaults ∧ e ∈ t.tlb ∧
          e.quad = w.quad ∧ e.cluster = none ∧ e.asid = w.asid ∧ e.size = size ∧ e.va = w.va / size * size ∧ e.home = .device ∧
          e.pa + w.va % size = ptePA l.entry + w.va % size ∧
          e.read = permRead (ptePerm l.entry) ∧ e.write = permWrite (ptePerm l.entry) ∧ e.execute = permExec (ptePerm l.entry) ∧
          e.user = pteU l.entry ∧
          (∀ i < 8, t.dev.read (l.addr + i) = (marked (BitVec.ofNat 64 (s.dev.readLE l.addr 8)) w.intent).extractLsb' (8 * i) 8) ∧
          (∀ a, a < l.addr ∨ l.addr + 8 ≤ a → t.dev.read a = s.dev.read a))))

/-- R326, R330: a host's completion for a walk whose leaf is a host leaf fills the quad's L2 TLB with the translation and the grants it gives, and sets A; a leaf of a
64 KiB group that does not map one block is filled as a page of 4 KiB; one
that does not grant the access ends the walk in a translation fault, where the space has no PRI; one that comes after an overlapping invalidation makes the walk
start again. -/
def Sys2Proof.Claim.HostTranslations : Prop :=
  ∀ (k pa log2 : Nat) (read write : Bool) (s : State) (w : Walk), lookup s.walks k = some w → w.ats = true → 12 ≤ log2 →
    let i : Instr := .atsCompletion k pa log2 read write
    (w.stale = true → ∃ t, exec i s = .next t ∧
      lookup t.walks k = some { w with ats := false, stale := false, startSeq := s.tlbseq.toNat } ∧ t.tlb = s.tlb ∧ t.dev = s.dev) ∧
    (∀ l, s.walkTable (dieOf (4 * w.quad)) w.asid w.root w.va = .leaf l → pteTier l.entry = 1 → l.permits w.intent w.priv = true →
      w.stale = false →
      (hostGrants read write w.intent = true → ∃ t e, exec i s = .next t ∧ Dropped s.walks t.walks k ∧ e ∈ t.tlb ∧ e.quad = w.quad ∧ e.cluster = none ∧
        e.asid = w.asid ∧ e.home = .host ∧ e.hostRead = read ∧ e.hostWrite = write ∧ e.va ≤ w.va ∧ w.va < e.va + e.size ∧
        e.pa + (w.va - e.va) = pa / 2 ^ log2 * 2 ^ log2 + w.va % 2 ^ log2 ∧ (l.level = 5 → pteC64 l.entry = true → s.blockWhole l = false → e.size = 4096)) ∧
      (hostGrants read write w.intent = false → takesPri s w.asid = false → ∃ t, exec i s = .next t ∧ Dropped s.walks t.walks k ∧
        t.tlb = s.tlb ∧ t.xlatFaults = (w.who ++ w.also).map (fun r => { who := r, page := w.va / 4096 * 4096, cause := causeOf w.intent : XlatFault }) ++ s.xlatFaults))

/-- R330, R331: an ATS invalidation leaves no translation of any page it covers in the space its PASID and function name, and every other; its completion is sent at
once where no stream chunk still uses a translation from before it; a
successful page response only ends the request, so that its accesses walk again; an unsuccessful one, and a request that has stood past a
limit that is not 0, faults each access that waits. -/
def Sys2Proof.Claim.HostInvalidationsAndPages : Prop :=
  ∀ (s : State),
    (∀ (pasid func pages asid : Nat) (va : Word), s.spaceOf pasid func = some asid →
      ∃ t, exec (.atsInvalidation pasid func va pages) s = .next t ∧ t.tlbseq = s.tlbseq + BitVec.ofNat 64 pages ∧ t.dev = s.dev ∧
        (s.atsOwed = [] → (∀ e ∈ s.strands, e.2.allStreams = []) → t.atsOwed = [] ∧
          t.atsSent = { pasid, func, va := va.toNat / 4096 * 4096, pages, chunks := [] } :: s.atsSent) ∧
        ∀ e, e ∈ t.tlb ↔ e ∈ s.tlb ∧ ∀ i < pages,
          let page := (va.toNat / 4096 * 4096 + 4096 * i) % 2 ^ 64
          ¬ (e.asid = asid ∧ e.va ≤ page ∧ page < e.va + e.size)) ∧
    (∀ (req : Nat) (r : PageReq), lookup s.pageReqs req = some r →
      (∃ t, exec (.priResponse req .success) s = .next t ∧ Dropped s.pageReqs t.pageReqs req ∧ t.xlatFaults = s.xlatFaults ∧ t.dev = s.dev) ∧
      (∀ answer, answer ≠ .success → ∃ t, exec (.priResponse req answer) s = .next t ∧ Dropped s.pageReqs t.pageReqs req ∧
        FaultsFor s t r.who r.va (causeOf r.intent)) ∧
      (∀ space, lookup s.spaces r.asid = some space →
        (space.pritmo = 0 ∨ s.now - r.since < space.pritmo * 2 ^ 20 → exec (.priTimeout req) s = .next s) ∧
        (0 < space.pritmo → space.pritmo * 2 ^ 20 ≤ s.now - r.since → ∃ t, exec (.priTimeout req) s = .next t ∧
          Dropped s.pageReqs t.pageReqs req ∧ FaultsFor s t r.who r.va (causeOf r.intent))))


/-! ## Queues and their packets -/

namespace Sys2Proof.Claim
open Sys2Proof.Machine

/-- Nothing is left over that the end of a packet of queue q would set off by itself: no policy of R352 has still to act, and no destroyed queue waits to be
forgotten (R353). -/
structure Settled (s : State) (q : Nat) : Prop where
  quiet : ∀ e ∈ s.queues, ∀ y ∈ e.2.packets, s.struck e.2 y = false
  kept : ∀ e ∈ s.queues, e.2.destroyed = none
  number : q < queueNumbers

/-- Packet number seq of queue q, the packet p of kind `kind`: every packet before it has ended, or is a launch that has started, the queue is not
halted before it, a core handles its events and no earlier one waits, and nothing else is due by itself (R338, R339, R344, R347). -/
structure Due (s : State) (q seq : Nat) (kind : PacketKind) (x : Queue) (p : Packet) : Prop where
  queue : s.queue? q = some x
  packet : x.packets[seq]? = some p
  number : p.seq = seq
  kind : p.kind = kind
  turn : x.due seq [] = true
  core : (s.coreFor q x.part).isSome = true
  settled : Settled s q

/-- No packet depends on packet seq of queue q. -/
def Undepended (s : State) (q seq : Nat) : Prop := ∀ e ∈ s.queues, ∀ y ∈ e.2.packets, (q, seq) ∉ y.deps

/-- The packet is in a state and nothing else of its queue differs, but that launches which it held back are noted as dispatchable (R274, R348). -/
def PacketIs (t : State) (q seq : Nat) (x : Queue) (p : Packet) (now : PacketState) : Prop :=
  ∃ x', t.queue? q = some x' ∧ x' = { x with packets := x'.packets } ∧
    x'.packets.map (fun y => { y with ready := none }) = (x.packets.set seq { p with state := now }).map (fun y => { y with ready := none })

/-- A byte as the firmware reads it for an address space: one that it cannot translate reads as zero (log 21). -/
def firmwareByte (s : State) (asid va : Nat) : Byte :=
  match s.firmwarePlace asid va .load with
  | some p => byteAt s p
  | none => 0

/-- The condition of a WAITVAL on the doubleword that it reads (R344). -/
def conditionHolds (p : Packet) (w : Word) : Prop :=
  let a := (w &&& BitVec.ofNat 64 (fieldLE p.bytes 32 8)).toNat
  let v := fieldLE p.bytes 24 8
  if fieldLE p.bytes 40 1 = 0 then a = v else if fieldLE p.bytes 40 1 = 1 then a ≠ v
  else if fieldLE p.bytes 40 1 = 2 then v ≤ a else a < v

end Sys2Proof.Claim

/-- R338: a store to a notify word replaces it and sets the queue's bit of the pending vector; the scanner, at the partition whose turn it is, takes
one queue with a set bit, clears the bit and posts a fetch event for it, and goes on to the next partition; with no bit set it does nothing. -/
def Sys2Proof.Claim.NotifyAndScan : Prop :=
  ∀ (s : State),
    (∀ q w x, s.queue? q = some x → x.destroyed = none →
      ∃ t, exec (.notifyWrite q w) s = .next t ∧ t.queue? q = some { x with notify := w, pending := true } ∧ t.dev = s.dev ∧
        ∀ k, k ≠ q → t.queue? k = s.queue? k) ∧
    (∀ r, let part := s.cur.unit
      part < 12 → s.scanPart = part → lookup s.partitions part = some r → (∃ e ∈ s.queues, e.2.part = part ∧ e.2.pending = true) →
      ∃ t q x, exec .scannerFind s = .next t ∧ s.queue? q = some x ∧ t.queue? q = some { x with pending := false } ∧
        (∃ y, (q, y) ∈ s.queues ∧ y.part = part ∧ y.pending = true) ∧ t.inlet = s.inlet ++ [.fetch q] ∧ t.scanPart = (part + 1) % 12 ∧
        t.dev = s.dev ∧ ∀ k, k ≠ q → t.queue? k = s.queue? k) ∧
    ((∀ e ∈ s.queues, e.2.pending = false) → exec .scannerFind s = .next s)

/-- R338, R339: the core takes the first fetch event: with the notify word at or below the packets fetched, or past the ring's size above them, nothing is fetched; else
every packet up to the notify word is. The event is gone from the Inlet and the core's heartbeat counts it. A core that stops with the event in hand keeps it, and
the queue's lock (R340, log 72). (No replay is in progress: R369.) -/
def Sys2Proof.Claim.PacketsAreFetched : Prop :=
  ∀ (s : State) (q : Nat) (x : Queue) (rest : List InletEvent),
    let core := s.cur.unit
    let w := x.notify.toNat
    s.replaying = [] → s.inlet = .fetch q :: rest → s.queue? q = some x → x.destroyed = none → s.locked q = false →
    s.coreRuns x.part core = true →
    (s.cur.slot = 1 → ∃ t, exec .queueFetch s = .next t ∧ t.queues = s.queues ∧ t.inlet = rest ∧ (t.core core).event = some (.fetch q) ∧
      (t.core core).lock = some q) ∧
    (s.cur.slot ≠ 1 → w ≤ x.fetched ∨ x.fetched + 2 ^ x.log2n < w →
      ∃ t, exec .queueFetch s = .next t ∧ t.inlet = rest ∧ t.queues = s.queues ∧ t.dev = s.dev ∧
        (t.core core).heartbeat = (s.core core).heartbeat + 1) ∧
    (s.cur.slot ≠ 1 → Settled s q → x.fetched < w → w ≤ x.fetched + 2 ^ x.log2n →
      ∃ t x', exec .queueFetch s = .next t ∧ t.inlet = rest ∧ t.queue? q = some x' ∧ x'.fetched = w ∧
        x'.packets.length = x.packets.length + (w - x.fetched) ∧ (t.core core).heartbeat = (s.core core).heartbeat + 1)

/-- R344: a NOP that is due ends complete, and so does a BARRIER once every packet before it has ended; a WAITVAL that is due reads its doubleword, and ends
complete if its condition holds, as it does at a later read; else it goes on waiting. Device memory stays as it is, but for the leaf's bits and the
record of a host read that the read itself leaves (R332, R368). (The completion record's bytes: the statement below.) -/
def Sys2Proof.Claim.OrderingPacketsEnd : Prop :=
  ∀ (q seq : Nat) (s : State) (x : Queue) (p : Packet),
    let ends := fun (i : Instr) (read : State) => ∃ t, exec i s = .next t ∧ PacketIs t q seq x p (.ended 1) ∧ (p.compl = 0 → t.dev = read.dev)
    let read := s.fwSeen x.part x.asid (fieldLE p.bytes 16 8) 8
    let waits := fun (i : Instr) => ∃ t, exec i s = .next t ∧ PacketIs t q seq x p .started ∧ t.dev = read.dev
    let word := s.fwDouble x.asid (fieldLE p.bytes 16 8)
    (Due s q seq .nop x p → p.unstarted = true → ends (.nop q seq) s) ∧
    (Due s q seq .barrier x p → p.unstarted = true →
      ((∀ y ∈ x.packets.take seq, ∃ status, y.state = .ended status) → ends (.barrier q seq) s) ∧
      ((∃ y ∈ x.packets.take seq, ∀ status, y.state ≠ .ended status) → exec (.barrier q seq) s = .next s)) ∧
    (Due s q seq .waitval x p →
      (p.unstarted = true → (conditionHolds p word → ends (.waitval q seq) read) ∧ (¬ conditionHolds p word → waits (.waitval q seq))) ∧
      (p.state = .started → (conditionHolds p word → ends (.waitvalPoll q seq) read) ∧ (¬ conditionHolds p word → waits (.waitvalPoll q seq))))

/-- R332, R351: the completion record of a NOP, in host memory: STATUS 1, REASON 0, FLAGS 0, NFAULT 0, then TAG, SEQ and zeros; device memory changes by
the bits alone that the store sets in its leaves. -/
def Sys2Proof.Claim.CompletionRecord : Prop :=
  ∀ (q seq h : Nat) (s : State) (x : Queue) (p : Packet), Due s q seq .nop x p → p.unstarted = true → s.memWf = true → p.compl ≠ 0 →
    let marked := s.fwMark x.asid p.compl.toNat 64 .store
    (∀ i < 64, marked.firmwarePlace x.asid (p.compl.toNat + i) .store = some (.host (h + i))) →
      ∃ t, exec (.nop q seq) s = .next t ∧ t.dev = marked.dev ∧
        (∀ i < 64, t.host.read (h + i) =
          if i = 0 then 1 else if 8 ≤ i ∧ i < 12 then p.tag.extractLsb' (8 * (i - 8)) 8
          else if 16 ≤ i ∧ i < 24 then BitVec.ofNat 8 (seq / 2 ^ (8 * (i - 16))) else 0) ∧
        ∀ a, a < h ∨ h + 64 ≤ a → t.host.read a = s.host.read a

/-- R95, R345: a WSLOAD into a region with a free slot copies its header and its data there, REGION and a number above every one the region had written
into the header, and ends complete; with both slots occupied it waits; one that differs from its region is refused. A WSREL releases a generation that is resident, whose slot is
free at once when no launch pins it, and else once the last has ended; of one that is not resident it is refused. -/
def Sys2Proof.Claim.WeightStorePackets : Prop :=
  ∀ (q seq : Nat) (s : State) (x : Queue) (p : Packet), p.unstarted = true → s.memWf = true →
    let region := fieldLE p.bytes 16 8
    let r := s.regionFor p
    let same := r.offset = fieldLE p.bytes 32 4 ∧ r.place = fieldLE p.bytes 36 1 ∧ fieldLE p.bytes 40 8 ≤ r.maxSize
    let refused := fun (i : Instr) => ∃ t, exec i s = .next t ∧ PacketIs t q seq x p (.ended 5) ∧ t.regions = s.regions ∧ t.ws = s.ws
    (Due s q seq .wsload x p →
      (same → (∃ j : Fin 2, r.slots[j] = none) →
        ∃ (t : State) (r' : WsRegion) (g : Generation) (j : Fin 2), exec (.wsload q seq) s = .next t ∧ PacketIs t q seq x p (.ended 1) ∧ lookup t.regions region = some r' ∧ r.slots[j] = none ∧
          r'.slots = r.slots.set j (some g) ∧ r.nextGen < g.gennum ∧ r'.nextGen = g.gennum ∧ g.released = false ∧ g.pins = [] ∧
          (∀ die (h : die < 2), r.place = die ∨ r.place = 2 → ∀ i < 8,
            (t.ws[die]).read (r.offset + j.val * r.stride + i) = BitVec.ofNat 8 (region / 2 ^ (8 * i)) ∧
            (t.ws[die]).read (r.offset + j.val * r.stride + 8 + i) = BitVec.ofNat 8 (g.gennum / 2 ^ (8 * i))) ∧
          (∀ die (h : die < 2), r.place = die ∨ r.place = 2 → ∀ i < 48 + fieldLE p.bytes 40 8,
            (t.ws[die]).read (r.offset + j.val * r.stride + 16 + i) = firmwareByte s x.asid (fieldLE p.bytes 24 8 + 16 + i))) ∧
      (same → (∀ j : Fin 2, r.slots[j] ≠ none) → exec (.wsload q seq) s = .next s) ∧
      (¬ same → Undepended s q seq → refused (.wsload q seq))) ∧
    (Due s q seq .wsrel x p →
      (∀ j r g, lookup s.regions region = some r → r.slots.toList[j]? = some (some g) → g.gennum = fieldLE p.bytes 24 8 →
        (∀ k h, r.slots.toList[k]? = some (some h) → k ≠ j → h.gennum ≠ g.gennum ∧ h.released = false) →
        ∃ t, exec (.wsrel q seq) s = .next t ∧ PacketIs t q seq x p (.ended 1) ∧
          (g.pins ≠ [] → ∃ r', lookup t.regions region = some r' ∧ r'.slots.toList = r.slots.toList.set j (some { g with released := true })) ∧
          (g.pins = [] → (∃ k h, k ≠ j ∧ r.slots.toList[k]? = some (some h)) →
            ∃ r', lookup t.regions region = some r' ∧ r'.slots.toList = r.slots.toList.set j none)) ∧
      ((∀ r, lookup s.regions region = some r → ∀ g, some g ∈ r.slots.toList → g.gennum ≠ fieldLE p.bytes 24 8) → Undepended s q seq →
        refused (.wsrel q seq)))

/-- R287, R343: a DEPGRAPH whose tasks are LAUNCH packets without dependences, under a number that is not active, with fewer than 64 graphs active in
its partition, begins the graph: every counter 0, nothing released; else it is refused, with a task that is no LAUNCH and beyond 64 graphs too (log 67). -/
def Sys2Proof.Claim.TaskGraphBegins : Prop :=
  ∀ (q seq : Nat) (s : State) (x : Queue) (p : Packet), Due s q seq .depgraph x p → p.unstarted = true →
    let key := x.part * 65536 + fieldLE p.bytes 16 2
    let tasks := s.taskBytes x p
    let ok := (∀ bs ∈ tasks, fieldLE bs 0 1 = 1 ∧ ∀ d < 4, fieldLE bs (32 + 4 * d) 4 = 0xFFFFFFFF) ∧ lookup s.graphs key = none ∧
      (s.graphs.filter (fun g => g.2.part == x.part)).length < 64
    (ok → ∃ t g, exec (.depgraph q seq) s = .next t ∧ PacketIs t q seq x p (.ended 1) ∧ lookup t.graphs key = some g ∧ g.part = x.part ∧
      g.ready = [] ∧ g.tasks.map (·.bytes) = tasks ∧ ∀ task ∈ g.tasks, task.counter = 0 ∧ task.released = false ∧ task.started = false) ∧
    (¬ ok → Undepended s q seq → ∃ t, exec (.depgraph q seq) s = .next t ∧ PacketIs t q seq x p (.ended 5) ∧ t.graphs = s.graphs)

/-- R274, R346, R348: a LAUNCH that is in a splice window, with a core to handle it, is read from memory as it stands; a SIBLAUNCH goes straight to the dispatcher; a
LAUNCH in the window that is not spliceable, once it has become dispatchable, every launch that did so before it is decided on, and every packet that was then in its
window has been read, goes to the dispatcher alone. -/
def Obligations.LaunchesEnterTheWindow : Prop :=
  ∀ (q seq : Nat) (s : State) (x : Queue) (p : Packet), s.queue? q = some x → x.packets[seq]? = some p → p.seq = seq → x.destroyed = none →
    ((s.coreFor q x.part).isSome = true → p.kind = .launch → p.state = .fetched → (∃ e ∈ s.queues, (q, p) ∈ s.window e.1) →
      (∀ e ∈ s.queues, ∀ y, (q, y) ∈ s.window e.1 → y.seq = seq → y = p) →
      ∃ t, exec (.launch q seq) s = .next t ∧ t.dev = (s.specSeen x p.bytes).dev ∧ t.queue? q = some { x with packets := x.packets.set seq { p with
        state := .windowed, spec := some (s.readSpec x p.prio p.bytes).1, refusal := (s.readSpec x p.prio p.bytes).2 } }) ∧
    ((s.coreFor q x.part).isSome = true → p.kind = .siblaunch → p.state = .fetched →
      ∃ t, exec (.siblaunch q seq) s = .next t ∧ PacketIs t q seq x p .decided ∧ t.dev = s.dev) ∧
    (∀ at_ present, p.ready = some (at_, present) → p.state = .windowed → x.due seq [] = true → s.depsMet x p [] = true → s.firstReady x.part at_ = true →
      (∀ m ∈ s.window q, (m.1, m.2.seq) ∈ present → m.2.state ≠ .fetched) → p.spliceSpec = none → ∃ t, exec (.spliceDecision q seq) s = .next t ∧ PacketIs t q seq x p .decided ∧ t.dev = s.dev) ∧
    (p.ready = none ∨ x.due seq [] = false ∨ s.depsMet x p [] = false → exec (.spliceDecision q seq) s = .next s)


/-! ## From packet to strand -/

namespace Sys2Proof.Claim
open Sys2Proof.Machine

/-- The placements a dispatch names. -/
def placements (place : List (Nat × Nat × Nat)) : List Placement := place.map (fun a => { vcluster := a.1, cluster := a.2.1, slot := a.2.2 })

/-- A core takes up the plan p of packet seq of queue q, of which nothing is placed: a launch by itself, no task, group or siblings (R339, R349). -/
structure Takes (s : State) (core q seq : Nat) (place : List (Nat × Nat × Nat)) (p : Seating) (spec : LaunchSpec) : Prop where
  plan : s.planNamed q seq ((place.head?.map (·.1)).getD 0) s.cur.slot = some p
  alone : p.members = [(q, seq, spec)]
  fresh : p.placed = []
  group : p.group = none
  task : p.task = none
  sib : p.sib = none
  runs : s.coreRuns p.part core = true
  due : s.dispatchDue q = true

/-- A strand of a launch as it is placed (R38). -/
def StartsAs (spec : LaunchSpec) (id vcluster i : Nat) (st : Strand) : Prop :=
  st.life = .placed ∧ st.launch = id ∧ st.vcluster = vcluster ∧ st.ordinal = vcluster * spec.shape.strands + i ∧
    st.exec.pc = spec.entryExec ∧ st.access.pc = spec.entryAccess ∧ st.exec.priv = spec.priv ∧ st.access.priv = spec.priv ∧
    st.exec.reg 0 = 0 ∧ st.exec.flags = 0 ∧ st.exec.ven = true ∧ st.vq = [] ∧ st.tags = Vector.replicate 32 8

end Sys2Proof.Claim

/-- R38, R339, R340, R350: a dispatch of a packet that has a reason to be refused ends it with STATUS 0x05; one whose placements are those R33 to R35 admit, at its
turn, begins its launch and places its strands, each at its entry points. A core that stops before its COMMIT has placed nothing that stands, holds what it
had taken and keeps the queue's lock; one that stops after it has placed everything. That a core stops where the turn's unit says is the model's
choice (log 72). (No replay is in progress: R369.) -/
def Sys2Proof.Claim.DispatchPlacesStrands : Prop :=
  ∀ (core q seq : Nat) (place : List (Nat × Nat × Nat)) (s : State) (p : Seating) (spec : LaunchSpec), Takes s core q seq place p spec →
    s.replaying = [] →
    let i : Instr := .dispatch core q seq place
    (∀ x o, s.reasons p ≠ [] → s.queue? q = some x → x.packets[seq]? = some o → o.seq = seq → Settled s q → Undepended s q seq →
      ∃ t, exec i s = .next t ∧ PacketIs t q seq x o (.ended 5) ∧ t.strands = s.strands ∧ t.launches = s.launches) ∧
    (s.reasons p = [] → s.placementOk p (placements place) = true → s.served p = true →
      (s.cur.unit = 0 ∨ place.length + 1 < s.cur.unit → ∃ t l, exec i s = .next t ∧ t.launch? s.nextLaunch = some l ∧ l.queue = q ∧ l.seq = seq ∧ l.spec = spec ∧
        l.placements = placements place ∧
        (∀ a ∈ placements place, ∀ k < p.slots, ∃ st, t.strand? (4 * a.cluster + a.slot + k) = some st ∧
          StartsAs spec s.nextLaunch a.vcluster k st) ∧
        (s.cur.unit = place.length + 2 → (t.core core).lock = some q ∧ (t.core core).event = some (.dispatch q seq))) ∧
      (0 < s.cur.unit → s.cur.unit ≤ place.length + 1 → ∃ t, exec i s = .next t ∧ t.strands = s.strands ∧ t.launches = s.launches ∧ t.queues = s.queues ∧
        (t.core core).lock = some q ∧ (t.core core).event = some (.dispatch q seq) ∧
        (t.core core).held = (place.take (s.cur.unit - 1)).map (fun a => (a.2.1, a.2.2, p.slots))))

/-- R340: a core that has stopped, and so been without a heartbeat, for 2^20 cycles is reset: its lock and what it held without a COMMIT are given back, its event stands at the head of the
Inlet again, and no strand, launch or packet changes; before that time, and of a core that has not stopped, nothing happens. -/
def Sys2Proof.Claim.StoppedCoreRecovers : Prop :=
  ∀ (s : State), let n := s.cur.unit
    (s.now < (s.core n).lastBeat + 2 ^ 20 ∨ (s.core n).event = none → exec .coreHeartbeatTimeout s = .next s) ∧
    (∀ e, (s.core n).lastBeat + 2 ^ 20 ≤ s.now → (s.core n).event = some e →
      ∃ t, exec .coreHeartbeatTimeout s = .next t ∧ t.inlet = e :: s.inlet ∧ (t.core n).lock = none ∧ (t.core n).event = none ∧
        (t.core n).held = [] ∧ t.strands = s.strands ∧ t.launches = s.launches ∧ t.queues = s.queues ∧ t.dev = s.dev)

/-- R351, R352: once every strand of a launch has retired, it is a launch no more, and its packet ends: complete when no strand faulted, with STATUS 0x02
when one did, and 0x04 when it was aborted; while a strand of it is left, nothing happens. -/
def Obligations.LaunchCompletes : Prop :=
  ∀ (id : Nat) (s : State) (l : Launch), s.launch? id = some l →
    (s.launchOver l = false → exec (.launchComplete id) s = .next s) ∧
    (s.launchOver l = true → (s.coreFor l.queue l.part).isSome = true → l.siblings = none ∨ (s.launches.map (·.1)).Pairwise (· < ·) → ∃ t, exec (.launchComplete id) s = .next t ∧ Dropped s.launches t.launches id) ∧
    (∀ x p, s.launchOver l = true → (s.coreFor l.queue l.part).isSome = true → l.siblings = none → l.task = none → l.group = none →
      s.queue? l.queue = some x → x.packets[l.seq]? = some p → p.seq = l.seq → Settled s l.queue → Undepended s l.queue l.seq →
      ∃ t, exec (.launchComplete id) s = .next t ∧ Dropped s.launches t.launches id ∧
        PacketIs t l.queue l.seq x p (.ended (if l.aborted then 4 else if ∃ w ∈ l.words, w.status = 1 then 2 else 1)))


/-! ## Firmware commands -/

namespace Sys2Proof.Claim
open Sys2Proof.Machine

/-- The mailbox of the function that the turn's unit names holds a command with its reserved bytes 0, and a core handles it, which does not stop with it in hand, as
none has (R339, R340, R359, R360). -/
structure Asked (s : State) (cmd : Nat) : Prop where
  busy : (s.mailbox s.cur.unit).busy = true
  code : (s.mailbox s.cur.unit).cmd = cmd
  reserved : zeroBytes (s.mailbox s.cur.unit).block 4 4 = true
  core : (s.commandCore s.cur.unit).isSome = true
  goes : s.cur.slot ≠ 1
  free : s.commandHeld s.cur.unit = false

/-- Operand n of the command (log 41). -/
def operandOf (s : State) (n : Nat) : Nat := fieldLE (s.mailbox s.cur.unit).block (8 + 8 * n) 8

/-- The command has ended: BUSY is clear, and STATUS and the results stand in host memory in the block that was read at GO (R359, log 41). -/
def Answered (s t : State) (status : Nat) (results : List Nat) : Prop :=
  let m := s.mailbox s.cur.unit
  (t.mailbox s.cur.unit).busy = false ∧ (t.mailbox s.cur.unit).last = BitVec.ofNat 8 status ∧
    (∀ i < 2, t.host.read (m.blockAt.toNat + 2 + i) = BitVec.ofNat 8 (status / 2 ^ (8 * i))) ∧
    (∀ j x, results[j]? = some x → ∀ i < 8, t.host.read (m.blockAt.toNat + 8 + 8 * j + i) = BitVec.ofNat 8 (x / 2 ^ (8 * i)))

/-- Nothing but the mailbox, the answer in host memory and the core's heartbeat has changed. -/
def OnlyAnswered (s t : State) (status : Nat) : Prop :=
  Answered s t status [] ∧ t.dev = s.dev ∧ t.queues = s.queues ∧ t.spaces = s.spaces ∧ t.partitions = s.partitions ∧ t.strands = s.strands ∧
    t.launches = s.launches ∧ t.clusters = s.clusters ∧ t.root = s.root ∧ t.recorders = s.recorders ∧ t.replaying = s.replaying

/-- The event ends the command so. -/
def answers (s : State) (i : Instr) (status : Nat) : Prop := ∃ t, exec i s = .next t ∧ OnlyAnswered s t status

end Sys2Proof.Claim

/-- R359, R360: a CMD that is not assigned ends with STATUS 0x0003, and one that only the physical function issues with 0x0004 in the mailbox of a virtual
function; each changes nothing else. -/
def Sys2Proof.Claim.MailboxRefusals : Prop :=
  ∀ (s : State), s.memWf = true →
    (∀ cmd, Asked s cmd → cmd ∉ [1, 2, 3, 4, 0x10, 0x11, 0x20, 0x21, 0x30, 0x31] → answers s .invalidMailboxCommand 3) ∧
    (s.cur.unit ≠ 0 → ∀ e ∈ [((0x10 : Nat), Instr.partcfg), (0x11, .retirecl), (0x20, .keyinstall), (0x21, .fwload), (0x30, .reccfg), (0x31, .replay)],
      Asked s e.1 → answers s e.2 4)

/-- R337, R353, R354: CREATEQ of a record that keeps its limits, for a bound address space of its partition, makes the queue under a free number and gives
the number and the offset of its notify page (log 41); DESTROYQ marks the queue destroyed and ends every packet that has not started with STATUS
0x04. A record that breaks a limit ends with 0x0003, and one that names no space, or a queue that is not there, is refused with 0x0002 (which of the two
STATUS values: log 75). -/
def Sys2Proof.Claim.QueueCommands : Prop :=
  ∀ (s : State), s.memWf = true →
    let func := s.cur.unit
    (Asked s 1 →
      (parseQueue ((s.mailbox func).block.drop 8) = none → answers s .createq 3) ∧
      (∀ x, parseQueue ((s.mailbox func).block.drop 8) = some x →
        (lookup s.spaces x.asid = none → answers s .createq 2) ∧
        (∀ r, lookup s.spaces x.asid = some r → r.part = x.part → func = 0 ∨ func = x.part + 1 → (∃ q < 4096, s.queue? q = none) →
          ∃ t q, exec .createq s = .next t ∧ q < 4096 ∧ s.queue? q = none ∧ t.queue? q = some x ∧ (∀ k, k ≠ q → t.queue? k = s.queue? k) ∧
            Answered s t 1 [q, 4096 * q]))) ∧
    (Asked s 2 → let q := operandOf s 0
      let mode := operandOf s 1
      (mode ≤ 1 → s.queue? q = none → answers s .destroyq 2) ∧
      (∀ x, mode ≤ 1 → s.queue? q = some x → x.destroyed = none → func = 0 ∨ func = x.part + 1 → s.locked q = false → s.firstOf (.command func) q = true →
        x.notify.toNat ≤ x.fetched → (∀ e ∈ s.queues, ∀ y ∈ e.2.packets, y.deps = []) → (∀ (k : Nat) (p : Packet), x.packets[k]? = some p → p.seq = k) →
        ∃ t, exec .destroyq s = .next t ∧ Answered s t 1 [] ∧ ∀ x', t.queue? q = some x' → x'.destroyed = some mode ∧
          ∀ (k : Nat) (p p' : Packet), x.packets[k]? = some p → x'.packets[k]? = some p' → p.unstarted = true → p'.state = .ended 4))

/-- R323, R354: BINDAS of a record that keeps its limits, whose PASID and function name no space yet, binds it to a free ASID other than 0 and gives the ASID;
UNBINDAS of a space that no queue uses ends it and leaves no translation of it; one that a queue uses is refused. The places of the operands and of the
result are the model's choice (log 41), and which STATUS a refusal gives is its reading (log 75). -/
def Sys2Proof.Claim.AddressSpaceCommands : Prop :=
  ∀ (s : State), s.memWf = true →
    let func := s.cur.unit
    (Asked s 3 →
      (parseSpace ((s.mailbox func).block.drop 16) = none → answers s .bindas 3) ∧
      (∀ r, parseSpace ((s.mailbox func).block.drop 16) = some r → operandOf s 0 = r.pasid → func = 0 ∨ func = r.part + 1 →
        (s.spaceOf r.pasid r.func ≠ none → answers s .bindas 2) ∧
        (s.spaceOf r.pasid r.func = none → (∃ a < 65536, a ≠ 0 ∧ lookup s.spaces a = none) →
          ∃ t a, exec .bindas s = .next t ∧ 0 < a ∧ a < 65536 ∧ lookup s.spaces a = none ∧ lookup t.spaces a = some r ∧
            (∀ k, k ≠ a → lookup t.spaces k = lookup s.spaces k) ∧ Answered s t 1 [a]))) ∧
    (Asked s 4 → let a := operandOf s 0
      (lookup s.spaces a = none → answers s .unbindas 2) ∧
      (∀ r, lookup s.spaces a = some r → func = 0 ∨ func = r.part + 1 →
        ((∃ e ∈ s.queues, e.1 < queueNumbers ∧ e.2.asid = a) → answers s .unbindas 2) ∧
        ((∀ e ∈ s.queues, e.2.asid ≠ a) → ∃ t, exec .unbindas s = .next t ∧ Answered s t 1 [] ∧ Dropped s.spaces t.spaces a ∧
          t.tlbseq = s.tlbseq + 1 ∧ ∀ e, e ∈ t.tlb ↔ e ∈ s.tlb ∧ e.asid ≠ a)))

/-- R362, R367: PARTCFG of a record that over-commits nothing gives the partition its stacks, ports and banks, and one that does is refused; RETIRECL takes the cluster out
of service and asks its strands to be pre-empted with REASON 0x03. That those are asked too which have still to start, and that the command ends at once, is the
model's reading (log 88), as the STATUS values are (log 75); the operands' places are its choice (log 41). (No launch is a cohort here: R35.) -/
def Sys2Proof.Claim.PartitionCommands : Prop :=
  ∀ (s : State), s.memWf = true → s.cur.unit = 0 →
    (Asked s 0x10 →
      (parsePart ((s.mailbox 0).block.drop 8) = none → answers s .partcfg 3) ∧
      (∀ r, parsePart ((s.mailbox 0).block.drop 8) = some r →
        (s.partOk r = false → answers s .partcfg 2) ∧
        (s.partOk r = true → ∃ t p, exec .partcfg s = .next t ∧ Answered s t 1 [] ∧ lookup t.partitions r.part = some p ∧
          p.stackGroups = r.stackGroups ∧ p.ports = r.ports ∧ p.wsBanks = r.wsBanks ∧
          ∀ k, k ≠ r.part → lookup t.partitions k = lookup s.partitions k))) ∧
    (Asked s 0x11 → let k := operandOf s 0
      (192 ≤ k → answers s .retirecl 3) ∧
      (k < 192 → (∀ e ∈ s.launches, e.2.spec.cohort = false) → ∃ t, exec .retirecl s = .next t ∧ Answered s t 1 [] ∧
        (t.cluster k).inService = false ∧ (∀ j, j ≠ k → t.cluster j = s.cluster j) ∧
        ∀ slot st, s.strand? slot = some st → clusterOf slot = k → st.life ≠ .retired → lives st.exec → st.exec.preempt = none →
          ∃ st', t.strand? slot = some st' ∧ st'.exec.preempt = some s.now ∧ st'.exec.reason = 3))

/-- R363 to R365: KEYINSTALL of a slot other than 0, signed under an enabled slot, with the counter that follows, installs the key and moves the counter; FWLOAD
of an image of a kind that the root admits measures and installs it; else each is refused and the root is what it was. The operands' places, the order of the kinds
and a key address of 0 for disabling are the model's choice (log 41); which STATUS each refusal gives is its reading (log 75). -/
def Sys2Proof.Claim.RootCommands : Prop :=
  ∀ (s : State), s.memWf = true → s.cur.unit = 0 →
    (Asked s 0x20 → let slot := operandOf s 0
      let key := s.host.readBytes (operandOf s 1) 1952
      let signed := fun (key : List Byte) => s.root.accepts (leBytes 8 slot ++ key ++ leBytes 8 (operandOf s 3)) (s.host.readBytes (operandOf s 2) 3309)
      (slot = 1 ∨ slot = 2 ∨ slot = 3 → operandOf s 1 ≠ 0 → operandOf s 3 = s.root.installCounter + 1 → slot < s.root.keys.length →
        if signed key = true then
          ∃ t, exec .keyinstall s = .next t ∧ Answered s t 1 [] ∧ t.root.installCounter = s.root.installCounter + 1 ∧
            t.root.keys[slot]? = some { key, enabled := true } ∧ ∀ j, j ≠ slot → t.root.keys[j]? = s.root.keys[j]?
        else answers s .keyinstall 2) ∧
      (operandOf s 1 ≠ 0 → (slot = 0 ∨ 3 < slot ∨ operandOf s 3 ≠ s.root.installCounter + 1) → answers s .keyinstall 2)) ∧
    (Asked s 0x21 → let kind := operandOf s 0
      let image := Config.imageBytes s.draws (operandOf s 1)
      (3 < kind → answers s .fwload 3) ∧
      (kind ≤ 3 → if s.root.admits kind image = true then
          ∃ t, exec .fwload s = .next t ∧ Answered s t 1 [] ∧ t.root = s.root.install kind image
        else answers s .fwload 2))

/-- R368, R369: RECCFG gives the partition's recorder a ring of the second tier; REPLAY of an idle partition that has records in its range begins, with its mailbox still busy;
once every record has been met it ends complete, and diverged, with the record's index, once one cannot be met. (Operands: log 41; which STATUS a refusal
gives: log 75.) -/
def Sys2Proof.Claim.RecorderCommands : Prop :=
  ∀ (s : State), s.memWf = true → s.cur.unit = 0 →
    let part := operandOf s 0
    (Asked s 0x30 → let base := operandOf s 1
      let size := operandOf s 2
      let fits := (lookup s.partitions part).isSome = true ∧ Config.hbmBytes ≤ base ∧ base + size ≤ Config.hbmBytes + Config.tier2Bytes
      (fits → ∃ t r, exec .reccfg s = .next t ∧ Answered s t 1 [] ∧ lookup t.recorders part = some r ∧ r.base = base ∧ r.size = size ∧ r.records = [] ∧
        ∀ k, k ≠ part → lookup t.recorders k = lookup s.recorders k) ∧
      (¬ fits → answers s .reccfg 2)) ∧
    (Asked s 0x31 →
      (lookup s.replaying part = none → lookup s.recorders part = none → answers s .replay 2) ∧
      (∀ rec, lookup s.replaying part = none → lookup s.recorders part = some rec → s.idle part = true → operandOf s 1 ≤ operandOf s 2 →
        (∃ x ∈ rec.records, operandOf s 1 ≤ x.1 ∧ x.1 ≤ operandOf s 2) →
        ∃ t r, exec .replay s = .next t ∧ t.mailboxes = s.mailboxes ∧ lookup t.replaying part = some r ∧ r.diverged = none ∧ t.host = s.host ∧
          r.records = rec.records.filter (fun x => decide (operandOf s 1 ≤ x.1) && decide (x.1 ≤ operandOf s 2))) ∧
      (∀ r, lookup s.replaying part = some r → r.func = 0 →
        (r.diverged = none → r.records = [] → ∃ t, exec .replay s = .next t ∧ Answered s t 1 [] ∧ Dropped s.replaying t.replaying part ∧ t.queues = s.queues) ∧
        (∀ index, r.diverged = some index → ∃ t, exec .replay s = .next t ∧ Answered s t 5 [index] ∧ Dropped s.replaying t.replaying part ∧
          ∀ q x, s.queue? q = some x → x.part = part → ∃ x', t.queue? q = some x' ∧ x'.halted = some 0)))


/-! ## The host, the fabric, service and power -/

namespace Sys2Proof.Claim
open Sys2Proof.Machine

/-- Everything of the machine's memories. -/
def SameMemories (s t : State) : Prop := t.dev = s.dev ∧ t.ws = s.ws ∧ t.host = s.host ∧ t.remotes = s.remotes

/-- Time units in a nanosecond (log 2). -/
def perNs : Nat := 45045

end Sys2Proof.Claim

/-- R338, R358, R359: the physical function's aperture reaches device memory byte by byte, and beyond it answers Completer Abort; MBADDR takes an address, MBCTL with GO
starts the command whose block stands there and changes nothing while BUSY; the notify page of a queue takes its notify word, which a read gives back. -/
def Obligations.HostAccesses : Prop :=
  ∀ (s : State) (func off : Nat), s.linkUp = true → func ≤ 12 → s.memWf = true →
    let m := s.mailbox func
    let go := fun (op : ApertureOp) => exec (.hostApertureAccess func off op) s
    (∀ n, func = 0 → (off + n ≤ Config.hbmBytes → go (.read n) = .next { s with reply := .data ((List.range n).map (fun i => s.dev.read (off + i))) }) ∧
      (Config.hbmBytes < off + n → 0 < n → go (.read n) = .next { s with reply := .completerAbort })) ∧
    (∀ bs, func = 0 → (off + bs.length ≤ Config.hbmBytes → ∃ t, go (.write bs) = .next t ∧
        (∀ i b, bs[i]? = some b → t.dev.read (off + i) = b) ∧ (∀ a, a < off ∨ off + bs.length ≤ a → t.dev.read a = s.dev.read a) ∧
        t.host = s.host ∧ t.ws = s.ws ∧ t.strands = s.strands) ∧
      (Config.hbmBytes < off + bs.length → 0 < bs.length → go (.write bs) = .next { s with reply := .completerAbort })) ∧
    (∀ x : Word, s.mailboxOpen = true →
      (off = 0 → ∃ t, go (.writeRegister x) = .next t ∧ (t.mailbox func).addr = x &&& 0xFFFFFFFFFFFFFFC0 ∧ SameMemories s t) ∧
      (off = 8 → x.getLsbD 0 = true → m.busy = true → go (.writeRegister x) = .next s) ∧
      (off = 8 → x.getLsbD 0 = true → m.busy = false → ∃ t, go (.writeRegister x) = .next t ∧ (t.mailbox func).busy = true ∧
        (t.mailbox func).irqen = x.getLsbD 2 ∧ (t.mailbox func).block = s.host.readBytes m.addr.toNat 64 ∧ (t.mailbox func).addr = m.addr ∧ (t.mailbox func).blockAt = m.addr ∧
        t.inlet = s.inlet ++ [.command func] ∧ SameMemories s t)) ∧
    (s.mailboxOpen = true → off = 8 → ∃ t w, go .readRegister = .next t ∧ t.reply = .data (leBytes 8 w) ∧ SameMemories s t ∧
      w = m.last.toNat * 256 + (if m.irqen then 4 else 0) + (if m.busy then 2 else 0)) ∧
    (∀ q x (w : Word), off = 4096 * q → s.queue? q = some x → x.destroyed = none → func = 0 ∨ func = x.part + 1 →
      (∃ t, go (.writeNotify w) = .next t ∧ t.queue? q = some { x with notify := w, pending := true } ∧ SameMemories s t) ∧
      go .readNotify = .next { s with reply := .data (leBytes 8 x.notify.toNat) })

/-- R358, R363, R366: GET_MEASUREMENTS gives the measurement log, CHALLENGE a signature over the nonce and the measurements, KEY_EXCHANGE one over the requester's share, and none of
them changes anything else; an integrity failure puts its stream into the insecure state; with the host link down, every access that waits for the host
raises 0x13. The model's choices: no access of the host does anything then (log 90), what CHALLENGE and KEY_EXCHANGE put into the digests that R363 has
them sign, and the form and size of a digest (log 14). -/
def Obligations.HostSecurityAndLink : Prop :=
  ∀ (s : State) (func : Nat),
    (∃ t, exec .spdmGetMeasurements s = .next t ∧ lookup t.spdm s.cur.unit = some s.root.measurements.flatten ∧ t.root = s.root ∧ SameMemories s t) ∧
    (∀ nonce, ∃ t, exec (.spdmChallenge func nonce) s = .next t ∧ t.root = s.root ∧ SameMemories s t ∧
      lookup t.spdm func = some (Config.mldsaSign (Config.shake256 64 (nonce ++ s.root.measurements.flatten)))) ∧
    (∀ share, ∃ t, exec (.spdmKeyExchange func share) s = .next t ∧ t.root = s.root ∧ SameMemories s t ∧
      lookup t.spdm func = some (Config.mldsaSign (Config.shake256 64 share))) ∧
    (∀ stream, ∃ t, exec (.ideIntegrityFailure stream) s = .next t ∧ stream ∈ t.ideFailed ∧ (∀ k ∈ s.ideFailed, k ∈ t.ideFailed) ∧ SameMemories s t) ∧
    (∃ t, exec .hostLinkDrop s = .next t ∧ t.linkUp = false ∧ t.pageReqs = [] ∧ (∀ e ∈ t.walks, e.2.ats = false) ∧
      (∀ e ∈ s.walks, e.2.ats = true → ∀ who ∈ e.2.who ++ e.2.also, { who, page := e.2.va / 4096 * 4096, cause := .uncorrectable : XlatFault } ∈ t.xlatFaults) ∧
      (∀ e ∈ s.pageReqs, ∀ who ∈ e.2.who, { who, page := e.2.va, cause := .uncorrectable : XlatFault } ∈ t.xlatFaults) ∧ SameMemories s t) ∧
    (s.linkUp = false → ∀ off op, exec (.hostApertureAccess func off op) s = .next s)

/-- R98, R261, R361, R367: another module's store and atomic are performed at their home here, device memory, whose bytes change nowhere else; its contribution to a collective is
kept; a module whose path has acknowledged nothing for 2^21 cycles, counted from the oldest store or load that is owed (log 70), or that may lie behind a
link that trains as long (log 99), is unreachable; a port whose link fails sends its replay buffer again, and holds it back
while it trains. -/
def Obligations.FabricAndModules : Prop :=
  ∀ (s : State) (m addr : Nat), s.memWf = true → lookup s.remotes m = none →
    (∀ bs, addr + bs.length ≤ Config.hbmBytes + Config.tier2Bytes → bs ≠ [] → ∃ t, exec (.remoteModuleAccess m addr (.write bs)) s = .next t ∧
      (∀ i b, bs[i]? = some b → t.dev.read (addr + i) = b) ∧ (∀ a, a < addr ∨ addr + bs.length ≤ a → t.dev.read a = s.dev.read a) ∧ t.strands = s.strands) ∧
    (∀ (x y : Word), addr + 8 ≤ Config.hbmBytes + Config.tier2Bytes → ∃ t, exec (.remoteModuleAccess m addr (.amo 0x11 x y)) s = .next t ∧
      (∀ i < 8, t.dev.read (addr + i) = (BitVec.ofNat 64 (s.dev.readLE addr 8) + x).extractLsb' (8 * i) 8) ∧
      ∀ a, a < addr ∨ addr + 8 ≤ a → t.dev.read a = s.dev.read a) ∧
    (∀ group member data, ∃ t p, exec (.remoteModuleAccess m addr (.cred group member data)) s = .next t ∧ p ∈ t.creds ∧ p.group = group ∧
      p.member = member ∧ p.data = data ∧ p.lost = false ∧ t.dev = s.dev) ∧
    (∀ k r since, lookup s.remotes k = some r → (r.owedSince = some since ∧ (∀ t ∈ r.askedSince, since ≤ t)) ∨
        (r.askedSince = some since ∧ (∀ t ∈ r.owedSince, since ≤ t)) → r.reachable = true →
      (since + 2 ^ 21 ≤ s.now → ∃ t r', exec (.moduleUnreachable k) s = .next t ∧ lookup t.remotes k = some r' ∧ r' = { r with reachable := false } ∧
        (∀ c ∈ t.creds, c.module = some k → c.lost = true) ∧ t.dev = s.dev) ∧
      (s.now < since + 2 ^ 21 → (∀ e ∈ s.ports, e.2.training = true → s.now < e.2.since + 2 ^ 21) → exec (.moduleUnreachable k) s = .next s)) ∧
    (s.cur.unit < 24 → let p := s.port s.cur.unit
      (p.training = false →
        (∃ t, exec .flitCrcFail s = .next t ∧ t.port s.cur.unit = { p with inFlight := p.replay } ∧ t.dev = s.dev) ∧
        (∃ t, exec .linkRetrain s = .next t ∧ t.port s.cur.unit = { p with training := true, since := s.now, inFlight := [] } ∧ t.dev = s.dev)) ∧
      (p.training = true → ∃ t, exec .linkRetrain s = .next t ∧ t.port s.cur.unit = { p with training := false, inFlight := p.replay } ∧ t.dev = s.dev))

/-- R96, R366, R367, R370: an uncorrectable error, of memory or of data over the host link, poisons its 64-byte unit; a row's repair and a bank's spare change no byte; a bank's refresh starts 31.25 µs after the last
one's and ends 2 µs later; a power cap lowers the clock by steps of 125 MHz, of which one remains (log 44); at 105 °C the clocks stop and the machine with them. -/
def Sys2Proof.Claim.ErrorsServiceAndPower : Prop :=
  ∀ (s : State),
    (∀ u, 64 * u < Config.hbmBytes + Config.tier2Bytes → ∃ t, exec (.uncorrectableError (.device u)) s = .next t ∧
      t.poisoned (.dev (64 * u)) = true ∧ SameMemories s t) ∧
    (∀ u < 2 ^ 52, ∃ t, exec (.uncorrectableError (.hostLink u)) s = .next t ∧ t.poisoned (.host (64 * u)) = true ∧ SameMemories s t) ∧
    (∀ row, ∃ t, exec (.hbmRowRepair row) s = .next t ∧ row ∈ t.repairedRows ∧ SameMemories s t ∧ t.strands = s.strands) ∧
    (∀ die (h : die < 2) bank, bank < 1024 → ∃ t, exec (.wsBankSpare die bank) s = .next t ∧ bank ∈ (t.refresh[die]).spared ∧
      (t.refresh[die]).count = (s.refresh[die]).count ∧ SameMemories s t) ∧
    (∀ (h : s.cur.unit < 2), let r := s.refresh[s.cur.unit]
      let start := r.origin + r.count * (31250 * perNs)
      (r.busy = false → (s.time < start → exec .wsRefreshStart s = .next s) ∧
        (start ≤ s.time → ∃ t, exec .wsRefreshStart s = .next t ∧ t.refresh[s.cur.unit] = { r with busy := true } ∧ SameMemories s t)) ∧
      (r.busy = true → (s.time < start + 2000 * perNs → exec .wsRefreshEnd s = .next s) ∧
        (start + 2000 * perNs ≤ s.time → ∃ t, exec .wsRefreshEnd s = .next t ∧ t.refresh[s.cur.unit] = { r with busy := false, count := r.count + 1 } ∧
          SameMemories s t))) ∧
    (∀ steps, steps ≤ 13 → ∃ t, exec (.powerCap steps) s = .next t ∧ t.clockMHz = 125 * (14 - steps) ∧ SameMemories s t) ∧
    (∀ celsius, (celsius < 105 → exec (.thermalTrip celsius) s = .next s) ∧
      (105 ≤ celsius → ∃ t, exec (.thermalTrip celsius) s = .next t ∧ t.linkUp = false ∧ step t = .fault .clocksStopped))

/-- R363, R370: bring-up leaves the module as it is after reset, with TLBSEQ 0, scratchpads clear, no strand and no launch, every die's refresh calendar beginning
now, the installed images verified and those accepted measured, mailboxes open where the firmware's image is accepted (log 100), and the partitions stored; what lies
in memory stays (log 43). -/
def Sys2Proof.Claim.BringUp : Prop :=
  ∀ (s : State), ∃ t, exec .bringUp s = .next t ∧ t.tlbseq = 0 ∧ t.tlb = [] ∧ t.strands = [] ∧ t.launches = [] ∧ t.queues = [] ∧ t.engines = [] ∧
    t.mailboxOpen = s.root.admits 0 (s.root.images.getD 0 []) ∧ t.linkUp = true ∧ t.clocksStopped = false ∧ t.clockMHz = 1750 ∧ t.mailboxes = [] ∧
    (∀ die (h : die < 2), (t.refresh[die]).origin = s.time ∧ (t.refresh[die]).count = 0 ∧ (t.refresh[die]).busy = false) ∧
    t.root.measurements = ((List.range 4).filter (fun k => s.root.admits k (s.root.images.getD k []))).map
      (fun k => Config.shake256 64 (s.root.images.getD k [])) ∧ t.root.keys = s.root.keys ∧
    (∀ e ∈ t.clusters, e.2.scratch = { cells := [] }) ∧ t.dev = s.dev ∧ t.ws = s.ws ∧ t.host = s.host ∧
    (∀ k p, lookup s.partitions k = some p → ∃ p', lookup t.partitions k = some p' ∧ p'.stackGroups = p.stackGroups ∧ p'.cores = p.cores)


/-! ## Encodings, the step, memories and reset -/

namespace Sys2Proof.Claim
open Sys2Proof.Machine

/-- A compute-form instruction's fields that are not zero. -/
def vxc (vd va vb gl vc : Reg) (rm : BitVec 3) (m sat : Bool) (imm : BitVec 13) : VxC :=
  { vd, va, vb, gl, na := 0, vc, nb := 0, m, mi := false, sc := false, rm, sat, imm }

/-- A memory-form instruction's fields that are not zero. -/
def vxm (vd va vb gl vc : Reg) (gate : Bool) (w : BitVec 3) (ord : Bool) (gstride gbase : Reg) : VxM :=
  { vd, va, vb, gl, vc, m := false, mi := false, gate, w, ord, nov := false, scope := 5, cache := 0, gstride, gbase }

/-- Words that the spec's own tables of encodings give, and the instruction each pair stands for; the second word of an instruction of one is
0 (chapters 7 to 12, 14 to 17). -/
def knownWords : List (BitVec 32 × BitVec 32 × Instr) :=
  [ (0x00294400, 0, .add 10 10 4), (0x1190A607, 0, .fma 4 5 6 7 0), (0x2590A23C, 0, .bfx 4 5 8 60), (0x24B3FC00, 0, .lui 12 0x3FC00),
    (0x4B994D00, 0, .amocas 6 10 3 1), (0x46814C00, 0, .stl 0 10 3 0), (0x41954345, 0, .ldd 5 10 0x345), (0x49804C1A, 0, .amoor 0 2 3 0 26),
    (0x4C000C3F, 0, .fence 3 0x3F), (0x60981FFD, 0, .bne 6 0 0x1FFD), (0x65A04000, 0, .qpush 8 2), (0x647FFFFE, 0, .j 0x7FFFFE),
    (0xE0000009, 0, .imx 9), (0xECE40000, 0, .mattr 4 7 1),
    (0x820C428C, 0x00000000, .vadd (vxc 6 4 5 3 0 0 false false 0)), (0x820C400C, 0x00281007, .vadd (vxc 6 4 0 3 0 5 false false 0x1007)),
    (0x8A52800C, 0x0004000A, .vnarrow (vxc 9 8 0 3 0 0 false true 0xA)), (0x8F14400C, 0x61000000, .vcompress (vxc 10 4 0 3 12 0 true false 0)),
    (0x8088_5300, 0x4000_0000, .vsetrc (vxc 4 5 6 0 8 0 false false 0)),
    (0x9208000C, 0x0048A00A, .vld (vxm 4 0 0 3 0 true 1 false 0 10)), (0x9480048C, 0x2002A00A, .vstx (vxm 0 0 9 3 4 false 0 true 0 10)),
    (0x954C500C, 0x0000A021, .vxlat (vxm 6 5 0 3 0 false 0 false 1 1)),
    (0xA0C24614, 0x0342007F, .mmas { acc := 1, va := 4, vb := 12, gl := 5, gdescA := 0, gdescB := 13, rm := 0, sc := false, sparse := true, imm := 0x7F }),
    (0xA468400C, 0x00000202, .teval { acc := 20, va := 4, vb := 0, gl := 3, gdescA := 0, gdescB := 0, rm := 0, sc := false, sparse := false, imm := 0x202 }),
    (0xC1027005, 0x00000004, .wmwait { gd := 1, ga := 7, gb := 0, fn7 := 5, imm := 4 }),
    (0xC400C682, 0x00000000, .cpy { gd := 0, ga := 12, gb := 13, fn7 := 2, imm := 0 }),
    (0xC7C00000, 0x00000000, .svfence { gd := 0, ga := 0, gb := 0, fn7 := 0, imm := 0 }),
    (0xD0400000, 0x00000018, .crwr { gd := 0, ga := 0, gb := 0, fn7 := 0, imm := 0x18 }), (0xD0320000, 0x00000014, .xflagsRead 25) ]

/-- The state in which a turn of a context acts: the turn is taken, its cycles have passed, and it is named (log 1, log 2). -/
def turnOf (s : State) (rest : List Turn) (cycles slot : Nat) (id : CtxId) : State :=
  { ({ s with agenda := rest }).pass cycles with cur := { slot, ctx := id, unit := 0 } }

/-- What a context fetches with (R305, R324). -/
def fetcher (slot : Nat) (id : CtxId) (st : Strand) : Agent := st.agent slot id

/-- The state in which the instruction that a context has fetched executes: a wait of the fetch is over. -/
def fetched (slot : Nat) (id : CtxId) (c : Context) (s : State) : State :=
  if c.wait = none then s else s.updCtx slot id (fun c => { c with wait := none })

end Sys2Proof.Claim

/-- R117, R121 to R132: for every instruction that the formats admit, decoding its words gives it back, every field at every value; the class of the
first word says how many words there are. -/
def Obligations.EncodeThenDecode : Prop :=
  ∀ (i : Instr) (ws : List (BitVec 32)), WellFormed i → encode i = some ws → (∀ w, i ≠ .unassignedEncoding w) →
    decodeWords (ws.getD 0 0) (ws.getD 1 0) = .ok i ∧ ws.length = wordCount (ws.getD 0 0)

/-- R118, R121 to R132: what two words decode to is an instruction that the formats admit, and its words are those: no bit of them is dropped. -/
def Obligations.DecodeThenEncode : Prop :=
  ∀ (w0 w1 : BitVec 32) (i : Instr), decodeWords w0 w1 = .ok i →
    WellFormed i ∧ encode i = some (if wordCount w0 = 2 then [w0, w1] else [w0]) ∧ ∀ w, i ≠ .unassignedEncoding w

/-- The words that the spec's tables of encodings write out decode to the instructions they stand for. -/
def Obligations.KnownWordsDecode : Prop := ∀ e ∈ knownWords, decodeWords e.1 e.2.1 = .ok e.2.2

/-- R31, R32, R117, R136: a step at the turn of a context that runs, with nothing due at its boundary, is exec of the instruction that waits in it after its issue; where
its issue stage chooses the context, it is exec of the instruction that waits to issue, or of the one whose words lie at its PC, and the stage notes the issue; of a word that
no format admits it is exec of the unassigned encoding. A fetch from a device line of which no old version differs (what the cluster has fetched before, what stood
there when the launch started) gives the bytes there, the first least significant, and changes no memory. -/
def Sys2Proof.Claim.StepRunsFetchedInstruction : Prop :=
  ∀ (s : State) (rest : List Turn) (cycles slot : Nat) (id : CtxId) (st : Strand), s.clocksStopped = false →
    s.agenda = { cycles, who := .context slot id } :: rest →
    let s0 := turnOf s rest cycles slot id
    let c := st.ctx id
    let a := fetcher slot id st
    let runs := fun (i : Instr) (t : State) => step s = noted (exec i (fetched slot id c t)) slot id
    s0.strand? slot = some st → st.issues id = true → s0.boundary slot id = none →
    (∀ w i, c.wait = some w → w.instr = some i → w.issued = true → step s = exec i s0) ∧
    (∀ w i, c.wait = some w → w.instr = some i → w.issued = false → s0.mayIssue slot id = true → step s = noted (exec i s0) slot id) ∧
    (∀ o t u, o = .next t → noted o slot id = .next u → { u with clusters := t.clusters, issued := t.issued } = t) ∧
    (c.wait.bind (·.instr) = none → s0.mayIssue slot id = true →
      (∀ w0 s1 i, s0.fetchWord a c.pc.toNat = .ok (w0, s1) → wordCount w0 = 1 → decodeWords w0 0 = .ok i → runs i s1) ∧
      (∀ w0 w1 s1 s2 i, s0.fetchWord a c.pc.toNat = .ok (w0, s1) → wordCount w0 = 2 → s1.fetchWord a (c.pc + 4).toNat = .ok (w1, s2) →
        decodeWords w0 w1 = .ok i → runs i s2) ∧
      (∀ w0 w1 s1 s2 e, s0.fetchWord a c.pc.toNat = .ok (w0, s1) → wordCount w0 = 2 → s1.fetchWord a (c.pc + 4).toNat = .ok (w1, s2) →
        decodeWords w0 w1 = .error e → runs (.unassignedEncoding w0) s2) ∧
      (∀ w0 s1 e, s0.fetchWord a c.pc.toNat = .ok (w0, s1) → wordCount w0 = 1 → decodeWords w0 0 = .error e →
        runs (.unassignedEncoding w0) s1)) ∧
    (∀ (t : State) va pa, va % 4 = 0 → t.resolve a va .fetch = .ok (.dev pa) → pa % 4 = 0 → t.poisoned (.dev pa) = false →
      (∀ old ∈ t.oldLines a (.dev (64 * (pa / 64))), old.2 = (List.range 64).map (fun i => t.dev.read (64 * (pa / 64) + i))) →
      ∃ u, t.fetchWord a va = .ok (BitVec.ofNat 32 (leNat ((List.range 4).map (fun i => t.dev.read (pa + i)))), u) ∧ u.dev = t.dev ∧
        u.host = t.host ∧ u.strands = t.strands)

/-- A step at the turn of a hardware unit, the firmware, the host or the fabric is exec of that event, with the slot, the context and the unit that the turn
names (log 1). -/
def Sys2Proof.Claim.StepRunsTheEvent : Prop :=
  ∀ (s : State) (rest : List Turn) (cycles slot unit : Nat) (id : CtxId) (i : Instr), s.clocksStopped = false → encode i = none →
    s.agenda = { cycles, who := .event i slot id unit } :: rest →
    step s = exec i { ({ s with agenda := rest }).pass cycles with cur := { slot, ctx := id, unit } }

/-- Every step keeps every memory of the module in its canonical form (addresses rising, no entry equal to what an unlisted address reads as), so that
equal memories are equal data. -/
def Obligations.MemoriesStayCanonical : Prop := Kept (fun s => s.memWf = true)

/-- R96, R334, R370: the machine right after reset has its memories in canonical form with nothing listed, TLBSEQ 0, no translation, strand, queue or command, its clock at
1,750 MHz and running, and its mailboxes open. That no memory lists anything, so that each reads as 0 (log 4), and that the mailboxes are open with no image
and no configuration (log 7), are the model's choices. -/
def Obligations.ResetState : Prop :=
  let s := State.reset
  s.memWf = true ∧ s.dev = { cells := [] } ∧ s.host = { cells := [] } ∧ s.tlbseq = 0 ∧ s.tlb = [] ∧ s.strands = [] ∧ s.queues = [] ∧
    s.engines = [] ∧ s.launches = [] ∧ s.clockMHz = 1750 ∧ s.clocksStopped = false ∧ s.mailboxOpen = true

/-! ## Statements of several parts -/

/-- SR integer instructions, division included, complete with the result of their table: `IntegerRegisterResults`, `DivisionNeverTraps`, `BitCounts`, each stated above. -/
def Obligations.IntegerRegisterResults : Prop :=
  Claim.IntegerRegisterResults ∧ Claim.DivisionNeverTraps ∧ Claim.BitCounts

/-- SI instructions complete: immediates, shifts and bit fields: `ImmediateResults`, `ShiftAndFieldResults`, each stated above. -/
def Obligations.ImmediateAndFieldResults : Prop :=
  Claim.ImmediateResults ∧ Claim.ShiftAndFieldResults

/-- FADD, FSUB, FMUL and FMA round once, set their flags, and complete or trap; NaN and +0 operands: `ScalarFloatArithmetic`, `ScalarFloatNaNIsCanonical`, `ScalarFloatAddZeroIsExact`, each stated above. -/
def Obligations.ScalarFloatArithmetic : Prop :=
  Claim.ScalarFloatArithmetic ∧ Claim.ScalarFloatNaNIsCanonical ∧ Claim.ScalarFloatAddZeroIsExact

/-- FMIN, FMAX, FCMP and FCVT complete with their results and flags, or trap: `ScalarFloatMinMaxCompare`, `ScalarConversions`, each stated above. -/
def Obligations.ScalarFloatComparisonsAndConversions : Prop :=
  Claim.ScalarFloatMinMaxCompare ∧ Claim.ScalarConversions

/-- A scalar load completes with the bytes at its place, extended: `LoadsComplete`, `LoadGivesLittleEndianBytes`, each stated above. -/
def Obligations.LoadsComplete : Prop :=
  Claim.LoadsComplete ∧ Claim.LoadGivesLittleEndianBytes

/-- Misaligned scalar accesses raise 0x04, and some atomics on host memory 0x07: `MisalignedAccessTraps`, `HostRefusesSomeAtomics`, each stated above. -/
def Obligations.ScalarAccessTraps : Prop :=
  Claim.MisalignedAccessTraps ∧ Claim.HostRefusesSomeAtomics

/-- Scalar atomics read, write and give the old value in one step: `AtomicsComplete`, `CompareAndSwap`, each stated above. -/
def Obligations.AtomicsComplete : Prop :=
  Claim.AtomicsComplete ∧ Claim.CompareAndSwap

/-- FENCE and SVFENCE pass or wait, and WSINFO gives its word: `FenceOrders`, `FenceAndStoreInformation`, each stated above. -/
def Obligations.FencesAndStoreInformation : Prop :=
  Claim.FenceOrders ∧ Claim.FenceAndStoreInformation

/-- Branches and jumps go to their target or on: `ConditionalBranches`, `Jumps`, `StreamEndBranch`, each stated above. -/
def Obligations.BranchesAndJumps : Prop :=
  Claim.ConditionalBranches ∧ Claim.Jumps ∧ Claim.StreamEndBranch

/-- QPUSH, QPOP and BQ: first in, first out; misuse raises 0x12: `QueuesAreFirstInFirstOut`, `QueueMisuseTraps`, each stated above. -/
def Obligations.QueuesAreFirstInFirstOut : Prop :=
  Claim.QueuesAreFirstInFirstOut ∧ Claim.QueueMisuseTraps

/-- IMX and MATTR are kept for the instruction that follows; prefixes that are not taken raise 0x02: `PrefixesAreKept`, `RefusedPrefixTraps`, each stated above. -/
def Obligations.PrefixesAreKept : Prop :=
  Claim.PrefixesAreKept ∧ Claim.RefusedPrefixTraps

/-- Taking a trap: what it saves, where it goes; a trap in a trap ends the strand: `SystemCallAndBreakpointTrap`, `PreciseTrapEntry`, `DoubleTrapEndsTheStrand`, each stated above. -/
def Obligations.TrapEntry : Prop :=
  Claim.SystemCallAndBreakpointTrap ∧ Claim.PreciseTrapEntry ∧ Claim.DoubleTrapEndsTheStrand

/-- XFLAGS, XSEED, VSTART, ASID and PTROOT: reads and writes: `FlagSeedAndStartRegisters`, `AddressSpaceRegisters`, each stated above. -/
def Obligations.SpecialRegisterRows : Prop :=
  Claim.FlagSeedAndStartRegisters ∧ Claim.AddressSpaceRegisters

/-- YIELD ends a pre-empted residence; WFE gives 1, gives 0 or waits: `YieldEndsResidence`, `WaitForEvent`, each stated above. -/
def Obligations.YieldAndWaitForEvent : Prop :=
  Claim.YieldEndsResidence ∧ Claim.WaitForEvent

/-- VFSAVE stores a frame and holds it no longer; VFLOAD takes one back: `VectorFrameSave`, `VectorFrameLoad`, each stated above. -/
def Obligations.VectorFrames : Prop :=
  Claim.VectorFrameSave ∧ Claim.VectorFrameLoad

/-- KEND retires contexts and strands; cancellation points take a cancel: `KendRetires`, `CancellationPoints`, each stated above. -/
def Obligations.StrandsEndAndCancel : Prop :=
  Claim.KendRetires ∧ Claim.CancellationPoints

/-- Watermarks and barriers: publication, arrival, wait and time-out: `WatermarkPublishes`, `WatermarkWaits`, `BarrierArrival`, `BarrierWait`, each stated above. -/
def Obligations.WatermarksAndBarriers : Prop :=
  Claim.WatermarkPublishes ∧ Claim.WatermarkWaits ∧ Claim.BarrierArrival ∧ Claim.BarrierWait

/-- DEPINIT, DEPDEC and TSPAWN act on the counters and queues they name: `DependencyCounters`, `TaskSpawn`, each stated above. -/
def Obligations.DependencyCountersAndSpawn : Prop :=
  Claim.DependencyCounters ∧ Claim.TaskSpawn

/-- A vector or matrix instruction commits to the VQ, waits or is refused: `VectorCommit`, `VectorCommitRefusals`, each stated above. -/
def Obligations.VectorCommit : Prop :=
  Claim.VectorCommit ∧ Claim.VectorCommitRefusals

/-- A wait that is over goes on with its instruction, which completes: `WaitingInstructionGoesOn`, `WaitEndsInFull`, `ExecuteWaitsEnd`, each stated above. -/
def Obligations.WaitsEnd : Prop :=
  Claim.WaitingInstructionGoesOn ∧ Claim.WaitEndsInFull ∧ Claim.ExecuteWaitsEnd

/-- Engine instructions issue commands, which end by themselves: what each copies, publishes, combines, steps, files, requantises or drops: `EngineCommandsIssue`, `EngineCommandsEnd`, `CommandsWriteShadows`, `PublicationSwapsPages`, `CollectivesCombine`, each stated above. -/
def Obligations.EngineCommands : Prop :=
  Claim.EngineCommandsIssue ∧ Claim.EngineCommandsEnd ∧ Claim.CommandsWriteShadows ∧ Claim.PublicationSwapsPages ∧ Claim.CollectivesCombine

/-- A placed strand starts; a pre-empted one resumes at its handlers: `StrandStarts`, `StrandResumes`, each stated above. -/
def Obligations.StrandsStartAndResume : Prop :=
  Claim.StrandStarts ∧ Claim.StrandResumes

/-- ATS completions, invalidations and page responses: `HostTranslations`, `HostInvalidationsAndPages`, each stated above. -/
def Obligations.HostTranslations : Prop :=
  Claim.HostTranslations ∧ Claim.HostInvalidationsAndPages

/-- Notify words, the scanner, and the fetch of packets: `NotifyAndScan`, `PacketsAreFetched`, each stated above. -/
def Obligations.QueueFetch : Prop :=
  Claim.NotifyAndScan ∧ Claim.PacketsAreFetched

/-- NOP, BARRIER and WAITVAL packets end in their turn; a completion record: `OrderingPacketsEnd`, `CompletionRecord`, each stated above. -/
def Obligations.OrderingPackets : Prop :=
  Claim.OrderingPacketsEnd ∧ Claim.CompletionRecord

/-- WSLOAD, WSREL and DEPGRAPH packets: `WeightStorePackets`, `TaskGraphBegins`, each stated above. -/
def Obligations.WeightStoreAndGraphPackets : Prop :=
  Claim.WeightStorePackets ∧ Claim.TaskGraphBegins

/-- A dispatch places the strands of a launch, once; a stopped core is recovered: `DispatchPlacesStrands`, `StoppedCoreRecovers`, each stated above. -/
def Obligations.DispatchPlacesStrands : Prop :=
  Claim.DispatchPlacesStrands ∧ Claim.StoppedCoreRecovers

/-- CREATEQ, DESTROYQ and the commands that the mailbox refuses: `MailboxRefusals`, `QueueCommands`, each stated above. -/
def Obligations.QueueCommands : Prop :=
  Claim.MailboxRefusals ∧ Claim.QueueCommands

/-- BINDAS, UNBINDAS, PARTCFG and RETIRECL: `AddressSpaceCommands`, `PartitionCommands`, each stated above. -/
def Obligations.SpaceAndPartitionCommands : Prop :=
  Claim.AddressSpaceCommands ∧ Claim.PartitionCommands

/-- KEYINSTALL, FWLOAD, RECCFG and REPLAY: `RootCommands`, `RecorderCommands`, each stated above. -/
def Obligations.RootAndRecorderCommands : Prop :=
  Claim.RootCommands ∧ Claim.RecorderCommands

/-- Uncorrectable errors, repair, refresh, power and bring-up: `ErrorsServiceAndPower`, `BringUp`, each stated above. -/
def Obligations.ErrorsServiceAndPower : Prop :=
  Claim.ErrorsServiceAndPower ∧ Claim.BringUp

/-- A step runs the instruction that the words at the PC decode to, or the event of its turn: `StepRunsFetchedInstruction`, `StepRunsTheEvent`, each stated above. -/
def Obligations.StepRunsDecodedInstruction : Prop :=
  Claim.StepRunsFetchedInstruction ∧ Claim.StepRunsTheEvent
end

