-- ==== Sys2Proof/Laws/Decode.lean ====
section
/-!
SUPPORT. Laws/Decode.lean: the class of a word built by the encoder, form by form, and how many words each form has (R117, R121 to R132).
-/
namespace Sys2Proof

/-- The class of a scalar word is its first field. -/
@[simp] theorem classOf_scalarWord (cls : BitVec 3) (op : BitVec 6) (low : BitVec 23) : classOf (scalarWord cls op low) = cls := by
  ext i hi
  interval_cases i <;> simp only [classOf, scalarWord, bits, BitVec.getElem_extractLsb', BitVec.getLsbD_append] <;>
    simp [BitVec.getLsbD_eq_getElem]

/-- The class of the first word of a compute-form, memory-form or MX instruction. -/
@[simp] theorem classOf_vector (cls : BitVec 3) (op : BitVec 7) (a b c d : BitVec 5) (e : BitVec 2) :
    classOf (cls ++ op ++ a ++ b ++ c ++ d ++ e) = cls := by
  ext i hi
  interval_cases i <;> simp only [classOf, bits, BitVec.getElem_extractLsb', BitVec.getLsbD_append] <;> simp

/-- The class of the first word of a YS instruction. -/
@[simp] theorem classOf_ys (cls : BitVec 3) (op : BitVec 7) (a b c : BitVec 5) (e : BitVec 7) :
    classOf (cls ++ op ++ a ++ b ++ c ++ e) = cls := by
  ext i hi
  interval_cases i <;> simp only [classOf, bits, BitVec.getElem_extractLsb', BitVec.getLsbD_append] <;> simp

/-- The class of an IMX. -/
@[simp] theorem classOf_imx (p : BitVec 27) : classOf (7#3 ++ 0#2 ++ p) = 7 := by
  ext i hi
  interval_cases i <;> simp only [classOf, bits, BitVec.getElem_extractLsb', BitVec.getLsbD_append] <;> simp

/-- The class of a MATTR. -/
@[simp] theorem classOf_mattr (a b c : BitVec 3) : classOf (7#3 ++ 1#2 ++ a ++ b ++ c ++ 0#18) = 7 := by
  ext i hi
  interval_cases i <;> simp only [classOf, bits, BitVec.getElem_extractLsb', BitVec.getLsbD_append] <;> simp

/-- A scalar word stands alone. -/
theorem words_scalar (cls : BitVec 3) (op : BitVec 6) (low : BitVec 23) (h : cls.toNat ≠ 4 ∧ cls.toNat ≠ 5 ∧ cls.toNat ≠ 6) :
    [scalarWord cls op low].length = wordCount ([scalarWord cls op low].getD 0 0) := by
  simp only [List.getD_cons_zero, wordCount, classOf_scalarWord]
  split <;> simp_all

/-- An IMX stands alone. -/
theorem words_imx (p : BitVec 27) : [7#3 ++ 0#2 ++ p].length = wordCount ([7#3 ++ 0#2 ++ p].getD 0 0) := by
  simp only [List.getD_cons_zero, wordCount, classOf_imx]; rfl

/-- A MATTR stands alone. -/
theorem words_mattr (a b c : BitVec 3) :
    [7#3 ++ 1#2 ++ a ++ b ++ c ++ 0#18].length = wordCount ([7#3 ++ 1#2 ++ a ++ b ++ c ++ 0#18].getD 0 0) := by
  simp only [List.getD_cons_zero, wordCount, classOf_mattr]; rfl

/-- A compute-form instruction has two words. -/
theorem words_vxc (op : BitVec 7) (f : VxC) : (vxcWords op f).length = wordCount ((vxcWords op f).getD 0 0) := by
  simp only [vxcWords, List.getD_cons_zero, wordCount, classOf_vector]; rfl

/-- So has a memory-form one, -/
theorem words_vxm (op : BitVec 7) (f : VxM) : (vxmWords op f).length = wordCount ((vxmWords op f).getD 0 0) := by
  simp only [vxmWords, List.getD_cons_zero, wordCount, classOf_vector]; rfl

/-- an MX one, -/
theorem words_mx (op : BitVec 7) (f : MxF) : (mxWords op f).length = wordCount ((mxWords op f).getD 0 0) := by
  simp only [mxWords, List.getD_cons_zero, wordCount, classOf_vector]; rfl

/-- and a YS one. -/
theorem words_ys (op : BitVec 7) (f : YsF) : (ysWords op f).length = wordCount ((ysWords op f).getD 0 0) := by
  simp only [ysWords, List.getD_cons_zero, wordCount, classOf_ys]; rfl

end Sys2Proof
end

