-- ==== Sys2Proof/Laws/State.lean ====
section
/-!
SUPPORT. Laws/State.lean: what each update of the state leaves as it was, field by field, and what a keyed list gives
back after an update. No proof needs to unfold a record update beyond these.
-/
namespace Sys2Proof

/-! ## Keyed lists -/

@[simp] theorem lookup_insertKey_self {α : Type} (l : List (Nat × α)) (k : Nat) (v : α) :
    lookup (insertKey l k v) k = some v := by
  induction l with
  | nil => simp [insertKey, lookup]
  | cons p rest ih =>
    obtain ⟨j, u⟩ := p
    simp only [insertKey]
    split
    · simp [lookup]
    · split
      · simp [lookup]
      · rename_i h
        simp [lookup, Ne.symm h, ih]

theorem lookup_insertKey_ne {α : Type} (l : List (Nat × α)) {k j : Nat} (v : α) (h : j ≠ k) :
    lookup (insertKey l k v) j = lookup l j := by
  induction l with
  | nil => simp [insertKey, lookup, Ne.symm h]
  | cons p rest ih =>
    obtain ⟨i, u⟩ := p
    simp only [insertKey]
    split
    · simp [lookup, Ne.symm h]
    · split
      · subst_vars
        simp [lookup, Ne.symm h]
      · simp [lookup, ih]

@[simp] theorem insertKey_insertKey {α : Type} (l : List (Nat × α)) (k : Nat) (v w : α) :
    insertKey (insertKey l k v) k w = insertKey l k w := by
  induction l with
  | nil => simp [insertKey]
  | cons p rest ih =>
    obtain ⟨j, u⟩ := p
    by_cases h : k < j
    · simp [insertKey, h]
    · by_cases h2 : k = j
      · simp [insertKey, h2]
      · simp [insertKey, h, h2, ih]

theorem lookup_eraseKey_ne {α : Type} (l : List (Nat × α)) {k j : Nat} (h : j ≠ k) :
    lookup (eraseKey l k) j = lookup l j := by
  induction l with
  | nil => rfl
  | cons p rest ih =>
    obtain ⟨i, u⟩ := p
    simp only [eraseKey]
    split
    · subst_vars
      simp [lookup, Ne.symm h]
    · simp [lookup, ih]

namespace Machine

/-! ## State.setStrand -/

@[simp] theorem State.setStrand_agenda (s : State) (k : Nat) (st : Strand) : (s.setStrand k st).agenda = s.agenda := rfl
@[simp] theorem State.setStrand_draws (s : State) (k : Nat) (st : Strand) : (s.setStrand k st).draws = s.draws := rfl
@[simp] theorem State.setStrand_cur (s : State) (k : Nat) (st : Strand) : (s.setStrand k st).cur = s.cur := rfl
@[simp] theorem State.setStrand_now (s : State) (k : Nat) (st : Strand) : (s.setStrand k st).now = s.now := rfl
@[simp] theorem State.setStrand_time (s : State) (k : Nat) (st : Strand) : (s.setStrand k st).time = s.time := rfl
@[simp] theorem State.setStrand_issued (s : State) (k : Nat) (st : Strand) : (s.setStrand k st).issued = s.issued := rfl
@[simp] theorem State.setStrand_clusters (s : State) (k : Nat) (st : Strand) : (s.setStrand k st).clusters = s.clusters := rfl
@[simp] theorem State.setStrand_dev (s : State) (k : Nat) (st : Strand) : (s.setStrand k st).dev = s.dev := rfl
@[simp] theorem State.setStrand_ws (s : State) (k : Nat) (st : Strand) : (s.setStrand k st).ws = s.ws := rfl
@[simp] theorem State.setStrand_host (s : State) (k : Nat) (st : Strand) : (s.setStrand k st).host = s.host := rfl
@[simp] theorem State.setStrand_remotes (s : State) (k : Nat) (st : Strand) : (s.setStrand k st).remotes = s.remotes := rfl
@[simp] theorem State.setStrand_poison (s : State) (k : Nat) (st : Strand) : (s.setStrand k st).poison = s.poison := rfl
@[simp] theorem State.setStrand_shadows (s : State) (k : Nat) (st : Strand) : (s.setStrand k st).shadows = s.shadows := rfl
@[simp] theorem State.setStrand_engines (s : State) (k : Nat) (st : Strand) : (s.setStrand k st).engines = s.engines := rfl
@[simp] theorem State.setStrand_nextCmd (s : State) (k : Nat) (st : Strand) : (s.setStrand k st).nextCmd = s.nextCmd := rfl
@[simp] theorem State.setStrand_pool (s : State) (k : Nat) (st : Strand) : (s.setStrand k st).pool = s.pool := rfl
@[simp] theorem State.setStrand_leaving (s : State) (k : Nat) (st : Strand) : (s.setStrand k st).leaving = s.leaving := rfl
@[simp] theorem State.setStrand_creds (s : State) (k : Nat) (st : Strand) : (s.setStrand k st).creds = s.creds := rfl
@[simp] theorem State.setStrand_tlb (s : State) (k : Nat) (st : Strand) : (s.setStrand k st).tlb = s.tlb := rfl
@[simp] theorem State.setStrand_walkCache (s : State) (k : Nat) (st : Strand) : (s.setStrand k st).walkCache = s.walkCache := rfl
@[simp] theorem State.setStrand_walks (s : State) (k : Nat) (st : Strand) : (s.setStrand k st).walks = s.walks := rfl
@[simp] theorem State.setStrand_pageReqs (s : State) (k : Nat) (st : Strand) : (s.setStrand k st).pageReqs = s.pageReqs := rfl
@[simp] theorem State.setStrand_xlatFaults (s : State) (k : Nat) (st : Strand) : (s.setStrand k st).xlatFaults = s.xlatFaults := rfl
@[simp] theorem State.setStrand_atsOwed (s : State) (k : Nat) (st : Strand) : (s.setStrand k st).atsOwed = s.atsOwed := rfl
@[simp] theorem State.setStrand_atsSent (s : State) (k : Nat) (st : Strand) : (s.setStrand k st).atsSent = s.atsSent := rfl
@[simp] theorem State.setStrand_tlbseq (s : State) (k : Nat) (st : Strand) : (s.setStrand k st).tlbseq = s.tlbseq := rfl
@[simp] theorem State.setStrand_spaces (s : State) (k : Nat) (st : Strand) : (s.setStrand k st).spaces = s.spaces := rfl
@[simp] theorem State.setStrand_partitions (s : State) (k : Nat) (st : Strand) : (s.setStrand k st).partitions = s.partitions := rfl
@[simp] theorem State.setStrand_scanPart (s : State) (k : Nat) (st : Strand) : (s.setStrand k st).scanPart = s.scanPart := rfl
@[simp] theorem State.setStrand_queues (s : State) (k : Nat) (st : Strand) : (s.setStrand k st).queues = s.queues := rfl
@[simp] theorem State.setStrand_inlet (s : State) (k : Nat) (st : Strand) : (s.setStrand k st).inlet = s.inlet := rfl
@[simp] theorem State.setStrand_readied (s : State) (k : Nat) (st : Strand) : (s.setStrand k st).readied = s.readied := rfl
@[simp] theorem State.setStrand_cores (s : State) (k : Nat) (st : Strand) : (s.setStrand k st).cores = s.cores := rfl
@[simp] theorem State.setStrand_log (s : State) (k : Nat) (st : Strand) : (s.setStrand k st).log = s.log := rfl
@[simp] theorem State.setStrand_nextLsn (s : State) (k : Nat) (st : Strand) : (s.setStrand k st).nextLsn = s.nextLsn := rfl
@[simp] theorem State.setStrand_launches (s : State) (k : Nat) (st : Strand) : (s.setStrand k st).launches = s.launches := rfl
@[simp] theorem State.setStrand_nextLaunch (s : State) (k : Nat) (st : Strand) : (s.setStrand k st).nextLaunch = s.nextLaunch := rfl
@[simp] theorem State.setStrand_groups (s : State) (k : Nat) (st : Strand) : (s.setStrand k st).groups = s.groups := rfl
@[simp] theorem State.setStrand_elided (s : State) (k : Nat) (st : Strand) : (s.setStrand k st).elided = s.elided := rfl
@[simp] theorem State.setStrand_graphs (s : State) (k : Nat) (st : Strand) : (s.setStrand k st).graphs = s.graphs := rfl
@[simp] theorem State.setStrand_sibgroups (s : State) (k : Nat) (st : Strand) : (s.setStrand k st).sibgroups = s.sibgroups := rfl
@[simp] theorem State.setStrand_returned (s : State) (k : Nat) (st : Strand) : (s.setStrand k st).returned = s.returned := rfl
@[simp] theorem State.setStrand_lingering (s : State) (k : Nat) (st : Strand) : (s.setStrand k st).lingering = s.lingering := rfl
@[simp] theorem State.setStrand_frames (s : State) (k : Nat) (st : Strand) : (s.setStrand k st).frames = s.frames := rfl
@[simp] theorem State.setStrand_regions (s : State) (k : Nat) (st : Strand) : (s.setStrand k st).regions = s.regions := rfl
@[simp] theorem State.setStrand_refresh (s : State) (k : Nat) (st : Strand) : (s.setStrand k st).refresh = s.refresh := rfl
@[simp] theorem State.setStrand_mailboxes (s : State) (k : Nat) (st : Strand) : (s.setStrand k st).mailboxes = s.mailboxes := rfl
@[simp] theorem State.setStrand_reply (s : State) (k : Nat) (st : Strand) : (s.setStrand k st).reply = s.reply := rfl
@[simp] theorem State.setStrand_msix (s : State) (k : Nat) (st : Strand) : (s.setStrand k st).msix = s.msix := rfl
@[simp] theorem State.setStrand_spdm (s : State) (k : Nat) (st : Strand) : (s.setStrand k st).spdm = s.spdm := rfl
@[simp] theorem State.setStrand_root (s : State) (k : Nat) (st : Strand) : (s.setStrand k st).root = s.root := rfl
@[simp] theorem State.setStrand_recorders (s : State) (k : Nat) (st : Strand) : (s.setStrand k st).recorders = s.recorders := rfl
@[simp] theorem State.setStrand_replaying (s : State) (k : Nat) (st : Strand) : (s.setStrand k st).replaying = s.replaying := rfl
@[simp] theorem State.setStrand_ports (s : State) (k : Nat) (st : Strand) : (s.setStrand k st).ports = s.ports := rfl
@[simp] theorem State.setStrand_repairedRows (s : State) (k : Nat) (st : Strand) : (s.setStrand k st).repairedRows = s.repairedRows := rfl
@[simp] theorem State.setStrand_clockMHz (s : State) (k : Nat) (st : Strand) : (s.setStrand k st).clockMHz = s.clockMHz := rfl
@[simp] theorem State.setStrand_clocksStopped (s : State) (k : Nat) (st : Strand) : (s.setStrand k st).clocksStopped = s.clocksStopped := rfl
@[simp] theorem State.setStrand_linkUp (s : State) (k : Nat) (st : Strand) : (s.setStrand k st).linkUp = s.linkUp := rfl
@[simp] theorem State.setStrand_ideFailed (s : State) (k : Nat) (st : Strand) : (s.setStrand k st).ideFailed = s.ideFailed := rfl
@[simp] theorem State.setStrand_mailboxOpen (s : State) (k : Nat) (st : Strand) : (s.setStrand k st).mailboxOpen = s.mailboxOpen := rfl

@[simp] theorem State.setStrand_strands (s : State) (k : Nat) (st : Strand) :
    (s.setStrand k st).strands = insertKey s.strands k st := rfl
@[simp] theorem State.strand?_setStrand (s : State) (k : Nat) (st : Strand) : (s.setStrand k st).strand? k = some st := by
  simp [State.strand?]
theorem State.strand?_setStrand_ne (s : State) {k j : Nat} (st : Strand) (h : j ≠ k) :
    (s.setStrand k st).strand? j = s.strand? j := by
  simp [State.strand?, lookup_insertKey_ne _ _ h]
@[simp] theorem State.setStrand_setStrand (s : State) (k : Nat) (st st' : Strand) :
    (s.setStrand k st).setStrand k st' = s.setStrand k st' := by
  simp [State.setStrand]
@[simp] theorem State.cluster_setStrand (s : State) (k j : Nat) (st : Strand) : (s.setStrand k st).cluster j = s.cluster j := rfl

/-! ## State.setCluster -/

@[simp] theorem State.setCluster_agenda (s : State) (k : Nat) (c : Cluster) : (s.setCluster k c).agenda = s.agenda := rfl
@[simp] theorem State.setCluster_draws (s : State) (k : Nat) (c : Cluster) : (s.setCluster k c).draws = s.draws := rfl
@[simp] theorem State.setCluster_cur (s : State) (k : Nat) (c : Cluster) : (s.setCluster k c).cur = s.cur := rfl
@[simp] theorem State.setCluster_now (s : State) (k : Nat) (c : Cluster) : (s.setCluster k c).now = s.now := rfl
@[simp] theorem State.setCluster_time (s : State) (k : Nat) (c : Cluster) : (s.setCluster k c).time = s.time := rfl
@[simp] theorem State.setCluster_strands (s : State) (k : Nat) (c : Cluster) : (s.setCluster k c).strands = s.strands := rfl
@[simp] theorem State.setCluster_issued (s : State) (k : Nat) (c : Cluster) : (s.setCluster k c).issued = s.issued := rfl
@[simp] theorem State.setCluster_dev (s : State) (k : Nat) (c : Cluster) : (s.setCluster k c).dev = s.dev := rfl
@[simp] theorem State.setCluster_ws (s : State) (k : Nat) (c : Cluster) : (s.setCluster k c).ws = s.ws := rfl
@[simp] theorem State.setCluster_host (s : State) (k : Nat) (c : Cluster) : (s.setCluster k c).host = s.host := rfl
@[simp] theorem State.setCluster_remotes (s : State) (k : Nat) (c : Cluster) : (s.setCluster k c).remotes = s.remotes := rfl
@[simp] theorem State.setCluster_poison (s : State) (k : Nat) (c : Cluster) : (s.setCluster k c).poison = s.poison := rfl
@[simp] theorem State.setCluster_shadows (s : State) (k : Nat) (c : Cluster) : (s.setCluster k c).shadows = s.shadows := rfl
@[simp] theorem State.setCluster_engines (s : State) (k : Nat) (c : Cluster) : (s.setCluster k c).engines = s.engines := rfl
@[simp] theorem State.setCluster_nextCmd (s : State) (k : Nat) (c : Cluster) : (s.setCluster k c).nextCmd = s.nextCmd := rfl
@[simp] theorem State.setCluster_pool (s : State) (k : Nat) (c : Cluster) : (s.setCluster k c).pool = s.pool := rfl
@[simp] theorem State.setCluster_leaving (s : State) (k : Nat) (c : Cluster) : (s.setCluster k c).leaving = s.leaving := rfl
@[simp] theorem State.setCluster_creds (s : State) (k : Nat) (c : Cluster) : (s.setCluster k c).creds = s.creds := rfl
@[simp] theorem State.setCluster_tlb (s : State) (k : Nat) (c : Cluster) : (s.setCluster k c).tlb = s.tlb := rfl
@[simp] theorem State.setCluster_walkCache (s : State) (k : Nat) (c : Cluster) : (s.setCluster k c).walkCache = s.walkCache := rfl
@[simp] theorem State.setCluster_walks (s : State) (k : Nat) (c : Cluster) : (s.setCluster k c).walks = s.walks := rfl
@[simp] theorem State.setCluster_pageReqs (s : State) (k : Nat) (c : Cluster) : (s.setCluster k c).pageReqs = s.pageReqs := rfl
@[simp] theorem State.setCluster_xlatFaults (s : State) (k : Nat) (c : Cluster) : (s.setCluster k c).xlatFaults = s.xlatFaults := rfl
@[simp] theorem State.setCluster_atsOwed (s : State) (k : Nat) (c : Cluster) : (s.setCluster k c).atsOwed = s.atsOwed := rfl
@[simp] theorem State.setCluster_atsSent (s : State) (k : Nat) (c : Cluster) : (s.setCluster k c).atsSent = s.atsSent := rfl
@[simp] theorem State.setCluster_tlbseq (s : State) (k : Nat) (c : Cluster) : (s.setCluster k c).tlbseq = s.tlbseq := rfl
@[simp] theorem State.setCluster_spaces (s : State) (k : Nat) (c : Cluster) : (s.setCluster k c).spaces = s.spaces := rfl
@[simp] theorem State.setCluster_partitions (s : State) (k : Nat) (c : Cluster) : (s.setCluster k c).partitions = s.partitions := rfl
@[simp] theorem State.setCluster_scanPart (s : State) (k : Nat) (c : Cluster) : (s.setCluster k c).scanPart = s.scanPart := rfl
@[simp] theorem State.setCluster_queues (s : State) (k : Nat) (c : Cluster) : (s.setCluster k c).queues = s.queues := rfl
@[simp] theorem State.setCluster_inlet (s : State) (k : Nat) (c : Cluster) : (s.setCluster k c).inlet = s.inlet := rfl
@[simp] theorem State.setCluster_readied (s : State) (k : Nat) (c : Cluster) : (s.setCluster k c).readied = s.readied := rfl
@[simp] theorem State.setCluster_cores (s : State) (k : Nat) (c : Cluster) : (s.setCluster k c).cores = s.cores := rfl
@[simp] theorem State.setCluster_log (s : State) (k : Nat) (c : Cluster) : (s.setCluster k c).log = s.log := rfl
@[simp] theorem State.setCluster_nextLsn (s : State) (k : Nat) (c : Cluster) : (s.setCluster k c).nextLsn = s.nextLsn := rfl
@[simp] theorem State.setCluster_launches (s : State) (k : Nat) (c : Cluster) : (s.setCluster k c).launches = s.launches := rfl
@[simp] theorem State.setCluster_nextLaunch (s : State) (k : Nat) (c : Cluster) : (s.setCluster k c).nextLaunch = s.nextLaunch := rfl
@[simp] theorem State.setCluster_groups (s : State) (k : Nat) (c : Cluster) : (s.setCluster k c).groups = s.groups := rfl
@[simp] theorem State.setCluster_elided (s : State) (k : Nat) (c : Cluster) : (s.setCluster k c).elided = s.elided := rfl
@[simp] theorem State.setCluster_graphs (s : State) (k : Nat) (c : Cluster) : (s.setCluster k c).graphs = s.graphs := rfl
@[simp] theorem State.setCluster_sibgroups (s : State) (k : Nat) (c : Cluster) : (s.setCluster k c).sibgroups = s.sibgroups := rfl
@[simp] theorem State.setCluster_returned (s : State) (k : Nat) (c : Cluster) : (s.setCluster k c).returned = s.returned := rfl
@[simp] theorem State.setCluster_lingering (s : State) (k : Nat) (c : Cluster) : (s.setCluster k c).lingering = s.lingering := rfl
@[simp] theorem State.setCluster_frames (s : State) (k : Nat) (c : Cluster) : (s.setCluster k c).frames = s.frames := rfl
@[simp] theorem State.setCluster_regions (s : State) (k : Nat) (c : Cluster) : (s.setCluster k c).regions = s.regions := rfl
@[simp] theorem State.setCluster_refresh (s : State) (k : Nat) (c : Cluster) : (s.setCluster k c).refresh = s.refresh := rfl
@[simp] theorem State.setCluster_mailboxes (s : State) (k : Nat) (c : Cluster) : (s.setCluster k c).mailboxes = s.mailboxes := rfl
@[simp] theorem State.setCluster_reply (s : State) (k : Nat) (c : Cluster) : (s.setCluster k c).reply = s.reply := rfl
@[simp] theorem State.setCluster_msix (s : State) (k : Nat) (c : Cluster) : (s.setCluster k c).msix = s.msix := rfl
@[simp] theorem State.setCluster_spdm (s : State) (k : Nat) (c : Cluster) : (s.setCluster k c).spdm = s.spdm := rfl
@[simp] theorem State.setCluster_root (s : State) (k : Nat) (c : Cluster) : (s.setCluster k c).root = s.root := rfl
@[simp] theorem State.setCluster_recorders (s : State) (k : Nat) (c : Cluster) : (s.setCluster k c).recorders = s.recorders := rfl
@[simp] theorem State.setCluster_replaying (s : State) (k : Nat) (c : Cluster) : (s.setCluster k c).replaying = s.replaying := rfl
@[simp] theorem State.setCluster_ports (s : State) (k : Nat) (c : Cluster) : (s.setCluster k c).ports = s.ports := rfl
@[simp] theorem State.setCluster_repairedRows (s : State) (k : Nat) (c : Cluster) : (s.setCluster k c).repairedRows = s.repairedRows := rfl
@[simp] theorem State.setCluster_clockMHz (s : State) (k : Nat) (c : Cluster) : (s.setCluster k c).clockMHz = s.clockMHz := rfl
@[simp] theorem State.setCluster_clocksStopped (s : State) (k : Nat) (c : Cluster) : (s.setCluster k c).clocksStopped = s.clocksStopped := rfl
@[simp] theorem State.setCluster_linkUp (s : State) (k : Nat) (c : Cluster) : (s.setCluster k c).linkUp = s.linkUp := rfl
@[simp] theorem State.setCluster_ideFailed (s : State) (k : Nat) (c : Cluster) : (s.setCluster k c).ideFailed = s.ideFailed := rfl
@[simp] theorem State.setCluster_mailboxOpen (s : State) (k : Nat) (c : Cluster) : (s.setCluster k c).mailboxOpen = s.mailboxOpen := rfl

@[simp] theorem State.setCluster_clusters (s : State) (k : Nat) (c : Cluster) :
    (s.setCluster k c).clusters = insertKey s.clusters k c := rfl
@[simp] theorem State.cluster_setCluster (s : State) (k : Nat) (c : Cluster) : (s.setCluster k c).cluster k = c := by
  simp [State.cluster]
theorem State.cluster_setCluster_ne (s : State) {k j : Nat} (c : Cluster) (h : j ≠ k) :
    (s.setCluster k c).cluster j = s.cluster j := by
  simp [State.cluster, lookup_insertKey_ne _ _ h]
@[simp] theorem State.strand?_setCluster (s : State) (k j : Nat) (c : Cluster) : (s.setCluster k c).strand? j = s.strand? j := rfl

/-! ## State.drawn -/

@[simp] theorem State.drawn_agenda (s : State) : (s.drawn).agenda = s.agenda := rfl
@[simp] theorem State.drawn_cur (s : State) : (s.drawn).cur = s.cur := rfl
@[simp] theorem State.drawn_now (s : State) : (s.drawn).now = s.now := rfl
@[simp] theorem State.drawn_time (s : State) : (s.drawn).time = s.time := rfl
@[simp] theorem State.drawn_strands (s : State) : (s.drawn).strands = s.strands := rfl
@[simp] theorem State.drawn_issued (s : State) : (s.drawn).issued = s.issued := rfl
@[simp] theorem State.drawn_clusters (s : State) : (s.drawn).clusters = s.clusters := rfl
@[simp] theorem State.drawn_dev (s : State) : (s.drawn).dev = s.dev := rfl
@[simp] theorem State.drawn_ws (s : State) : (s.drawn).ws = s.ws := rfl
@[simp] theorem State.drawn_host (s : State) : (s.drawn).host = s.host := rfl
@[simp] theorem State.drawn_remotes (s : State) : (s.drawn).remotes = s.remotes := rfl
@[simp] theorem State.drawn_poison (s : State) : (s.drawn).poison = s.poison := rfl
@[simp] theorem State.drawn_shadows (s : State) : (s.drawn).shadows = s.shadows := rfl
@[simp] theorem State.drawn_engines (s : State) : (s.drawn).engines = s.engines := rfl
@[simp] theorem State.drawn_nextCmd (s : State) : (s.drawn).nextCmd = s.nextCmd := rfl
@[simp] theorem State.drawn_pool (s : State) : (s.drawn).pool = s.pool := rfl
@[simp] theorem State.drawn_leaving (s : State) : (s.drawn).leaving = s.leaving := rfl
@[simp] theorem State.drawn_creds (s : State) : (s.drawn).creds = s.creds := rfl
@[simp] theorem State.drawn_tlb (s : State) : (s.drawn).tlb = s.tlb := rfl
@[simp] theorem State.drawn_walkCache (s : State) : (s.drawn).walkCache = s.walkCache := rfl
@[simp] theorem State.drawn_walks (s : State) : (s.drawn).walks = s.walks := rfl
@[simp] theorem State.drawn_pageReqs (s : State) : (s.drawn).pageReqs = s.pageReqs := rfl
@[simp] theorem State.drawn_xlatFaults (s : State) : (s.drawn).xlatFaults = s.xlatFaults := rfl
@[simp] theorem State.drawn_atsOwed (s : State) : (s.drawn).atsOwed = s.atsOwed := rfl
@[simp] theorem State.drawn_atsSent (s : State) : (s.drawn).atsSent = s.atsSent := rfl
@[simp] theorem State.drawn_tlbseq (s : State) : (s.drawn).tlbseq = s.tlbseq := rfl
@[simp] theorem State.drawn_spaces (s : State) : (s.drawn).spaces = s.spaces := rfl
@[simp] theorem State.drawn_partitions (s : State) : (s.drawn).partitions = s.partitions := rfl
@[simp] theorem State.drawn_scanPart (s : State) : (s.drawn).scanPart = s.scanPart := rfl
@[simp] theorem State.drawn_queues (s : State) : (s.drawn).queues = s.queues := rfl
@[simp] theorem State.drawn_inlet (s : State) : (s.drawn).inlet = s.inlet := rfl
@[simp] theorem State.drawn_readied (s : State) : (s.drawn).readied = s.readied := rfl
@[simp] theorem State.drawn_cores (s : State) : (s.drawn).cores = s.cores := rfl
@[simp] theorem State.drawn_log (s : State) : (s.drawn).log = s.log := rfl
@[simp] theorem State.drawn_nextLsn (s : State) : (s.drawn).nextLsn = s.nextLsn := rfl
@[simp] theorem State.drawn_launches (s : State) : (s.drawn).launches = s.launches := rfl
@[simp] theorem State.drawn_nextLaunch (s : State) : (s.drawn).nextLaunch = s.nextLaunch := rfl
@[simp] theorem State.drawn_groups (s : State) : (s.drawn).groups = s.groups := rfl
@[simp] theorem State.drawn_elided (s : State) : (s.drawn).elided = s.elided := rfl
@[simp] theorem State.drawn_graphs (s : State) : (s.drawn).graphs = s.graphs := rfl
@[simp] theorem State.drawn_sibgroups (s : State) : (s.drawn).sibgroups = s.sibgroups := rfl
@[simp] theorem State.drawn_returned (s : State) : (s.drawn).returned = s.returned := rfl
@[simp] theorem State.drawn_lingering (s : State) : (s.drawn).lingering = s.lingering := rfl
@[simp] theorem State.drawn_frames (s : State) : (s.drawn).frames = s.frames := rfl
@[simp] theorem State.drawn_regions (s : State) : (s.drawn).regions = s.regions := rfl
@[simp] theorem State.drawn_refresh (s : State) : (s.drawn).refresh = s.refresh := rfl
@[simp] theorem State.drawn_mailboxes (s : State) : (s.drawn).mailboxes = s.mailboxes := rfl
@[simp] theorem State.drawn_reply (s : State) : (s.drawn).reply = s.reply := rfl
@[simp] theorem State.drawn_msix (s : State) : (s.drawn).msix = s.msix := rfl
@[simp] theorem State.drawn_spdm (s : State) : (s.drawn).spdm = s.spdm := rfl
@[simp] theorem State.drawn_root (s : State) : (s.drawn).root = s.root := rfl
@[simp] theorem State.drawn_recorders (s : State) : (s.drawn).recorders = s.recorders := rfl
@[simp] theorem State.drawn_replaying (s : State) : (s.drawn).replaying = s.replaying := rfl
@[simp] theorem State.drawn_ports (s : State) : (s.drawn).ports = s.ports := rfl
@[simp] theorem State.drawn_repairedRows (s : State) : (s.drawn).repairedRows = s.repairedRows := rfl
@[simp] theorem State.drawn_clockMHz (s : State) : (s.drawn).clockMHz = s.clockMHz := rfl
@[simp] theorem State.drawn_clocksStopped (s : State) : (s.drawn).clocksStopped = s.clocksStopped := rfl
@[simp] theorem State.drawn_linkUp (s : State) : (s.drawn).linkUp = s.linkUp := rfl
@[simp] theorem State.drawn_ideFailed (s : State) : (s.drawn).ideFailed = s.ideFailed := rfl
@[simp] theorem State.drawn_mailboxOpen (s : State) : (s.drawn).mailboxOpen = s.mailboxOpen := rfl

@[simp] theorem State.drawn_draws (s : State) : s.drawn.draws = s.draws + 1 := rfl
@[simp] theorem State.strand?_drawn (s : State) (k : Nat) : s.drawn.strand? k = s.strand? k := rfl
@[simp] theorem State.cluster_drawn (s : State) (k : Nat) : s.drawn.cluster k = s.cluster k := rfl

/-! ## State.updStrand -/

@[simp] theorem State.updStrand_agenda (s : State) (k : Nat) (f : Strand → Strand) : (s.updStrand k f).agenda = s.agenda := by
  unfold State.updStrand
  split <;> rfl
@[simp] theorem State.updStrand_draws (s : State) (k : Nat) (f : Strand → Strand) : (s.updStrand k f).draws = s.draws := by
  unfold State.updStrand
  split <;> rfl
@[simp] theorem State.updStrand_cur (s : State) (k : Nat) (f : Strand → Strand) : (s.updStrand k f).cur = s.cur := by
  unfold State.updStrand
  split <;> rfl
@[simp] theorem State.updStrand_now (s : State) (k : Nat) (f : Strand → Strand) : (s.updStrand k f).now = s.now := by
  unfold State.updStrand
  split <;> rfl
@[simp] theorem State.updStrand_time (s : State) (k : Nat) (f : Strand → Strand) : (s.updStrand k f).time = s.time := by
  unfold State.updStrand
  split <;> rfl
@[simp] theorem State.updStrand_issued (s : State) (k : Nat) (f : Strand → Strand) : (s.updStrand k f).issued = s.issued := by
  unfold State.updStrand
  split <;> rfl
@[simp] theorem State.updStrand_clusters (s : State) (k : Nat) (f : Strand → Strand) : (s.updStrand k f).clusters = s.clusters := by
  unfold State.updStrand
  split <;> rfl
@[simp] theorem State.updStrand_dev (s : State) (k : Nat) (f : Strand → Strand) : (s.updStrand k f).dev = s.dev := by
  unfold State.updStrand
  split <;> rfl
@[simp] theorem State.updStrand_ws (s : State) (k : Nat) (f : Strand → Strand) : (s.updStrand k f).ws = s.ws := by
  unfold State.updStrand
  split <;> rfl
@[simp] theorem State.updStrand_host (s : State) (k : Nat) (f : Strand → Strand) : (s.updStrand k f).host = s.host := by
  unfold State.updStrand
  split <;> rfl
@[simp] theorem State.updStrand_remotes (s : State) (k : Nat) (f : Strand → Strand) : (s.updStrand k f).remotes = s.remotes := by
  unfold State.updStrand
  split <;> rfl
@[simp] theorem State.updStrand_poison (s : State) (k : Nat) (f : Strand → Strand) : (s.updStrand k f).poison = s.poison := by
  unfold State.updStrand
  split <;> rfl
@[simp] theorem State.updStrand_shadows (s : State) (k : Nat) (f : Strand → Strand) : (s.updStrand k f).shadows = s.shadows := by
  unfold State.updStrand
  split <;> rfl
@[simp] theorem State.updStrand_engines (s : State) (k : Nat) (f : Strand → Strand) : (s.updStrand k f).engines = s.engines := by
  unfold State.updStrand
  split <;> rfl
@[simp] theorem State.updStrand_nextCmd (s : State) (k : Nat) (f : Strand → Strand) : (s.updStrand k f).nextCmd = s.nextCmd := by
  unfold State.updStrand
  split <;> rfl
@[simp] theorem State.updStrand_pool (s : State) (k : Nat) (f : Strand → Strand) : (s.updStrand k f).pool = s.pool := by
  unfold State.updStrand
  split <;> rfl
@[simp] theorem State.updStrand_leaving (s : State) (k : Nat) (f : Strand → Strand) : (s.updStrand k f).leaving = s.leaving := by
  unfold State.updStrand
  split <;> rfl
@[simp] theorem State.updStrand_creds (s : State) (k : Nat) (f : Strand → Strand) : (s.updStrand k f).creds = s.creds := by
  unfold State.updStrand
  split <;> rfl
@[simp] theorem State.updStrand_tlb (s : State) (k : Nat) (f : Strand → Strand) : (s.updStrand k f).tlb = s.tlb := by
  unfold State.updStrand
  split <;> rfl
@[simp] theorem State.updStrand_walkCache (s : State) (k : Nat) (f : Strand → Strand) : (s.updStrand k f).walkCache = s.walkCache := by
  unfold State.updStrand
  split <;> rfl
@[simp] theorem State.updStrand_walks (s : State) (k : Nat) (f : Strand → Strand) : (s.updStrand k f).walks = s.walks := by
  unfold State.updStrand
  split <;> rfl
@[simp] theorem State.updStrand_pageReqs (s : State) (k : Nat) (f : Strand → Strand) : (s.updStrand k f).pageReqs = s.pageReqs := by
  unfold State.updStrand
  split <;> rfl
@[simp] theorem State.updStrand_xlatFaults (s : State) (k : Nat) (f : Strand → Strand) : (s.updStrand k f).xlatFaults = s.xlatFaults := by
  unfold State.updStrand
  split <;> rfl
@[simp] theorem State.updStrand_atsOwed (s : State) (k : Nat) (f : Strand → Strand) : (s.updStrand k f).atsOwed = s.atsOwed := by
  unfold State.updStrand
  split <;> rfl
@[simp] theorem State.updStrand_atsSent (s : State) (k : Nat) (f : Strand → Strand) : (s.updStrand k f).atsSent = s.atsSent := by
  unfold State.updStrand
  split <;> rfl
@[simp] theorem State.updStrand_tlbseq (s : State) (k : Nat) (f : Strand → Strand) : (s.updStrand k f).tlbseq = s.tlbseq := by
  unfold State.updStrand
  split <;> rfl
@[simp] theorem State.updStrand_spaces (s : State) (k : Nat) (f : Strand → Strand) : (s.updStrand k f).spaces = s.spaces := by
  unfold State.updStrand
  split <;> rfl
@[simp] theorem State.updStrand_partitions (s : State) (k : Nat) (f : Strand → Strand) : (s.updStrand k f).partitions = s.partitions := by
  unfold State.updStrand
  split <;> rfl
@[simp] theorem State.updStrand_scanPart (s : State) (k : Nat) (f : Strand → Strand) : (s.updStrand k f).scanPart = s.scanPart := by
  unfold State.updStrand
  split <;> rfl
@[simp] theorem State.updStrand_queues (s : State) (k : Nat) (f : Strand → Strand) : (s.updStrand k f).queues = s.queues := by
  unfold State.updStrand
  split <;> rfl
@[simp] theorem State.updStrand_inlet (s : State) (k : Nat) (f : Strand → Strand) : (s.updStrand k f).inlet = s.inlet := by
  unfold State.updStrand
  split <;> rfl
@[simp] theorem State.updStrand_readied (s : State) (k : Nat) (f : Strand → Strand) : (s.updStrand k f).readied = s.readied := by
  unfold State.updStrand
  split <;> rfl
@[simp] theorem State.updStrand_cores (s : State) (k : Nat) (f : Strand → Strand) : (s.updStrand k f).cores = s.cores := by
  unfold State.updStrand
  split <;> rfl
@[simp] theorem State.updStrand_log (s : State) (k : Nat) (f : Strand → Strand) : (s.updStrand k f).log = s.log := by
  unfold State.updStrand
  split <;> rfl
@[simp] theorem State.updStrand_nextLsn (s : State) (k : Nat) (f : Strand → Strand) : (s.updStrand k f).nextLsn = s.nextLsn := by
  unfold State.updStrand
  split <;> rfl
@[simp] theorem State.updStrand_launches (s : State) (k : Nat) (f : Strand → Strand) : (s.updStrand k f).launches = s.launches := by
  unfold State.updStrand
  split <;> rfl
@[simp] theorem State.updStrand_nextLaunch (s : State) (k : Nat) (f : Strand → Strand) : (s.updStrand k f).nextLaunch = s.nextLaunch := by
  unfold State.updStrand
  split <;> rfl
@[simp] theorem State.updStrand_groups (s : State) (k : Nat) (f : Strand → Strand) : (s.updStrand k f).groups = s.groups := by
  unfold State.updStrand
  split <;> rfl
@[simp] theorem State.updStrand_elided (s : State) (k : Nat) (f : Strand → Strand) : (s.updStrand k f).elided = s.elided := by
  unfold State.updStrand
  split <;> rfl
@[simp] theorem State.updStrand_graphs (s : State) (k : Nat) (f : Strand → Strand) : (s.updStrand k f).graphs = s.graphs := by
  unfold State.updStrand
  split <;> rfl
@[simp] theorem State.updStrand_sibgroups (s : State) (k : Nat) (f : Strand → Strand) : (s.updStrand k f).sibgroups = s.sibgroups := by
  unfold State.updStrand
  split <;> rfl
@[simp] theorem State.updStrand_returned (s : State) (k : Nat) (f : Strand → Strand) : (s.updStrand k f).returned = s.returned := by
  unfold State.updStrand
  split <;> rfl
@[simp] theorem State.updStrand_lingering (s : State) (k : Nat) (f : Strand → Strand) : (s.updStrand k f).lingering = s.lingering := by
  unfold State.updStrand
  split <;> rfl
@[simp] theorem State.updStrand_frames (s : State) (k : Nat) (f : Strand → Strand) : (s.updStrand k f).frames = s.frames := by
  unfold State.updStrand
  split <;> rfl
@[simp] theorem State.updStrand_regions (s : State) (k : Nat) (f : Strand → Strand) : (s.updStrand k f).regions = s.regions := by
  unfold State.updStrand
  split <;> rfl
@[simp] theorem State.updStrand_refresh (s : State) (k : Nat) (f : Strand → Strand) : (s.updStrand k f).refresh = s.refresh := by
  unfold State.updStrand
  split <;> rfl
@[simp] theorem State.updStrand_mailboxes (s : State) (k : Nat) (f : Strand → Strand) : (s.updStrand k f).mailboxes = s.mailboxes := by
  unfold State.updStrand
  split <;> rfl
@[simp] theorem State.updStrand_reply (s : State) (k : Nat) (f : Strand → Strand) : (s.updStrand k f).reply = s.reply := by
  unfold State.updStrand
  split <;> rfl
@[simp] theorem State.updStrand_msix (s : State) (k : Nat) (f : Strand → Strand) : (s.updStrand k f).msix = s.msix := by
  unfold State.updStrand
  split <;> rfl
@[simp] theorem State.updStrand_spdm (s : State) (k : Nat) (f : Strand → Strand) : (s.updStrand k f).spdm = s.spdm := by
  unfold State.updStrand
  split <;> rfl
@[simp] theorem State.updStrand_root (s : State) (k : Nat) (f : Strand → Strand) : (s.updStrand k f).root = s.root := by
  unfold State.updStrand
  split <;> rfl
@[simp] theorem State.updStrand_recorders (s : State) (k : Nat) (f : Strand → Strand) : (s.updStrand k f).recorders = s.recorders := by
  unfold State.updStrand
  split <;> rfl
@[simp] theorem State.updStrand_replaying (s : State) (k : Nat) (f : Strand → Strand) : (s.updStrand k f).replaying = s.replaying := by
  unfold State.updStrand
  split <;> rfl
@[simp] theorem State.updStrand_ports (s : State) (k : Nat) (f : Strand → Strand) : (s.updStrand k f).ports = s.ports := by
  unfold State.updStrand
  split <;> rfl
@[simp] theorem State.updStrand_repairedRows (s : State) (k : Nat) (f : Strand → Strand) : (s.updStrand k f).repairedRows = s.repairedRows := by
  unfold State.updStrand
  split <;> rfl
@[simp] theorem State.updStrand_clockMHz (s : State) (k : Nat) (f : Strand → Strand) : (s.updStrand k f).clockMHz = s.clockMHz := by
  unfold State.updStrand
  split <;> rfl
@[simp] theorem State.updStrand_clocksStopped (s : State) (k : Nat) (f : Strand → Strand) : (s.updStrand k f).clocksStopped = s.clocksStopped := by
  unfold State.updStrand
  split <;> rfl
@[simp] theorem State.updStrand_linkUp (s : State) (k : Nat) (f : Strand → Strand) : (s.updStrand k f).linkUp = s.linkUp := by
  unfold State.updStrand
  split <;> rfl
@[simp] theorem State.updStrand_ideFailed (s : State) (k : Nat) (f : Strand → Strand) : (s.updStrand k f).ideFailed = s.ideFailed := by
  unfold State.updStrand
  split <;> rfl
@[simp] theorem State.updStrand_mailboxOpen (s : State) (k : Nat) (f : Strand → Strand) : (s.updStrand k f).mailboxOpen = s.mailboxOpen := by
  unfold State.updStrand
  split <;> rfl

/-! ## State.updCtx -/

@[simp] theorem State.updCtx_agenda (s : State) (k : Nat) (id : CtxId) (f : Context → Context) : (s.updCtx k id f).agenda = s.agenda := by
  simp [State.updCtx]
@[simp] theorem State.updCtx_draws (s : State) (k : Nat) (id : CtxId) (f : Context → Context) : (s.updCtx k id f).draws = s.draws := by
  simp [State.updCtx]
@[simp] theorem State.updCtx_cur (s : State) (k : Nat) (id : CtxId) (f : Context → Context) : (s.updCtx k id f).cur = s.cur := by
  simp [State.updCtx]
@[simp] theorem State.updCtx_now (s : State) (k : Nat) (id : CtxId) (f : Context → Context) : (s.updCtx k id f).now = s.now := by
  simp [State.updCtx]
@[simp] theorem State.updCtx_time (s : State) (k : Nat) (id : CtxId) (f : Context → Context) : (s.updCtx k id f).time = s.time := by
  simp [State.updCtx]
@[simp] theorem State.updCtx_issued (s : State) (k : Nat) (id : CtxId) (f : Context → Context) : (s.updCtx k id f).issued = s.issued := by
  simp [State.updCtx]
@[simp] theorem State.updCtx_clusters (s : State) (k : Nat) (id : CtxId) (f : Context → Context) : (s.updCtx k id f).clusters = s.clusters := by
  simp [State.updCtx]
@[simp] theorem State.updCtx_dev (s : State) (k : Nat) (id : CtxId) (f : Context → Context) : (s.updCtx k id f).dev = s.dev := by
  simp [State.updCtx]
@[simp] theorem State.updCtx_ws (s : State) (k : Nat) (id : CtxId) (f : Context → Context) : (s.updCtx k id f).ws = s.ws := by
  simp [State.updCtx]
@[simp] theorem State.updCtx_host (s : State) (k : Nat) (id : CtxId) (f : Context → Context) : (s.updCtx k id f).host = s.host := by
  simp [State.updCtx]
@[simp] theorem State.updCtx_remotes (s : State) (k : Nat) (id : CtxId) (f : Context → Context) : (s.updCtx k id f).remotes = s.remotes := by
  simp [State.updCtx]
@[simp] theorem State.updCtx_poison (s : State) (k : Nat) (id : CtxId) (f : Context → Context) : (s.updCtx k id f).poison = s.poison := by
  simp [State.updCtx]
@[simp] theorem State.updCtx_shadows (s : State) (k : Nat) (id : CtxId) (f : Context → Context) : (s.updCtx k id f).shadows = s.shadows := by
  simp [State.updCtx]
@[simp] theorem State.updCtx_engines (s : State) (k : Nat) (id : CtxId) (f : Context → Context) : (s.updCtx k id f).engines = s.engines := by
  simp [State.updCtx]
@[simp] theorem State.updCtx_nextCmd (s : State) (k : Nat) (id : CtxId) (f : Context → Context) : (s.updCtx k id f).nextCmd = s.nextCmd := by
  simp [State.updCtx]
@[simp] theorem State.updCtx_pool (s : State) (k : Nat) (id : CtxId) (f : Context → Context) : (s.updCtx k id f).pool = s.pool := by
  simp [State.updCtx]
@[simp] theorem State.updCtx_leaving (s : State) (k : Nat) (id : CtxId) (f : Context → Context) : (s.updCtx k id f).leaving = s.leaving := by
  simp [State.updCtx]
@[simp] theorem State.updCtx_creds (s : State) (k : Nat) (id : CtxId) (f : Context → Context) : (s.updCtx k id f).creds = s.creds := by
  simp [State.updCtx]
@[simp] theorem State.updCtx_tlb (s : State) (k : Nat) (id : CtxId) (f : Context → Context) : (s.updCtx k id f).tlb = s.tlb := by
  simp [State.updCtx]
@[simp] theorem State.updCtx_walkCache (s : State) (k : Nat) (id : CtxId) (f : Context → Context) : (s.updCtx k id f).walkCache = s.walkCache := by
  simp [State.updCtx]
@[simp] theorem State.updCtx_walks (s : State) (k : Nat) (id : CtxId) (f : Context → Context) : (s.updCtx k id f).walks = s.walks := by
  simp [State.updCtx]
@[simp] theorem State.updCtx_pageReqs (s : State) (k : Nat) (id : CtxId) (f : Context → Context) : (s.updCtx k id f).pageReqs = s.pageReqs := by
  simp [State.updCtx]
@[simp] theorem State.updCtx_xlatFaults (s : State) (k : Nat) (id : CtxId) (f : Context → Context) : (s.updCtx k id f).xlatFaults = s.xlatFaults := by
  simp [State.updCtx]
@[simp] theorem State.updCtx_atsOwed (s : State) (k : Nat) (id : CtxId) (f : Context → Context) : (s.updCtx k id f).atsOwed = s.atsOwed := by
  simp [State.updCtx]
@[simp] theorem State.updCtx_atsSent (s : State) (k : Nat) (id : CtxId) (f : Context → Context) : (s.updCtx k id f).atsSent = s.atsSent := by
  simp [State.updCtx]
@[simp] theorem State.updCtx_tlbseq (s : State) (k : Nat) (id : CtxId) (f : Context → Context) : (s.updCtx k id f).tlbseq = s.tlbseq := by
  simp [State.updCtx]
@[simp] theorem State.updCtx_spaces (s : State) (k : Nat) (id : CtxId) (f : Context → Context) : (s.updCtx k id f).spaces = s.spaces := by
  simp [State.updCtx]
@[simp] theorem State.updCtx_partitions (s : State) (k : Nat) (id : CtxId) (f : Context → Context) : (s.updCtx k id f).partitions = s.partitions := by
  simp [State.updCtx]
@[simp] theorem State.updCtx_scanPart (s : State) (k : Nat) (id : CtxId) (f : Context → Context) : (s.updCtx k id f).scanPart = s.scanPart := by
  simp [State.updCtx]
@[simp] theorem State.updCtx_queues (s : State) (k : Nat) (id : CtxId) (f : Context → Context) : (s.updCtx k id f).queues = s.queues := by
  simp [State.updCtx]
@[simp] theorem State.updCtx_inlet (s : State) (k : Nat) (id : CtxId) (f : Context → Context) : (s.updCtx k id f).inlet = s.inlet := by
  simp [State.updCtx]
@[simp] theorem State.updCtx_readied (s : State) (k : Nat) (id : CtxId) (f : Context → Context) : (s.updCtx k id f).readied = s.readied := by
  simp [State.updCtx]
@[simp] theorem State.updCtx_cores (s : State) (k : Nat) (id : CtxId) (f : Context → Context) : (s.updCtx k id f).cores = s.cores := by
  simp [State.updCtx]
@[simp] theorem State.updCtx_log (s : State) (k : Nat) (id : CtxId) (f : Context → Context) : (s.updCtx k id f).log = s.log := by
  simp [State.updCtx]
@[simp] theorem State.updCtx_nextLsn (s : State) (k : Nat) (id : CtxId) (f : Context → Context) : (s.updCtx k id f).nextLsn = s.nextLsn := by
  simp [State.updCtx]
@[simp] theorem State.updCtx_launches (s : State) (k : Nat) (id : CtxId) (f : Context → Context) : (s.updCtx k id f).launches = s.launches := by
  simp [State.updCtx]
@[simp] theorem State.updCtx_nextLaunch (s : State) (k : Nat) (id : CtxId) (f : Context → Context) : (s.updCtx k id f).nextLaunch = s.nextLaunch := by
  simp [State.updCtx]
@[simp] theorem State.updCtx_groups (s : State) (k : Nat) (id : CtxId) (f : Context → Context) : (s.updCtx k id f).groups = s.groups := by
  simp [State.updCtx]
@[simp] theorem State.updCtx_elided (s : State) (k : Nat) (id : CtxId) (f : Context → Context) : (s.updCtx k id f).elided = s.elided := by
  simp [State.updCtx]
@[simp] theorem State.updCtx_graphs (s : State) (k : Nat) (id : CtxId) (f : Context → Context) : (s.updCtx k id f).graphs = s.graphs := by
  simp [State.updCtx]
@[simp] theorem State.updCtx_sibgroups (s : State) (k : Nat) (id : CtxId) (f : Context → Context) : (s.updCtx k id f).sibgroups = s.sibgroups := by
  simp [State.updCtx]
@[simp] theorem State.updCtx_returned (s : State) (k : Nat) (id : CtxId) (f : Context → Context) : (s.updCtx k id f).returned = s.returned := by
  simp [State.updCtx]
@[simp] theorem State.updCtx_lingering (s : State) (k : Nat) (id : CtxId) (f : Context → Context) : (s.updCtx k id f).lingering = s.lingering := by
  simp [State.updCtx]
@[simp] theorem State.updCtx_frames (s : State) (k : Nat) (id : CtxId) (f : Context → Context) : (s.updCtx k id f).frames = s.frames := by
  simp [State.updCtx]
@[simp] theorem State.updCtx_regions (s : State) (k : Nat) (id : CtxId) (f : Context → Context) : (s.updCtx k id f).regions = s.regions := by
  simp [State.updCtx]
@[simp] theorem State.updCtx_refresh (s : State) (k : Nat) (id : CtxId) (f : Context → Context) : (s.updCtx k id f).refresh = s.refresh := by
  simp [State.updCtx]
@[simp] theorem State.updCtx_mailboxes (s : State) (k : Nat) (id : CtxId) (f : Context → Context) : (s.updCtx k id f).mailboxes = s.mailboxes := by
  simp [State.updCtx]
@[simp] theorem State.updCtx_reply (s : State) (k : Nat) (id : CtxId) (f : Context → Context) : (s.updCtx k id f).reply = s.reply := by
  simp [State.updCtx]
@[simp] theorem State.updCtx_msix (s : State) (k : Nat) (id : CtxId) (f : Context → Context) : (s.updCtx k id f).msix = s.msix := by
  simp [State.updCtx]
@[simp] theorem State.updCtx_spdm (s : State) (k : Nat) (id : CtxId) (f : Context → Context) : (s.updCtx k id f).spdm = s.spdm := by
  simp [State.updCtx]
@[simp] theorem State.updCtx_root (s : State) (k : Nat) (id : CtxId) (f : Context → Context) : (s.updCtx k id f).root = s.root := by
  simp [State.updCtx]
@[simp] theorem State.updCtx_recorders (s : State) (k : Nat) (id : CtxId) (f : Context → Context) : (s.updCtx k id f).recorders = s.recorders := by
  simp [State.updCtx]
@[simp] theorem State.updCtx_replaying (s : State) (k : Nat) (id : CtxId) (f : Context → Context) : (s.updCtx k id f).replaying = s.replaying := by
  simp [State.updCtx]
@[simp] theorem State.updCtx_ports (s : State) (k : Nat) (id : CtxId) (f : Context → Context) : (s.updCtx k id f).ports = s.ports := by
  simp [State.updCtx]
@[simp] theorem State.updCtx_repairedRows (s : State) (k : Nat) (id : CtxId) (f : Context → Context) : (s.updCtx k id f).repairedRows = s.repairedRows := by
  simp [State.updCtx]
@[simp] theorem State.updCtx_clockMHz (s : State) (k : Nat) (id : CtxId) (f : Context → Context) : (s.updCtx k id f).clockMHz = s.clockMHz := by
  simp [State.updCtx]
@[simp] theorem State.updCtx_clocksStopped (s : State) (k : Nat) (id : CtxId) (f : Context → Context) : (s.updCtx k id f).clocksStopped = s.clocksStopped := by
  simp [State.updCtx]
@[simp] theorem State.updCtx_linkUp (s : State) (k : Nat) (id : CtxId) (f : Context → Context) : (s.updCtx k id f).linkUp = s.linkUp := by
  simp [State.updCtx]
@[simp] theorem State.updCtx_ideFailed (s : State) (k : Nat) (id : CtxId) (f : Context → Context) : (s.updCtx k id f).ideFailed = s.ideFailed := by
  simp [State.updCtx]
@[simp] theorem State.updCtx_mailboxOpen (s : State) (k : Nat) (id : CtxId) (f : Context → Context) : (s.updCtx k id f).mailboxOpen = s.mailboxOpen := by
  simp [State.updCtx]

theorem State.updStrand_of (s : State) {k : Nat} {st : Strand} (f : Strand → Strand) (h : s.strand? k = some st) :
    s.updStrand k f = s.setStrand k (f st) := by
  simp [State.updStrand, h]
theorem State.updCtx_of (s : State) {k : Nat} {st : Strand} (id : CtxId) (f : Context → Context) (h : s.strand? k = some st) :
    s.updCtx k id f = s.setStrand k (st.setCtx id (f (st.ctx id))) := by
  simp [State.updCtx, State.updStrand_of _ _ h]
theorem State.updStrand_none (s : State) {k : Nat} (f : Strand → Strand) (h : s.strand? k = none) : s.updStrand k f = s := by
  simp [State.updStrand, h]
theorem State.updCtx_none (s : State) {k : Nat} (id : CtxId) (f : Context → Context) (h : s.strand? k = none) :
    s.updCtx k id f = s := by
  simp [State.updCtx, State.updStrand_none _ _ h]
@[simp] theorem State.cluster_updStrand (s : State) (k j : Nat) (f : Strand → Strand) :
    (s.updStrand k f).cluster j = s.cluster j := by simp [State.cluster]
@[simp] theorem State.cluster_updCtx (s : State) (k j : Nat) (id : CtxId) (f : Context → Context) :
    (s.updCtx k id f).cluster j = s.cluster j := by simp [State.cluster]
theorem State.strand?_updCtx (s : State) {k : Nat} {st : Strand} (id : CtxId) (f : Context → Context)
    (h : s.strand? k = some st) : (s.updCtx k id f).strand? k = some (st.setCtx id (f (st.ctx id))) := by
  simp [State.updCtx_of _ _ _ h]
theorem State.strand?_updStrand (s : State) {k : Nat} {st : Strand} (f : Strand → Strand)
    (h : s.strand? k = some st) : (s.updStrand k f).strand? k = some (f st) := by
  simp [State.updStrand_of _ _ h]
theorem State.strand?_updStrand_ne (s : State) {k j : Nat} (f : Strand → Strand) (h : j ≠ k) :
    (s.updStrand k f).strand? j = s.strand? j := by
  unfold State.updStrand
  split
  · rfl
  · exact State.strand?_setStrand_ne _ _ h
theorem State.strand?_updCtx_ne (s : State) {k j : Nat} (id : CtxId) (f : Context → Context) (h : j ≠ k) :
    (s.updCtx k id f).strand? j = s.strand? j := State.strand?_updStrand_ne _ _ h

/-! ## Strand.setCtx -/

@[simp] theorem Strand.setCtx_v (st : Strand) (id : CtxId) (c : Context) : (st.setCtx id c).v = st.v := by
  cases id <;> rfl
@[simp] theorem Strand.setCtx_tags (st : Strand) (id : CtxId) (c : Context) : (st.setCtx id c).tags = st.tags := by
  cases id <;> rfl
@[simp] theorem Strand.setCtx_vstart (st : Strand) (id : CtxId) (c : Context) : (st.setCtx id c).vstart = st.vstart := by
  cases id <;> rfl
@[simp] theorem Strand.setCtx_xrm (st : Strand) (id : CtxId) (c : Context) : (st.setCtx id c).xrm = st.xrm := by
  cases id <;> rfl
@[simp] theorem Strand.setCtx_seed (st : Strand) (id : CtxId) (c : Context) : (st.setCtx id c).seed = st.seed := by
  cases id <;> rfl
@[simp] theorem Strand.setCtx_sr (st : Strand) (id : CtxId) (c : Context) : (st.setCtx id c).sr = st.sr := by
  cases id <;> rfl
@[simp] theorem Strand.setCtx_laneFlags (st : Strand) (id : CtxId) (c : Context) : (st.setCtx id c).laneFlags = st.laneFlags := by
  cases id <;> rfl
@[simp] theorem Strand.setCtx_xtrapen (st : Strand) (id : CtxId) (c : Context) : (st.setCtx id c).xtrapen = st.xtrapen := by
  cases id <;> rfl
@[simp] theorem Strand.setCtx_edge (st : Strand) (id : CtxId) (c : Context) : (st.setCtx id c).edge = st.edge := by
  cases id <;> rfl
@[simp] theorem Strand.setCtx_vbypass (st : Strand) (id : CtxId) (c : Context) : (st.setCtx id c).vbypass = st.vbypass := by
  cases id <;> rfl
@[simp] theorem Strand.setCtx_slip (st : Strand) (id : CtxId) (c : Context) : (st.setCtx id c).slip = st.slip := by
  cases id <;> rfl
@[simp] theorem Strand.setCtx_clocks (st : Strand) (id : CtxId) (c : Context) : (st.setCtx id c).clocks = st.clocks := by
  cases id <;> rfl
@[simp] theorem Strand.setCtx_vdirty (st : Strand) (id : CtxId) (c : Context) : (st.setCtx id c).vdirty = st.vdirty := by
  cases id <;> rfl
@[simp] theorem Strand.setCtx_adirty (st : Strand) (id : CtxId) (c : Context) : (st.setCtx id c).adirty = st.adirty := by
  cases id <;> rfl
@[simp] theorem Strand.setCtx_asid (st : Strand) (id : CtxId) (c : Context) : (st.setCtx id c).asid = st.asid := by
  cases id <;> rfl
@[simp] theorem Strand.setCtx_ptroot (st : Strand) (id : CtxId) (c : Context) : (st.setCtx id c).ptroot = st.ptroot := by
  cases id <;> rfl
@[simp] theorem Strand.setCtx_canlimit (st : Strand) (id : CtxId) (c : Context) : (st.setCtx id c).canlimit = st.canlimit := by
  cases id <;> rfl
@[simp] theorem Strand.setCtx_vq (st : Strand) (id : CtxId) (c : Context) : (st.setCtx id c).vq = st.vq := by
  cases id <;> rfl
@[simp] theorem Strand.setCtx_commits (st : Strand) (id : CtxId) (c : Context) : (st.setCtx id c).commits = st.commits := by
  cases id <;> rfl
@[simp] theorem Strand.setCtx_pending (st : Strand) (id : CtxId) (c : Context) : (st.setCtx id c).pending = st.pending := by
  cases id <;> rfl
@[simp] theorem Strand.setCtx_reads (st : Strand) (id : CtxId) (c : Context) : (st.setCtx id c).reads = st.reads := by
  cases id <;> rfl
@[simp] theorem Strand.setCtx_queues (st : Strand) (id : CtxId) (c : Context) : (st.setCtx id c).queues = st.queues := by
  cases id <;> rfl
@[simp] theorem Strand.setCtx_streams (st : Strand) (id : CtxId) (c : Context) : (st.setCtx id c).streams = st.streams := by
  cases id <;> rfl
@[simp] theorem Strand.setCtx_tiles (st : Strand) (id : CtxId) (c : Context) : (st.setCtx id c).tiles = st.tiles := by
  cases id <;> rfl
@[simp] theorem Strand.setCtx_frame (st : Strand) (id : CtxId) (c : Context) : (st.setCtx id c).frame = st.frame := by
  cases id <;> rfl
@[simp] theorem Strand.setCtx_savedPins (st : Strand) (id : CtxId) (c : Context) : (st.setCtx id c).savedPins = st.savedPins := by
  cases id <;> rfl
@[simp] theorem Strand.setCtx_fault (st : Strand) (id : CtxId) (c : Context) : (st.setCtx id c).fault = st.fault := by
  cases id <;> rfl
@[simp] theorem Strand.setCtx_charged (st : Strand) (id : CtxId) (c : Context) : (st.setCtx id c).charged = st.charged := by
  cases id <;> rfl
@[simp] theorem Strand.setCtx_away (st : Strand) (id : CtxId) (c : Context) : (st.setCtx id c).away = st.away := by
  cases id <;> rfl
@[simp] theorem Strand.setCtx_life (st : Strand) (id : CtxId) (c : Context) : (st.setCtx id c).life = st.life := by
  cases id <;> rfl
@[simp] theorem Strand.setCtx_status (st : Strand) (id : CtxId) (c : Context) : (st.setCtx id c).status = st.status := by
  cases id <;> rfl
@[simp] theorem Strand.setCtx_endCause (st : Strand) (id : CtxId) (c : Context) : (st.setCtx id c).endCause = st.endCause := by
  cases id <;> rfl
@[simp] theorem Strand.setCtx_endFlags (st : Strand) (id : CtxId) (c : Context) : (st.setCtx id c).endFlags = st.endFlags := by
  cases id <;> rfl
@[simp] theorem Strand.setCtx_ending (st : Strand) (id : CtxId) (c : Context) : (st.setCtx id c).ending = st.ending := by
  cases id <;> rfl
@[simp] theorem Strand.setCtx_canpc (st : Strand) (id : CtxId) (c : Context) : (st.setCtx id c).canpc = st.canpc := by
  cases id <;> rfl
@[simp] theorem Strand.setCtx_launch (st : Strand) (id : CtxId) (c : Context) : (st.setCtx id c).launch = st.launch := by
  cases id <;> rfl
@[simp] theorem Strand.setCtx_ordinal (st : Strand) (id : CtxId) (c : Context) : (st.setCtx id c).ordinal = st.ordinal := by
  cases id <;> rfl
@[simp] theorem Strand.setCtx_vcluster (st : Strand) (id : CtxId) (c : Context) : (st.setCtx id c).vcluster = st.vcluster := by
  cases id <;> rfl
@[simp] theorem Strand.setCtx_sibling (st : Strand) (id : CtxId) (c : Context) : (st.setCtx id c).sibling = st.sibling := by
  cases id <;> rfl
@[simp] theorem Strand.setCtx_watermarks (st : Strand) (id : CtxId) (c : Context) : (st.setCtx id c).watermarks = st.watermarks := by
  cases id <;> rfl
@[simp] theorem Strand.setCtx_wsBindings (st : Strand) (id : CtxId) (c : Context) : (st.setCtx id c).wsBindings = st.wsBindings := by
  cases id <;> rfl
@[simp] theorem Strand.setCtx_journalSize (st : Strand) (id : CtxId) (c : Context) : (st.setCtx id c).journalSize = st.journalSize := by
  cases id <;> rfl
@[simp] theorem Strand.setCtx_spillSize (st : Strand) (id : CtxId) (c : Context) : (st.setCtx id c).spillSize = st.spillSize := by
  cases id <;> rfl
@[simp] theorem Strand.setCtx_spillAddr (st : Strand) (id : CtxId) (c : Context) : (st.setCtx id c).spillAddr = st.spillAddr := by
  cases id <;> rfl
@[simp] theorem Strand.setCtx_journal (st : Strand) (id : CtxId) (c : Context) : (st.setCtx id c).journal = st.journal := by
  cases id <;> rfl
@[simp] theorem Strand.setCtx_journalSeq (st : Strand) (id : CtxId) (c : Context) : (st.setCtx id c).journalSeq = st.journalSeq := by
  cases id <;> rfl
@[simp] theorem Strand.setCtx_firstStrip (st : Strand) (id : CtxId) (c : Context) : (st.setCtx id c).firstStrip = st.firstStrip := by
  cases id <;> rfl
@[simp] theorem Strand.setCtx_splpts (st : Strand) (id : CtxId) (c : Context) : (st.setCtx id c).splpts = st.splpts := by
  cases id <;> rfl
@[simp] theorem Strand.setCtx_group (st : Strand) (id : CtxId) (c : Context) : (st.setCtx id c).group = st.group := by
  cases id <;> rfl
@[simp] theorem Strand.setCtx_counted (st : Strand) (id : CtxId) (c : Context) : (st.setCtx id c).counted = st.counted := by
  cases id <;> rfl
@[simp] theorem Strand.setCtx_spliceable (st : Strand) (id : CtxId) (c : Context) : (st.setCtx id c).spliceable = st.spliceable := by
  cases id <;> rfl
@[simp] theorem Strand.setCtx_kernelId (st : Strand) (id : CtxId) (c : Context) : (st.setCtx id c).kernelId = st.kernelId := by
  cases id <;> rfl
@[simp] theorem Strand.setCtx_lastMode (st : Strand) (id : CtxId) (c : Context) : (st.setCtx id c).lastMode = st.lastMode := by
  cases id <;> rfl
@[simp] theorem Strand.ctx_setCtx (st : Strand) (id : CtxId) (c : Context) : (st.setCtx id c).ctx id = c := by
  cases id <;> rfl
@[simp] theorem Strand.ctx_setCtx_other (st : Strand) (id : CtxId) (c : Context) :
    (st.setCtx id c).ctx (otherCtx id) = st.ctx (otherCtx id) := by
  cases id <;> rfl
@[simp] theorem Strand.setCtx_setCtx (st : Strand) (id : CtxId) (c c' : Context) :
    (st.setCtx id c).setCtx id c' = st.setCtx id c' := by
  cases id <;> rfl
theorem State.updCtx_updCtx (s : State) {k : Nat} {st : Strand} (id : CtxId) (f g : Context → Context)
    (h : s.strand? k = some st) : (s.updCtx k id f).updCtx k id g = s.updCtx k id (fun c => g (f c)) := by
  rw [State.updCtx_of _ _ g (State.strand?_updCtx s id f h), State.updCtx_of _ _ _ h, State.updCtx_of _ _ _ h]
  simp

/-! ## Context.setReg, Context.advance -/

@[simp] theorem Context.setReg_pc (c : Context) (r : Reg) (x : Word) : (c.setReg r x).pc = c.pc := by
  unfold Context.setReg
  split <;> rfl
@[simp] theorem Context.setReg_sr (c : Context) (r : Reg) (x : Word) : (c.setReg r x).sr = c.sr := by
  unfold Context.setReg
  split <;> rfl
@[simp] theorem Context.setReg_flags (c : Context) (r : Reg) (x : Word) : (c.setReg r x).flags = c.flags := by
  unfold Context.setReg
  split <;> rfl
@[simp] theorem Context.setReg_issues (c : Context) (r : Reg) (x : Word) : (c.setReg r x).issues = c.issues := by
  unfold Context.setReg
  split <;> rfl
@[simp] theorem Context.setReg_intrap (c : Context) (r : Reg) (x : Word) : (c.setReg r x).intrap = c.intrap := by
  unfold Context.setReg
  split <;> rfl
@[simp] theorem Context.setReg_vimprecise (c : Context) (r : Reg) (x : Word) : (c.setReg r x).vimprecise = c.vimprecise := by
  unfold Context.setReg
  split <;> rfl
@[simp] theorem Context.setReg_ie (c : Context) (r : Reg) (x : Word) : (c.setReg r x).ie = c.ie := by
  unfold Context.setReg
  split <;> rfl
@[simp] theorem Context.setReg_ven (c : Context) (r : Reg) (x : Word) : (c.setReg r x).ven = c.ven := by
  unfold Context.setReg
  split <;> rfl
@[simp] theorem Context.setReg_ppriv (c : Context) (r : Reg) (x : Word) : (c.setReg r x).ppriv = c.ppriv := by
  unfold Context.setReg
  split <;> rfl
@[simp] theorem Context.setReg_priv (c : Context) (r : Reg) (x : Word) : (c.setReg r x).priv = c.priv := by
  unfold Context.setReg
  split <;> rfl
@[simp] theorem Context.setReg_causeVector (c : Context) (r : Reg) (x : Word) : (c.setReg r x).causeVector = c.causeVector := by
  unfold Context.setReg
  split <;> rfl
@[simp] theorem Context.setReg_cause (c : Context) (r : Reg) (x : Word) : (c.setReg r x).cause = c.cause := by
  unfold Context.setReg
  split <;> rfl
@[simp] theorem Context.setReg_tpc (c : Context) (r : Reg) (x : Word) : (c.setReg r x).tpc = c.tpc := by
  unfold Context.setReg
  split <;> rfl
@[simp] theorem Context.setReg_tval (c : Context) (r : Reg) (x : Word) : (c.setReg r x).tval = c.tval := by
  unfold Context.setReg
  split <;> rfl
@[simp] theorem Context.setReg_tvec (c : Context) (r : Reg) (x : Word) : (c.setReg r x).tvec = c.tvec := by
  unfold Context.setReg
  split <;> rfl
@[simp] theorem Context.setReg_tscratch (c : Context) (r : Reg) (x : Word) : (c.setReg r x).tscratch = c.tscratch := by
  unfold Context.setReg
  split <;> rfl
@[simp] theorem Context.setReg_reason (c : Context) (r : Reg) (x : Word) : (c.setReg r x).reason = c.reason := by
  unfold Context.setReg
  split <;> rfl
@[simp] theorem Context.setReg_preempt (c : Context) (r : Reg) (x : Word) : (c.setReg r x).preempt = c.preempt := by
  unfold Context.setReg
  split <;> rfl
@[simp] theorem Context.setReg_serving (c : Context) (r : Reg) (x : Word) : (c.setReg r x).serving = c.serving := by
  unfold Context.setReg
  split <;> rfl
@[simp] theorem Context.setReg_cancel (c : Context) (r : Reg) (x : Word) : (c.setReg r x).cancel = c.cancel := by
  unfold Context.setReg
  split <;> rfl
@[simp] theorem Context.setReg_cancelled (c : Context) (r : Reg) (x : Word) : (c.setReg r x).cancelled = c.cancelled := by
  unfold Context.setReg
  split <;> rfl
@[simp] theorem Context.setReg_prefixes (c : Context) (r : Reg) (x : Word) : (c.setReg r x).prefixes = c.prefixes := by
  unfold Context.setReg
  split <;> rfl
@[simp] theorem Context.setReg_wait (c : Context) (r : Reg) (x : Word) : (c.setReg r x).wait = c.wait := by
  unfold Context.setReg
  split <;> rfl
@[simp] theorem Context.setReg_retired (c : Context) (r : Reg) (x : Word) : (c.setReg r x).retired = c.retired := by
  unfold Context.setReg
  split <;> rfl
@[simp] theorem Context.setReg_yielded (c : Context) (r : Reg) (x : Word) : (c.setReg r x).yielded = c.yielded := by
  unfold Context.setReg
  split <;> rfl
@[simp] theorem Context.setReg_engineErrors (c : Context) (r : Reg) (x : Word) : (c.setReg r x).engineErrors = c.engineErrors := by
  unfold Context.setReg
  split <;> rfl
@[simp] theorem Context.setReg_poisoned (c : Context) (r : Reg) (x : Word) : (c.setReg r x).poisoned = c.poisoned := by
  unfold Context.setReg
  split <;> rfl
@[simp] theorem Context.advance_g (c : Context) (pc : Word) : (c.advance pc).g = c.g := rfl
@[simp] theorem Context.advance_sr (c : Context) (pc : Word) : (c.advance pc).sr = c.sr := rfl
@[simp] theorem Context.advance_flags (c : Context) (pc : Word) : (c.advance pc).flags = c.flags := rfl
@[simp] theorem Context.advance_intrap (c : Context) (pc : Word) : (c.advance pc).intrap = c.intrap := rfl
@[simp] theorem Context.advance_vimprecise (c : Context) (pc : Word) : (c.advance pc).vimprecise = c.vimprecise := rfl
@[simp] theorem Context.advance_ie (c : Context) (pc : Word) : (c.advance pc).ie = c.ie := rfl
@[simp] theorem Context.advance_ven (c : Context) (pc : Word) : (c.advance pc).ven = c.ven := rfl
@[simp] theorem Context.advance_ppriv (c : Context) (pc : Word) : (c.advance pc).ppriv = c.ppriv := rfl
@[simp] theorem Context.advance_priv (c : Context) (pc : Word) : (c.advance pc).priv = c.priv := rfl
@[simp] theorem Context.advance_causeVector (c : Context) (pc : Word) : (c.advance pc).causeVector = c.causeVector := rfl
@[simp] theorem Context.advance_cause (c : Context) (pc : Word) : (c.advance pc).cause = c.cause := rfl
@[simp] theorem Context.advance_tpc (c : Context) (pc : Word) : (c.advance pc).tpc = c.tpc := rfl
@[simp] theorem Context.advance_tval (c : Context) (pc : Word) : (c.advance pc).tval = c.tval := rfl
@[simp] theorem Context.advance_tvec (c : Context) (pc : Word) : (c.advance pc).tvec = c.tvec := rfl
@[simp] theorem Context.advance_tscratch (c : Context) (pc : Word) : (c.advance pc).tscratch = c.tscratch := rfl
@[simp] theorem Context.advance_reason (c : Context) (pc : Word) : (c.advance pc).reason = c.reason := rfl
@[simp] theorem Context.advance_preempt (c : Context) (pc : Word) : (c.advance pc).preempt = c.preempt := rfl
@[simp] theorem Context.advance_serving (c : Context) (pc : Word) : (c.advance pc).serving = c.serving := rfl
@[simp] theorem Context.advance_cancel (c : Context) (pc : Word) : (c.advance pc).cancel = c.cancel := rfl
@[simp] theorem Context.advance_cancelled (c : Context) (pc : Word) : (c.advance pc).cancelled = c.cancelled := rfl
@[simp] theorem Context.advance_retired (c : Context) (pc : Word) : (c.advance pc).retired = c.retired := rfl
@[simp] theorem Context.advance_yielded (c : Context) (pc : Word) : (c.advance pc).yielded = c.yielded := rfl
@[simp] theorem Context.advance_engineErrors (c : Context) (pc : Word) : (c.advance pc).engineErrors = c.engineErrors := rfl
@[simp] theorem Context.advance_poisoned (c : Context) (pc : Word) : (c.advance pc).poisoned = c.poisoned := rfl
@[simp] theorem Context.advance_pc (c : Context) (pc : Word) : (c.advance pc).pc = pc := rfl
@[simp] theorem Context.advance_issues (c : Context) (pc : Word) : (c.advance pc).issues = c.issues + 1 := rfl
@[simp] theorem Context.advance_prefixes (c : Context) (pc : Word) : (c.advance pc).prefixes = none := rfl
@[simp] theorem Context.advance_wait (c : Context) (pc : Word) : (c.advance pc).wait = none := rfl
@[simp] theorem Context.reg_advance (c : Context) (pc : Word) (r : Reg) : (c.advance pc).reg r = c.reg r := rfl
@[simp] theorem Context.reg_zero (c : Context) : c.reg 0 = 0 := rfl
theorem Context.reg_setReg_self (c : Context) {r : Reg} (x : Word) (h : r ≠ 0) : (c.setReg r x).reg r = x := by
  have h' : ¬ (r = 0#5) := h
  simp [Context.setReg, Context.reg, h']
theorem Context.reg_setReg_ne (c : Context) {r q : Reg} (x : Word) (h : q ≠ r) : (c.setReg r x).reg q = c.reg q := by
  unfold Context.setReg
  split
  · rfl
  · unfold Context.reg
    split
    · rfl
    · have : r.toNat ≠ q.toNat := fun e => h (BitVec.eq_of_toNat_eq e.symm)
      simp [this]
@[simp] theorem Context.setReg_zero (c : Context) (x : Word) : c.setReg 0 x = c := rfl

end Machine
end Sys2Proof
end

