-- ==== Sys2Proof/Laws/Mem.lean ====
section
/-!
SUPPORT. Laws/Mem.lean: a memory gives back what was written, leaves every other byte alone, and keeps its canonical
form under every operation on it; and so do the memories of a state under the operations that write places.
-/
namespace Sys2Proof.Machine

/-! ## Reading what was written -/

theorem Memory.read_write_ne (m : Memory) {a b : Nat} (x : Byte) (h : b ≠ a) : (m.write a x).read b = m.read b := by
  unfold Memory.read Memory.write
  split
  · simp [lookup_eraseKey_ne _ h]
  · simp [lookup_insertKey_ne _ _ h]

theorem lookup_of_rising {lo a : Nat} : (l : List Host.Cell) → risingFrom lo l = true → a < lo → lookup l a = none
  | [], _, _ => rfl
  | (j, u) :: rest, h, ha => by
    simp only [risingFrom, Bool.and_eq_true, decide_eq_true_eq] at h
    have hj : j ≠ a := by omega
    simp only [lookup, if_neg hj]
    exact lookup_of_rising rest h.2 (by omega)

theorem risingFrom_mono {lo lo' : Nat} (hl : lo' ≤ lo) : (l : List Host.Cell) → risingFrom lo l = true → risingFrom lo' l = true
  | [], _ => rfl
  | (j, u) :: rest, h => by
    simp only [risingFrom, Bool.and_eq_true, decide_eq_true_eq] at h ⊢
    exact ⟨⟨by omega, h.1.2⟩, h.2⟩

theorem risingFrom_insert {lo a : Nat} {b : Byte} (hb : b ≠ Memory.unlisted) :
    (l : List Host.Cell) → risingFrom lo l = true → lo ≤ a → risingFrom lo (insertKey l a b) = true
  | [], _, ha => by simp [insertKey, risingFrom, ha, hb]
  | (j, u) :: rest, h, ha => by
    simp only [risingFrom, Bool.and_eq_true, decide_eq_true_eq] at h
    simp only [insertKey]
    split
    · rename_i hj
      simp only [risingFrom, Bool.and_eq_true, decide_eq_true_eq]
      exact ⟨⟨ha, hb⟩, ⟨by omega, h.1.2⟩, h.2⟩
    · split
      · subst_vars
        simp only [risingFrom, Bool.and_eq_true, decide_eq_true_eq]
        exact ⟨⟨ha, hb⟩, h.2⟩
      · simp only [risingFrom, Bool.and_eq_true, decide_eq_true_eq]
        exact ⟨h.1, risingFrom_insert hb rest h.2 (by omega)⟩

theorem risingFrom_erase {lo a : Nat} : (l : List Host.Cell) → risingFrom lo l = true → risingFrom lo (eraseKey l a) = true
  | [], _ => rfl
  | (j, u) :: rest, h => by
    simp only [risingFrom, Bool.and_eq_true, decide_eq_true_eq] at h
    simp only [eraseKey]
    split
    · exact risingFrom_mono (by omega) rest h.2
    · simp only [risingFrom, Bool.and_eq_true, decide_eq_true_eq]
      exact ⟨h.1, risingFrom_erase rest h.2⟩

theorem lookup_erase_self {lo a : Nat} : (l : List Host.Cell) → risingFrom lo l = true → lookup (eraseKey l a) a = none
  | [], _ => rfl
  | (j, u) :: rest, h => by
    simp only [risingFrom, Bool.and_eq_true, decide_eq_true_eq] at h
    simp only [eraseKey]
    split
    · subst_vars
      exact lookup_of_rising rest h.2 (by omega)
    · rename_i hj
      simp only [lookup, if_neg hj]
      exact lookup_erase_self rest h.2

theorem Memory.read_write_self (m : Memory) (a : Nat) (x : Byte) (h : m.wf = true) : (m.write a x).read a = x := by
  unfold Memory.read Memory.write
  split
  · rename_i hx
    simp [lookup_erase_self m.cells h, hx]
  · simp

theorem Memory.wf_write (m : Memory) (a : Nat) (x : Byte) (h : m.wf = true) : (m.write a x).wf = true := by
  unfold Memory.wf Memory.write
  split
  · exact risingFrom_erase _ h
  · rename_i hx
    exact risingFrom_insert hx _ h (Nat.zero_le a)

theorem Memory.wf_writeBytes (bs : List Byte) : ∀ (m : Memory) (a : Nat), m.wf = true → (m.writeBytes a bs).wf = true := by
  induction bs with
  | nil => intro m a h; exact h
  | cons b rest ih => intro m a h; exact ih _ _ (m.wf_write a b h)

theorem Memory.wf_writeLE (m : Memory) (a n x : Nat) (h : m.wf = true) : (m.writeLE a n x).wf = true :=
  Memory.wf_writeBytes _ m a h

theorem Memory.read_writeBytes_ne (bs : List Byte) : ∀ (m : Memory) (a b : Nat), (b < a ∨ a + bs.length ≤ b) →
    (m.writeBytes a bs).read b = m.read b := by
  induction bs with
  | nil => intro m a b _; rfl
  | cons x rest ih =>
    intro m a b h
    simp only [List.length_cons] at h
    simp only [Memory.writeBytes]
    rw [ih (m.write a x) (a + 1) b (by omega), Memory.read_write_ne _ _ (by omega)]

theorem Memory.read_writeBytes (bs : List Byte) : ∀ (m : Memory) (a i : Nat), m.wf = true → (hi : i < bs.length) →
    (m.writeBytes a bs).read (a + i) = bs[i] := by
  induction bs with
  | nil => intro m a i _ hi; simp at hi
  | cons x rest ih =>
    intro m a i h hi
    simp only [Memory.writeBytes]
    cases i with
    | zero =>
      rw [Memory.read_writeBytes_ne rest _ _ _ (by omega)]
      simpa using m.read_write_self a x h
    | succ k =>
      have := ih (m.write a x) (a + 1) k (m.wf_write a x h) (by simpa using hi)
      simpa [Nat.add_assoc, Nat.add_comm 1 k] using this

/-- A structure read where it was just written (R2). -/
theorem Memory.readBytes_writeBytes (m : Memory) (a : Nat) (bs : List Byte) (h : m.wf = true) :
    (m.writeBytes a bs).readBytes a bs.length = bs := by
  apply List.ext_getElem
  · simp [Memory.readBytes]
  · intro i h1 h2
    simp only [Memory.readBytes, List.getElem_map, List.getElem_range]
    exact Memory.read_writeBytes bs m a i h h2

@[simp] theorem leBytes_length (n : Nat) : ∀ x, (leBytes n x).length = n := by
  induction n with
  | zero => intro x; rfl
  | succ k ih => intro x; simp [leBytes, ih]

theorem leNat_leBytes (n : Nat) : ∀ x, leNat (leBytes n x) = x % 256 ^ n := by
  induction n with
  | zero => intro x; simp [leBytes, leNat, Nat.mod_one]
  | succ k ih =>
    intro x
    have h : x % 256 ^ (k + 1) = x % 256 + 256 * (x / 256 % 256 ^ k) := by
      rw [Nat.pow_succ, Nat.mul_comm (256 ^ k) 256, Nat.mod_mul]
    rw [h]
    simp only [leBytes, leNat, ih, BitVec.toNat_ofNat]

theorem Memory.readLE_writeLE (m : Memory) (a n x : Nat) (h : m.wf = true) :
    (m.writeLE a n x).readLE a n = x % 256 ^ n := by
  have := Memory.readBytes_writeBytes m a (leBytes n x) h
  rw [leBytes_length] at this
  simp [Memory.readLE, Memory.writeLE, this, leNat_leBytes]

/-! ## The memories of a state -/

theorem State.memWf_iff (s : State) : s.memWf = true ↔
    s.dev.wf = true ∧ (∀ die (h : die < 2), (s.ws[die]).wf = true) ∧ s.host.wf = true ∧ ∀ r ∈ s.remotes, r.2.mem.wf = true := by
  simp only [State.memWf, Bool.and_eq_true, List.all_eq_true]
  constructor
  · rintro ⟨⟨⟨⟨a, b⟩, c⟩, d⟩, e⟩
    refine ⟨a, ?_, d, e⟩
    intro die h
    match die, h with
    | 0, _ => exact b
    | 1, _ => exact c
  · rintro ⟨a, b, c, d⟩
    exact ⟨⟨⟨⟨a, b 0 (by omega)⟩, b 1 (by omega)⟩, c⟩, d⟩

/-- Two states whose memories are the same data are canonical together. -/
theorem State.memWf_congr {s t : State} (h1 : t.dev = s.dev) (h2 : t.ws = s.ws) (h3 : t.host = s.host)
    (h4 : t.remotes = s.remotes) : t.memWf = s.memWf := by
  simp [State.memWf, h1, h2, h3, h4]

theorem mem_insertKey {α : Type} {l : List (Nat × α)} {k : Nat} {v : α} {p : Nat × α} (h : p ∈ insertKey l k v) :
    p = (k, v) ∨ p ∈ l := by
  induction l with
  | nil => simpa [insertKey] using h
  | cons q rest ih =>
    obtain ⟨j, u⟩ := q
    simp only [insertKey] at h
    split at h
    · simpa using h
    · split at h
      · simp only [List.mem_cons] at h ⊢
        tauto
      · simp only [List.mem_cons] at h ⊢
        rcases h with h | h
        · exact .inr (.inl h)
        · rcases ih h with h | h
          · exact .inl h
          · exact .inr (.inr h)

theorem lookup_mem {α : Type} {l : List (Nat × α)} {k : Nat} {v : α} (h : lookup l k = some v) : (k, v) ∈ l := by
  induction l with
  | nil => simp [lookup] at h
  | cons q rest ih =>
    obtain ⟨j, u⟩ := q
    simp only [lookup] at h
    split at h
    · simp_all
    · exact List.mem_cons_of_mem _ (ih h)

theorem State.remote_wf {s : State} (h : s.memWf = true) (m : Nat) : (s.remote m).mem.wf = true := by
  unfold State.remote
  cases hl : lookup s.remotes m with
  | none => rfl
  | some r => exact ((s.memWf_iff.mp h).2.2.2 _ (lookup_mem hl))

@[simp] theorem State.memWf_setStrand (s : State) (k : Nat) (st : Strand) : (s.setStrand k st).memWf = s.memWf := rfl
@[simp] theorem State.memWf_setCluster (s : State) (k : Nat) (c : Cluster) : (s.setCluster k c).memWf = s.memWf := rfl
@[simp] theorem State.memWf_drawn (s : State) : s.drawn.memWf = s.memWf := rfl
@[simp] theorem State.memWf_updStrand (s : State) (k : Nat) (f : Strand → Strand) : (s.updStrand k f).memWf = s.memWf :=
  State.memWf_congr (by simp) (by simp) (by simp) (by simp)
@[simp] theorem State.memWf_updCtx (s : State) (k : Nat) (id : CtxId) (f : Context → Context) :
    (s.updCtx k id f).memWf = s.memWf := State.memWf_congr (by simp) (by simp) (by simp) (by simp)

/-- What a migration's shadow pages take of a store is no memory. -/
theorem State.mirror_memories (s : State) (pa : Nat) (bs : List Byte) :
    (s.mirror pa bs).dev = s.dev ∧ (s.mirror pa bs).ws = s.ws ∧ (s.mirror pa bs).host = s.host ∧
      (s.mirror pa bs).remotes = s.remotes := by
  unfold State.mirror
  split <;> exact ⟨rfl, rfl, rfl, rfl⟩

@[simp] theorem State.memWf_mirror (s : State) (pa : Nat) (bs : List Byte) : (s.mirror pa bs).memWf = s.memWf :=
  let h := s.mirror_memories pa bs
  State.memWf_congr h.1 h.2.1 h.2.2.1 h.2.2.2

/-- Units that stop being poisoned are no memory. -/
@[simp] theorem State.memWf_heal (s : State) (spans : List (Nat × Nat)) : (s.heal spans).memWf = s.memWf := by
  unfold State.heal
  split <;> rfl

/-- Lines dropped from an L1 are no memory. -/
@[simp] theorem State.memWf_seen (s : State) (cluster : Nat) (p : Place) (bs : List Byte) :
    (s.seen cluster p bs).memWf = s.memWf := by
  unfold State.seen
  split
  · dsimp only
    split
    · exact State.memWf_setCluster _ _ _
    · rfl
  · rfl

/-- Writing bytes at a place keeps every memory canonical (R88). -/
theorem State.memWf_putBytes (s : State) (cluster : Nat) (p : Place) (bs : List Byte) (h : s.memWf = true) :
    (s.putBytes cluster p bs).memWf = true := by
  have hs := s.memWf_iff.mp h
  cases p with
  | scratch k off => simpa [State.putBytes] using h
  | dev pa =>
    have : ({ s with dev := s.dev.writeBytes pa bs } : State).memWf = true :=
      (State.memWf_iff _).mpr ⟨Memory.wf_writeBytes bs _ pa hs.1, hs.2.1, hs.2.2.1, hs.2.2.2⟩
    simp only [State.putBytes]
    split
    · simpa using this
    · simpa using this
  | ws die off =>
    simp only [State.putBytes]
    split
    · rename_i hd
      refine (State.memWf_iff _).mpr ⟨hs.1, ?_, hs.2.2.1, hs.2.2.2⟩
      intro d hd'
      simp only [Vector.getElem_set]
      split
      · exact Memory.wf_writeBytes bs _ off (hs.2.1 die hd)
      · exact hs.2.1 d hd'
    · exact h
  | host pa => exact (State.memWf_iff _).mpr ⟨hs.1, hs.2.1, Memory.wf_writeBytes bs _ pa hs.2.2.1, hs.2.2.2⟩
  | remote m pa =>
    refine (State.memWf_iff _).mpr ⟨hs.1, hs.2.1, hs.2.2.1, ?_⟩
    intro r hr
    rcases mem_insertKey hr with rfl | hr
    · exact Memory.wf_writeBytes bs _ pa (State.remote_wf h m)
    · exact hs.2.2.2 r hr

theorem State.memWf_fwBytes (bs : List Byte) : ∀ (s : State) (asid va : Nat), s.memWf = true →
    (s.fwBytes asid va bs).memWf = true := by
  induction bs with
  | nil => intro s asid va h; exact h
  | cons b rest ih =>
    intro s asid va h
    simp only [State.fwBytes]
    apply ih
    split
    · exact s.memWf_putBytes _ _ _ h
    · exact h

/-- A fold of steps that keep every memory canonical keeps it. -/
theorem State.memWf_foldl {α : Type} (f : State → α → State) (hf : ∀ s x, s.memWf = true → (f s x).memWf = true) :
    ∀ (l : List α) (s : State), s.memWf = true → (l.foldl f s).memWf = true
  | [], _, h => h
  | x :: rest, s, h => State.memWf_foldl f hf rest _ (hf s x h)

theorem State.memWf_setAD (s : State) (addr : Nat) (intent : Intent) (h : s.memWf = true) :
    (s.setAD addr intent).memWf = true := by
  unfold State.setAD
  dsimp only
  split
  · exact h
  · exact s.memWf_putBytes _ _ _ h

/-- A leaf that is marked keeps every memory canonical (R332). -/
theorem State.memWf_markLeaf (s : State) (l : Leaf) (intent : Intent) (h : s.memWf = true) :
    (s.markLeaf l intent).memWf = true :=
  State.memWf_foldl _ (fun s a h => s.memWf_setAD a intent h) _ s h

theorem State.memWf_fwMark (s : State) (asid va n : Nat) (intent : Intent) (h : s.memWf = true) :
    (s.fwMark asid va n intent).memWf = true := by
  refine State.memWf_foldl _ (fun s i h => ?_) _ s h
  dsimp only
  split
  · exact s.memWf_markLeaf _ _ h
  · exact h

/-- What the firmware writes keeps every memory canonical. -/
theorem State.memWf_fwWrite (s : State) (asid va : Nat) (bs : List Byte) (h : s.memWf = true) :
    (s.fwWrite asid va bs).memWf = true := by
  have h1 := State.memWf_fwBytes bs _ asid va (s.memWf_fwMark asid va bs.length .store h)
  unfold State.fwWrite
  dsimp only
  split
  · exact h1
  · simpa using h1

theorem State.memWf_putRecord (s : State) (r : Recorder) (index : Nat) (bs : List Byte) (h : s.memWf = true) :
    (s.putRecord r index bs).memWf = true := by
  have hs := s.memWf_iff.mp h
  unfold State.putRecord
  split
  · exact h
  · rw [State.memWf_mirror]
    exact (State.memWf_iff _).mpr ⟨Memory.wf_writeBytes bs _ _ hs.1, hs.2.1, hs.2.2.1, hs.2.2.2⟩

/-- A record keeps every memory canonical (R368). -/
theorem State.memWf_record (s : State) (part kind : Nat) (data : List Nat) (h : s.memWf = true) :
    (s.record part kind data).memWf = true := by
  unfold State.record
  split
  · exact h
  · refine (State.memWf_congr (by rfl) (by rfl) (by rfl) (by rfl)).trans (b := State.memWf _) ?_
    split
    · exact State.memWf_foldl _ (fun s i h => s.memWf_putRecord _ _ _ h) _ _ (s.memWf_putRecord _ _ _ h)
    · exact s.memWf_putRecord _ _ _ h

theorem State.memWf_hostRead (s : State) (cluster : Nat) (bs : List Byte) (h : s.memWf = true) :
    (s.hostRead cluster bs).memWf = true := by
  unfold State.hostRead
  split
  · exact h
  · unfold State.hostReadFor
    dsimp only
    split
    · exact s.memWf_record _ _ _ h
    · split
      · exact h
      · split <;> exact h

/-- What a read beyond the module leaves: a host read may write a record (R368), another module may owe an answer (R361). -/
theorem State.memWf_farRead (s : State) (cluster : Nat) (p : Place) (bs : List Byte) (h : s.memWf = true) :
    (s.farRead cluster p bs).memWf = true := by
  have hs := s.memWf_iff.mp h
  unfold State.farRead
  split
  · exact s.memWf_hostRead _ _ h
  · rename_i m _
    dsimp only
    split
    · exact h
    · refine (State.memWf_iff _).mpr ⟨hs.1, hs.2.1, hs.2.2.1, ?_⟩
      intro r hr
      rcases mem_insertKey hr with rfl | hr
      · exact State.remote_wf h m
      · exact hs.2.2.2 r hr
  · exact h

@[simp] theorem State.memWf_readMissed (s : State) (cluster pa n : Nat) (alloc : Bool) :
    (s.readMissed cluster pa n alloc).2.memWf = s.memWf := by
  unfold State.readMissed
  dsimp only
  split <;> simp

/-- Reading bytes of a place keeps every memory canonical. -/
theorem State.memWf_readPlace (s : State) (cluster : Nat) (p : Place) (n : Nat) (use : L1Line → Bool) (alloc : Bool)
    (h : s.memWf = true) : (s.readPlace cluster p n use alloc).2.memWf = true := by
  unfold State.readPlace
  split
  · dsimp only
    split
    · split
      · split
        · exact h
        · simpa using h
      · split <;> simpa using h
    · simpa using h
  · exact s.memWf_farRead _ _ _ h

theorem State.memWf_recordFault (s : State) (st : Strand) (cause : Cause) (h : s.memWf = true) :
    (s.recordFault st cause).memWf = true := by
  unfold State.recordFault
  split
  · exact h
  · split
    · exact h
    · split
      · exact s.memWf_record _ _ _ h
      · exact h

end Sys2Proof.Machine
end

