-- ==== Sys2Proof/Laws/Ops.lean ====
section
/-!
SUPPORT. Laws/Ops.lean: what the operations that every instruction shares can do, each said once: an instruction's checks, its
outcome, a trap's entry and its return, requests, waits, and the outcome of an access. A proof about an instruction cites these and
unfolds none of them.
-/
namespace Sys2Proof.Machine

/-! ## Issuing -/

/-- What an instruction of the turn's context knows as it issues. -/
def Env.here (s : State) (st : Strand) : Env where
  slot := s.cur.slot
  ctx := s.cur.ctx
  st := st
  c := st.ctx s.cur.ctx
  imx := (st.ctx s.cur.ctx).prefixes.bind (·.imx)
  mattr := (st.ctx s.cur.ctx).prefixes.bind (·.mattr)

/-- A trap is entered once the array is not busy for the strand (R312); until then the turn does nothing. -/
theorem State.conclude_traps (s s' : State) (cause : Cause) (tval : Word) (slot : Nat) (id : CtxId) (i : Instr) (words : Nat)
    (vector : Bool) (h : s.arrayBusy slot = false) :
    s.conclude slot id i words vector (.trap cause tval s') = .next (s'.preciseTrap slot id cause vector tval) := by
  simp [State.conclude, h]

@[simp] theorem State.conclude_trap (s : State) (cause : Cause) (tval : Word) (slot : Nat) (id : CtxId) (i : Instr) (words : Nat)
    (vector : Bool) :
    s.conclude slot id i words vector (.trap cause tval s) = .next (s.trapNow slot id cause vector tval) := by
  simp only [State.conclude, State.trapNow]
  split <;> rfl

/-- A trap of a strand for which the array is not busy is entered at once. -/
theorem State.trapNow_of {s : State} {slot : Nat} (id : CtxId) (cause : Cause) (vector : Bool) (tval : Word)
    (h : s.arrayBusy slot = false) : s.trapNow slot id cause vector tval = s.preciseTrap slot id cause vector tval := by
  simp [State.trapNow, h]

/-- The access context never waits for the array. -/
theorem State.trapNow_access (s : State) (slot : Nat) (cause : Cause) (vector : Bool) (tval : Word) :
    s.trapNow slot .access cause vector tval = s.preciseTrap slot .access cause vector tval := by
  simp [State.trapNow]

/-- A slot without a strand issues nothing. -/
theorem State.issue_none {s : State} (i : Instr) (f : Form) (regs : List Reg) (body : Env → Act) (h : s.strand? s.cur.slot = none) :
    s.issue i f regs body = .next s := by simp [State.issue, h]

/-- The first check: prefixes that the instruction does not take raise 0x02 (R119). -/
theorem State.issue_illegal {s : State} {st : Strand} {p : Prefixes} (i : Instr) (f : Form) (regs : List Reg) (body : Env → Act)
    (h : s.strand? s.cur.slot = some st) (hp : (st.ctx s.cur.ctx).prefixes = some p) (hi : p.illegal f = true) :
    s.issue i f regs body =
      .next (s.trapNow s.cur.slot s.cur.ctx .illegalPrefix f.vector ((st.ctx s.cur.ctx).firstWord i)) := by
  simp only [State.issue, h, hp, Option.map_some, Option.getD_some, hi, ↓reduceIte, State.conclude_trap]

/-- The last check: a privileged instruction in user mode raises 0x03 (R320). -/
theorem State.issue_user {s : State} {st : Strand} (i : Instr) (f : Form) (regs : List Reg) (body : Env → Act)
    (h : s.strand? s.cur.slot = some st) (hp : (((st.ctx s.cur.ctx).prefixes.map (fun p => p.illegal f)).getD false) = false)
    (hz : ¬ (f.imx = .zero ∧ ((Env.here s st).imx.getD 0) ≠ 0)) (hf : f.priv = true) (hu : (st.ctx s.cur.ctx).priv = false) :
    s.issue i f regs body =
      .next (s.trapNow s.cur.slot s.cur.ctx .privileged f.vector ((st.ctx s.cur.ctx).firstWord i)) := by
  simp only [Env.here] at hz
  simp only [State.issue, h, hp, Bool.false_eq_true, ↓reduceIte, if_neg hz, hf, hu, Bool.not_false, and_self, State.conclude_trap]

/-- An instruction whose checks pass is what its own execution comes to; a register that is pending makes it wait (R19). -/
theorem State.issue_passes {s : State} {st : Strand} (i : Instr) (f : Form) (regs : List Reg) (body : Env → Act)
    (h : s.strand? s.cur.slot = some st) (hp : (((st.ctx s.cur.ctx).prefixes.map (fun p => p.illegal f)).getD false) = false)
    (hz : ¬ (f.imx = .zero ∧ ((Env.here s st).imx.getD 0) ≠ 0)) (hu : f.priv = true → (st.ctx s.cur.ctx).priv = true) :
    s.issue i f regs body = s.conclude s.cur.slot s.cur.ctx i f.words f.vector
      (match (if s.cur.ctx = .execute then st.stalls regs else none) with
       | some r => .wait (.register r.toNat) s
       | none => body (Env.here s st)) := by
  simp only [Env.here] at hz
  have hu' : ¬ (f.priv = true ∧ (!(st.ctx s.cur.ctx).priv) = true) := fun x => by simp [hu x.1] at x
  cases hs : (if s.cur.ctx = .execute then st.stalls regs else none) <;>
    simp only [State.issue, h, hp, Bool.false_eq_true, ↓reduceIte, if_neg hz, if_neg hu', Env.here, hs]

/-- A register that is not pending stalls nothing. -/
theorem Strand.stalls_none {st : Strand} {regs : List Reg} (h : ∀ r ∈ regs, r.toNat ∉ st.pending) : st.stalls regs = none := by
  simp only [Strand.stalls, List.find?_eq_none, List.contains_iff_mem]
  exact fun r hr => by simpa using h r hr

/-- An instruction with no prefix before it, no register of it pending, and the mode it needs, is its own execution. -/
theorem State.issue_bare {s : State} {st : Strand} (i : Instr) (f : Form) (regs : List Reg) (body : Env → Act)
    (h : s.strand? s.cur.slot = some st) (hb : (st.ctx s.cur.ctx).prefixes = none)
    (hr : s.cur.ctx = .execute → ∀ r ∈ regs, r.toNat ∉ st.pending) (hu : f.priv = true → (st.ctx s.cur.ctx).priv = true) :
    s.issue i f regs body = s.conclude s.cur.slot s.cur.ctx i f.words f.vector (body (Env.here s st)) := by
  rw [State.issue_passes i f regs body h (by simp [hb]) (by simp [Env.here, hb]) hu]
  by_cases hx : s.cur.ctx = .execute
  · simp [hx, Strand.stalls_none (hr hx)]
  · simp [hx]

/-! ## Outcomes -/

@[simp] theorem State.conclude_done (s s' : State) (slot : Nat) (id : CtxId) (i : Instr) (words : Nat) (vector : Bool) :
    s.conclude slot id i words vector (.done s') =
      .next (s'.updCtx slot id (fun c => c.advance (c.pc + BitVec.ofNat 64 (4 * words)))) := rfl

@[simp] theorem State.conclude_jump (s s' : State) (pc : Word) (slot : Nat) (id : CtxId) (i : Instr) (words : Nat) (vector : Bool) :
    s.conclude slot id i words vector (.jump s' pc) = .next (s'.updCtx slot id (fun c => c.advance pc)) := rfl

@[simp] theorem State.conclude_instead (s s' : State) (slot : Nat) (id : CtxId) (i : Instr) (words : Nat) (vector : Bool) :
    s.conclude slot id i words vector (.instead s') = .next s' := rfl

@[simp] theorem State.conclude_halt (s : State) (f : Fault) (slot : Nat) (id : CtxId) (i : Instr) (words : Nat) (vector : Bool) :
    s.conclude slot id i words vector (.halt f) = .fault f := rfl

/-- A wait that is no cancellation point only begins. -/
theorem State.conclude_wait {w : Wait} (s s' : State) (slot : Nat) (id : CtxId) (i : Instr) (words : Nat) (vector : Bool)
    (h : w.point = false) :
    s.conclude slot id i words vector (.wait w s') = .next (s'.updCtx slot id (fun c => c.await w s.now (some i))) := by
  simp [State.conclude, h]

/-- A wait that is one takes the request that stands, if any (R242). -/
theorem State.conclude_point {w : Wait} (s s' : State) (slot : Nat) (id : CtxId) (i : Instr) (words : Nat) (vector : Bool)
    (h : w.point = true) :
    s.conclude slot id i words vector (.wait w s') =
      .next (((s'.updCtx slot id (fun c => c.await w s.now (some i))).takeRequest slot id false).getD
        (s'.updCtx slot id (fun c => c.await w s.now (some i)))) := by
  simp [State.conclude, h]

/-- No instruction stops the machine but by an address that does not exist: an act that is no halt answers a next state. -/
theorem State.conclude_next (s : State) (slot : Nat) (id : CtxId) (i : Instr) (words : Nat) (vector : Bool) (a : Act)
    (h : ∀ f, a ≠ .halt f) : ∃ t, s.conclude slot id i words vector a = .next t := by
  cases a with
  | halt f => exact absurd rfl (h f)
  | wait w s' =>
    simp only [State.conclude]
    split <;> exact ⟨_, rfl⟩
  | trap cause tval s' =>
    simp only [State.conclude]
    split <;> exact ⟨_, rfl⟩
  | _ => exact ⟨_, rfl⟩

/-- What an access that is answered makes an instruction do. -/
@[simp] theorem Res.act_ok {α : Type} (x : α) (e : Env) (s : State) (f : α → Act) : (Res.ok x).act e s f = f x := rfl

/-- An access that faults is a precise fault with its address. -/
@[simp] theorem Res.act_fault {α : Type} (c : Cause) (va : Nat) (e : Env) (s : State) (f : α → Act) :
    (Res.fault (α := α) c va).act e s f = .trap c (BitVec.ofNat 64 va) s := rfl

/-- An access whose translation is not at hand waits for it. -/
@[simp] theorem Res.act_miss {α : Type} (va : Nat) (i : Intent) (e : Env) (s : State) (f : α → Act) :
    (Res.miss (α := α) va i).act e s f = .park e.agent va i s := rfl

/-! ## Waits and requests -/

/-- A context that waits for nothing begins to wait now. -/
theorem Context.await_none {c : Context} (w : Wait) (now : Nat) (i : Option Instr) (h : c.wait = none) :
    c.await w now i = { c with wait := some { kind := w, since := now, instr := i } } := by simp [Context.await, h]

/-- A wait of the same kind goes on (R32). -/
theorem Context.await_same {c : Context} {x : Waiting} (now : Nat) (i : Option Instr) (h : c.wait = some x) :
    c.await x.kind now i = c := by simp [Context.await, h]

/-- Nothing is taken where no cancel stands, and no pre-emption that is admitted (R242, R315). -/
theorem State.takeRequest_none {s : State} {slot : Nat} {st : Strand} {id : CtxId} (h : s.strand? slot = some st)
    (hc : (st.ctx id).cancel = none) (hp : (st.ctx id).preempt = none ∨ (st.ctx id).ie = false) (issuing : Bool) :
    s.takeRequest slot id issuing = none := by
  rcases hp with hp | hp <;> simp [State.takeRequest, h, hc, hp]

/-- A cancel is taken before a pre-emption (R242). -/
theorem State.takeRequest_cancel {s : State} {slot : Nat} {st : Strand} {id : CtxId} (h : s.strand? slot = some st)
    (hc : (st.ctx id).cancel.isSome = true) (issuing : Bool) : s.takeRequest slot id issuing = some (s.takeCancel slot id) := by
  simp [State.takeRequest, h, hc]

/-! ## Traps -/

@[simp] theorem Context.trapped_pc (c : Context) (t : Trap) : (c.trapped t).pc = c.tvec := rfl
@[simp] theorem Context.trapped_tpc (c : Context) (t : Trap) : (c.trapped t).tpc = t.tpc := rfl
@[simp] theorem Context.trapped_tval (c : Context) (t : Trap) : (c.trapped t).tval = t.tval := rfl
@[simp] theorem Context.trapped_cause (c : Context) (t : Trap) : (c.trapped t).cause = t.cause.code := rfl
@[simp] theorem Context.trapped_causeVector (c : Context) (t : Trap) : (c.trapped t).causeVector = t.vector := rfl
@[simp] theorem Context.trapped_priv (c : Context) (t : Trap) : (c.trapped t).priv = true := rfl
@[simp] theorem Context.trapped_ppriv (c : Context) (t : Trap) : (c.trapped t).ppriv = c.priv := rfl
@[simp] theorem Context.trapped_ie (c : Context) (t : Trap) : (c.trapped t).ie = false := rfl
@[simp] theorem Context.trapped_intrap (c : Context) (t : Trap) : (c.trapped t).intrap = true := rfl
@[simp] theorem Context.trapped_g (c : Context) (t : Trap) : (c.trapped t).g = c.g := rfl
@[simp] theorem Context.trapped_reg (c : Context) (t : Trap) (r : Reg) : (c.trapped t).reg r = c.reg r := rfl

/-- A precise trap's entry is that of its cause at the address of the sequence (R309). -/
theorem State.preciseTrap_of {s : State} {slot : Nat} {st : Strand} (id : CtxId) (cause : Cause) (vector : Bool) (tval : Word)
    (h : s.strand? slot = some st) :
    s.preciseTrap slot id cause vector tval = s.enterTrap slot id
      { cause, vector, imprecise := false, tval, tpc := (st.ctx id).start, pc := (st.ctx id).start, strip := st.strip,
        element := if vector then st.vstart.toNat else 0 } := by
  simp [State.preciseTrap, h]

/-- A trap inside a trap ends the strand, but for a pre-emption that the handler admits and that is no limit stop (R309). -/
theorem State.enterTrap_double {s : State} {slot : Nat} {st : Strand} {id : CtxId} {t : Trap} (h : s.strand? slot = some st)
    (hi : (st.ctx id).intrap = true) (hp : t.cause ≠ .preemption ∨ (st.ctx id).ie = false ∨ t.limit = true) :
    s.enterTrap slot id t = (s.recordFault st t.cause).endStrand slot 1 t.cause.code (some (st.charge t)) := by
  rcases hp with hp | hp | hp <;> simp [State.enterTrap, h, hi, hp]

/-- Any other trap of the access context changes that context, the walks it waits for and a recorder's ring, and nothing else. -/
theorem State.enterTrap_access {s : State} {slot : Nat} {st : Strand} {t : Trap} (h : s.strand? slot = some st)
    (hi : st.access.intrap = false) :
    s.enterTrap slot .access t = ((s.recordFault st t.cause).abandon (.context slot .access)).updCtx slot .access (fun c => c.trapped t) := by
  simp [State.enterTrap, h, Strand.ctx, hi]

/-- One of the execute context freezes its vector work besides (R312). -/
theorem State.enterTrap_execute {s : State} {slot : Nat} {st : Strand} {t : Trap} (h : s.strand? slot = some st)
    (hi : st.exec.intrap = false) :
    s.enterTrap slot .execute t = (((s.recordFault st t.cause).abandon (.context slot .execute)).freezeFrame slot t.imprecise t.tpc).updCtx
      slot .execute (fun c => c.trapped t) := by
  simp [State.enterTrap, h, Strand.ctx, hi]

/-- Nothing that waits is a memory. -/
@[simp] theorem State.abandon_dev (s : State) (w : Requester) : (s.abandon w).dev = s.dev := rfl
@[simp] theorem State.abandon_ws (s : State) (w : Requester) : (s.abandon w).ws = s.ws := rfl
@[simp] theorem State.abandon_host (s : State) (w : Requester) : (s.abandon w).host = s.host := rfl
@[simp] theorem State.abandon_remotes (s : State) (w : Requester) : (s.abandon w).remotes = s.remotes := rfl
@[simp] theorem State.abandon_strands (s : State) (w : Requester) : (s.abandon w).strands = s.strands := rfl
@[simp] theorem State.abandon_clusters (s : State) (w : Requester) : (s.abandon w).clusters = s.clusters := rfl
@[simp] theorem State.strand?_abandon (s : State) (w : Requester) (k : Nat) : (s.abandon w).strand? k = s.strand? k := rfl
@[simp] theorem State.cluster_abandon (s : State) (w : Requester) (k : Nat) : (s.abandon w).cluster k = s.cluster k := rfl

/-- A strand that holds a frame freezes nothing more (R312). -/
theorem State.freezeFrame_held {s : State} {slot : Nat} {st : Strand} (imprecise : Bool) (tpc : Word) (h : s.strand? slot = some st)
    (hf : st.frame.isSome = true) : s.freezeFrame slot imprecise tpc = s := by simp [State.freezeFrame, h, hf]

/-- The lanes' giving up their waits is no memory either. -/
@[simp] theorem State.abandonLanes_dev (s : State) (k : Nat) : (s.abandonLanes k).dev = s.dev := rfl
@[simp] theorem State.abandonLanes_ws (s : State) (k : Nat) : (s.abandonLanes k).ws = s.ws := rfl
@[simp] theorem State.abandonLanes_host (s : State) (k : Nat) : (s.abandonLanes k).host = s.host := rfl
@[simp] theorem State.abandonLanes_remotes (s : State) (k : Nat) : (s.abandonLanes k).remotes = s.remotes := rfl
@[simp] theorem State.strand?_abandonLanes (s : State) (k j : Nat) : (s.abandonLanes k).strand? j = s.strand? j := rfl

/-- All that freezing can do (R312): it gives up waits, empties the strand's part of the matrix queue and writes the strand. -/
theorem State.freezeFrame_cases (s : State) (slot : Nat) (imprecise : Bool) (tpc : Word) :
    s.freezeFrame slot imprecise tpc = s ∨
      ∃ s1 st, (s1 = s ∨ ∃ k c, s1 = s.setCluster k c) ∧
        s.freezeFrame slot imprecise tpc = ((s1.abandonLanes slot).abandon (.matrix slot)).setStrand slot st := by
  cases h : s.strand? slot with
  | none => exact .inl (by simp only [State.freezeFrame, h])
  | some st0 =>
    by_cases hf : st0.frame.isSome = true
    · exact .inl (s.freezeFrame_held imprecise tpc h hf)
    · refine .inr ?_
      simp only [State.freezeFrame, h, if_neg hf]
      by_cases hm : ((s.cluster (clusterOf slot)).matrixOf slot).isEmpty = true
      · rw [if_pos hm]
        exact ⟨_, _, .inl rfl, rfl⟩
      · rw [if_neg hm]
        exact ⟨_, _, .inr ⟨_, _, rfl⟩, rfl⟩

/-- Freezing changes no memory. -/
theorem State.freezeFrame_memories (s : State) (slot : Nat) (imprecise : Bool) (tpc : Word) :
    (s.freezeFrame slot imprecise tpc).dev = s.dev ∧ (s.freezeFrame slot imprecise tpc).ws = s.ws ∧
      (s.freezeFrame slot imprecise tpc).host = s.host ∧ (s.freezeFrame slot imprecise tpc).remotes = s.remotes := by
  rcases s.freezeFrame_cases slot imprecise tpc with h | ⟨s1, st, rfl | ⟨k, c, rfl⟩, h⟩ <;> rw [h] <;> exact ⟨rfl, rfl, rfl, rfl⟩

/-- Freezing leaves every other strand as it is. -/
theorem State.freezeFrame_others (s : State) (slot : Nat) (imprecise : Bool) (tpc : Word) {k : Nat} (h : k ≠ slot) :
    (s.freezeFrame slot imprecise tpc).strand? k = s.strand? k := by
  rcases s.freezeFrame_cases slot imprecise tpc with e | ⟨s1, st, rfl | ⟨j, c, rfl⟩, e⟩ <;> rw [e]
  · rw [State.strand?_setStrand_ne _ _ h]; rfl
  · rw [State.strand?_setStrand_ne _ _ h]; rfl

/-! ## Returning -/

/-- A return of the access context changes that context alone (R318). -/
theorem State.trapReturn_access (s : State) (slot : Nat) :
    s.trapReturn slot .access = s.updCtx slot .access (fun c => c.returned.redelivered s.now) := by simp [State.trapReturn]

/-- A frame that is not held brings nothing back. -/
theorem State.thaw_none {s : State} {slot : Nat} {st : Strand} (h : s.strand? slot = some st) (hf : st.frame = none) : s.thaw slot = s := by
  simp [State.thaw, h, hf]

/-- Thawing changes no memory. -/
theorem State.thaw_memories (s : State) (slot : Nat) :
    (s.thaw slot).dev = s.dev ∧ (s.thaw slot).ws = s.ws ∧ (s.thaw slot).host = s.host ∧ (s.thaw slot).remotes = s.remotes := by
  simp only [State.thaw]
  split
  · exact ⟨rfl, rfl, rfl, rfl⟩
  · split
    · exact ⟨rfl, rfl, rfl, rfl⟩
    · split <;> simp

/-! ## Canonical memories -/

/-- Entering and leaving a trap short of a strand's end keep the memories canonical. -/
theorem State.memWf_freezeFrame (s : State) (slot : Nat) (imprecise : Bool) (tpc : Word) (h : s.memWf = true) :
    (s.freezeFrame slot imprecise tpc).memWf = true := by
  obtain ⟨h1, h2, h3, h4⟩ := s.freezeFrame_memories slot imprecise tpc
  rwa [State.memWf_congr h1 h2 h3 h4]

/-- A return keeps them. -/
theorem State.memWf_thaw (s : State) (slot : Nat) (h : s.memWf = true) : (s.thaw slot).memWf = true := by
  obtain ⟨h1, h2, h3, h4⟩ := s.thaw_memories slot
  rwa [State.memWf_congr h1 h2 h3 h4]

end Sys2Proof.Machine
end

