-- ==== Sys2Proof/Laws/PerInstr.lean ====
section
/-!
SUPPORT. Laws/PerInstr.lean: what holds of each instruction as syntax, constructor by constructor: its encoding has as many words as
the class of its first word says (R117). A step that is no instruction word has no encoding, and an unassigned encoding is exempt.
-/

/-- The encoding of an instruction, if it has one, has as many words as its first word's class says (R117). -/
def Sys2Proof.Laws.Words.Statement (i : Sys2Proof.Instr) : Prop :=
  ∀ ws, Sys2Proof.encode i = some ws → (∀ w, i ≠ .unassignedEncoding w) → ws.length = Sys2Proof.wordCount (ws.getD 0 0)

open Sys2Proof

theorem Sys2Proof.Laws.Words.add : ∀ x0 x1 x2, Sys2Proof.Laws.Words.Statement (.add x0 x1 x2) := fun _ _ _ => fun _ h _ => by cases h; exact words_scalar _ _ _ (by decide)
theorem Sys2Proof.Laws.Words.sub : ∀ x0 x1 x2, Sys2Proof.Laws.Words.Statement (.sub x0 x1 x2) := fun _ _ _ => fun _ h _ => by cases h; exact words_scalar _ _ _ (by decide)
theorem Sys2Proof.Laws.Words.mul : ∀ x0 x1 x2, Sys2Proof.Laws.Words.Statement (.mul x0 x1 x2) := fun _ _ _ => fun _ h _ => by cases h; exact words_scalar _ _ _ (by decide)
theorem Sys2Proof.Laws.Words.mulh : ∀ x0 x1 x2, Sys2Proof.Laws.Words.Statement (.mulh x0 x1 x2) := fun _ _ _ => fun _ h _ => by cases h; exact words_scalar _ _ _ (by decide)
theorem Sys2Proof.Laws.Words.mulhu : ∀ x0 x1 x2, Sys2Proof.Laws.Words.Statement (.mulhu x0 x1 x2) := fun _ _ _ => fun _ h _ => by cases h; exact words_scalar _ _ _ (by decide)
theorem Sys2Proof.Laws.Words.div : ∀ x0 x1 x2, Sys2Proof.Laws.Words.Statement (.div x0 x1 x2) := fun _ _ _ => fun _ h _ => by cases h; exact words_scalar _ _ _ (by decide)
theorem Sys2Proof.Laws.Words.divu : ∀ x0 x1 x2, Sys2Proof.Laws.Words.Statement (.divu x0 x1 x2) := fun _ _ _ => fun _ h _ => by cases h; exact words_scalar _ _ _ (by decide)
theorem Sys2Proof.Laws.Words.rem : ∀ x0 x1 x2, Sys2Proof.Laws.Words.Statement (.rem x0 x1 x2) := fun _ _ _ => fun _ h _ => by cases h; exact words_scalar _ _ _ (by decide)
theorem Sys2Proof.Laws.Words.remu : ∀ x0 x1 x2, Sys2Proof.Laws.Words.Statement (.remu x0 x1 x2) := fun _ _ _ => fun _ h _ => by cases h; exact words_scalar _ _ _ (by decide)
theorem Sys2Proof.Laws.Words.min : ∀ x0 x1 x2, Sys2Proof.Laws.Words.Statement (.min x0 x1 x2) := fun _ _ _ => fun _ h _ => by cases h; exact words_scalar _ _ _ (by decide)
theorem Sys2Proof.Laws.Words.max : ∀ x0 x1 x2, Sys2Proof.Laws.Words.Statement (.max x0 x1 x2) := fun _ _ _ => fun _ h _ => by cases h; exact words_scalar _ _ _ (by decide)
theorem Sys2Proof.Laws.Words.minu : ∀ x0 x1 x2, Sys2Proof.Laws.Words.Statement (.minu x0 x1 x2) := fun _ _ _ => fun _ h _ => by cases h; exact words_scalar _ _ _ (by decide)
theorem Sys2Proof.Laws.Words.maxu : ∀ x0 x1 x2, Sys2Proof.Laws.Words.Statement (.maxu x0 x1 x2) := fun _ _ _ => fun _ h _ => by cases h; exact words_scalar _ _ _ (by decide)
theorem Sys2Proof.Laws.Words.and : ∀ x0 x1 x2, Sys2Proof.Laws.Words.Statement (.and x0 x1 x2) := fun _ _ _ => fun _ h _ => by cases h; exact words_scalar _ _ _ (by decide)
theorem Sys2Proof.Laws.Words.or : ∀ x0 x1 x2, Sys2Proof.Laws.Words.Statement (.or x0 x1 x2) := fun _ _ _ => fun _ h _ => by cases h; exact words_scalar _ _ _ (by decide)
theorem Sys2Proof.Laws.Words.xor : ∀ x0 x1 x2, Sys2Proof.Laws.Words.Statement (.xor x0 x1 x2) := fun _ _ _ => fun _ h _ => by cases h; exact words_scalar _ _ _ (by decide)
theorem Sys2Proof.Laws.Words.andn : ∀ x0 x1 x2, Sys2Proof.Laws.Words.Statement (.andn x0 x1 x2) := fun _ _ _ => fun _ h _ => by cases h; exact words_scalar _ _ _ (by decide)
theorem Sys2Proof.Laws.Words.shl : ∀ x0 x1 x2, Sys2Proof.Laws.Words.Statement (.shl x0 x1 x2) := fun _ _ _ => fun _ h _ => by cases h; exact words_scalar _ _ _ (by decide)
theorem Sys2Proof.Laws.Words.shr : ∀ x0 x1 x2, Sys2Proof.Laws.Words.Statement (.shr x0 x1 x2) := fun _ _ _ => fun _ h _ => by cases h; exact words_scalar _ _ _ (by decide)
theorem Sys2Proof.Laws.Words.sra : ∀ x0 x1 x2, Sys2Proof.Laws.Words.Statement (.sra x0 x1 x2) := fun _ _ _ => fun _ h _ => by cases h; exact words_scalar _ _ _ (by decide)
theorem Sys2Proof.Laws.Words.rol : ∀ x0 x1 x2, Sys2Proof.Laws.Words.Statement (.rol x0 x1 x2) := fun _ _ _ => fun _ h _ => by cases h; exact words_scalar _ _ _ (by decide)
theorem Sys2Proof.Laws.Words.slt : ∀ x0 x1 x2, Sys2Proof.Laws.Words.Statement (.slt x0 x1 x2) := fun _ _ _ => fun _ h _ => by cases h; exact words_scalar _ _ _ (by decide)
theorem Sys2Proof.Laws.Words.sltu : ∀ x0 x1 x2, Sys2Proof.Laws.Words.Statement (.sltu x0 x1 x2) := fun _ _ _ => fun _ h _ => by cases h; exact words_scalar _ _ _ (by decide)
theorem Sys2Proof.Laws.Words.clz : ∀ x0 x1, Sys2Proof.Laws.Words.Statement (.clz x0 x1) := fun _ _ => fun _ h _ => by cases h; exact words_scalar _ _ _ (by decide)
theorem Sys2Proof.Laws.Words.ctz : ∀ x0 x1, Sys2Proof.Laws.Words.Statement (.ctz x0 x1) := fun _ _ => fun _ h _ => by cases h; exact words_scalar _ _ _ (by decide)
theorem Sys2Proof.Laws.Words.popc : ∀ x0 x1, Sys2Proof.Laws.Words.Statement (.popc x0 x1) := fun _ _ => fun _ h _ => by cases h; exact words_scalar _ _ _ (by decide)
theorem Sys2Proof.Laws.Words.fadd : ∀ x0 x1 x2 x3, Sys2Proof.Laws.Words.Statement (.fadd x0 x1 x2 x3) := fun _ _ _ _ => fun _ h _ => by cases h; exact words_scalar _ _ _ (by decide)
theorem Sys2Proof.Laws.Words.fsub : ∀ x0 x1 x2 x3, Sys2Proof.Laws.Words.Statement (.fsub x0 x1 x2 x3) := fun _ _ _ _ => fun _ h _ => by cases h; exact words_scalar _ _ _ (by decide)
theorem Sys2Proof.Laws.Words.fmul : ∀ x0 x1 x2 x3, Sys2Proof.Laws.Words.Statement (.fmul x0 x1 x2 x3) := fun _ _ _ _ => fun _ h _ => by cases h; exact words_scalar _ _ _ (by decide)
theorem Sys2Proof.Laws.Words.fma : ∀ x0 x1 x2 x3 x4, Sys2Proof.Laws.Words.Statement (.fma x0 x1 x2 x3 x4) := fun _ _ _ _ _ => fun _ h _ => by cases h; exact words_scalar _ _ _ (by decide)
theorem Sys2Proof.Laws.Words.fmin : ∀ x0 x1 x2 x3, Sys2Proof.Laws.Words.Statement (.fmin x0 x1 x2 x3) := fun _ _ _ _ => fun _ h _ => by cases h; exact words_scalar _ _ _ (by decide)
theorem Sys2Proof.Laws.Words.fmax : ∀ x0 x1 x2 x3, Sys2Proof.Laws.Words.Statement (.fmax x0 x1 x2 x3) := fun _ _ _ _ => fun _ h _ => by cases h; exact words_scalar _ _ _ (by decide)
theorem Sys2Proof.Laws.Words.fcmp : ∀ x0 x1 x2 x3, Sys2Proof.Laws.Words.Statement (.fcmp x0 x1 x2 x3) := fun _ _ _ _ => fun _ h _ => by cases h; exact words_scalar _ _ _ (by decide)
theorem Sys2Proof.Laws.Words.fcvt : ∀ x0 x1 x2 x3 x4, Sys2Proof.Laws.Words.Statement (.fcvt x0 x1 x2 x3 x4) := fun _ _ _ _ _ => fun _ h _ => by cases h; exact words_scalar _ _ _ (by decide)
theorem Sys2Proof.Laws.Words.addi : ∀ x0 x1 x2, Sys2Proof.Laws.Words.Statement (.addi x0 x1 x2) := fun _ _ _ => fun _ h _ => by cases h; exact words_scalar _ _ _ (by decide)
theorem Sys2Proof.Laws.Words.andi : ∀ x0 x1 x2, Sys2Proof.Laws.Words.Statement (.andi x0 x1 x2) := fun _ _ _ => fun _ h _ => by cases h; exact words_scalar _ _ _ (by decide)
theorem Sys2Proof.Laws.Words.ori : ∀ x0 x1 x2, Sys2Proof.Laws.Words.Statement (.ori x0 x1 x2) := fun _ _ _ => fun _ h _ => by cases h; exact words_scalar _ _ _ (by decide)
theorem Sys2Proof.Laws.Words.xori : ∀ x0 x1 x2, Sys2Proof.Laws.Words.Statement (.xori x0 x1 x2) := fun _ _ _ => fun _ h _ => by cases h; exact words_scalar _ _ _ (by decide)
theorem Sys2Proof.Laws.Words.shli : ∀ x0 x1 x2, Sys2Proof.Laws.Words.Statement (.shli x0 x1 x2) := fun _ _ _ => fun _ h _ => by cases h; exact words_scalar _ _ _ (by decide)
theorem Sys2Proof.Laws.Words.shri : ∀ x0 x1 x2, Sys2Proof.Laws.Words.Statement (.shri x0 x1 x2) := fun _ _ _ => fun _ h _ => by cases h; exact words_scalar _ _ _ (by decide)
theorem Sys2Proof.Laws.Words.srai : ∀ x0 x1 x2, Sys2Proof.Laws.Words.Statement (.srai x0 x1 x2) := fun _ _ _ => fun _ h _ => by cases h; exact words_scalar _ _ _ (by decide)
theorem Sys2Proof.Laws.Words.slti : ∀ x0 x1 x2, Sys2Proof.Laws.Words.Statement (.slti x0 x1 x2) := fun _ _ _ => fun _ h _ => by cases h; exact words_scalar _ _ _ (by decide)
theorem Sys2Proof.Laws.Words.sltui : ∀ x0 x1 x2, Sys2Proof.Laws.Words.Statement (.sltui x0 x1 x2) := fun _ _ _ => fun _ h _ => by cases h; exact words_scalar _ _ _ (by decide)
theorem Sys2Proof.Laws.Words.lui : ∀ x0 x1, Sys2Proof.Laws.Words.Statement (.lui x0 x1) := fun _ _ => fun _ h _ => by cases h; exact words_scalar _ _ _ (by decide)
theorem Sys2Proof.Laws.Words.auipc : ∀ x0 x1, Sys2Proof.Laws.Words.Statement (.auipc x0 x1) := fun _ _ => fun _ h _ => by cases h; exact words_scalar _ _ _ (by decide)
theorem Sys2Proof.Laws.Words.bfx : ∀ x0 x1 x2 x3, Sys2Proof.Laws.Words.Statement (.bfx x0 x1 x2 x3) := fun _ _ _ _ => fun _ h _ => by cases h; exact words_scalar _ _ _ (by decide)
theorem Sys2Proof.Laws.Words.bfxu : ∀ x0 x1 x2 x3, Sys2Proof.Laws.Words.Statement (.bfxu x0 x1 x2 x3) := fun _ _ _ _ => fun _ h _ => by cases h; exact words_scalar _ _ _ (by decide)
theorem Sys2Proof.Laws.Words.bfi : ∀ x0 x1 x2 x3, Sys2Proof.Laws.Words.Statement (.bfi x0 x1 x2 x3) := fun _ _ _ _ => fun _ h _ => by cases h; exact words_scalar _ _ _ (by decide)
theorem Sys2Proof.Laws.Words.ldb : ∀ x0 x1 x2, Sys2Proof.Laws.Words.Statement (.ldb x0 x1 x2) := fun _ _ _ => fun _ h _ => by cases h; exact words_scalar _ _ _ (by decide)
theorem Sys2Proof.Laws.Words.ldh : ∀ x0 x1 x2, Sys2Proof.Laws.Words.Statement (.ldh x0 x1 x2) := fun _ _ _ => fun _ h _ => by cases h; exact words_scalar _ _ _ (by decide)
theorem Sys2Proof.Laws.Words.ldw : ∀ x0 x1 x2, Sys2Proof.Laws.Words.Statement (.ldw x0 x1 x2) := fun _ _ _ => fun _ h _ => by cases h; exact words_scalar _ _ _ (by decide)
theorem Sys2Proof.Laws.Words.ldd : ∀ x0 x1 x2, Sys2Proof.Laws.Words.Statement (.ldd x0 x1 x2) := fun _ _ _ => fun _ h _ => by cases h; exact words_scalar _ _ _ (by decide)
theorem Sys2Proof.Laws.Words.ldbu : ∀ x0 x1 x2, Sys2Proof.Laws.Words.Statement (.ldbu x0 x1 x2) := fun _ _ _ => fun _ h _ => by cases h; exact words_scalar _ _ _ (by decide)
theorem Sys2Proof.Laws.Words.ldhu : ∀ x0 x1 x2, Sys2Proof.Laws.Words.Statement (.ldhu x0 x1 x2) := fun _ _ _ => fun _ h _ => by cases h; exact words_scalar _ _ _ (by decide)
theorem Sys2Proof.Laws.Words.ldwu : ∀ x0 x1 x2, Sys2Proof.Laws.Words.Statement (.ldwu x0 x1 x2) := fun _ _ _ => fun _ h _ => by cases h; exact words_scalar _ _ _ (by decide)
theorem Sys2Proof.Laws.Words.stb : ∀ x0 x1 x2, Sys2Proof.Laws.Words.Statement (.stb x0 x1 x2) := fun _ _ _ => fun _ h _ => by cases h; exact words_scalar _ _ _ (by decide)
theorem Sys2Proof.Laws.Words.sth : ∀ x0 x1 x2, Sys2Proof.Laws.Words.Statement (.sth x0 x1 x2) := fun _ _ _ => fun _ h _ => by cases h; exact words_scalar _ _ _ (by decide)
theorem Sys2Proof.Laws.Words.stw : ∀ x0 x1 x2, Sys2Proof.Laws.Words.Statement (.stw x0 x1 x2) := fun _ _ _ => fun _ h _ => by cases h; exact words_scalar _ _ _ (by decide)
theorem Sys2Proof.Laws.Words.std : ∀ x0 x1 x2, Sys2Proof.Laws.Words.Statement (.std x0 x1 x2) := fun _ _ _ => fun _ h _ => by cases h; exact words_scalar _ _ _ (by decide)
theorem Sys2Proof.Laws.Words.lda : ∀ x0 x1 x2 x3, Sys2Proof.Laws.Words.Statement (.lda x0 x1 x2 x3) := fun _ _ _ _ => fun _ h _ => by cases h; exact words_scalar _ _ _ (by decide)
theorem Sys2Proof.Laws.Words.stl : ∀ x0 x1 x2 x3, Sys2Proof.Laws.Words.Statement (.stl x0 x1 x2 x3) := fun _ _ _ _ => fun _ h _ => by cases h; exact words_scalar _ _ _ (by decide)
theorem Sys2Proof.Laws.Words.amoswap : ∀ x0 x1 x2 x3 x4, Sys2Proof.Laws.Words.Statement (.amoswap x0 x1 x2 x3 x4) := fun _ _ _ _ _ => fun _ h _ => by cases h; exact words_scalar _ _ _ (by decide)
theorem Sys2Proof.Laws.Words.amoadd : ∀ x0 x1 x2 x3 x4, Sys2Proof.Laws.Words.Statement (.amoadd x0 x1 x2 x3 x4) := fun _ _ _ _ _ => fun _ h _ => by cases h; exact words_scalar _ _ _ (by decide)
theorem Sys2Proof.Laws.Words.amoand : ∀ x0 x1 x2 x3 x4, Sys2Proof.Laws.Words.Statement (.amoand x0 x1 x2 x3 x4) := fun _ _ _ _ _ => fun _ h _ => by cases h; exact words_scalar _ _ _ (by decide)
theorem Sys2Proof.Laws.Words.amoor : ∀ x0 x1 x2 x3 x4, Sys2Proof.Laws.Words.Statement (.amoor x0 x1 x2 x3 x4) := fun _ _ _ _ _ => fun _ h _ => by cases h; exact words_scalar _ _ _ (by decide)
theorem Sys2Proof.Laws.Words.amoxor : ∀ x0 x1 x2 x3 x4, Sys2Proof.Laws.Words.Statement (.amoxor x0 x1 x2 x3 x4) := fun _ _ _ _ _ => fun _ h _ => by cases h; exact words_scalar _ _ _ (by decide)
theorem Sys2Proof.Laws.Words.amomin : ∀ x0 x1 x2 x3 x4, Sys2Proof.Laws.Words.Statement (.amomin x0 x1 x2 x3 x4) := fun _ _ _ _ _ => fun _ h _ => by cases h; exact words_scalar _ _ _ (by decide)
theorem Sys2Proof.Laws.Words.amomax : ∀ x0 x1 x2 x3 x4, Sys2Proof.Laws.Words.Statement (.amomax x0 x1 x2 x3 x4) := fun _ _ _ _ _ => fun _ h _ => by cases h; exact words_scalar _ _ _ (by decide)
theorem Sys2Proof.Laws.Words.amocas : ∀ x0 x1 x2 x3, Sys2Proof.Laws.Words.Statement (.amocas x0 x1 x2 x3) := fun _ _ _ _ => fun _ h _ => by cases h; exact words_scalar _ _ _ (by decide)
theorem Sys2Proof.Laws.Words.fence : ∀ x0 x1, Sys2Proof.Laws.Words.Statement (.fence x0 x1) := fun _ _ => fun _ h _ => by cases h; exact words_scalar _ _ _ (by decide)
theorem Sys2Proof.Laws.Words.beq : ∀ x0 x1 x2, Sys2Proof.Laws.Words.Statement (.beq x0 x1 x2) := fun _ _ _ => fun _ h _ => by cases h; exact words_scalar _ _ _ (by decide)
theorem Sys2Proof.Laws.Words.bne : ∀ x0 x1 x2, Sys2Proof.Laws.Words.Statement (.bne x0 x1 x2) := fun _ _ _ => fun _ h _ => by cases h; exact words_scalar _ _ _ (by decide)
theorem Sys2Proof.Laws.Words.blt : ∀ x0 x1 x2, Sys2Proof.Laws.Words.Statement (.blt x0 x1 x2) := fun _ _ _ => fun _ h _ => by cases h; exact words_scalar _ _ _ (by decide)
theorem Sys2Proof.Laws.Words.bge : ∀ x0 x1 x2, Sys2Proof.Laws.Words.Statement (.bge x0 x1 x2) := fun _ _ _ => fun _ h _ => by cases h; exact words_scalar _ _ _ (by decide)
theorem Sys2Proof.Laws.Words.bltu : ∀ x0 x1 x2, Sys2Proof.Laws.Words.Statement (.bltu x0 x1 x2) := fun _ _ _ => fun _ h _ => by cases h; exact words_scalar _ _ _ (by decide)
theorem Sys2Proof.Laws.Words.bgeu : ∀ x0 x1 x2, Sys2Proof.Laws.Words.Statement (.bgeu x0 x1 x2) := fun _ _ _ => fun _ h _ => by cases h; exact words_scalar _ _ _ (by decide)
theorem Sys2Proof.Laws.Words.bq : ∀ x0 x1, Sys2Proof.Laws.Words.Statement (.bq x0 x1) := fun _ _ => fun _ h _ => by cases h; exact words_scalar _ _ _ (by decide)
theorem Sys2Proof.Laws.Words.bsend : ∀ x0 x1, Sys2Proof.Laws.Words.Statement (.bsend x0 x1) := fun _ _ => fun _ h _ => by cases h; exact words_scalar _ _ _ (by decide)
theorem Sys2Proof.Laws.Words.j : ∀ x0, Sys2Proof.Laws.Words.Statement (.j x0) := fun _ => fun _ h _ => by cases h; exact words_scalar _ _ _ (by decide)
theorem Sys2Proof.Laws.Words.jal : ∀ x0 x1, Sys2Proof.Laws.Words.Statement (.jal x0 x1) := fun _ _ => fun _ h _ => by cases h; exact words_scalar _ _ _ (by decide)
theorem Sys2Proof.Laws.Words.jalr : ∀ x0 x1 x2, Sys2Proof.Laws.Words.Statement (.jalr x0 x1 x2) := fun _ _ _ => fun _ h _ => by cases h; exact words_scalar _ _ _ (by decide)
theorem Sys2Proof.Laws.Words.qpush : ∀ x0 x1, Sys2Proof.Laws.Words.Statement (.qpush x0 x1) := fun _ _ => fun _ h _ => by cases h; exact words_scalar _ _ _ (by decide)
theorem Sys2Proof.Laws.Words.qpop : ∀ x0 x1, Sys2Proof.Laws.Words.Statement (.qpop x0 x1) := fun _ _ => fun _ h _ => by cases h; exact words_scalar _ _ _ (by decide)
theorem Sys2Proof.Laws.Words.imx : ∀ x0, Sys2Proof.Laws.Words.Statement (.imx x0) := fun _ => fun _ h _ => by cases h; exact words_imx _
theorem Sys2Proof.Laws.Words.mattr : ∀ x0 x1 x2, Sys2Proof.Laws.Words.Statement (.mattr x0 x1 x2) := fun _ _ _ => fun _ h _ => by cases h; exact words_mattr _ _ _
theorem Sys2Proof.Laws.Words.vcfg : ∀ x0, Sys2Proof.Laws.Words.Statement (.vcfg x0) := fun _ => fun _ h _ => by cases h; exact words_vxc _ _
theorem Sys2Proof.Laws.Words.vsetl : ∀ x0, Sys2Proof.Laws.Words.Statement (.vsetl x0) := fun _ => fun _ h _ => by cases h; exact words_vxc _ _
theorem Sys2Proof.Laws.Words.vsetrc : ∀ x0, Sys2Proof.Laws.Words.Statement (.vsetrc x0) := fun _ => fun _ h _ => by cases h; exact words_vxc _ _
theorem Sys2Proof.Laws.Words.vpart : ∀ x0, Sys2Proof.Laws.Words.Statement (.vpart x0) := fun _ => fun _ h _ => by cases h; exact words_vxc _ _
theorem Sys2Proof.Laws.Words.vjoin : ∀ x0, Sys2Proof.Laws.Words.Statement (.vjoin x0) := fun _ => fun _ h _ => by cases h; exact words_vxc _ _
theorem Sys2Proof.Laws.Words.vadd : ∀ x0, Sys2Proof.Laws.Words.Statement (.vadd x0) := fun _ => fun _ h _ => by cases h; exact words_vxc _ _
theorem Sys2Proof.Laws.Words.vsub : ∀ x0, Sys2Proof.Laws.Words.Statement (.vsub x0) := fun _ => fun _ h _ => by cases h; exact words_vxc _ _
theorem Sys2Proof.Laws.Words.vmul : ∀ x0, Sys2Proof.Laws.Words.Statement (.vmul x0) := fun _ => fun _ h _ => by cases h; exact words_vxc _ _
theorem Sys2Proof.Laws.Words.vmulh : ∀ x0, Sys2Proof.Laws.Words.Statement (.vmulh x0) := fun _ => fun _ h _ => by cases h; exact words_vxc _ _
theorem Sys2Proof.Laws.Words.vfma : ∀ x0, Sys2Proof.Laws.Words.Statement (.vfma x0) := fun _ => fun _ h _ => by cases h; exact words_vxc _ _
theorem Sys2Proof.Laws.Words.vfms : ∀ x0, Sys2Proof.Laws.Words.Statement (.vfms x0) := fun _ => fun _ h _ => by cases h; exact words_vxc _ _
theorem Sys2Proof.Laws.Words.vfnma : ∀ x0, Sys2Proof.Laws.Words.Statement (.vfnma x0) := fun _ => fun _ h _ => by cases h; exact words_vxc _ _
theorem Sys2Proof.Laws.Words.vdiv : ∀ x0, Sys2Proof.Laws.Words.Statement (.vdiv x0) := fun _ => fun _ h _ => by cases h; exact words_vxc _ _
theorem Sys2Proof.Laws.Words.vsqrt : ∀ x0, Sys2Proof.Laws.Words.Statement (.vsqrt x0) := fun _ => fun _ h _ => by cases h; exact words_vxc _ _
theorem Sys2Proof.Laws.Words.vrcp : ∀ x0, Sys2Proof.Laws.Words.Statement (.vrcp x0) := fun _ => fun _ h _ => by cases h; exact words_vxc _ _
theorem Sys2Proof.Laws.Words.vrsq : ∀ x0, Sys2Proof.Laws.Words.Statement (.vrsq x0) := fun _ => fun _ h _ => by cases h; exact words_vxc _ _
theorem Sys2Proof.Laws.Words.vexp2 : ∀ x0, Sys2Proof.Laws.Words.Statement (.vexp2 x0) := fun _ => fun _ h _ => by cases h; exact words_vxc _ _
theorem Sys2Proof.Laws.Words.vlog2 : ∀ x0, Sys2Proof.Laws.Words.Statement (.vlog2 x0) := fun _ => fun _ h _ => by cases h; exact words_vxc _ _
theorem Sys2Proof.Laws.Words.vmin : ∀ x0, Sys2Proof.Laws.Words.Statement (.vmin x0) := fun _ => fun _ h _ => by cases h; exact words_vxc _ _
theorem Sys2Proof.Laws.Words.vmax : ∀ x0, Sys2Proof.Laws.Words.Statement (.vmax x0) := fun _ => fun _ h _ => by cases h; exact words_vxc _ _
theorem Sys2Proof.Laws.Words.vabs : ∀ x0, Sys2Proof.Laws.Words.Statement (.vabs x0) := fun _ => fun _ h _ => by cases h; exact words_vxc _ _
theorem Sys2Proof.Laws.Words.vneg : ∀ x0, Sys2Proof.Laws.Words.Statement (.vneg x0) := fun _ => fun _ h _ => by cases h; exact words_vxc _ _
theorem Sys2Proof.Laws.Words.vand : ∀ x0, Sys2Proof.Laws.Words.Statement (.vand x0) := fun _ => fun _ h _ => by cases h; exact words_vxc _ _
theorem Sys2Proof.Laws.Words.vor : ∀ x0, Sys2Proof.Laws.Words.Statement (.vor x0) := fun _ => fun _ h _ => by cases h; exact words_vxc _ _
theorem Sys2Proof.Laws.Words.vxor : ∀ x0, Sys2Proof.Laws.Words.Statement (.vxor x0) := fun _ => fun _ h _ => by cases h; exact words_vxc _ _
theorem Sys2Proof.Laws.Words.vnot : ∀ x0, Sys2Proof.Laws.Words.Statement (.vnot x0) := fun _ => fun _ h _ => by cases h; exact words_vxc _ _
theorem Sys2Proof.Laws.Words.vshl : ∀ x0, Sys2Proof.Laws.Words.Statement (.vshl x0) := fun _ => fun _ h _ => by cases h; exact words_vxc _ _
theorem Sys2Proof.Laws.Words.vshr : ∀ x0, Sys2Proof.Laws.Words.Statement (.vshr x0) := fun _ => fun _ h _ => by cases h; exact words_vxc _ _
theorem Sys2Proof.Laws.Words.vsra : ∀ x0, Sys2Proof.Laws.Words.Statement (.vsra x0) := fun _ => fun _ h _ => by cases h; exact words_vxc _ _
theorem Sys2Proof.Laws.Words.vcmpeq : ∀ x0, Sys2Proof.Laws.Words.Statement (.vcmpeq x0) := fun _ => fun _ h _ => by cases h; exact words_vxc _ _
theorem Sys2Proof.Laws.Words.vcmpne : ∀ x0, Sys2Proof.Laws.Words.Statement (.vcmpne x0) := fun _ => fun _ h _ => by cases h; exact words_vxc _ _
theorem Sys2Proof.Laws.Words.vcmplt : ∀ x0, Sys2Proof.Laws.Words.Statement (.vcmplt x0) := fun _ => fun _ h _ => by cases h; exact words_vxc _ _
theorem Sys2Proof.Laws.Words.vcmple : ∀ x0, Sys2Proof.Laws.Words.Statement (.vcmple x0) := fun _ => fun _ h _ => by cases h; exact words_vxc _ _
theorem Sys2Proof.Laws.Words.vsel : ∀ x0, Sys2Proof.Laws.Words.Statement (.vsel x0) := fun _ => fun _ h _ => by cases h; exact words_vxc _ _
theorem Sys2Proof.Laws.Words.vclass : ∀ x0, Sys2Proof.Laws.Words.Statement (.vclass x0) := fun _ => fun _ h _ => by cases h; exact words_vxc _ _
theorem Sys2Proof.Laws.Words.vcvt : ∀ x0, Sys2Proof.Laws.Words.Statement (.vcvt x0) := fun _ => fun _ h _ => by cases h; exact words_vxc _ _
theorem Sys2Proof.Laws.Words.vnarrow : ∀ x0, Sys2Proof.Laws.Words.Statement (.vnarrow x0) := fun _ => fun _ h _ => by cases h; exact words_vxc _ _
theorem Sys2Proof.Laws.Words.vwiden : ∀ x0, Sys2Proof.Laws.Words.Statement (.vwiden x0) := fun _ => fun _ h _ => by cases h; exact words_vxc _ _
theorem Sys2Proof.Laws.Words.vq4 : ∀ x0, Sys2Proof.Laws.Words.Statement (.vq4 x0) := fun _ => fun _ h _ => by cases h; exact words_vxc _ _
theorem Sys2Proof.Laws.Words.vslideup : ∀ x0, Sys2Proof.Laws.Words.Statement (.vslideup x0) := fun _ => fun _ h _ => by cases h; exact words_vxc _ _
theorem Sys2Proof.Laws.Words.vslidedn : ∀ x0, Sys2Proof.Laws.Words.Statement (.vslidedn x0) := fun _ => fun _ h _ => by cases h; exact words_vxc _ _
theorem Sys2Proof.Laws.Words.vperm : ∀ x0, Sys2Proof.Laws.Words.Statement (.vperm x0) := fun _ => fun _ h _ => by cases h; exact words_vxc _ _
theorem Sys2Proof.Laws.Words.vbcast : ∀ x0, Sys2Proof.Laws.Words.Statement (.vbcast x0) := fun _ => fun _ h _ => by cases h; exact words_vxc _ _
theorem Sys2Proof.Laws.Words.vmvs : ∀ x0, Sys2Proof.Laws.Words.Statement (.vmvs x0) := fun _ => fun _ h _ => by cases h; exact words_vxc _ _
theorem Sys2Proof.Laws.Words.vget : ∀ x0, Sys2Proof.Laws.Words.Statement (.vget x0) := fun _ => fun _ h _ => by cases h; exact words_vxc _ _
theorem Sys2Proof.Laws.Words.vredsum : ∀ x0, Sys2Proof.Laws.Words.Statement (.vredsum x0) := fun _ => fun _ h _ => by cases h; exact words_vxc _ _
theorem Sys2Proof.Laws.Words.vredmax : ∀ x0, Sys2Proof.Laws.Words.Statement (.vredmax x0) := fun _ => fun _ h _ => by cases h; exact words_vxc _ _
theorem Sys2Proof.Laws.Words.vredmin : ∀ x0, Sys2Proof.Laws.Words.Statement (.vredmin x0) := fun _ => fun _ h _ => by cases h; exact words_vxc _ _
theorem Sys2Proof.Laws.Words.vredand : ∀ x0, Sys2Proof.Laws.Words.Statement (.vredand x0) := fun _ => fun _ h _ => by cases h; exact words_vxc _ _
theorem Sys2Proof.Laws.Words.vredor : ∀ x0, Sys2Proof.Laws.Words.Statement (.vredor x0) := fun _ => fun _ h _ => by cases h; exact words_vxc _ _
theorem Sys2Proof.Laws.Words.vscan : ∀ x0, Sys2Proof.Laws.Words.Statement (.vscan x0) := fun _ => fun _ h _ => by cases h; exact words_vxc _ _
theorem Sys2Proof.Laws.Words.vcompress : ∀ x0, Sys2Proof.Laws.Words.Statement (.vcompress x0) := fun _ => fun _ h _ => by cases h; exact words_vxc _ _
theorem Sys2Proof.Laws.Words.vexpand : ∀ x0, Sys2Proof.Laws.Words.Statement (.vexpand x0) := fun _ => fun _ h _ => by cases h; exact words_vxc _ _
theorem Sys2Proof.Laws.Words.viota : ∀ x0, Sys2Proof.Laws.Words.Statement (.viota x0) := fun _ => fun _ h _ => by cases h; exact words_vxc _ _
theorem Sys2Proof.Laws.Words.vtrans8 : ∀ x0, Sys2Proof.Laws.Words.Statement (.vtrans8 x0) := fun _ => fun _ h _ => by cases h; exact words_vxc _ _
theorem Sys2Proof.Laws.Words.vfirst : ∀ x0, Sys2Proof.Laws.Words.Statement (.vfirst x0) := fun _ => fun _ h _ => by cases h; exact words_vxc _ _
theorem Sys2Proof.Laws.Words.vpopm : ∀ x0, Sys2Proof.Laws.Words.Statement (.vpopm x0) := fun _ => fun _ h _ => by cases h; exact words_vxc _ _
theorem Sys2Proof.Laws.Words.vld : ∀ x0, Sys2Proof.Laws.Words.Statement (.vld x0) := fun _ => fun _ h _ => by cases h; exact words_vxm _ _
theorem Sys2Proof.Laws.Words.vlds : ∀ x0, Sys2Proof.Laws.Words.Statement (.vlds x0) := fun _ => fun _ h _ => by cases h; exact words_vxm _ _
theorem Sys2Proof.Laws.Words.vldx : ∀ x0, Sys2Proof.Laws.Words.Statement (.vldx x0) := fun _ => fun _ h _ => by cases h; exact words_vxm _ _
theorem Sys2Proof.Laws.Words.vldff : ∀ x0, Sys2Proof.Laws.Words.Statement (.vldff x0) := fun _ => fun _ h _ => by cases h; exact words_vxm _ _
theorem Sys2Proof.Laws.Words.vld2d : ∀ x0, Sys2Proof.Laws.Words.Statement (.vld2d x0) := fun _ => fun _ h _ => by cases h; exact words_vxm _ _
theorem Sys2Proof.Laws.Words.vst : ∀ x0, Sys2Proof.Laws.Words.Statement (.vst x0) := fun _ => fun _ h _ => by cases h; exact words_vxm _ _
theorem Sys2Proof.Laws.Words.vsts : ∀ x0, Sys2Proof.Laws.Words.Statement (.vsts x0) := fun _ => fun _ h _ => by cases h; exact words_vxm _ _
theorem Sys2Proof.Laws.Words.vstx : ∀ x0, Sys2Proof.Laws.Words.Statement (.vstx x0) := fun _ => fun _ h _ => by cases h; exact words_vxm _ _
theorem Sys2Proof.Laws.Words.vst2d : ∀ x0, Sys2Proof.Laws.Words.Statement (.vst2d x0) := fun _ => fun _ h _ => by cases h; exact words_vxm _ _
theorem Sys2Proof.Laws.Words.vamo : ∀ x0, Sys2Proof.Laws.Words.Statement (.vamo x0) := fun _ => fun _ h _ => by cases h; exact words_vxm _ _
theorem Sys2Proof.Laws.Words.vxlat : ∀ x0, Sys2Proof.Laws.Words.Statement (.vxlat x0) := fun _ => fun _ h _ => by cases h; exact words_vxm _ _
theorem Sys2Proof.Laws.Words.vpref : ∀ x0, Sys2Proof.Laws.Words.Statement (.vpref x0) := fun _ => fun _ h _ => by cases h; exact words_vxm _ _
theorem Sys2Proof.Laws.Words.kvapp : ∀ x0, Sys2Proof.Laws.Words.Statement (.kvapp x0) := fun _ => fun _ h _ => by cases h; exact words_vxm _ _
theorem Sys2Proof.Laws.Words.vbind : ∀ x0, Sys2Proof.Laws.Words.Statement (.vbind x0) := fun _ => fun _ h _ => by cases h; exact words_vxm _ _
theorem Sys2Proof.Laws.Words.vunbind : ∀ x0, Sys2Proof.Laws.Words.Statement (.vunbind x0) := fun _ => fun _ h _ => by cases h; exact words_vxm _ _
theorem Sys2Proof.Laws.Words.sfeed : ∀ x0, Sys2Proof.Laws.Words.Statement (.sfeed x0) := fun _ => fun _ h _ => by cases h; exact words_vxm _ _
theorem Sys2Proof.Laws.Words.mzero : ∀ x0, Sys2Proof.Laws.Words.Statement (.mzero x0) := fun _ => fun _ h _ => by cases h; exact words_mx _ _
theorem Sys2Proof.Laws.Words.mma : ∀ x0, Sys2Proof.Laws.Words.Statement (.mma x0) := fun _ => fun _ h _ => by cases h; exact words_mx _ _
theorem Sys2Proof.Laws.Words.mmav : ∀ x0, Sys2Proof.Laws.Words.Statement (.mmav x0) := fun _ => fun _ h _ => by cases h; exact words_mx _ _
theorem Sys2Proof.Laws.Words.mmas : ∀ x0, Sys2Proof.Laws.Words.Statement (.mmas x0) := fun _ => fun _ h _ => by cases h; exact words_mx _ _
theorem Sys2Proof.Laws.Words.mloadc : ∀ x0, Sys2Proof.Laws.Words.Statement (.mloadc x0) := fun _ => fun _ h _ => by cases h; exact words_mx _ _
theorem Sys2Proof.Laws.Words.mstore : ∀ x0, Sys2Proof.Laws.Words.Statement (.mstore x0) := fun _ => fun _ h _ => by cases h; exact words_mx _ _
theorem Sys2Proof.Laws.Words.mreadv : ∀ x0, Sys2Proof.Laws.Words.Statement (.mreadv x0) := fun _ => fun _ h _ => by cases h; exact words_mx _ _
theorem Sys2Proof.Laws.Words.mwritev : ∀ x0, Sys2Proof.Laws.Words.Statement (.mwritev x0) := fun _ => fun _ h _ => by cases h; exact words_mx _ _
theorem Sys2Proof.Laws.Words.mcvt : ∀ x0, Sys2Proof.Laws.Words.Statement (.mcvt x0) := fun _ => fun _ h _ => by cases h; exact words_mx _ _
theorem Sys2Proof.Laws.Words.tload : ∀ x0, Sys2Proof.Laws.Words.Statement (.tload x0) := fun _ => fun _ h _ => by cases h; exact words_mx _ _
theorem Sys2Proof.Laws.Words.teval : ∀ x0, Sys2Proof.Laws.Words.Statement (.teval x0) := fun _ => fun _ h _ => by cases h; exact words_mx _ _
theorem Sys2Proof.Laws.Words.tleaf : ∀ x0, Sys2Proof.Laws.Words.Statement (.tleaf x0) := fun _ => fun _ h _ => by cases h; exact words_mx _ _
theorem Sys2Proof.Laws.Words.tclr : ∀ x0, Sys2Proof.Laws.Words.Statement (.tclr x0) := fun _ => fun _ h _ => by cases h; exact words_mx _ _
theorem Sys2Proof.Laws.Words.kend : ∀ x0, Sys2Proof.Laws.Words.Statement (.kend x0) := fun _ => fun _ h _ => by cases h; exact words_ys _ _
theorem Sys2Proof.Laws.Words.splpt : ∀ x0, Sys2Proof.Laws.Words.Statement (.splpt x0) := fun _ => fun _ h _ => by cases h; exact words_ys _ _
theorem Sys2Proof.Laws.Words.canpt : ∀ x0, Sys2Proof.Laws.Words.Statement (.canpt x0) := fun _ => fun _ h _ => by cases h; exact words_ys _ _
theorem Sys2Proof.Laws.Words.wmpub : ∀ x0, Sys2Proof.Laws.Words.Statement (.wmpub x0) := fun _ => fun _ h _ => by cases h; exact words_ys _ _
theorem Sys2Proof.Laws.Words.wmwait : ∀ x0, Sys2Proof.Laws.Words.Statement (.wmwait x0) := fun _ => fun _ h _ => by cases h; exact words_ys _ _
theorem Sys2Proof.Laws.Words.barrive : ∀ x0, Sys2Proof.Laws.Words.Statement (.barrive x0) := fun _ => fun _ h _ => by cases h; exact words_ys _ _
theorem Sys2Proof.Laws.Words.barwait : ∀ x0, Sys2Proof.Laws.Words.Statement (.barwait x0) := fun _ => fun _ h _ => by cases h; exact words_ys _ _
theorem Sys2Proof.Laws.Words.depinit : ∀ x0, Sys2Proof.Laws.Words.Statement (.depinit x0) := fun _ => fun _ h _ => by cases h; exact words_ys _ _
theorem Sys2Proof.Laws.Words.depdec : ∀ x0, Sys2Proof.Laws.Words.Statement (.depdec x0) := fun _ => fun _ h _ => by cases h; exact words_ys _ _
theorem Sys2Proof.Laws.Words.tspawn : ∀ x0, Sys2Proof.Laws.Words.Statement (.tspawn x0) := fun _ => fun _ h _ => by cases h; exact words_ys _ _
theorem Sys2Proof.Laws.Words.sbpost : ∀ x0, Sys2Proof.Laws.Words.Statement (.sbpost x0) := fun _ => fun _ h _ => by cases h; exact words_ys _ _
theorem Sys2Proof.Laws.Words.sbstat : ∀ x0, Sys2Proof.Laws.Words.Statement (.sbstat x0) := fun _ => fun _ h _ => by cases h; exact words_ys _ _
theorem Sys2Proof.Laws.Words.sbleave : ∀ x0, Sys2Proof.Laws.Words.Statement (.sbleave x0) := fun _ => fun _ h _ => by cases h; exact words_ys _ _
theorem Sys2Proof.Laws.Words.cpy : ∀ x0, Sys2Proof.Laws.Words.Statement (.cpy x0) := fun _ => fun _ h _ => by cases h; exact words_ys _ _
theorem Sys2Proof.Laws.Words.pub : ∀ x0, Sys2Proof.Laws.Words.Statement (.pub x0) := fun _ => fun _ h _ => by cases h; exact words_ys _ _
theorem Sys2Proof.Laws.Words.cred : ∀ x0, Sys2Proof.Laws.Words.Statement (.cred x0) := fun _ => fun _ h _ => by cases h; exact words_ys _ _
theorem Sys2Proof.Laws.Words.upd : ∀ x0, Sys2Proof.Laws.Words.Statement (.upd x0) := fun _ => fun _ h _ => by cases h; exact words_ys _ _
theorem Sys2Proof.Laws.Words.rinv : ∀ x0, Sys2Proof.Laws.Words.Statement (.rinv x0) := fun _ => fun _ h _ => by cases h; exact words_ys _ _
theorem Sys2Proof.Laws.Words.kvfile : ∀ x0, Sys2Proof.Laws.Words.Statement (.kvfile x0) := fun _ => fun _ h _ => by cases h; exact words_ys _ _
theorem Sys2Proof.Laws.Words.rqnt : ∀ x0, Sys2Proof.Laws.Words.Statement (.rqnt x0) := fun _ => fun _ h _ => by cases h; exact words_ys _ _
theorem Sys2Proof.Laws.Words.wsinfo : ∀ x0, Sys2Proof.Laws.Words.Statement (.wsinfo x0) := fun _ => fun _ h _ => by cases h; exact words_ys _ _
theorem Sys2Proof.Laws.Words.syscall : ∀ x0, Sys2Proof.Laws.Words.Statement (.syscall x0) := fun _ => fun _ h _ => by cases h; exact words_ys _ _
theorem Sys2Proof.Laws.Words.brk : ∀ x0, Sys2Proof.Laws.Words.Statement (.brk x0) := fun _ => fun _ h _ => by cases h; exact words_ys _ _
theorem Sys2Proof.Laws.Words.svfence : ∀ x0, Sys2Proof.Laws.Words.Statement (.svfence x0) := fun _ => fun _ h _ => by cases h; exact words_ys _ _
theorem Sys2Proof.Laws.Words.crrd : ∀ x0, Sys2Proof.Laws.Words.Statement (.crrd x0) := fun _ => fun _ h _ => by cases h; exact words_ys _ _
theorem Sys2Proof.Laws.Words.crwr : ∀ x0, Sys2Proof.Laws.Words.Statement (.crwr x0) := fun _ => fun _ h _ => by cases h; exact words_ys _ _
theorem Sys2Proof.Laws.Words.trapret : ∀ x0, Sys2Proof.Laws.Words.Statement (.trapret x0) := fun _ => fun _ h _ => by cases h; exact words_ys _ _
theorem Sys2Proof.Laws.Words.vfsave : ∀ x0, Sys2Proof.Laws.Words.Statement (.vfsave x0) := fun _ => fun _ h _ => by cases h; exact words_ys _ _
theorem Sys2Proof.Laws.Words.vfload : ∀ x0, Sys2Proof.Laws.Words.Statement (.vfload x0) := fun _ => fun _ h _ => by cases h; exact words_ys _ _
theorem Sys2Proof.Laws.Words.tlbinv : ∀ x0, Sys2Proof.Laws.Words.Statement (.tlbinv x0) := fun _ => fun _ h _ => by cases h; exact words_ys _ _
theorem Sys2Proof.Laws.Words.wfe : ∀ x0, Sys2Proof.Laws.Words.Statement (.wfe x0) := fun _ => fun _ h _ => by cases h; exact words_ys _ _
theorem Sys2Proof.Laws.Words.xflagsRead : ∀ x0, Sys2Proof.Laws.Words.Statement (.xflagsRead x0) := fun _ => fun _ h _ => by cases h; exact words_ys _ _
theorem Sys2Proof.Laws.Words.xflagsWrite : ∀ x0, Sys2Proof.Laws.Words.Statement (.xflagsWrite x0) := fun _ => fun _ h _ => by cases h; exact words_ys _ _
theorem Sys2Proof.Laws.Words.xseedWrite : ∀ x0, Sys2Proof.Laws.Words.Statement (.xseedWrite x0) := fun _ => fun _ h _ => by cases h; exact words_ys _ _
theorem Sys2Proof.Laws.Words.vstartAccess : ∀ x0 x1, Sys2Proof.Laws.Words.Statement (.vstartAccess x0 x1) := by
  intro x0 x1
  cases x0 <;> exact fun _ h _ => by cases h; exact words_ys _ _
theorem Sys2Proof.Laws.Words.asidWrite : ∀ x0, Sys2Proof.Laws.Words.Statement (.asidWrite x0) := fun _ => fun _ h _ => by cases h; exact words_ys _ _
theorem Sys2Proof.Laws.Words.ptrootWrite : ∀ x0, Sys2Proof.Laws.Words.Statement (.ptrootWrite x0) := fun _ => fun _ h _ => by cases h; exact words_ys _ _
theorem Sys2Proof.Laws.Words.yield : ∀ x0, Sys2Proof.Laws.Words.Statement (.yield x0) := fun _ => fun _ h _ => by cases h; exact words_ys _ _
theorem Sys2Proof.Laws.Words.engineComplete : ∀ x0, Sys2Proof.Laws.Words.Statement (.engineComplete x0) := fun _ => fun _ h _ => nomatch h
theorem Sys2Proof.Laws.Words.preemptRequest : ∀ x0 x1, Sys2Proof.Laws.Words.Statement (.preemptRequest x0 x1) := fun _ _ => fun _ h _ => nomatch h
theorem Sys2Proof.Laws.Words.strandResume : ∀ x0 x1 x2, Sys2Proof.Laws.Words.Statement (.strandResume x0 x1 x2) := fun _ _ _ => fun _ h _ => nomatch h
theorem Sys2Proof.Laws.Words.pageWalkFill : ∀ x0, Sys2Proof.Laws.Words.Statement (.pageWalkFill x0) := fun _ => fun _ h _ => nomatch h
theorem Sys2Proof.Laws.Words.priResponse : ∀ x0 x1, Sys2Proof.Laws.Words.Statement (.priResponse x0 x1) := fun _ _ => fun _ h _ => nomatch h
theorem Sys2Proof.Laws.Words.priTimeout : ∀ x0, Sys2Proof.Laws.Words.Statement (.priTimeout x0) := fun _ => fun _ h _ => nomatch h
theorem Sys2Proof.Laws.Words.atsCompletion : ∀ x0 x1 x2 x3 x4, Sys2Proof.Laws.Words.Statement (.atsCompletion x0 x1 x2 x3 x4) := fun _ _ _ _ _ => fun _ h _ => nomatch h
theorem Sys2Proof.Laws.Words.atsInvalidation : ∀ x0 x1 x2 x3, Sys2Proof.Laws.Words.Statement (.atsInvalidation x0 x1 x2 x3) := fun _ _ _ _ => fun _ h _ => nomatch h
theorem Sys2Proof.Laws.Words.notifyWrite : ∀ x0 x1, Sys2Proof.Laws.Words.Statement (.notifyWrite x0 x1) := fun _ _ => fun _ h _ => nomatch h
theorem Sys2Proof.Laws.Words.nop : ∀ x0 x1, Sys2Proof.Laws.Words.Statement (.nop x0 x1) := fun _ _ => fun _ h _ => nomatch h
theorem Sys2Proof.Laws.Words.launch : ∀ x0 x1, Sys2Proof.Laws.Words.Statement (.launch x0 x1) := fun _ _ => fun _ h _ => nomatch h
theorem Sys2Proof.Laws.Words.siblaunch : ∀ x0 x1, Sys2Proof.Laws.Words.Statement (.siblaunch x0 x1) := fun _ _ => fun _ h _ => nomatch h
theorem Sys2Proof.Laws.Words.barrier : ∀ x0 x1, Sys2Proof.Laws.Words.Statement (.barrier x0 x1) := fun _ _ => fun _ h _ => nomatch h
theorem Sys2Proof.Laws.Words.waitval : ∀ x0 x1, Sys2Proof.Laws.Words.Statement (.waitval x0 x1) := fun _ _ => fun _ h _ => nomatch h
theorem Sys2Proof.Laws.Words.waitvalPoll : ∀ x0 x1, Sys2Proof.Laws.Words.Statement (.waitvalPoll x0 x1) := fun _ _ => fun _ h _ => nomatch h
theorem Sys2Proof.Laws.Words.wsload : ∀ x0 x1, Sys2Proof.Laws.Words.Statement (.wsload x0 x1) := fun _ _ => fun _ h _ => nomatch h
theorem Sys2Proof.Laws.Words.wsrel : ∀ x0 x1, Sys2Proof.Laws.Words.Statement (.wsrel x0 x1) := fun _ _ => fun _ h _ => nomatch h
theorem Sys2Proof.Laws.Words.depgraph : ∀ x0 x1, Sys2Proof.Laws.Words.Statement (.depgraph x0 x1) := fun _ _ => fun _ h _ => nomatch h
theorem Sys2Proof.Laws.Words.spliceDecision : ∀ x0 x1, Sys2Proof.Laws.Words.Statement (.spliceDecision x0 x1) := fun _ _ => fun _ h _ => nomatch h
theorem Sys2Proof.Laws.Words.dispatch : ∀ x0 x1 x2 x3, Sys2Proof.Laws.Words.Statement (.dispatch x0 x1 x2 x3) := fun _ _ _ _ => fun _ h _ => nomatch h
theorem Sys2Proof.Laws.Words.launchComplete : ∀ x0, Sys2Proof.Laws.Words.Statement (.launchComplete x0) := fun _ => fun _ h _ => nomatch h
theorem Sys2Proof.Laws.Words.hostApertureAccess : ∀ x0 x1 x2, Sys2Proof.Laws.Words.Statement (.hostApertureAccess x0 x1 x2) := fun _ _ _ => fun _ h _ => nomatch h
theorem Sys2Proof.Laws.Words.spdmChallenge : ∀ x0 x1, Sys2Proof.Laws.Words.Statement (.spdmChallenge x0 x1) := fun _ _ => fun _ h _ => nomatch h
theorem Sys2Proof.Laws.Words.spdmKeyExchange : ∀ x0 x1, Sys2Proof.Laws.Words.Statement (.spdmKeyExchange x0 x1) := fun _ _ => fun _ h _ => nomatch h
theorem Sys2Proof.Laws.Words.ideIntegrityFailure : ∀ x0, Sys2Proof.Laws.Words.Statement (.ideIntegrityFailure x0) := fun _ => fun _ h _ => nomatch h
theorem Sys2Proof.Laws.Words.moduleUnreachable : ∀ x0, Sys2Proof.Laws.Words.Statement (.moduleUnreachable x0) := fun _ => fun _ h _ => nomatch h
theorem Sys2Proof.Laws.Words.uncorrectableError : ∀ x0, Sys2Proof.Laws.Words.Statement (.uncorrectableError x0) := fun _ => fun _ h _ => nomatch h
theorem Sys2Proof.Laws.Words.hbmRowRepair : ∀ x0, Sys2Proof.Laws.Words.Statement (.hbmRowRepair x0) := fun _ => fun _ h _ => nomatch h
theorem Sys2Proof.Laws.Words.wsBankSpare : ∀ x0 x1, Sys2Proof.Laws.Words.Statement (.wsBankSpare x0 x1) := fun _ _ => fun _ h _ => nomatch h
theorem Sys2Proof.Laws.Words.powerCap : ∀ x0, Sys2Proof.Laws.Words.Statement (.powerCap x0) := fun _ => fun _ h _ => nomatch h
theorem Sys2Proof.Laws.Words.thermalTrip : ∀ x0, Sys2Proof.Laws.Words.Statement (.thermalTrip x0) := fun _ => fun _ h _ => nomatch h
theorem Sys2Proof.Laws.Words.remoteModuleAccess : ∀ x0 x1 x2, Sys2Proof.Laws.Words.Statement (.remoteModuleAccess x0 x1 x2) := fun _ _ _ => fun _ h _ => nomatch h
theorem Sys2Proof.Laws.Words.unassignedEncoding : ∀ x0, Sys2Proof.Laws.Words.Statement (.unassignedEncoding x0) := fun x0 => fun _ _ h => absurd rfl (h x0)
theorem Sys2Proof.Laws.Words.queueWaitEnd : Sys2Proof.Laws.Words.Statement (.queueWaitEnd) := fun _ h _ => nomatch h
theorem Sys2Proof.Laws.Words.watermarkWake : Sys2Proof.Laws.Words.Statement (.watermarkWake) := fun _ h _ => nomatch h
theorem Sys2Proof.Laws.Words.watermarkTimeout : Sys2Proof.Laws.Words.Statement (.watermarkTimeout) := fun _ h _ => nomatch h
theorem Sys2Proof.Laws.Words.barwaitWake : Sys2Proof.Laws.Words.Statement (.barwaitWake) := fun _ h _ => nomatch h
theorem Sys2Proof.Laws.Words.wfeTimeout : Sys2Proof.Laws.Words.Statement (.wfeTimeout) := fun _ h _ => nomatch h
theorem Sys2Proof.Laws.Words.engineErrorDelivery : Sys2Proof.Laws.Words.Statement (.engineErrorDelivery) := fun _ h _ => nomatch h
theorem Sys2Proof.Laws.Words.cancelLimitStop : Sys2Proof.Laws.Words.Statement (.cancelLimitStop) := fun _ h _ => nomatch h
theorem Sys2Proof.Laws.Words.vqEntryStart : Sys2Proof.Laws.Words.Statement (.vqEntryStart) := fun _ h _ => nomatch h
theorem Sys2Proof.Laws.Words.matrixQueueMove : Sys2Proof.Laws.Words.Statement (.matrixQueueMove) := fun _ h _ => nomatch h
theorem Sys2Proof.Laws.Words.syncReadArrival : Sys2Proof.Laws.Words.Statement (.syncReadArrival) := fun _ h _ => nomatch h
theorem Sys2Proof.Laws.Words.spliceGateProceed : Sys2Proof.Laws.Words.Statement (.spliceGateProceed) := fun _ h _ => nomatch h
theorem Sys2Proof.Laws.Words.spliceRegionFree : Sys2Proof.Laws.Words.Statement (.spliceRegionFree) := fun _ h _ => nomatch h
theorem Sys2Proof.Laws.Words.kendRetire : Sys2Proof.Laws.Words.Statement (.kendRetire) := fun _ h _ => nomatch h
theorem Sys2Proof.Laws.Words.impreciseTrap : Sys2Proof.Laws.Words.Statement (.impreciseTrap) := fun _ h _ => nomatch h
theorem Sys2Proof.Laws.Words.strandStart : Sys2Proof.Laws.Words.Statement (.strandStart) := fun _ h _ => nomatch h
theorem Sys2Proof.Laws.Words.vqEntryComplete : Sys2Proof.Laws.Words.Statement (.vqEntryComplete) := fun _ h _ => nomatch h
theorem Sys2Proof.Laws.Words.repartitionEffect : Sys2Proof.Laws.Words.Statement (.repartitionEffect) := fun _ h _ => nomatch h
theorem Sys2Proof.Laws.Words.matrixQueueStart : Sys2Proof.Laws.Words.Statement (.matrixQueueStart) := fun _ h _ => nomatch h
theorem Sys2Proof.Laws.Words.matrixQueueComplete : Sys2Proof.Laws.Words.Statement (.matrixQueueComplete) := fun _ h _ => nomatch h
theorem Sys2Proof.Laws.Words.streamChunkArrival : Sys2Proof.Laws.Words.Statement (.streamChunkArrival) := fun _ h _ => nomatch h
theorem Sys2Proof.Laws.Words.streamPatternRead : Sys2Proof.Laws.Words.Statement (.streamPatternRead) := fun _ h _ => nomatch h
theorem Sys2Proof.Laws.Words.createq : Sys2Proof.Laws.Words.Statement (.createq) := fun _ h _ => nomatch h
theorem Sys2Proof.Laws.Words.destroyq : Sys2Proof.Laws.Words.Statement (.destroyq) := fun _ h _ => nomatch h
theorem Sys2Proof.Laws.Words.bindas : Sys2Proof.Laws.Words.Statement (.bindas) := fun _ h _ => nomatch h
theorem Sys2Proof.Laws.Words.unbindas : Sys2Proof.Laws.Words.Statement (.unbindas) := fun _ h _ => nomatch h
theorem Sys2Proof.Laws.Words.partcfg : Sys2Proof.Laws.Words.Statement (.partcfg) := fun _ h _ => nomatch h
theorem Sys2Proof.Laws.Words.retirecl : Sys2Proof.Laws.Words.Statement (.retirecl) := fun _ h _ => nomatch h
theorem Sys2Proof.Laws.Words.keyinstall : Sys2Proof.Laws.Words.Statement (.keyinstall) := fun _ h _ => nomatch h
theorem Sys2Proof.Laws.Words.fwload : Sys2Proof.Laws.Words.Statement (.fwload) := fun _ h _ => nomatch h
theorem Sys2Proof.Laws.Words.reccfg : Sys2Proof.Laws.Words.Statement (.reccfg) := fun _ h _ => nomatch h
theorem Sys2Proof.Laws.Words.replay : Sys2Proof.Laws.Words.Statement (.replay) := fun _ h _ => nomatch h
theorem Sys2Proof.Laws.Words.invalidMailboxCommand : Sys2Proof.Laws.Words.Statement (.invalidMailboxCommand) := fun _ h _ => nomatch h
theorem Sys2Proof.Laws.Words.spdmGetMeasurements : Sys2Proof.Laws.Words.Statement (.spdmGetMeasurements) := fun _ h _ => nomatch h
theorem Sys2Proof.Laws.Words.wsRefreshStart : Sys2Proof.Laws.Words.Statement (.wsRefreshStart) := fun _ h _ => nomatch h
theorem Sys2Proof.Laws.Words.wsRefreshEnd : Sys2Proof.Laws.Words.Statement (.wsRefreshEnd) := fun _ h _ => nomatch h
theorem Sys2Proof.Laws.Words.flitCrcFail : Sys2Proof.Laws.Words.Statement (.flitCrcFail) := fun _ h _ => nomatch h
theorem Sys2Proof.Laws.Words.linkRetrain : Sys2Proof.Laws.Words.Statement (.linkRetrain) := fun _ h _ => nomatch h
theorem Sys2Proof.Laws.Words.coreHeartbeatTimeout : Sys2Proof.Laws.Words.Statement (.coreHeartbeatTimeout) := fun _ h _ => nomatch h
theorem Sys2Proof.Laws.Words.scannerFind : Sys2Proof.Laws.Words.Statement (.scannerFind) := fun _ h _ => nomatch h
theorem Sys2Proof.Laws.Words.queueFetch : Sys2Proof.Laws.Words.Statement (.queueFetch) := fun _ h _ => nomatch h
theorem Sys2Proof.Laws.Words.hostLinkDrop : Sys2Proof.Laws.Words.Statement (.hostLinkDrop) := fun _ h _ => nomatch h
theorem Sys2Proof.Laws.Words.bringUp : Sys2Proof.Laws.Words.Statement (.bringUp) := fun _ h _ => nomatch h
end

