-- ==== Sys2Proof/Tests/Slice0.lean ====
section
/-!
SUPPORT. Tests/Slice0.lean: the model's own tests. First, terms that each check of the formats refuses; then words written out from
the spec's encodings; then single steps whose expected values are worked out by hand from the rule named; then, for every statement
of Certificates/Slice0 that has hypotheses, states and operands that meet them together.
-/
namespace Sys2Proof.Tests
open Sys2Proof.Machine Sys2Proof.Claim

/-! ## Small states -/

/-- A page table entry's worth of translation: 2 MiB of device memory for quad 0, space 0, by itself. -/
def page : TlbEntry :=
  { quad := 0, asid := 0, va := 0, size := 2097152, home := .device, pa := 0, read := true, write := true, execute := true,
    user := true, dirty := true }

/-- The same for a page of host memory. -/
def hostPage : TlbEntry := { page with va := 4194304, size := 4096, home := .host, pa := 0 }

/-- A context at 0x1000 with a few registers set. -/
def ctx : Context :=
  { Context.blank with
    pc := 0x1000
    g := ((((((Vector.replicate 32 (0 : Word)).set 3 0x1100).set 4 0x1104).set 5 7).set 6 3).set 7 0x400000).set 8 0xFFFFFFFFFFFFFFFF
    tvec := 0x4000 }

/-- A running strand. -/
def strand : Strand := { Strand.blank with life := .running, exec := ctx, access := ctx, canlimit := 0 }

/-- The strand in slot 0, at the turn of one of its contexts. -/
def at_ (st : Strand) (id : CtxId) : State :=
  { State.reset with strands := [(0, st)], tlb := [page, hostPage], cur := { slot := 0, ctx := id, unit := 0 }, now := 5000 }

/-- A strand whose contexts are changed. -/
def with_ (f : Context → Context) : Strand := { strand with exec := f ctx, access := f ctx }

/-- The execute context's turn. -/
def s0 : State := at_ strand .execute
/-- The access context's turn. -/
def a0 : State := at_ strand .access

/-- With PRIV = 1. -/
def superStrand : Strand := with_ (fun c => { c with priv := true })
/-- Its execute context's turn. -/
def su0 : State := at_ superStrand .execute
/-- Its access context's turn. -/
def sa0 : State := at_ superStrand .access

/-- A small launch, in its queue and partition. -/
def spec0 : LaunchSpec :=
  { entryExec := 0x100, entryAccess := 0x200, kdesc := none, vclusters := 1
    shape := { strands := 1, mode := 0, acc := 0, idle := false, splice := 0, journal := 0 }
    cohort := false, loose := false, args := [], seed := 0, spillAddr := 0, spillSize := 0, wsb := [], compl := 0, prio := 0, tag := 0
    priv := false }

/-- A launch in progress. -/
def launch0 : Launch :=
  { id := 0, queue := 0, seq := 0, asid := 0, part := 0, spec := spec0, placements := [], words := [], faultRecord := none
    siblings := none, task := none, group := none, preempted := [], aborted := false, byPartner := false, pages := [], instances := 1
    codeDev := { cells := [] }, codeHost := { cells := [] }, codeRemotes := [] }

/-- A queue of partition 0. -/
def queue0 : Queue :=
  { ring := 0x1000, log2n := 4, version := 2, ordered := true, noelide := false, elidechk := false, devsub := true, policy := 0
    priomax := 7, asid := 2, part := 0, rdidx := 0, notify := 0, pending := false, fetched := 0, packets := [], halted := none
    destroyed := none }

/-- Partition 0, with core 0 and stack 0. -/
def part0 : Partition :=
  { cores := [0], ballot := [0], stackGroups := 1, ports := 1, wsBanks := 0, tvec := 0, tscratch := 0, canlimit := 0, scan := 0, served := 0 }

/-- An address space of partition 0. -/
def space0 : AsRecord := { pasid := 9, func := 1, ats := false, pri := false, part := 0, pritmo := 0, root := 0x8000 }

/-- Fields of a synchronisation or privileged instruction on g3, g4 and g5. -/
def ys : YsF := { gd := 9, ga := 3, gb := 5, fn7 := 0, imm := 0 }

/-! ## What the formats refuse -/

/-- Fields of a compute-form VADD that the formats admit. -/
def vadd0 : VxC := vxc 6 4 5 3 0 0 false false 0
/-- Fields of a memory-form VLD that the formats admit. -/
def vld0 : VxM := vxm 4 0 0 3 0 false 0 false 0 10
/-- Fields of an MMAS that the formats admit. -/
def mmas0 : MxF :=
  { acc := 1, va := 4, vb := 12, gl := 5, gdescA := 0, gdescB := 13, rm := 0, sc := false, sparse := true, imm := 0x7F }
/-- Fields of an MX instruction that names nothing. -/
def mx0 : MxF := { acc := 0, va := 0, vb := 0, gl := 0, gdescA := 0, gdescB := 0, rm := 0, sc := false, sparse := false, imm := 0 }
/-- Fields of a YS instruction that names nothing. -/
def ys0 : YsF := { gd := 0, ga := 0, gb := 0, fn7 := 0, imm := 0 }

/-- R121 to R125, R132: each check of the one-word forms refuses a term that breaks it. -/
theorem wf_refuses_scalar :
    [ Instr.fadd 1 2 3 7, .fma 1 2 3 4 7, .fcmp 1 2 3 3, .fcvt 1 2 false 0 7, .fcvt 1 2 false 8 0, .lda 1 2 6 0, .stl 1 2 7 0, .fence 6 0,
      .amoadd 1 2 6 0 3, .amocas 2 3 7 0, .amocas 3 4 0 0, .mattr 6 7 7, .mattr 7 4 7, .mattr 7 7 4 ].map fieldError =
    [ some .rounding, some .rounding, some .function, some .rounding, some .function, some .scope, some .scope, some .scope,
      some .scope, some .scope, some .oddRegister, some .prefixPayload, some .prefixPayload, some .prefixPayload ] := by decide

/-- R125, R126, R160, R161, R167: each check of the compute form. -/
theorem wf_refuses_compute :
    [ Instr.vadd { vadd0 with na := 3 }, .vadd { vadd0 with nb := 3 }, .vperm { vadd0 with na := 1 }, .vcfg { vadd0 with va := 0, vb := 0, gl := 0, nb := 1 },
      .vpart { vadd0 with va := 0, vb := 0, gl := 0 }, .vcfg vadd0, .vabs vadd0, .vadd { vadd0 with vc := 1 }, .vsetl { vadd0 with gl := 1 },
      .vadd { vadd0 with imm := 1 }, .vadd { vadd0 with vb := 0, imm := 0x1020 }, .vadd { vadd0 with vb := 0, imm := 0x1FE0 }, .vcvt { vadd0 with vb := 0, imm := 16 },
      .vslideup { vadd0 with vb := 0, imm := 0x1020 }, .vcfg { vadd0 with va := 0, vb := 0, gl := 0, imm := 0x200 },
      .vpart { vadd0 with vd := 0, va := 0, vb := 0, gl := 0, imm := 4 },
      .vsel { vadd0 with m := true }, .vadd { vadd0 with mi := true }, .vadd { vadd0 with sc := true }, .vadd { vadd0 with rm := 7 },
      .vcfg { vadd0 with vd := 31, va := 0, vb := 0, gl := 0, imm := 0x10 }, .vpart { vadd0 with vd := 0, va := 0, vb := 0, gl := 0, imm := 3 },
      .vtrans8 { vadd0 with vd := 25, va := 0, vb := 0 } ].map fieldError =
    [ some .neighbour, some .neighbour, some .neighbour, some .neighbour, some .reservedField, some .reservedField, some .reservedField,
      some .reservedField, some .reservedField, some .reservedField, some .reservedField, some .reservedField, some .reservedField,
      some .reservedField, some .reservedField, some .reservedField, some .mask, some .mask, some .scaling, some .rounding,
      some .registerGroup, some .partitionMode, some .registerGroup ] := by decide

/-- R127, R192, R209: each check of the memory form. -/
theorem wf_refuses_memory :
    [ Instr.vst { vld0 with vd := 1 }, .vld { vld0 with va := 1 }, .vld { vld0 with vb := 1 }, .vld { vld0 with vc := 1 },
      .vbind { vld0 with va := 1 }, .vld { vld0 with gstride := 1 }, .vunbind { vld0 with vd := 0, gl := 0 }, .vpref { vld0 with vd := 0, m := true },
      .vld { vld0 with mi := true }, .vst { vld0 with vd := 0, gate := true }, .vld { vld0 with w := 1 }, .vxlat { vld0 with ord := true },
      .vpref { vld0 with vd := 0, nov := true }, .vld { vld0 with scope := 6 }, .vld { vld0 with cache := 4 }, .vamo { vld0 with gstride := 8 },
      .vxlat { vld0 with gstride := 2 }, .vbind { vld0 with gl := 0, va := 8 }, .vbind { vld0 with gl := 0, vd := 1 },
      .sfeed { vld0 with vd := 0, va := 8 } ].map fieldError =
    [ some .reservedField, some .reservedField, some .reservedField, some .reservedField, some .reservedField, some .reservedField,
      some .reservedField, some .mask, some .mask, some .gate, some .gate, some .ordering, some .ordering, some .scope, some .cachePolicy,
      some .function, some .function, some .streamSlot, some .registerGroup, some .streamSlot ] := by decide

/-- R128, R218, R226, R230, R231: each check of the matrix form. -/
theorem wf_refuses_matrix :
    [ Instr.tclr { mx0 with acc := 1 }, .mzero { mx0 with va := 1 }, .mzero { mx0 with vb := 1 }, .mzero { mx0 with gl := 1 }, .mzero { mx0 with gdescA := 1 },
      .mzero { mx0 with gdescB := 1 }, .mzero { mx0 with sc := true }, .mzero { mx0 with acc := 4 }, .mreadv { mx0 with va := 4 },
      .mmas { mmas0 with imm := 0x80 }, .mma { mx0 with sparse := true }, .mmas { mmas0 with sparse := false }, .mma { mx0 with rm := 7 },
      .mreadv { mx0 with imm := 2 }, .mwritev { mx0 with imm := 1 }, .mcvt { mx0 with imm := 1 }, .mcvt mx0 ].map fieldError =
    [ some .reservedField, some .reservedField, some .reservedField, some .reservedField, some .reservedField, some .reservedField,
      some .reservedField, some .accumulator, some .accumulator, some .reservedField, some .sparse, some .sparse, some .rounding,
      some .startingRow, some .startingRow, some .startingRow, some .targetTag ] := by decide

/-- R129, R239, R321: each check of the two-word synchronisation and privileged form. -/
theorem wf_refuses_system :
    [ Instr.kend { ys0 with gd := 1 }, .wmpub { ys0 with gd := 8 }, .kend { ys0 with ga := 1 }, .kend { ys0 with gb := 1 }, .kend { ys0 with fn7 := 1 },
      .wmpub { ys0 with fn7 := 8 }, .sbstat { ys0 with fn7 := 4 }, .barrive { ys0 with fn7 := 6 }, .sbstat { ys0 with fn7 := 2 },
      .tlbinv ys0, .tlbinv { ys0 with fn7 := 4 }, .kend { ys0 with imm := 1 }, .crrd { ys0 with imm := 0x1000 } ].map fieldError =
    [ some .reservedField, some .reservedField, some .reservedField, some .reservedField, some .reservedField, some .reservedField,
      some .reservedField, some .scope, some .function, some .function, some .function, some .reservedField, some .reservedField ] := by decide

/-- Terms that the formats admit. -/
theorem wf_admits :
    [ Instr.fadd 1 2 3 5, .amocas 2 3 5 3, .mattr 7 7 7, .vadd vadd0, .vld vld0, .mmas mmas0, .kend ys0, .crrd { ys0 with imm := 0x14 } ].map fieldError =
      List.replicate 8 none := by decide

/-! ## Words written out from the encodings of chapter 7 -/

/-- A word whose fields are given high to low, each with its width. -/
def word (fields : List (Nat × Nat)) : BitVec 32 :=
  BitVec.ofNat 32 (fields.foldl (fun (x : Nat) (f : Nat × Nat) => x * 2 ^ f.1 + f.2) 0)

/-- What two words decode to. -/
def decoded (w0 w1 : BitVec 32) : Option Instr :=
  match decodeWords w0 w1 with
  | .ok i => some i
  | .error _ => none

/-- R121: SR, [31:29] 000, op6, gd, ga, gb, fn8. -/
theorem decode_sr :
    decoded (word [(3, 0), (6, 0x01), (5, 31), (5, 1), (5, 16), (8, 0)]) 0 = some (.sub 31 1 16) ∧
    decoded (word [(3, 0), (6, 0x17), (5, 2), (5, 30), (5, 0), (8, 0)]) 0 = some (.clz 2 30) ∧
    decoded (word [(3, 0), (6, 0x1A), (5, 2), (5, 30), (5, 0), (8, 0)]) 0 = none := by decide

/-- R121: the FP32 operations' uses of fn8: rm; FMA's rm and third source; FCMP's relation; FCVT's saturation and direction. -/
theorem decode_sr_float :
    decoded (word [(3, 0), (6, 0x21), (5, 1), (5, 2), (5, 3), (3, 0), (2, 0), (3, 5)]) 0 = some (.fsub 1 2 3 5) ∧
    decoded (word [(3, 0), (6, 0x23), (5, 1), (5, 2), (5, 3), (3, 4), (5, 17)]) 0 = some (.fma 1 2 3 17 4) ∧
    decoded (word [(3, 0), (6, 0x26), (5, 1), (5, 2), (5, 3), (3, 0), (2, 0), (1, 0), (2, 2)]) 0 = some (.fcmp 1 2 3 2) ∧
    decoded (word [(3, 0), (6, 0x27), (5, 1), (5, 2), (5, 0), (1, 1), (4, 7), (3, 3)]) 0 = some (.fcvt 1 2 true 7 3) ∧
    decoded (word [(3, 0), (6, 0x20), (5, 1), (5, 2), (5, 3), (3, 0), (2, 0), (3, 7)]) 0 = none := by decide

/-- R122: SI: imm13, a shift amount, imm18 over the ga field, a bit field. -/
theorem decode_si :
    decoded (word [(3, 1), (6, 0x07), (5, 4), (5, 9), (13, 0x1FFF)]) 0 = some (.slti 4 9 0x1FFF) ∧
    decoded (word [(3, 1), (6, 0x06), (5, 4), (5, 9), (7, 0), (6, 63)]) 0 = some (.srai 4 9 63) ∧
    decoded (word [(3, 1), (6, 0x0A), (5, 4), (18, 0x2AAAA)]) 0 = some (.auipc 4 0x2AAAA) ∧
    decoded (word [(3, 1), (6, 0x0D), (5, 4), (5, 9), (7, 100), (6, 33)]) 0 = some (.bfi 4 9 100 33) := by decide

/-- R123: SM: an offset, a scope and an offset, an AMO's scope, order and source, an odd gd of AMOCAS. -/
theorem decode_sm :
    decoded (word [(3, 2), (6, 0x06), (5, 4), (5, 9), (13, 0x1000)]) 0 = some (.ldwu 4 9 0x1000) ∧
    decoded (word [(3, 2), (6, 0x0B), (5, 4), (5, 9), (13, 1)]) 0 = some (.std 4 9 1) ∧
    decoded (word [(3, 2), (6, 0x0C), (5, 4), (5, 9), (3, 5), (10, 0x3FF)]) 0 = some (.lda 4 9 5 0x3FF) ∧
    decoded (word [(3, 2), (6, 0x16), (5, 4), (5, 9), (3, 1), (2, 3), (3, 0), (5, 21)]) 0 = some (.amomax 4 9 1 3 21) ∧
    decoded (word [(3, 2), (6, 0x17), (5, 5), (5, 9), (3, 1), (2, 3), (3, 0), (5, 0)]) 0 = none ∧
    decoded (word [(3, 2), (6, 0x10), (5, 4), (5, 9), (3, 6), (2, 3), (3, 0), (5, 21)]) 0 = none := by decide

/-- R124: SB: two registers and an offset, a queue, a stream, offsets of 23, 18 and 13 bits. -/
theorem decode_sb :
    decoded (word [(3, 3), (6, 0x05), (5, 4), (5, 9), (13, 7)]) 0 = some (.bgeu 4 9 7) ∧
    decoded (word [(3, 3), (6, 0x06), (3, 0), (2, 3), (5, 0), (13, 7)]) 0 = some (.bq 3 7) ∧
    decoded (word [(3, 3), (6, 0x07), (2, 0), (3, 5), (5, 0), (13, 7)]) 0 = some (.bsend 5 7) ∧
    decoded (word [(3, 3), (6, 0x09), (5, 1), (18, 0x20000)]) 0 = some (.jal 1 0x20000) ∧
    decoded (word [(3, 3), (6, 0x0A), (5, 1), (5, 2), (13, 8)]) 0 = some (.jalr 1 2 8) ∧
    decoded (word [(3, 3), (6, 0x0C), (5, 1), (2, 2), (3, 0), (13, 0)]) 0 = some (.qpop 1 2) := by decide

/-- R125, R126: VX, compute form: a neighbour code on each source, a mask, a rounding mode, saturation, a broadcast. -/
theorem decode_vx_compute :
    decoded (word [(3, 4), (7, 0x0A), (5, 6), (5, 4), (5, 5), (5, 3), (2, 1)]) (word [(5, 0), (2, 2), (1, 1), (1, 1), (1, 0), (3, 5), (1, 1), (5, 0), (13, 0)]) =
      some (.vmul { vd := 6, va := 4, vb := 5, gl := 3, na := 1, vc := 0, nb := 2, m := true, mi := true, sc := false, rm := 5, sat := true, imm := 0 }) ∧
    decoded (word [(3, 4), (7, 0x00), (5, 4), (5, 0), (5, 0), (5, 0), (2, 0)]) (word [(19, 0), (4, 0), (5, 3), (4, 14)]) =
      some (.vcfg (vxc 4 0 0 0 0 0 false false 0x3E)) ∧
    decoded (word [(3, 4), (7, 0x08), (5, 6), (5, 4), (5, 5), (5, 3), (2, 3)]) 0 = none := by decide

/-- R125, R127: VX, memory form: word 1's fields. -/
theorem decode_vx_memory :
    decoded (word [(3, 4), (7, 0x51), (5, 0), (5, 0), (5, 0), (5, 3), (2, 0)])
        (word [(5, 17), (2, 0), (1, 1), (1, 0), (1, 0), (3, 0), (1, 0), (1, 1), (1, 1), (3, 2), (3, 3), (5, 12), (5, 10)]) =
      some (.vsts { vd := 0, va := 0, vb := 0, gl := 3, vc := 17, m := true, mi := false, gate := false, w := 0, ord := true, nov := true
                    scope := 2, cache := 3, gstride := 12, gbase := 10 }) ∧
    decoded (word [(3, 4), (7, 0x59), (5, 0), (5, 7), (5, 0), (5, 0), (2, 0)]) (word [(16, 0), (3, 5), (13, 0)]) =
      some (.vunbind (vxm 0 7 0 0 0 false 0 false 0 0)) := by decide

/-- R128: MX: an accumulator, registers, descriptors, scaling and an immediate; an accumulator field above 3 is illegal. -/
theorem decode_mx :
    decoded (word [(3, 5), (7, 0x02), (5, 3), (5, 4), (5, 0), (5, 9), (2, 0)]) (word [(5, 0), (5, 11), (3, 2), (1, 1), (1, 0), (17, 0x45)]) =
      some (.mmav { acc := 3, va := 4, vb := 0, gl := 9, gdescA := 0, gdescB := 11, rm := 2, sc := true, sparse := false, imm := 0x45 }) ∧
    decoded (word [(3, 5), (7, 0x00), (5, 4), (17, 0)]) 0 = none := by decide

/-- R129: YS: registers, fn7 and imm32, and a control-register number. -/
theorem decode_ys :
    decoded (word [(3, 6), (7, 0x05), (5, 1), (5, 2), (5, 0), (7, 3)]) 0 = some (.barrive { gd := 1, ga := 2, gb := 0, fn7 := 3, imm := 0 }) ∧
    decoded (word [(3, 6), (7, 0x40), (5, 9), (5, 0), (5, 0), (7, 0)]) 0x102 = some (.crrd { gd := 9, ga := 0, gb := 0, fn7 := 0, imm := 0x102 }) ∧
    decoded (word [(3, 6), (7, 0x40), (5, 9), (5, 0), (5, 0), (7, 0)]) 0x10102 = none := by decide

/-- R130 to R132: prefixes: a payload; a scope, a policy and an order; kinds 10 and 11; a payload that is rejected by itself. -/
theorem decode_prefix :
    decoded (word [(3, 7), (2, 0), (27, 0x7FFFFFF)]) 0 = some (.imx 0x7FFFFFF) ∧
    decoded (word [(3, 7), (2, 1), (3, 4), (3, 7), (3, 1), (18, 0)]) 0 = some (.mattr 4 7 1) ∧
    decoded (word [(3, 7), (2, 2), (27, 0)]) 0 = none ∧ decoded (word [(3, 7), (2, 1), (3, 6), (3, 7), (3, 1), (18, 0)]) 0 = none := by decide

/-- R2, R117: instructions are read from bytes, the least significant first; a word of class 100 to 110 takes the next with it. -/
theorem decode_bytes :
    decodeBytes [0x00, 0x44, 0x29, 0x00, 0xAA] = .ok (.add 10 10 4, [0xAA]) ∧
    decodeBytes [0x8C, 0x42, 0x0C, 0x82, 0, 0, 0, 0] = .ok (.vadd vadd0, []) ∧
    decodeBytes [0x8C, 0x42, 0x0C, 0x82, 0, 0, 0] = .error .truncated := by decide

/-! ## The opcode map of R134, row by row, every other field 0 -/

/-- Fields of a compute-form and of a memory-form instruction that are all 0. -/
def c0 : VxC := { vd := 0, va := 0, vb := 0, gl := 0, na := 0, vc := 0, nb := 0, m := false, mi := false, sc := false, rm := 0, sat := false, imm := 0 }
/-- memory form -/
def m0 : VxM :=
  { vd := 0, va := 0, vb := 0, gl := 0, vc := 0, m := false, mi := false, gate := false, w := 0, ord := false, nov := false, scope := 0
    cache := 0, gstride := 0, gbase := 0 }

/-- What the opcodes of a class from lo on decode to, for a list of expected instructions. -/
def rows (cls bits lo : Nat) (expected : List (Option Instr)) : Bool :=
  (List.range expected.length).map (fun i => decoded (word [(3, cls), (bits, lo + i), (29 - bits, 0)]) 0) == expected

theorem opcodes_sr :
    rows 0 6 0x00 [some (.add 0 0 0), some (.sub 0 0 0), some (.mul 0 0 0), some (.mulh 0 0 0), some (.mulhu 0 0 0), some (.div 0 0 0),
      some (.divu 0 0 0), some (.rem 0 0 0), some (.remu 0 0 0), some (.min 0 0 0), some (.max 0 0 0), some (.minu 0 0 0), some (.maxu 0 0 0),
      some (.and 0 0 0), some (.or 0 0 0), some (.xor 0 0 0), some (.andn 0 0 0), some (.shl 0 0 0), some (.shr 0 0 0), some (.sra 0 0 0),
      some (.rol 0 0 0), some (.slt 0 0 0), some (.sltu 0 0 0), some (.clz 0 0), some (.ctz 0 0), some (.popc 0 0), none, none, none, none, none, none,
      some (.fadd 0 0 0 0), some (.fsub 0 0 0 0), some (.fmul 0 0 0 0), some (.fma 0 0 0 0 0), some (.fmin 0 0 0 0), some (.fmax 0 0 0 0),
      some (.fcmp 0 0 0 0), some (.fcvt 0 0 false 0 0), none, none, none, none, none, none, none, none] = true := by decide

theorem opcodes_si :
    rows 1 6 0x00 [some (.addi 0 0 0), some (.andi 0 0 0), some (.ori 0 0 0), some (.xori 0 0 0), some (.shli 0 0 0), some (.shri 0 0 0),
      some (.srai 0 0 0), some (.slti 0 0 0), some (.sltui 0 0 0), some (.lui 0 0), some (.auipc 0 0), some (.bfx 0 0 0 0), some (.bfxu 0 0 0 0),
      some (.bfi 0 0 0 0), none, none, none] = true := by decide

theorem opcodes_sm :
    rows 2 6 0x00 [some (.ldb 0 0 0), some (.ldh 0 0 0), some (.ldw 0 0 0), some (.ldd 0 0 0), some (.ldbu 0 0 0), some (.ldhu 0 0 0),
      some (.ldwu 0 0 0), none, some (.stb 0 0 0), some (.sth 0 0 0), some (.stw 0 0 0), some (.std 0 0 0), some (.lda 0 0 0 0), some (.stl 0 0 0 0),
      none, none, some (.amoswap 0 0 0 0 0), some (.amoadd 0 0 0 0 0), some (.amoand 0 0 0 0 0), some (.amoor 0 0 0 0 0), some (.amoxor 0 0 0 0 0),
      some (.amomin 0 0 0 0 0), some (.amomax 0 0 0 0 0), some (.amocas 0 0 0 0), some (.fence 0 0), none, none] = true := by decide

theorem opcodes_sb :
    rows 3 6 0x00 [some (.beq 0 0 0), some (.bne 0 0 0), some (.blt 0 0 0), some (.bge 0 0 0), some (.bltu 0 0 0), some (.bgeu 0 0 0), some (.bq 0 0),
      some (.bsend 0 0), some (.j 0), some (.jal 0 0), some (.jalr 0 0 0), some (.qpush 0 0), some (.qpop 0 0), none, none, none] = true := by decide

theorem opcodes_vx_compute :
    rows 4 7 0x00 [some (.vcfg c0), some (.vsetl c0), some (.vsetrc c0), some (.vpart c0), some (.vjoin c0), none, none, none,
      some (.vadd c0), some (.vsub c0), some (.vmul c0), some (.vmulh c0), some (.vfma c0), some (.vfms c0), some (.vfnma c0), some (.vdiv c0),
      some (.vsqrt c0), some (.vrcp c0), some (.vrsq c0), some (.vexp2 c0), some (.vlog2 c0), some (.vmin c0), some (.vmax c0), some (.vabs c0),
      some (.vneg c0), some (.vand c0), some (.vor c0), some (.vxor c0), some (.vnot c0), some (.vshl c0), some (.vshr c0), some (.vsra c0),
      some (.vcmpeq c0), some (.vcmpne c0), some (.vcmplt c0), some (.vcmple c0), some (.vsel c0), some (.vclass c0), none, none] = true ∧
    rows 4 7 0x28 [some (.vcvt c0), some (.vnarrow c0), some (.vwiden c0), some (.vq4 c0), none, none, none, none,
      some (.vslideup c0), some (.vslidedn c0), some (.vperm c0), some (.vbcast c0), some (.vmvs c0), some (.vget c0), some (.vredsum c0), some (.vredmax c0),
      some (.vredmin c0), some (.vredand c0), some (.vredor c0), some (.vscan c0), some (.vcompress c0), some (.vexpand c0), some (.viota c0),
      some (.vtrans8 c0), some (.vfirst c0), some (.vpopm c0), none, none, none, none, none, none] = true := by decide

theorem opcodes_vx_memory :
    rows 4 7 0x48 [some (.vld m0), some (.vlds m0), some (.vldx m0), some (.vldff m0), some (.vld2d m0), none, none, none,
      some (.vst m0), some (.vsts m0), some (.vstx m0), some (.vst2d m0), some (.vamo m0), some (.vxlat m0), some (.vpref m0), some (.kvapp m0),
      none, some (.vunbind m0), some (.sfeed m0), none, none, none, none, none, none, none] = true ∧
    decoded (word [(3, 4), (7, 0x58), (5, 2), (17, 0)]) 0 = some (.vbind { m0 with vd := 2 }) := by decide

theorem opcodes_mx :
    rows 5 7 0x00 [some (.mzero mx0), some (.mma mx0), some (.mmav mx0), none, some (.mloadc mx0), some (.mstore mx0), some (.mreadv mx0),
      some (.mwritev mx0), none, none, none, none, none, none, none, none, some (.tload mx0), some (.teval mx0), some (.tleaf mx0), some (.tclr mx0),
      none] = true ∧
    decoded (word [(3, 5), (7, 0x03), (22, 0)]) (word [(14, 0), (1, 1), (17, 0)]) = some (.mmas { mx0 with sparse := true }) ∧
    decoded (word [(3, 5), (7, 0x08), (22, 0)]) (word [(21, 0), (4, 14), (7, 0)]) = some (.mcvt { mx0 with imm := 0x700 }) := by decide

theorem opcodes_ys :
    rows 6 7 0x00 [some (.kend ys0), some (.splpt ys0), some (.canpt ys0), some (.wmpub ys0), some (.wmwait ys0), some (.barrive ys0), some (.barwait ys0),
      some (.depinit ys0), some (.depdec ys0), some (.tspawn ys0), some (.sbpost ys0), some (.sbstat ys0), some (.sbleave ys0), none, none, none,
      some (.cpy ys0), some (.pub ys0), some (.cred ys0), some (.upd ys0), some (.rinv ys0), some (.kvfile ys0), some (.rqnt ys0), none,
      some (.wsinfo ys0), none, none, none, some (.syscall ys0), some (.brk ys0), none, some (.svfence ys0), none] = true ∧
    rows 6 7 0x40 [some (.crrd ys0), some (.crwr ys0), some (.trapret ys0), some (.vfsave ys0), some (.vfload ys0), none, some (.wfe ys0), none, none] = true ∧
    decoded (word [(3, 6), (7, 0x45), (15, 0), (7, 2)]) 0 = some (.tlbinv { ys0 with fn7 := 2 }) := by decide

/-- R81, R324: the control-register rows with an instruction of their own. -/
theorem decode_special_rows :
    decoded (word [(3, 6), (7, 0x40), (5, 9), (17, 0)]) 0x010 = some (.vstartAccess false 9) ∧
    decoded (word [(3, 6), (7, 0x41), (5, 0), (5, 9), (12, 0)]) 0x016 = some (.xseedWrite 9) ∧
    decoded (word [(3, 6), (7, 0x41), (5, 0), (5, 9), (12, 0)]) 0x110 = some (.asidWrite 9) ∧
    decoded (word [(3, 6), (7, 0x41), (5, 0), (5, 9), (12, 0)]) 0x121 = some (.yield 9) := by decide

/-! ## Single steps -/

/-- What a register of the turn's context holds after a step. -/
def regAfter (s : State) (i : Instr) (r : Reg) : Option Word :=
  match exec i s with
  | .next t => (t.strand? 0).map (fun st => (running s st).reg r)
  | _ => none

/-- Something of the strand in slot 0 after a step. -/
def after {α : Type} (s : State) (i : Instr) (f : Strand → α) : Option α :=
  match exec i s with
  | .next t => (t.strand? 0).map f
  | _ => none

/-- Something of the state after a step. -/
def stateAfter {α : Type} (s : State) (i : Instr) (f : State → α) : Option α :=
  match exec i s with
  | .next t => some (f t)
  | _ => none

/-- The execute context's turn with two registers set. -/
def args (x y : Word) : State := at_ (with_ (fun c => { c with g := (c.g.set 10 x).set 11 y })) .execute

/-- R138: sums wrap, the high half of a signed product is negative, rotation is by the low six bits. -/
theorem test_integer :
    regAfter (args 0xFFFFFFFFFFFFFFFF 2) (.add 9 10 11) 9 = some 1 ∧
    regAfter (args 0xFFFFFFFFFFFFFFFF 2) (.mulh 9 10 11) 9 = some 0xFFFFFFFFFFFFFFFF ∧
    regAfter (args 0xFFFFFFFFFFFFFFFF 2) (.mulhu 9 10 11) 9 = some 1 ∧
    regAfter (args 0x8000000000000001 65) (.rol 9 10 11) 9 = some 3 ∧
    regAfter (args 0x8000000000000000 4) (.sra 9 10 11) 9 = some 0xF800000000000000 ∧
    regAfter (args 0 0) (.clz 9 10) 9 = some 64 ∧ regAfter (args 8 0) (.ctz 9 10) 9 = some 3 ∧
    regAfter (args 0x8000000000000000 1) (.slt 9 10 11) 9 = some 1 ∧ regAfter (args 0x8000000000000000 1) (.sltu 9 10 11) 9 = some 0 := by decide

/-- R139: the saturated results of division. -/
theorem test_division :
    regAfter (args 5 0) (.div 9 10 11) 9 = some 0x7FFFFFFFFFFFFFFF ∧ regAfter (args 0xFFFFFFFFFFFFFFFB 0) (.div 9 10 11) 9 = some 0x8000000000000000 ∧
    regAfter (args 0x8000000000000000 0xFFFFFFFFFFFFFFFF) (.div 9 10 11) 9 = some 0x7FFFFFFFFFFFFFFF ∧
    regAfter (args 0xFFFFFFFFFFFFFFF9 2) (.div 9 10 11) 9 = some 0xFFFFFFFFFFFFFFFD ∧
    regAfter (args 0xFFFFFFFFFFFFFFF9 2) (.rem 9 10 11) 9 = some 0xFFFFFFFFFFFFFFFF ∧ regAfter (args 5 0) (.remu 9 10 11) 9 = some 5 := by decide

/-- R12: g0 discards what is written to it; R145: `sltui gd, ga, −1` gives 1 but for the largest value. -/
theorem test_immediate :
    regAfter (args 5 6) (.add 0 10 11) 0 = some 0 ∧ regAfter (args 5 6) (.sltui 9 10 0x1FFF) 9 = some 1 ∧
    regAfter (args 0xFFFFFFFFFFFFFFFF 6) (.sltui 9 10 0x1FFF) 9 = some 0 ∧ regAfter (args 5 6) (.lui 9 0x20000) 9 = some 0xFFFFFFFF80000000 ∧
    regAfter (args 5 6) (.auipc 9 1) 9 = some 0x5000 ∧ regAfter (args 0xF0 0) (.bfx 9 10 4 4) 9 = some 0xFFFFFFFFFFFFFFFF := by decide

/-- R140, R141, R46: 1 + 1; half an ulp above 1 ties to even and sets NX; R44: a signalling NaN gives the canonical one. -/
theorem test_float :
    regAfter (args 0x3F800000 0x3F800000) (.fadd 9 10 11 0) 9 = some 0x40000000 ∧
    regAfter (args 0x3F800000 0x33800000) (.fadd 9 10 11 0) 9 = some 0x3F800000 ∧
    after (args 0x3F800000 0x33800000) (.fadd 9 10 11 0) (fun st => st.exec.flags) = some 1 ∧
    regAfter (args 0xFF800001 0x3F800000) (.fmul 9 10 11 0) 9 = some 0x7FC00000 ∧
    regAfter (args 0x80000000 0) (.fmin 9 11 10 0) 9 = some 0x80000000 ∧ regAfter (args 0x80000000 0) (.fcmp 9 10 11 0) 9 = some 1 ∧
    regAfter (args 0xC0200000 0) (.fcvt 9 10 false 0 0) 9 = some 0xFFFFFFFFFFFFFFFE := by decide

/-- A page of memory for the tests that follow: 0x80 at 0x1100 and 0x11 to 0x88 from 0x1108. -/
def filled (s : State) : State :=
  { s with dev := { cells := [(0x1100, 0x80), (0x1108, 0x11), (0x1109, 0x22), (0x110A, 0x33), (0x110B, 0x44), (0x110C, 0x55), (0x110D, 0x66),
    (0x110E, 0x77), (0x110F, 0x88)] } }

/-- R2, R149: loads extend and are little-endian; a store writes its size and no more. -/
theorem test_memory :
    regAfter (filled s0) (.ldb 9 3 0) 9 = some 0xFFFFFFFFFFFFFF80 ∧ regAfter (filled s0) (.ldbu 9 3 0) 9 = some 0x80 ∧
    regAfter (filled s0) (.ldw 9 3 8) 9 = some 0x44332211 ∧ regAfter (filled s0) (.ldd 9 3 8) 9 = some 0x8877665544332211 ∧
    stateAfter (filled s0) (.sth 8 3 8) (fun t => t.dev.readLE 0x1108 8) = some 0x887766554433FFFF := by decide

/-- R152, R153: AMOADD and AMOCAS give the old value; a comparison that fails writes nothing. -/
theorem test_atomic :
    regAfter (filled s0) (.amoadd 9 3 0 0 5) 9 = some 0x80 ∧ stateAfter (filled s0) (.amoadd 9 3 0 0 5) (fun t => t.dev.readLE 0x1100 8) = some 0x87 ∧
    stateAfter (filled s0) (.amocas 4 3 0 0) (fun t => t.dev.readLE 0x1100 8) = some 0x80 ∧
    stateAfter (filled (at_ (with_ (fun c => { c with g := c.g.set 4 0x80 })) .execute)) (.amocas 4 3 0 0) (fun t => t.dev.readLE 0x1100 8) = some 7 := by
  decide

/-- R120, R155, R156: a backward branch taken and not taken; JALR links past itself. -/
theorem test_branch :
    after s0 (.beq 5 5 0x1FFF) (fun st => st.exec.pc) = some 0xFFC ∧ after s0 (.bne 5 5 0x1FFF) (fun st => st.exec.pc) = some 0x1004 ∧
    after s0 (.jalr 9 3 8) (fun st => (st.exec.pc, st.exec.reg 9)) = some (0x1108, 0x1004) ∧
    after s0 (.jalr 9 3 6) (fun st => (st.exec.pc, st.exec.tval, st.exec.reg 9)) = some (0x4000, 0x1106, 0) := by decide

/-- R14: a push of the access context is what the execute context's queue 0 gives. -/
theorem test_queue : after a0 (.qpush 5 0) (fun st => st.queues.toList.head?) = some (some [7]) := by decide

/-- R130, R131, R145: IMX gives an ADDI 40 bits. -/
theorem test_imx :
    after s0 (.imx 1) (fun st => (st.exec.pc, (st.exec.prefixes.bind (·.imx)))) = some (0x1004, some 1) ∧
    regAfter (at_ (with_ (fun c => { c with prefixes := some { first := 0xFFC, word := 0xE0000001, imx := some 1, mattr := none, rejected := false } })) .execute)
      (.addi 9 5 1) 9 = some 0x2008 := by decide

/-- R267, R309: SYSCALL in user mode. -/
theorem test_syscall :
    after s0 (.syscall { ys0 with imm := 42 }) (fun st => (st.exec.pc, st.exec.tpc, st.exec.tval, st.exec.cause)) = some (0x4000, 0x1000, 42, 0x0E) ∧
    after s0 (.syscall { ys0 with imm := 42 }) (fun st => (st.exec.priv, st.exec.ppriv, st.exec.intrap)) = some (true, false, true) := by decide

/-- R318: TRAPRET goes back to TPC in the mode of PPRIV. -/
theorem test_trapret :
    after (at_ (with_ (fun c => { c with priv := true, ppriv := false, tpc := 0x2000, intrap := true })) .execute) (.trapret ys0)
      (fun st => (st.exec.pc, st.exec.priv, st.exec.ie, st.exec.intrap)) = some (0x2000, false, true, false) := by decide

/-- R306, R320: TSTATUS reads its fields, and user mode does not read it. -/
theorem test_crrd :
    regAfter su0 (.crrd { ys0 with gd := 9, imm := 0x100 }) 9 = some 0x0D ∧
    after s0 (.crrd { ys0 with gd := 9, imm := 0x100 }) (fun st => st.exec.cause) = some 3 := by decide

/-- R48, R76, R90: what CRWR writes of XRM, EDGE and SLIP. -/
theorem test_crwr :
    after (args 7 0) (.crwr { ys0 with ga := 10, imm := 0x15 }) (fun st => st.xrm) = some 0 ∧
    after (args 2 0) (.crwr { ys0 with ga := 10, imm := 0x18 }) (fun st => st.edge) = some 2 ∧
    after (args 15 0) (.crwr { ys0 with ga := 10, imm := 0x1A }) (fun st => st.slip) = some 8 := by decide

/-- R50: XSEED sets the scalar word to the seed XOR 0x8DDE6E40. -/
theorem test_xseed : after (args 0x8DDE6E40 0) (.xseedWrite 10) (fun st => (st.exec.sr, st.seed)) = some (1, 0x8DDE6E40) := by decide


/-! ## States and operands that meet the statements' hypotheses -/

/-- A context with nothing pending stands ready for every list of registers. -/
theorem stands_of {s : State} {st : Strand} (regs : List Reg) (h : s.strand? s.cur.slot = some st) (hp : st.pending = []) :
    Stands s st regs := ⟨h, fun _ r _ => by simp [hp]⟩

/-- The execute context stands ready. -/
theorem stands_s0 (regs : List Reg) : Stands s0 strand regs := stands_of regs rfl rfl
/-- So does the access context. -/
theorem stands_a0 (regs : List Reg) : Stands a0 strand regs := stands_of regs rfl rfl

/-- A strand whose contexts have read prefixes. -/
def prefixed (imx : Option (BitVec 27)) (m : Option (BitVec 3 × BitVec 3 × BitVec 3)) : Strand :=
  with_ (fun c => { c with prefixes := some { first := 0xFFC, word := 0, imx := imx, mattr := m, rejected := false } })

/-- The register and immediate instructions of chapter 6: bare, and behind an IMX. -/
theorem witness_integer :
    Stands s0 strand [9, 3, 4] ∧ Stands a0 strand [9, 3, 4] ∧ Bare (running s0 strand) ∧
    Stands (at_ (prefixed (some 0x7FFFFFF) none) .execute) (prefixed (some 0x7FFFFFF) none) [9, 3] ∧
    AtMostImx (running (at_ (prefixed (some 0x7FFFFFF) none) .execute) (prefixed (some 0x7FFFFFF) none)) :=
  ⟨stands_s0 _, stands_a0 _, rfl, stands_of _ rfl rfl, by decide⟩

/-- Register 10 holds x, and 11 holds y. -/
def holding (x y : Word) : Strand := with_ (fun c => { c with g := (c.g.set 10 x).set 11 y })

/-- Scalar FP32: a NaN first operand, a NaN addend; the smallest finite value added to +0; every conversion's direction. -/
theorem witness_float :
    (Bare (running (args 0x7FC00001 0) (holding 0x7FC00001 0)) ∧ Stands (args 0x7FC00001 0) (holding 0x7FC00001 0) [9, 10, 11, 10] ∧
      (holding 0x7FC00001 0).xtrapen = 0 ∧ isNaN32 (low32 (running (args 0x7FC00001 0) (holding 0x7FC00001 0)) 10) = true) ∧
    (special32 (low32 (running (args 1 0) (holding 1 0)) 10) = false ∧ low32 (running (args 1 0) (holding 1 0)) 10 % 2 ^ 31 ≠ 0 ∧
      low32 (running (args 1 0) (holding 1 0)) 11 = 0) ∧
    (3 : BitVec 4).toNat < 4 ∧ (7 : BitVec 4).toNat < 8 :=
  ⟨⟨rfl, stands_of _ rfl rfl, rfl, by decide⟩, by decide, by decide, by decide⟩

/-- Loads: at the last byte of a page for a byte, aligned for a doubleword, behind a MATTR that makes an acquire. -/
theorem witness_load :
    (LoadTakes (running s0 strand) true ∧ strand.novHeld .execute = false ∧ Reads s0 strand 0x1FFFFF 1 (.dev 0x1FFFFF) ∧
      Reads s0 strand 0x1100 8 (.dev 0x1100) ∧ (0x1100 : Nat) % 8 = 0) ∧
    LoadTakes (running s0 (prefixed none (some (3, 7, 1)))) true ∧
    (∀ l ∈ (s0.cluster (clusterOf s0.cur.slot)).l1, l.copy 0x1100 8 = none) ∧
    Reads s0 strand Config.scratchBase 8 (.scratch 0 0) :=
  ⟨⟨by decide, rfl, ⟨rfl, rfl, rfl, rfl, rfl⟩, ⟨rfl, rfl, rfl, rfl, rfl⟩, rfl⟩, by decide, by decide, ⟨rfl, rfl, rfl, rfl, rfl⟩⟩

/-- Misaligned accesses. -/
theorem witness_misaligned :
    LoadTakes (running s0 strand) true ∧ StoreTakes (running s0 strand) false ∧
    ((running s0 strand).reg 4 + immediate (running s0 strand) (1 : BitVec 13)).toNat % 2 ≠ 0 ∧
    ((running s0 strand).reg 4 + immediate (running s0 strand) (0 : BitVec 13)).toNat % 8 ≠ 0 := by decide

/-- Stores: plain, and made a release by a MATTR. -/
theorem witness_store :
    StoreTakes (running s0 strand) true ∧ s0.memWf = true ∧ strand.novHeld .execute = false ∧ Writes s0 strand 0x1100 8 (.dev 0x1100) ∧
    Writes s0 strand 0x1FFFFF 1 (.dev 0x1FFFFF) ∧ StoreTakes (running s0 (prefixed none (some (3, 7, 2)))) true ∧
    s0.releaseHeld s0.cur.slot s0.cur.ctx strand 5 = false :=
  ⟨by decide, by decide, rfl, ⟨rfl, rfl, rfl⟩, ⟨rfl, rfl, rfl⟩, by decide, by decide⟩

/-- Atomics on device memory and on host memory. -/
theorem witness_atomic :
    AtomicTakes (running s0 strand) ∧ s0.memWf = true ∧ s0.route strand strand.strip .other 0x1100 8 = .memory ∧
    s0.resolve (agent s0 strand) 0x1100 .atomic = .ok (.dev 0x1100) ∧ s0.poisoned (.dev 0x1100) = false ∧
    s0.unreachable (.dev 0x1100) = false ∧ s0.resolve (agent s0 strand) 0x400000 .atomic = .ok (.host 0) ∧ isHost (.host 0) = true ∧
    doubleAt s0 (.dev 0x1100) ≠ (running s0 strand).reg 5 ∧ doubleAt s0 (.dev 0x1100) = (running s0 strand).reg 9 :=
  ⟨by decide, by decide, rfl, rfl, rfl, rfl, rfl, rfl, by decide, by decide⟩

/-- An engine command of the execute context of the strand in slot 0, and the state with it in flight. -/
def flying (owner : Nat × Nat × CtxId) : State → State :=
  fun s => { s with engines := [{ (default : EngineCmd) with owner := owner }] }

/-- R154, R111: an atomic that a host refuses, and fences that order nothing, that find nothing, and that find an engine command. -/
theorem witness_host_atomic_fence :
    ((running s0 strand).reg 7).toNat % 8 = 0 ∧ s0.route strand strand.strip .other 0x400000 8 = .memory ∧
    s0.poisoned (.host 0) = false ∧ s0.unreachable (.host 0) = false ∧
    (0x0C : BitVec 6).getLsbD 0 = false ∧ (0x0C : BitVec 6).getLsbD 1 = false ∧
    s0.fenceWork 0 strand 0x3F = false ∧ (∀ e ∈ s0.engines, e.owner ≠ (strand.launch, strand.ordinal, CtxId.execute)) ∧
    (0x14 : BitVec 6).getLsbD 2 = true ∧ (0x15 : BitVec 6).getLsbD 4 = true ∧ (0x15 : BitVec 6).getLsbD 5 = false := by decide

/-- R155, R156: jumps to a multiple of 4, and to one past it. -/
theorem witness_jump :
    AtMostImx (running s0 strand) ∧ ((running s0 strand).reg 3 + immediate (running s0 strand) (0 : BitVec 13)).toNat % 4 = 0 ∧
    ((running s0 strand).reg 3 + immediate (running s0 strand) (1 : BitVec 13)).toNat % 4 ≠ 0 := by decide

/-- A strand with a value in each queue but q3, which is full. -/
def fourQueues : Strand :=
  { strand with queues := #v[[7], [0, 9], [5], List.replicate 32 1] }

/-- R14, R157: a push to the last place of a queue, pops and branches on each side; the same with the other end gone. -/
theorem witness_queue :
    ¬ pops CtxId.execute 2 ∧ (inQueue fourQueues 2).length < 32 ∧ (at_ fourQueues .execute).releaseHeld 0 .execute fourQueues 0 = false ∧
    pops CtxId.execute 1 ∧ inQueue fourQueues 1 = 0 :: [9] ∧ pops CtxId.access 2 ∧ inQueue fourQueues 2 = 5 :: [] ∧
    (¬ pops CtxId.execute 3 ∧ 32 ≤ (inQueue fourQueues 3).length) ∧ (pops CtxId.execute 0 ∧ inQueue strand 0 = []) ∧
    (other s0 { strand with access := { ctx with retired := true } }).retired = true := by
  simp only [pops]; decide

/-- R130 to R132: a second prefix of each kind, and one that was rejected. -/
theorem witness_prefixes :
    ((running s0 strand).prefixes.map (·.imx.isSome)).getD false = false ∧
    ((running s0 (prefixed (some 0) none)).prefixes.map (·.imx.isSome)).getD false = true ∧
    ((running s0 (prefixed none (some (7, 7, 7)))).prefixes.map (fun p => p.mattr.isSome || p.rejected)).getD false = true ∧
    ((running s0 (prefixed (some 0) none)).prefixes.map (fun p => p.mattr.isSome || p.rejected)).getD false = false ∧
    (running s0 (prefixed (some 0) none)).prefixes.any (fun p => p.imx.isSome) = true := by decide

/-- A vector instruction in the VQ that has not started. -/
def waiting : VqEntry :=
  { seq := 0, pc := 0x900, instr := .vadd vadd0, g := ctx.g, tags := Vector.replicate 32 8, rm := 0, edge := 0, trapen := 0, vbypass := 0
    strip := 0, claims := [], progress := .queued, marked := false, since := 0, element := none, bind := none, bindFault := none }

/-- An instruction of the strand in slot 0 that the matrix array has started, parked. -/
def inArray : Cluster := { Cluster.blank with mq := [{ slot := 0, entry := { waiting with progress := .waiting } }] }

/-- A strand in a trap, without and with started work in its lanes, beside a mate in its cluster. -/
def inTrap (vq : List VqEntry) : Strand := { with_ (fun c => { c with intrap := true }) with vq := vq }
/-- The state that holds both. -/
def trapped (vq : List VqEntry) : State := { at_ (inTrap vq) .execute with strands := [(0, inTrap vq), (1, strand)] }

/-- R309, R312: a context in no trap, with the array idle and busy; and one in a trap with a mate in its cluster, with and without started work. -/
theorem witness_trap :
    (running s0 strand).intrap = false ∧ s0.arrayBusy 0 = false ∧
    ({ s0 with clusters := [(0, inArray)] } : State).arrayBusy 0 = true ∧
    Stands (trapped []) (inTrap []) [] ∧ Bare (running (trapped []) (inTrap [])) ∧ (running (trapped []) (inTrap [])).intrap = true ∧
    (inTrap []).life ≠ .retired ∧ (inTrap []).ending = none ∧ (inTrap []).sibling = none ∧ (inTrap []).group = none ∧ 1 ≠ (trapped []).cur.slot ∧
    (trapped []).strand? 1 = some strand ∧ clusterOf 1 = clusterOf (trapped []).cur.slot ∧ strand.launch = (inTrap []).launch ∧ strand.life ≠ .retired ∧
    (trapped []).startedWork 0 (inTrap []) = false ∧
    (let vq := [{ waiting with progress := .waiting }]
     Stands (trapped vq) (inTrap vq) [] ∧ (trapped vq).startedWork 0 (inTrap vq) = true ∧ (trapped vq).arrayBusy 0 = false ∧
       (trapped vq).strand? 1 = some strand) :=
  ⟨rfl, by decide, by decide, stands_of _ rfl rfl, rfl, rfl, by decide, rfl, rfl, rfl, by decide, rfl, by decide, rfl, by decide, by decide,
   stands_of _ rfl rfl, by decide, by decide, rfl⟩

/-- R312: a VQ with an unfinished instruction. -/
theorem witness_freeze :
    let st := { strand with vq := [waiting] }
    (at_ st .execute).strand? 0 = some st ∧ st.exec.intrap = false ∧ st.frame = none ∧ (at_ st .execute).repartitioning 0 = false ∧
      ∃ e ∈ st.vq, e.progress ≠ .done :=
  ⟨rfl, rfl, rfl, by decide, waiting, List.mem_singleton.2 rfl, by decide⟩

/-- R318: both modes. -/
theorem witness_return :
    Bare (running su0 superStrand) ∧ (running su0 superStrand).priv = true ∧ (running s0 strand).priv = false := by decide

/-- R118, R119: a word of class LC, and the two of class PF. -/
theorem witness_unassigned :
    (0xF7FFFFFF : BitVec 32).extractLsb' 29 3 = 7 ∧ (0xF7FFFFFF : BitVec 32).extractLsb' 27 2 = 2 ∧
    (0xFFFFFFFF : BitVec 32).extractLsb' 27 2 = 3 ∧ (0xEFFFFFFF : BitVec 32).extractLsb' 27 2 = 1 ∧
    (0x1FFFFFFF : BitVec 32).extractLsb' 29 3 ≠ 7 := by decide

/-- R81, R135, R320: registers on each side of 0x100, in each mode, and a number that is not assigned. -/
theorem witness_registers :
    (0x100 ≤ 0x121 ∧ (running s0 strand).priv = false) ∧ (0x030 < 0x100 ∧ (running su0 superStrand).priv = true) ∧
    (registerValue s0 strand 0x015).isSome = true ∧ (registerValue su0 superStrand 0x121).isSome = true ∧
    0x002 ∈ assigned ∧ 0x022 ∉ assigned ∧ ((running s0 strand).reg 6).toNat % 4 = 3 ∧
    0x018 ∉ [0x010, 0x014, 0x016, 0x110, 0x111, 0x121] := by decide

/-- The strand of a launch in partition 0, whose register 4 names address space 0x1104. -/
def spaceState : State := { su0 with launches := [(0, launch0)], spaces := [(0x1104, space0)] }

/-- R52, R83, R324: an empty VQ; an address space of the partition, and none. -/
theorem witness_space :
    strand.vq = [] ∧ Stands spaceState superStrand [4] ∧ superStrand.frame = none ∧ superStrand.anyStream = false ∧
    spaceState.drained 0 superStrand = true ∧
    (∃ r, lookup spaceState.spaces (((running spaceState superStrand).reg 4).toNat % 2 ^ 16) = some r ∧
      r.part = ((spaceState.launch? superStrand.launch).map (·.part)).getD 0) ∧
    ((running spaceState superStrand).reg 4).toNat % 2 ^ 16 ≠ 0 ∧ lookup su0.spaces (((running su0 superStrand).reg 4).toNat % 2 ^ 16) = none :=
  ⟨rfl, stands_of _ rfl rfl, rfl, by decide, by decide, ⟨space0, by decide, by decide⟩, by decide, by decide⟩

/-- R317: a YIELD that ends a residence, with the highest cause but one that does not. -/
theorem witness_yield :
    let st := with_ (fun c => { c with priv := true, cause := 0x10 })
    (running (at_ st .execute) st).priv = true ∧ ((running (at_ st .execute) st).reg 5).getLsbD 2 = true ∧
      (running (at_ st .execute) st).cause = 0x10 ∧ (running (at_ st .execute) st).cancel = none ∧
      (other (at_ st .execute) st).retired = false ∧ ((running (at_ st .execute) st).reg 6).getLsbD 2 = false ∧
      (running su0 superStrand).cause ≠ 0x10 := by decide

/-- An outcome that is .ok has a value. -/
theorem ok_of {α : Type} {r : Res α} (h : (match r with | .ok _ => true | _ => false) = true) : ∃ x, r = .ok x := by
  cases r <;> simp_all

/-- A strand with PRIV = 1 whose register 3 holds 0x1100. -/
def saver : Strand := with_ (fun c => { c with priv := true })

/-- R313, R314: addresses for VFSAVE and VFLOAD: aligned, and not; the frame that memory reads as where nothing has been written (V = 0). -/
theorem witness_frame :
    Bare (running (at_ saver .execute) saver) ∧ ((running (at_ saver .execute) saver).reg 3).toNat % 256 = 0 ∧
    ((running (at_ saver .execute) saver).reg 4).toNat % 256 ≠ 0 ∧ (at_ saver .execute).repartitioning 0 = false ∧
    (at_ saver .execute).route saver 0 .other 0x1100 512 = .memory ∧ ((at_ saver .execute).cluster (clusterOf 0)).matrixOf 0 = [] ∧
    (∃ h, (at_ saver .execute).readObject (env (at_ saver .execute) saver) 0x1100 64 = .ok h ∧ fieldLE h 2 1 % 2 = 0) ∧
    ({ saver with vq := [waiting] } : Strand).vq ≠ [] :=
  ⟨rfl, by decide, by decide, by decide, rfl, rfl, ⟨_, rfl, by decide⟩, by decide⟩

/-- A frame that the strand has saved: with a VQ instruction, or empty. -/
def savedAs (queued : List VqEntry) : Frame :=
  { queued, matrix := [], pending := queued.map (fun _ => 9), sr := Vector.replicate 64 5, vimprecise := false, vcommit := 0x900, mode := 0
    vstart := 0, streams := Vector.replicate 8 none, owner := (0, 0) }

/-- R313, R314: the frame of a strand that holds none can be stored there, and so can one that a trap has left. -/
theorem witness_frame_stored :
    let s := at_ saver .execute
    let st := { saver with frame := some { savedAs [waiting] with vimprecise := true } }
    s.heldBack (env s saver) none = false ∧ s.memWf = true ∧ (s.frameToSave (env s saver)).1.queued = [] ∧ sizeOf (s.frameToSave (env s saver)).1 false = 512 ∧
    (at_ st .execute).heldBack (env (at_ st .execute) st) none = false ∧ sizeOf ((at_ st .execute).frameToSave (env (at_ st .execute) st)).1 false = 768 ∧
    (at_ st .execute).route st 0 .other 0x1100 768 = .memory ∧
    ∀ i < 768, s.resolve (agent s saver) ((0x1100 + i) % 2 ^ 64) .store = .ok (.dev (0x1100 + i)) ∧ s.unreachable (.dev (0x1100 + i)) = false :=
  ⟨by decide, by decide, by decide, by decide, by decide, by decide, rfl, by decide +kernel⟩

/-- Its bytes. -/
def savedBytes (queued : List VqEntry) : List Byte := frameBytes (savedAs queued) false (Config.frameBody 7)

/-- A state in which it has been saved at 0x1100. -/
def savedState (queued : List VqEntry) : State :=
  { at_ saver .execute with dev := ({ cells := [] } : Memory).writeBytes 0x1100 (savedBytes queued), frames := [(7, savedAs queued)] }

/-- What memory holds there. -/
theorem saved_byte (queued : List VqEntry) (i : Nat) (h : i < (savedBytes queued).length) :
    byteAt (savedState queued) (.dev (0x1100 + i)) = (savedBytes queued).getD i 0 := by
  simp only [byteAt, savedState]
  rw [Memory.read_writeBytes _ _ _ _ rfl h, List.getD_eq_getElem _ _ h]

/-- The eight bytes of a doubleword there. -/
theorem saved_double (queued : List VqEntry) (j : Nat) (h : j < (savedBytes queued).length / 8) :
    ∀ i < 8, byteAt (savedState queued) (above (.dev (0x1100 + 8 * j)) i) = (savedBytes queued).getD (8 * j + i) 0 := by
  intro i hi
  simp only [above, Nat.add_assoc]
  exact saved_byte queued _ (by omega)

/-- The words of 64 lanes take 256 bytes. -/
theorem words_length (v : Vector Half 64) : (v.toList.flatMap (fun w => leBytes 4 w.toNat)).length = 256 := by
  simp only [List.length_flatMap, leBytes_length, List.map_const', List.sum_replicate, Vector.length_toList, smul_eq_mul]

/-- A frame's bytes. -/
theorem frame_length (f : Frame) (streams : Bool) (body : Nat → Byte) :
    (frameBytes f streams body).length = 512 + (frameSize (f.queued.length + f.matrix.length) streams - 512) := by
  simp only [frameBytes, List.length_append, leBytes_length, List.length_cons, List.length_nil, List.length_replicate, words_length, List.length_map, List.length_range]

/-- The bytes behind the first 512 are the body's. -/
theorem frame_body (f : Frame) (streams : Bool) (body : Nat → Byte) (i : Nat) (h : 512 + i < (frameBytes f streams body).length) :
    (frameBytes f streams body).getD (512 + i) 0 = body i := by
  unfold frameBytes at *
  rw [List.getD_append_right]
  · simp only [List.length_append, leBytes_length, List.length_cons, List.length_nil, List.length_replicate, words_length, List.length_map, List.length_range] at *
    rw [List.getD_eq_getElem _ _ (by simp; omega)]
    simp
  · simp only [List.length_append, leBytes_length, List.length_cons, List.length_nil, List.length_replicate, words_length]
    omega
/-- R314, R357: an empty frame of the strand that stands in memory: its layout, and each doubleword readable; a VFLOAD of it is no fault. -/
theorem witness_frame_empty :
    Layout (savedBytes []) (savedAs []) false (Config.frameBody 7) ∧ (savedBytes []).length = sizeOf (savedAs []) false ∧
    (∀ j < 64, Reads (savedState []) saver ((0x1100 + 8 * j) % 2 ^ 64) 8 (.dev (0x1100 + 8 * j))) ∧
    (∃ t, (savedState []).loadFrame (env (savedState []) saver) 0x1100 = .ok t) := by
  refine ⟨by unfold Layout; decide +kernel, by decide +kernel, by decide +kernel, ok_of (by decide +kernel)⟩

/-- R314, R357: a frame with a VQ instruction that stands in memory, whose body is free: its layout, and each doubleword readable. No other frame is saved, so it
is the one that a VFLOAD takes back. -/
theorem witness_frame_queued :
    Layout (savedBytes [waiting]) (savedAs [waiting]) false (Config.frameBody 7) ∧ (savedBytes [waiting]).length = sizeOf (savedAs [waiting]) false ∧
    (∀ j < 96, Reads (savedState [waiting]) saver ((0x1100 + 8 * j) % 2 ^ 64) 8 (.dev (0x1100 + 8 * j))) ∧
    (7, savedAs [waiting]) ∈ (savedState [waiting]).frames ∧ (∀ x ∈ (savedState [waiting]).frames, x.2 = savedAs [waiting]) ∧
    (savedAs [waiting]).owner = (saver.launch, saver.ordinal) ∧ (savedAs [waiting]).mode = ((savedState [waiting]).cluster (clusterOf 0)).mode ∧
    saver.frame = none ∧ 0 < (savedAs [waiting]).queued.length + (savedAs [waiting]).matrix.length := by
  refine ⟨?_, frame_length _ _ _, by decide +kernel, by simp [savedState], by simp [savedState], rfl, rfl, rfl, by decide⟩
  have n : (savedBytes [waiting]).length = 768 := frame_length _ _ _
  refine ⟨rfl, rfl, n.symm, rfl, rfl, rfl, rfl, rfl, by decide +kernel, fun i h => frame_body _ _ _ _ ?_⟩
  rw [n] at h
  show 512 + i < (savedBytes [waiting]).length
  omega

/-- R321: each form of TLBINV, with an entry that it covers and one that it does not. -/
theorem witness_tlbinv :
    let f : YsF := { ys with fn7 := 1, ga := 3, gb := 0 }
    let c := running su0 superStrand
    c.wait = none ∧ c.priv = true ∧ su0.heldBack (env su0 superStrand) (some 5) = false ∧ (∀ p ∈ su0.strands, p.2.allStreams = []) ∧
    (c.reg f.gb).toNat % 2 ^ 16 = 0 ∧ (page.asid = 0 ∧ page.va ≤ (c.reg f.ga).toNat ∧ (c.reg f.ga).toNat < page.va + page.size) ∧
    ¬ (hostPage.va ≤ (c.reg f.ga).toNat) :=
  ⟨rfl, rfl, by decide, by decide, by decide, by decide, by decide⟩

/-- R322: WFE with a request, at its limit, and with neither. -/
theorem witness_wfe :
    let st := with_ (fun c => { c with priv := true, preempt := some 1 })
    (running (at_ st .execute) st).preempt.isSome = true ∧
    (let st := with_ (fun c => { c with priv := true, wait := some { kind := .wfe 1024, since := 3976, instr := none } })
     ∃ w, (running (at_ st .execute) st).wait = some w ∧ w.kind = .wfe 1024 ∧ 1024 ≤ (at_ st .execute).now - w.since) ∧
    ((running su0 superStrand).preempt.isSome = false ∧ (running su0 superStrand).cancel.isSome = false ∧ (running su0 superStrand).wait = none) :=
  ⟨rfl, ⟨_, rfl, rfl, by decide⟩, by decide⟩

/-- The execute context's turn after its access context has retired, in its launch; nothing is left of it. -/
def lastContext : Strand := { strand with access := { ctx with retired := true } }

/-- R240, R241: KEND of each context, and with vector work left. -/
theorem witness_kend :
    AtMostZeroImx (running s0 strand) ∧ strand.life ≠ .retired ∧ (running a0 strand).yielded = false ∧
    Unasked (running s0 lastContext) ∧ (at_ lastContext .execute).drained 0 lastContext = true ∧ (at_ lastContext .execute).acksOwed = false ∧
    lastContext.ending = none ∧ (other s0 lastContext).retired = true ∧
    lastContext.sibling = none ∧ lastContext.group = none ∧
    (∃ l, ({ at_ lastContext .execute with launches := [(0, launch0)] } : State).launch? lastContext.launch = some l) ∧
    ({ strand with vq := [waiting] } : Strand).vq ≠ [] ∧
    AtMostZeroImx (running s0 (prefixed (some 0) none)) :=
  ⟨by decide, by decide, rfl, by decide, by decide, by decide, rfl, rfl, rfl, rfl, ⟨_, rfl⟩, by decide, by decide⟩

/-- R242, R243: a pending cancel. -/
theorem witness_cancel :
    let st := with_ (fun c => { c with cancel := some 1 })
    Unasked (running s0 strand) ∧ strand.group = none ∧ (running (at_ st .execute) st).cancel.isSome = true ∧
      (other (at_ st .execute) st).cancelled = false := by decide

/-- A strand with watermark 1 at 0x1100, of limit 3, and barrier objects. -/
def marked : Strand :=
  { strand with watermarks := strand.watermarks.set 1 { word := 0x1100, limit := 3, base := 0, size := 1 } }

/-- R115, R244: a bound watermark and one that is not; a word below, and one at, the value waited for; a wait at its limit. -/
theorem witness_watermark :
    let f : YsF := { ys with gd := 1, ga := 5 }
    let s := at_ marked .execute
    (watermarkOf marked f).word ≠ 0 ∧ (watermarkOf marked { f with gd := 2 }).word = 0 ∧ s.memWf = true ∧
    s.heldBack (env s marked) (some (f.fn7.extractLsb' 0 3)) = false ∧ s.heldBack (env s marked) none = false ∧
    Updates s marked 0x1100 8 (.dev 0x1100) ∧ Reads s marked 0x1100 8 (.dev 0x1100) ∧
    (let got := (s.cacheTranslation (agent s marked) 0x1100).readPlace (clusterOf s.cur.slot) (.dev 0x1100) 8 (fun _ => false) false
     leNat got.1 < ((running s marked).reg 5).toNat ∧ ((running s marked).reg 9).toNat ≤ leNat got.1) ∧
    1024 * (watermarkOf marked f).limit = 3072 ∧ 3072 ≤ s.now - 1928 :=
  ⟨by decide, by decide, by decide, by decide, by decide, ⟨rfl, rfl, rfl, rfl, rfl⟩, ⟨rfl, rfl, rfl, rfl, rfl⟩, by decide, by decide,
    by decide⟩

/-- Register 3 holds the address of a barrier object of two arrivals, one of them made, in phase p. -/
def barrier (p : Bool) : Strand × State :=
  let st := with_ (fun c => { c with g := c.g.set 3 0x1140 })
  (st, { at_ st .execute with dev := { cells := [(0x1140, 1)] ++ (if p then [(0x1147, 0x80)] else []) ++ [(0x1148, 2)] } })

/-- R245, R246: an object's last arrival in each phase; an object that expects nobody; a misaligned one; a wait for each phase. -/
theorem witness_barrier :
    let st := (barrier true).1
    let s := (barrier true).2
    ((running s st).reg 3).toNat % 64 = 0 ∧ ((running s st).reg 4).toNat % 64 ≠ 0 ∧ s.memWf = true ∧ (barrier false).2.memWf = true ∧
    Updates s st 0x1140 64 (.dev 0x1140) ∧ numberAt s (.dev 0x1140) 4 = 1 ∧ numberAt s (above (.dev 0x1140) 8) 4 = 2 ∧
    numberAt (at_ st .execute) (above (.dev 0x1140) 8) 4 = 0 ∧
    badObject ((List.range 64).map (fun i => byteAt s (above (.dev 0x1140) i))) = false ∧ s.heldBack (env s st) (some 0) = false ∧
    s.heldBack (env s st) none = false ∧
    (∃ bs, s.readObject (env s st) 0x1140 64 = .ok bs ∧ badObject bs = false ∧ fieldLE bs 7 1 / 128 = ((running s st).reg 5).toNat % 2) ∧
    (∃ bs, (barrier false).2.readObject (env (barrier false).2 st) 0x1140 64 = .ok bs ∧ badObject bs = false ∧
      fieldLE bs 7 1 / 128 ≠ ((running s st).reg 5).toNat % 2) ∧
    (∃ bs, (at_ st .execute).readObject (env (at_ st .execute) st) 0x1140 64 = .ok bs ∧ fieldLE bs 8 4 = 0) :=
  ⟨by decide, by decide, by decide, by decide, ⟨rfl, rfl, rfl, rfl, rfl⟩, by decide, by decide, by decide, by decide, by decide, by decide,
    ⟨_, rfl, by decide, by decide⟩, ⟨_, rfl, by decide, by decide⟩, _, rfl, by decide⟩

/-- A task of a graph with counter n. -/
def taskAt (n : Nat) (released : Bool) : Task := { counter := n, released := released, started := false, completed := false, level := 0, bytes := [] }

/-- Graph 0 of partition 0, whose tasks 0 and 1 have counters 1 and 0. -/
def graph : Graph := { queue := 0, seq := 0, part := 0, tasks := [taskAt 1 false, taskAt 0 true], ready := [] }

/-- R247: a task whose counter is 1, one whose counter is 0, and an identifier of none; counters at and above the greatest. -/
theorem witness_counter :
    let s : State := { s0 with launches := [(0, launch0)], graphs := [(0, graph)] }
    s.replaying = [] ∧ taskOf s strand 0 0 graph 0 (taskAt 1 false) ∧ taskOf s strand 1 0 graph 1 (taskAt 0 true) ∧
    (∀ key g i task, ¬ taskOf s strand 0x10000 key g i task) ∧ (65535 : Word).toNat ≤ 65535 ∧ 65535 < (65536 : Word).toNat ∧
    s.heldBack (env s strand) (some 0) = false ∧ decBefore (taskAt 1 false) s.now (turnKey s.cur.slot s.cur.ctx) = false ∧
    decBefore (taskAt 0 true) s.now (turnKey s.cur.slot s.cur.ctx) = false := by
  refine ⟨rfl, ⟨by decide, rfl, by decide, rfl, rfl⟩, ⟨by decide, rfl, by decide, rfl, rfl⟩, ?_, by decide, by decide, by decide, by decide, by decide⟩
  intro key g i task h
  exact absurd h.1 (by decide)

/-- R249: a packet address at a multiple of 128, and one past it; a queue with one place, and one with none. -/
theorem witness_spawn :
    let st := with_ (fun c => { c with g := (c.g.set 3 0x1100).set 5 5 })
    let s : State := { at_ st .execute with launches := [(0, launch0)], queues := [(5, queue0)] }
    ((running s st).reg 3).toNat % 128 = 0 ∧ ((running s st).reg 4).toNat % 128 ≠ 0 ∧ (running s st).reg 5 = BitVec.ofNat 64 5 ∧
    s.queue? 5 = some queue0 ∧ s.queue? (((running s st).reg 6).toNat % 4096) = none ∧ queue0.devsub = true ∧
    queue0.part = ((s.launch? st.launch).map (·.part)).getD 0 ∧ queue0.version = 2 ∧ queue0.destroyed = none ∧
    s.heldBack (env s st) (some 5) = false ∧ (∃ bs, s.readObject (env s st) 0x1100 128 = .ok bs) ∧
    (15 : Word).toNat < queue0.fetched + 2 ^ queue0.log2n ∧ queue0.fetched + 2 ^ queue0.log2n ≤ (16 : Word).toNat :=
  ⟨by decide, by decide, by decide, rfl, rfl, rfl, by decide, rfl, rfl, by decide, ⟨_, rfl⟩, by decide, by decide⟩

/-- A sibling that has posted nothing. -/
def sibling0 : Sibling :=
  { post := none, status := 0, left := false, ended := false, cancelReq := false, canpc := 0, cycles := 0, atDecision := 0, released := false }

/-- A group of three, in which one has posted the hash 7. -/
def ballot : SibGroup :=
  { launch := 0, part := 0, n := 3, quorum := 2, siblings := [sibling0, { sibling0 with post := some (7, 0) }, { sibling0 with left := true }]
    arrivals := 1, state := .open_, winner := 0, hash := 0, decidedAt := 0, prefixPages := [], privatePages := [], freed := [], acct := 0 }

/-- R250 to R254: a sibling whose post makes the quorum, and whose post does not; one that has posted, one that has left, and a strand that
is none. -/
theorem witness_sibling :
    let st := { strand with sibling := some (0, 4) }
    let s : State := { at_ st .execute with sibgroups := [(4, ballot)] }
    s.replaying = [] ∧ s.recorders = [] ∧ strand.sibling = none ∧ siblingIs s st 0 4 ballot sibling0 ∧
    st.life = .running ∧ sibling0.ended = false ∧ s.posting (env s st) 0 4 = false ∧ ballot.postBefore s.now 0 = false ∧ ballot.postBefore s.now 1 = false ∧
    sibling0.post = none ∧ sibling0.left = false ∧ s.heldBack (env s st) (some 5) = false ∧ ballot.state = .open_ ∧
    postsOf ballot ((running s st).reg 5) + 1 = ballot.quorum ∧ postsOf ballot ((running s st).reg 6) + 1 ≠ ballot.quorum ∧
    siblingIs s { st with sibling := some (1, 4) } 1 4 ballot { sibling0 with post := some (7, 0) } ∧
    siblingIs s { st with sibling := some (2, 4) } 2 4 ballot { sibling0 with left := true } :=
  ⟨rfl, rfl, rfl, ⟨rfl, rfl, rfl⟩, rfl, rfl, by decide, by decide, by decide, rfl, rfl, by decide, rfl, by decide, by decide, ⟨rfl, rfl, rfl⟩, ⟨rfl, rfl, rfl⟩⟩

/-- R108, R266: no vector work; the last index of a region word, and one past it. -/
theorem witness_store_info :
    let st := { strand with wsBindings := List.replicate 16 { region := 0, slot := 0, gennum := 0 } }
    strand.vq = [] ∧ s0.matrixWork 0 = [] ∧ strand.wsBindings.length ≤ 0 ∧ 15 < (16 : Word).toNat ∧ (15 : Word).toNat ≤ 15 ∧
    (∃ b, st.wsBindings[(15 : Word).toNat]? = some b) := ⟨rfl, rfl, by decide, by decide, by decide, _, rfl⟩

/-- R15 to R19: a vector instruction that commits, and one that each check stops. -/
theorem witness_commit :
    let i : Instr := .vadd { vadd0 with vd := 31 }
    Claim.queued i = true ∧ Bare strand.exec ∧ Commits s0 strand i ∧ Claim.queued (.mma mx0) = true ∧
    (∀ f, i ≠ .vpref f) ∧ (∃ fr : Frame, ({ strand with frame := some fr } : Strand).frame.isSome = true) ∧
    ({ strand with exec := { ctx with ven := false } } : Strand).exec.ven = false ∧
    (resolved strand (.mmav mx0)).tiles ≠ [] ∧ strand.tiles.length = 0 ∧ 64 ≤ ({ strand with vq := List.replicate 64 waiting } : Strand).vq.length :=
  ⟨rfl, rfl, by decide, rfl, fun _ => Instr.noConfusion, ⟨(s0.frameToSave (env s0 strand)).1, rfl⟩, rfl, by decide, rfl, by decide⟩

/-- R71, R72: a run of registers that ends at v31, and lengths. -/
theorem witness_tags :
    let f : VxC := { vadd0 with vd := 16, imm := 0xF8 }
    f.vd.toNat + (f.imm.extractLsb' 4 5).toNat < 32 ∧ Commits s0 strand (.vcfg f) ∧ Commits s0 strand (.vsetl f) ∧
      Commits s0 strand (.vsetrc f) := by decide

/-- An entry for an instruction, at the head of the VQ. -/
def entry (i : Instr) : VqEntry := { waiting with instr := i }

/-- A strand whose VQ's head is an entry for an instruction. -/
def heading (i : Instr) : Strand := { strand with vq := [entry i] }

/-- Its turn's state. -/
def headState (i : Instr) : State := at_ (heading i) .execute

/-- No stream slot of it is bound. -/
theorem no_stream : ∀ j < 8, strand.stream j = none := by decide

/-- It owns lanes. -/
theorem has_lanes : 0 < (s0.lanes 0).2 := by decide

/-- Such an entry may start. -/
theorem heads (i : Instr) : AtHead (headState i) (heading i) (entry i) [] :=
  ⟨rfl, rfl, by simp [entry, waiting], ⟨rfl, rfl, rfl, rfl, rfl, rfl, rfl⟩, rfl, rfl, rfl, rfl, has_lanes, rfl, rfl, rfl, no_stream⟩

/-- R71 to R76: an element-wise instruction on UINT64 elements, of three elements, masked. -/
theorem witness_element :
    let f : VxC := { vadd0 with gl := 6, m := true }
    let st := heading (.vadd f)
    (entry (.vadd f)).instr = .vadd f ∧ f.sat = false ∧ (plan (entry (.vadd f)).instr (entry (.vadd f)).tags (entry (.vadd f)).g).bad = none ∧
    tagAt (entry (.vadd f)).tags f.va.toNat = 8 ∧ lengthOf (entry (.vadd f)) f.gl (tagWidth 8) = 3 ∧ activeAt st 3 false false 2 ∧ ¬ activeAt st 3 false false 3 := by
  simp only [activeAt]; decide

/-- Cluster 0's L1 TLB holds the page as well. -/
def cached (s : State) : State := { s with tlb := { page with cluster := some 0 } :: s.tlb }

/-- The entry may start there too. -/
theorem heads_cached (i : Instr) : AtHead (cached (headState i)) (heading i) (entry i) [] :=
  ⟨rfl, rfl, by simp [entry, waiting], ⟨rfl, rfl, rfl, rfl, rfl, rfl, rfl⟩, rfl, rfl, rfl, rfl, has_lanes, rfl, rfl, rfl, no_stream⟩

/-- R194: a load of three UINT64 elements, each an aligned access of the page. -/
theorem witness_vector_load :
    let f : VxM := { vld0 with vd := 4, gl := 6, gbase := 3, cache := 1 }
    let st := heading (.vld f)
    let s := cached (headState (.vld f))
    let e := entry (.vld f)
    AtHead s st e [] ∧ (∀ i, s.cur.unit.testBit i = false) ∧ f.gate = false ∧ f.cache = 1 ∧ (s.cluster (clusterOf s.cur.slot)).l1 = [] ∧ (plan e.instr e.tags e.g).bad = none ∧
    tagWidth (tagAt e.tags f.vd.toNat) = 64 ∧ (snapReg e.g f.gl).toNat = 3 ∧
    (∀ x ∈ s.tlb, ∀ y ∈ s.tlb, x.cluster = some (clusterOf s.cur.slot) → y.cluster = x.cluster → x.quad = y.quad → x.asid = y.asid →
      x.va ≤ y.va → y.va < x.va + x.size → x = y) ∧
    (∀ i, activeAt st 3 false false i → (elementAddress st e f 64 3 i).1 % 8 = 0 ∧ s.readsElided st (elementAddress st e f 64 3 i).1 8 = false ∧
      s.route st e.strip .load (elementAddress st e f 64 3 i).1 8 = .memory ∧ s.poisoned (.dev (0x1100 + 8 * i)) = false ∧
      s.cacheTranslation (agentOf s.cur.slot st st.exec.priv (.lanes s.cur.slot)) (elementAddress st e f 64 3 i).1 = s ∧
      s.resolve (agentOf s.cur.slot st st.exec.priv (.lanes s.cur.slot)) (elementAddress st e f 64 3 i).1 .load = .ok (.dev (0x1100 + 8 * i))) := by
  refine ⟨heads_cached _, fun i => Nat.zero_testBit i, rfl, rfl, rfl, by decide, by decide, by decide, by decide, ?_⟩
  intro i h
  have hi : i < 3 := h.1
  interval_cases i <;> exact ⟨rfl, rfl, rfl, rfl, rfl, rfl⟩

/-- R19, R184, R190: VGET and VPOPM at the head; a result that has come. -/
theorem witness_scalar_result :
    AtHead (headState (.vget vadd0)) (heading (.vget vadd0)) (entry (.vget vadd0)) [] ∧
    AtHead (headState (.vpopm vadd0)) (heading (.vpopm vadd0)) (entry (.vpopm vadd0)) [] ∧
    (let st := { strand with reads := [{ reg := 31, value := 9 }], pending := [31] }
     (at_ st .execute).strand? 0 = some st ∧ st.reads = { reg := 31, value := 9 } :: [] ∧ (31 : Nat) < 32) :=
  ⟨heads _, heads _, rfl, rfl, by decide⟩

/-- R17, R18, R218: a complete head, an MX instruction at the head, a full matrix queue, and a complete entry in it. -/
theorem witness_queue_order :
    let done := { waiting with progress := .done }
    let k := { Cluster.blank with mq := [{ slot := 1, entry := waiting }, { slot := 0, entry := done }] }
    ({ strand with vq := [done] } : Strand).vq = done :: [] ∧ done.progress = .done ∧ waiting.progress ≠ .done ∧
    isMatrixQueue (entry (.mma mx0)).instr = true ∧ (headState (.mma mx0)).strand? 0 = some (heading (.mma mx0)) ∧
    ((headState (.mma mx0)).cluster 0).mq.length < 32 ∧ 32 ≤ (List.replicate 32 ({ slot := 0, entry := waiting } : MqEntry)).length ∧
    k.mq = [{ slot := 1, entry := waiting }] ++ { slot := 0, entry := done } :: [] ∧ 0 < ((headState (.mma mx0)).lanes 0).2 ∧
    (let s := headState (.mma mx0)
     let st := heading (.mma mx0)
     st.life = .running ∧ st.fault = none ∧ st.ending = none ∧ st.startsNone s.now = false ∧ (s.cluster 0).repartition = none ∧
      ({ Cluster.blank with repartition := some { by_ := 0, mode := 2 } } : Cluster).repartition ≠ none ∧ (entry (.mma mx0)).marked = false) :=
  ⟨rfl, rfl, by decide, rfl, rfl, by decide, by decide, rfl, by decide, rfl, rfl, rfl, rfl, rfl, by decide, rfl⟩

/-- A strand with one tile, at the head of its cluster's matrix queue. -/
def tiled : Strand := { strand with tiles := [Vector.replicate 128 { cols := Vector.replicate 128 0, bound := 0 }] }

/-- The cluster of it, with an entry for an instruction. -/
def matrixState (i : Instr) : State :=
  { at_ tiled .execute with
    launches := [(0, { launch0 with placements := [{ vcluster := 0, cluster := 0, slot := 0 }] })]
    strands := [(0, tiled), (1, tiled), (2, tiled), (3, tiled)]
    clusters := [(0, { Cluster.blank with mq := [{ slot := 0, entry := entry i }] })] }

/-- R24, R218, R223, R236: MZERO and TCLR that may start, and a repartition that may take effect. -/
theorem witness_matrix :
    (let s := matrixState (.mzero mx0)
     s.strand? 0 = some tiled ∧ tiled.life = .running ∧ tiled.fault = none ∧ tiled.ending = none ∧ tiled.startsNone s.now = false ∧ 0 < (s.lanes 0).2 ∧
      (∀ x ∈ (s.cluster 0).mq, x.entry.progress ≠ .waiting) ∧ (s.cluster 0).repartition = none ∧ (s.cluster 0).mqNext = 0 % 4 ∧
      (s.cluster 0).mq = { slot := 0, entry := entry (.mzero mx0) } :: [] ∧ (entry (.mzero mx0)).progress ≠ .done ∧
      (entry (.mzero mx0)).claims = [] ∧ (∀ j < 8, tiled.stream j = none) ∧ mx0.acc.toNat < tiled.tiles.length) ∧
    ((matrixState (.tclr mx0)).setStrand 0 tiled).wholeCluster 0 = true ∧
    (let st := heading (.vpart vadd0)
     let s := { at_ st .execute with clusters := [(0, { Cluster.blank with repartition := some { by_ := 0, mode := 2 } })] }
     (s.cluster 0).repartition = some { by_ := 0, mode := 2 } ∧ s.strand? (4 * 0 + 0) = some st ∧ st.vq = entry (.vpart vadd0) :: [] ∧
      isRepartition (entry (.vpart vadd0)).instr = true ∧ s.beforeDone 0 = true) :=
  ⟨⟨rfl, rfl, rfl, rfl, rfl, by decide, by decide, rfl, rfl, rfl, by decide, rfl, no_stream, by decide⟩, by decide, rfl, rfl, rfl, rfl, by decide⟩

/-- A stream slot 7 that holds n chunks. -/
def streamOf (source : StreamSource) (n : Nat) (ended : Bool) : Stream :=
  { (default : Stream) with width := 8, base := 0x1100, count0 := 10, count1 := 1, count2 := 1, stride0 := 1, chunk := 4, source := source
                            chunks := List.replicate n (0, [0, 0, 0, 0]), arrived := n, ended := ended }

/-- A strand with it in slot 7. -/
def streaming (x : Stream) : Strand := { strand with streams := strand.streams.set 7 (some x) }

/-- R209, R212: a VBIND whose descriptor's eight doublewords lie in the page; an SFEED of three elements, and one at a misaligned address. -/
theorem witness_bind_and_feed :
    (let s := cached s0
     Commits s strand (.vbind { vld0 with va := 7, gbase := 3 }) ∧ (s.cluster (clusterOf s.cur.slot)).l1 = [] ∧ (strand.exec.reg 3).toNat % 8 = 0 ∧
      ∀ j < 8, let va := ((strand.exec.reg 3).toNat + 8 * j) % 2 ^ 64
        Reads s strand va 8 (.dev (0x1100 + 8 * j)) ∧ s.cacheTranslation (agent s strand) va = s) ∧
    (let x := streamOf .sfeed 3 false
     let st := streaming x
     let s := at_ st .access
     let va := ((running s st).reg 3).toNat
     st.committedStream 7 = some x ∧ x.chunks.length + x.feeding.length < 4 ∧ (running s st).reg 6 ≠ 0 ∧ 0 < x.chunk ∧ va % (x.width / 8) = 0 ∧
      0 < (min ((running s st).reg 6).toNat x.chunk * x.width + 7) / 8 ∧ s.readsElided st va 3 = false ∧ s.route st 0 .other va 3 = .memory ∧
      (∀ p ∈ pagesOf va 3, s.resolve (agent s st) p .load = .ok (.dev p)) ∧
      (64 : Nat) ≠ 4 ∧ ((running s st).reg 4).toNat % (64 / 8) ≠ 0) := by
  refine ⟨⟨by decide, rfl, by decide, ?_⟩, rfl, by decide, by decide, by decide, by decide, by decide, rfl, rfl, by decide, by decide, by decide⟩
  intro j h
  interval_cases j <;> exact ⟨⟨rfl, rfl, rfl, rfl, rfl⟩, rfl⟩

/-- R209 to R214: a VBIND whose descriptor can be read; a VUNBIND at the head; SFEED with room, without, at an end, and of no stream; VPREF. -/
theorem witness_stream :
    let f : VxM := { vld0 with va := 7, gbase := 3 }
    Commits s0 strand (.vbind f) ∧ strand.novHeld .execute = false ∧
    (∃ x, s0.readDescriptor (agent s0 strand) strand (strand.exec.reg f.gbase).toNat = .ok x) ∧
    AtHead (headState (.vunbind f)) (heading (.vunbind f)) (entry (.vunbind f)) [] ∧ f.va.toNat < 8 ∧
    ((streaming (streamOf .sfeed 4 false)).committedStream 7 = some (streamOf .sfeed 4 false) ∧
      4 ≤ (streamOf .sfeed 4 false).chunks.length + (streamOf .sfeed 4 false).feeding.length) ∧
    (streamOf .sfeed 3 false).chunks.length + (streamOf .sfeed 3 false).feeding.length < 4 ∧ (running a0 strand).reg 0 = 0 ∧
    (streamOf .sfeed 0 true).ended = true ∧ (streamOf .pattern 0 false).source ≠ .sfeed ∧ strand.committedStream 7 = none ∧
    strand.vq = [] ∧ strand.frame = none ∧ Bare (running a0 strand) :=
  ⟨by decide, rfl, ok_of (by decide +kernel), heads _, by decide, ⟨rfl, by decide⟩, by decide, by decide, rfl, by decide, rfl, rfl, rfl, rfl⟩

/-- A read that is .ok and leaves a strand in slot 0. -/
theorem read_of {r : Res (List Word × State)} {st : Strand}
    (h : (match r with | .ok r => decide (r.2.strand? 0 = some st) | _ => false) = true) : ∃ x, r = .ok x ∧ x.2.strand? 0 = some st := by
  cases r <;> simp_all

/-- R211, R212, R216: a pattern's chunk that can be read, one that cannot, four that wait, and data that SFEED named. -/
theorem witness_stream_unit :
    let x := streamOf .pattern 2 false
    let y := { x with base := 0x900000 }
    let z := { streamOf .sfeed 0 false with feeding := [(0x1100, 4, [{ entry := page, old := [] }])] }
    let s := { at_ (streaming x) .execute with cur := { slot := 0, ctx := .execute, unit := 7 } }
    (streaming x).stream 7 = some x ∧ x.readFault = none ∧ x.output = false ∧ x.source = .pattern ∧ x.chunks.length < 4 ∧
    x.arrived < ceilDiv (x.count0 * x.count1 * x.count2) x.chunk ∧ 4 ≤ (streamOf .pattern 4 false).chunks.length ∧
    (∃ r, s.streamRead x (fun va n s => s.loadVA (agentOf 0 (streaming x) false (.stream 0 7)) (streaming x) 0 .load va n (fun _ => true) x.alloc)
      [(0x1108, false), (0x1109, false)] = .ok r ∧ r.2.strand? 0 = some (streaming x)) ∧
    z.feeding = (0x1100, 4, [{ entry := page, old := [] }]) :: [] ∧
    (∃ r, s.streamRead z (fun va n s => s.loadFed (agentOf 0 (streaming z) false (.stream 0 7)) (streaming z) z [{ entry := page, old := [] }] va n)
      ((List.range 4).map (fun (j : Nat) => (((0x1100 : Word).toNat + j * z.width / 8) % 2 ^ 64, j % 2 == 1))) = .ok r ∧ r.2.strand? 0 = some (streaming x)) ∧
    (∃ c va, ({ s with xlatFaults := [{ who := .stream 0 7, page := 0x900000, cause := .translationLoad }] } : State).streamRead y
      (fun va n s => s.loadVA (agentOf 0 (streaming y) false (.stream 0 7)) (streaming y) 0 .load va n (fun _ => true) y.alloc) [(0x900008, false), (0x900009, false)] = .fault c va) :=
  ⟨rfl, rfl, rfl, rfl, by decide, by decide, by decide, read_of (by decide +kernel), rfl, read_of (by decide +kernel), _, _, rfl⟩

/-- A context that waits in an instruction. -/
def waitsIn (k : Wait) (i : Instr) : Strand := with_ (fun c => { c with priv := true, wait := some { kind := k, since := 1928, instr := some i } })

/-- The waits of R14, R244, R246 and R322, in the execute context: nothing is due at the boundary. -/
theorem witness_waits :
    WaitsIn (at_ (waitsIn (.queue 0) (.qpop 9 0)) .execute) (waitsIn (.queue 0) (.qpop 9 0)) (.queue 0) (.qpop 9 0) 1928 ∧
    WaitsIn (at_ (waitsIn (.queue 2) (.qpush 9 2)) .execute) (waitsIn (.queue 2) (.qpush 9 2)) (.queue 2) (.qpush 9 2) 1928 ∧
    WaitsIn (at_ (waitsIn (.queue 1) (.bq 1 5)) .execute) (waitsIn (.queue 1) (.bq 1 5)) (.queue 1) (.bq 1 5) 1928 ∧
    WaitsIn (at_ (waitsIn (.watermark 1 3072) (.wmwait ys)) .execute) (waitsIn (.watermark 1 3072) (.wmwait ys)) (.watermark 1 3072) (.wmwait ys) 1928 ∧
    WaitsIn (at_ (waitsIn .barrier (.barwait ys)) .execute) (waitsIn .barrier (.barwait ys)) .barrier (.barwait ys) 1928 ∧
    WaitsIn (at_ (waitsIn (.wfe 1024) (.wfe ys)) .execute) (waitsIn (.wfe 1024) (.wfe ys)) (.wfe 1024) (.wfe ys) 1928 ∧
    WaitsIn (at_ (waitsIn .kend (.kend ys)) .execute) (waitsIn .kend (.kend ys)) .kend (.kend ys) 1928 ∧
    WaitsIn (at_ (waitsIn .region (.splpt ys)) .execute) (waitsIn .region (.splpt ys)) .region (.splpt ys) 1928 ∧
    WaitsIn (at_ (waitsIn .gate (.ldd 9 3 0)) .execute) (waitsIn .gate (.ldd 9 3 0)) .gate (.ldd 9 3 0) 1928 :=
  ⟨⟨rfl, rfl, rfl, rfl⟩, ⟨rfl, rfl, rfl, rfl⟩, ⟨rfl, rfl, rfl, rfl⟩, ⟨rfl, rfl, rfl, rfl⟩, ⟨rfl, rfl, rfl, rfl⟩, ⟨rfl, rfl, rfl, rfl⟩,
    ⟨rfl, rfl, rfl, rfl⟩, ⟨rfl, rfl, rfl, rfl⟩, ⟨rfl, rfl, rfl, rfl⟩⟩

/-- A QPOP that waits while its queue holds a value. -/
def popping : Strand := { waitsIn (.queue 0) (.qpop 9 0) with queues := fourQueues.queues }

/-- A WMWAIT on watermark 1 whose value is g[r]. -/
def watching (r : Reg) : Strand :=
  { waitsIn (.watermark 1 3072) (.wmwait { ys with gd := 1, ga := r }) with watermarks := marked.watermarks }

/-- The ends of the waits: a value has come, a word has been reached, and has not at the limit, a phase has turned, the limit of a WFE. -/
theorem witness_wait_ends :
    (WaitsIn (at_ popping .execute) popping (.queue (0 : BitVec 2).toNat) (.qpop 9 0) 1928 ∧ pops CtxId.execute 0 ∧
      inQueue popping 0 = 7 :: []) ∧
    (WaitsIn (at_ (watching 9) .execute) (watching 9) (.watermark 1 3072) (.wmwait { ys with gd := 1, ga := 9 }) 1928 ∧
      (watermarkOf (watching 9) { ys with gd := 1 }).word ≠ 0 ∧
      Reads (at_ (watching 9) .execute) (watching 9) 0x1100 8 (.dev 0x1100) ∧
      ((running (at_ (watching 9) .execute) (watching 9)).reg 9).toNat ≤ numberAt (at_ (watching 9) .execute) (.dev 0x1100) 8) ∧
    (WaitsIn (at_ (watching 5) .execute) (watching 5) (.watermark 1 3072) (.wmwait { ys with gd := 1, ga := 5 }) 1928 ∧
      numberAt (at_ (watching 5) .execute) (.dev 0x1100) 8 < ((running (at_ (watching 5) .execute) (watching 5)).reg 5).toNat ∧
      (3072 : Nat) = 1024 * (watermarkOf (watching 5) { ys with gd := 1 }).limit ∧ 3072 ≤ (at_ (watching 5) .execute).now - 1928) ∧
    (let f := { ys with ga := 3 }
     let st := { waitsIn .barrier (.barwait f) with exec := { (waitsIn .barrier (.barwait f)).exec with g := ctx.g.set 3 0x1140 } }
     let s := { (barrier false).2 with strands := [(0, st)] }
     WaitsIn s st .barrier (.barwait f) 1928 ∧ Bare (running s st) ∧ ((running s st).reg 3).toNat % 64 = 0 ∧
      s.heldBack (env s st) none = false ∧ (∃ bs, s.readObject (env s st) 0x1140 64 = .ok bs ∧ badObject bs = false ∧
      fieldLE bs 7 1 / 128 ≠ ((running s st).reg 5).toNat % 2)) ∧
    (let f := { ys with imm := 1 }
     WaitsIn (at_ (waitsIn (.wfe 1024) (.wfe f)) .execute) (waitsIn (.wfe 1024) (.wfe f)) (.wfe (1024 * f.imm.toNat)) (.wfe f) 1928) :=
  ⟨⟨⟨rfl, rfl, rfl, rfl⟩, by simp [pops], rfl⟩, ⟨⟨rfl, rfl, rfl, rfl⟩, by decide, ⟨rfl, rfl, rfl, rfl, rfl⟩, by decide⟩,
    ⟨⟨rfl, rfl, rfl, rfl⟩, by decide, by decide, by decide⟩,
    ⟨⟨rfl, rfl, rfl, rfl⟩, rfl, by decide, by decide, _, rfl, by decide, by decide⟩, ⟨rfl, rfl, rfl, rfl⟩⟩

/-- A word is reached by a wait's read of it, which is not below a value; and one is not. -/
theorem witness_wait_reads :
    (let s := at_ (watching 9) .execute
     let st := watching 9
     let got := (s.cacheTranslation (agent s st) (watermarkOf st { ys with gd := 1 }).word.toNat).readPlace (clusterOf s.cur.slot) (.dev 0x1100) 8 (fun _ => false) false
     s.heldBack (env s st) none = false ∧ ((running s st).reg 9).toNat ≤ leNat got.1 ∧ leNat got.1 < ((running s st).reg 5).toNat) := by decide +kernel

/-- A group of two, a producer and a consumer of one virtual cluster, with a share of three strips and a window of two. -/
def spliced (gate : Nat) : SpliceGroup :=
  { members := [(0, 0), (0, 1)], vclusters := 1, spliceBytes := 0, shares := [[(0, 3)], [(0, 3)]], ended := []
    pairs := [{ producer := 0, consumer := 1
                operand := { base := 0x40000, tag := 5, rank := 1, kind := 1, liveout := false, consumedOnce := true, wmen := false, wmidx := 0
                             shape := [8], stride := [8], coef := [[1]], offset := [0] }
                desc := { rank := 1, stripdim := 0, spliceable := true, kernelId := 0, bounds := [8], striplen := 1, watermarks := [], operands := [] }
                inverse := [[1]], elided := false, window := 2, shares := [(0, 3)], needs := [[0], [1], [2]] }]
    runs := [{ vcluster := 0, place := 0, gate := gate, consumed := 0, written := [], producerEnded := false }] }

/-- R240, R278, R279: a KEND with nothing left, an SPLPT with its share claimed, and with a region free, and a load past its gate. -/
theorem witness_execute_waits :
    (let st := waitsIn .kend (.kend ys)
     let s := at_ st .execute
     Bare st.exec ∧ st.vq = [] ∧ st.pending = [] ∧ Unasked st.exec ∧ s.drained 0 st = true ∧ s.acksOwed = false ∧ lives st.access) ∧
    (let st := { waitsIn .region (.splpt ys) with group := some (7, 0), splpts := 3 }
     let s := { at_ st .execute with groups := [(7, spliced 0)] }
     WaitsIn s st .region (.splpt ys) 1928 ∧ (s.cluster (clusterOf 0)).matrixOf 0 = [] ∧ lookup s.groups 7 = some (spliced 0) ∧
      ((spliced 0).share 0 st.vcluster).2 ≤ st.splpts) ∧
    (let st := { waitsIn .region (.splpt ys) with group := some (7, 0), splpts := 1, counted := true }
     let s := { at_ st .execute with groups := [(7, spliced 1)] }
     WaitsIn s st .region (.splpt ys) 1928 ∧ st.splpts < ((spliced 1).share 0 st.vcluster).2 ∧
      (spliced 1).regionHeld 0 st.vcluster = false) ∧
    (let st := waitsIn .gate (.ldd 9 3 0)
     let s := at_ st .execute
     (st.exec.reg 3 + (0 : BitVec 13).signExtend 64).toNat % 8 = 0 ∧ Reads s st 0x1100 8 (.dev 0x1100) ∧ isHost (.dev 0x1100) = false ∧
      (s.cluster (clusterOf 0)).l1 = []) :=
  ⟨⟨rfl, rfl, rfl, by decide, by decide, by decide, by simp only [lives]; decide⟩, ⟨⟨rfl, rfl, rfl, rfl⟩, rfl, rfl, by decide⟩,
    ⟨⟨rfl, rfl, rfl, rfl⟩, by decide, by decide⟩, ⟨by decide, ⟨rfl, rfl, rfl, rfl, rfl⟩, rfl, rfl⟩⟩

/-- R309, R311, R315, R316: a fault that the lanes have found, an engine command's error, and requests at the limit. -/
theorem witness_hardware_trap :
    let st := { strand with canlimit := (500 : Half), fault := some { cause := .tagMismatch, tval := 7, pc := 0x5000, strip := 0, element := 3 } }
    let a := with_ (fun c => { c with engineErrors := [(.misaligned, 0x9000, 2)], preempt := some 4500, cancel := none })
    let b := with_ (fun c => { c with cancel := some 4500 })
    lives st.exec ∧ st.exec.intrap = false ∧ st.exec.midSequence = false ∧ st.fault.isSome = true ∧ st.life = .running ∧ st.ending = none ∧
    (at_ st .execute).arrayBusy 0 = false ∧ (at_ st .execute).startedWork 0 st = false ∧ (waitsIn .kend (.kend ys)).exec.wait.isSome = true ∧
    (lives a.exec ∧ a.exec.engineErrors = (.misaligned, 0x9000, 2) :: [] ∧ a.exec.prefixes = none ∧ a.exec.preempt = some 4500 ∧ a.exec.cancel = none) ∧
    st.canlimit ≠ 0 ∧ st.canlimit.toNat ≤ s0.now - 4500 ∧ b.exec.cancel = some 4500 ∧ lives b.access ∧ strand.exec.preempt = none ∧
    (3 : BitVec 8).toNat ≤ 3 ∧ s0.outranked 0 = false := by
  simp only [lives]; decide

/-- An engine command of the strand in slot 0. -/
def command (i : Instr) (desc : Word) (stopped : Bool) : EngineCmd :=
  { id := 5, slot := 0, ctx := .execute, pc := 0x700, instr := i, desc := desc, object := 0, scope := 0, priv := false, asid := 0, root := 0
    strip := 0, behind := 0, upTo := 0, owner := (0, 0, .execute), stopped := stopped }

/-- The machine with such a command, in a launch. -/
def engineState (e : EngineCmd) : State := { s0 with launches := [(0, launch0)], partitions := [(0, part0)], queues := [(0, queue0)], engines := [e] }

/-- R257: 15 commands, and 16, outstanding. -/
theorem witness_engine_issue :
    let e := command (.upd ys) 0x1100 false
    outstanding ({ s0 with engines := List.replicate 15 e } : State) strand < 16 ∧
    16 ≤ outstanding ({ s0 with engines := List.replicate 16 e } : State) strand := by decide

/-- A command's work comes to an end with no stop, and no strand and no other command changes. -/
theorem ends_of {s : State} {e : EngineCmd}
    (h : (match s.work e with
      | (some _, j) => j.stop.isNone && decide (j.s.strands = s.strands) &&
        decide (j.s.engines.filter (fun x => x.id != e.id) = s.engines.filter (fun x => x.id != e.id))
      | _ => false) = true) :
    ∃ ending j, s.work e = (some ending, j) ∧ j.stop = none ∧ j.s.strands = s.strands ∧
      (∀ x, x.id ≠ e.id → (x ∈ j.s.engines ↔ x ∈ s.engines)) := by
  split at h
  · rename_i j hj
    simp only [Bool.and_eq_true, Option.isNone_iff_eq_none, decide_eq_true_eq] at h
    refine ⟨_, j, hj, h.1.1, h.1.2, fun x hx => ?_⟩
    have hm : x ∈ j.s.engines.filter (fun x => x.id != e.id) ↔ x ∈ s.engines.filter (fun x => x.id != e.id) := by rw [h.2]
    simpa [List.mem_filter, hx] using hm
  · exact absurd h (by simp)

/-- R246, R255: a command that is stopped, one whose descriptor is misaligned, and one whose work comes to an end. -/
theorem witness_engine_end :
    let a := command (.upd { ys with gb := 0 }) 0x1100 true
    let b := command (.upd { ys with gb := 0 }) 0x1104 false
    let c := command (.rinv { ys with gb := 0 }) 0x1100 false
    (engineState a).residentOwner a = some (0, strand) ∧ (engineState b).residentOwner b = some (0, strand) ∧
    (engineState a).engines.find? (fun x => x.id == a.id) = some a ∧ (commandFields a.instr).gb = 0 ∧
    (∀ x ∈ (engineState a).engines, x.id ≠ 6) ∧
    (engineState b).mayEnd b = true ∧ b.snap = none ∧ b.desc.toNat % (descriptorSize b.instr).2 ≠ 0 ∧ strand.exec.retired = false ∧
    (engineState c).mayEnd c = true ∧ (∃ ending j, (engineState c).work c = (some ending, j) ∧ j.stop = none ∧
      j.s.strands = (engineState c).strands ∧ (∀ x, x.id ≠ c.id → (x ∈ j.s.engines ↔ x ∈ (engineState c).engines))) :=
  ⟨rfl, rfl, rfl, rfl, by decide, by decide, rfl, by decide, rfl, by decide, ends_of (by decide +kernel)⟩

/-- A strand that was pre-empted. -/
def preempted : Strand := { strand with life := .preempted, asid := 2, ptroot := 0x8000 }

/-- What holds of every plan, where it holds of the one there may be. -/
theorem of_all {α : Type} {o : Option α} {q : α → Bool} (h : o.all q = true) : ∀ p, o = some p → q p = true := by
  intro p hp
  subst hp
  exact h

/-- R35, R37, R317, R347: a placed strand whose turn has come, the first of its launch on its cluster, and one behind another; one that runs; and a
pre-empted one with a slot that suits it, whose launch no other comes before. -/
theorem witness_start :
    (let st := { strand with life := .placed }
     let s := { at_ st .execute with launches := [(0, launch0)] }
     s.launch? st.launch = some launch0 ∧ st.life = .placed ∧ s.startsNext launch0 st = true ∧ launch0.spec.cohort = false ∧ launch0.group = none ∧
      s.firstOn 0 0 = true ∧ { s with strands := [(0, { st with vcluster := 1 }), (4, st)] }.startsNext { launch0 with spec := { spec0 with vclusters := 2 } }
        { st with vcluster := 1 } = false) ∧
    strand.life ≠ .placed ∧
    (let l := { launch0 with preempted := [preempted] }
     let s := { s0 with strands := [], launches := [(0, l)], partitions := [(0, part0)], queues := [(0, queue0)], spaces := [(2, space0)] }
     s.launch? 0 = some l ∧ l.preempted.find? (fun x => x.ordinal == 0) = some preempted ∧ s.locked l.queue = false ∧
      s.suits l preempted 4 = true ∧ 4 < Config.slots ∧ (∀ p, s.launchPlan l = some p → s.served p = true) ∧ l.spec.cohort = false ∧ l.id = 0) :=
  ⟨⟨rfl, rfl, by decide, rfl, rfl, by decide, by decide⟩, by decide, rfl, rfl, rfl, by decide, by decide, of_all (by decide), rfl, rfl⟩

/-- A page-table entry: present, readable, A and D clear; its bits above say the rest. -/
def walkState (pte : Nat) (pri ats : Bool) (w : Walk) : State :=
  { s0 with
    walkCache := [{ die := 0, asid := 2, level := 4, pfx := 1, table := 0x20000 }]
    dev := { cells := ((leBytes 8 pte).zipIdx.filter (fun b => b.1 != 0)).map (fun b => (0x20000 + b.2, b.1)) }
    walks := [(4, w)]
    spaces := [(2, { space0 with pri := pri, ats := ats })] }

/-- A walk for the first page of 2 MiB. -/
def walk (intent : Intent) (ats stale : Bool) : Walk :=
  { quad := 0, asid := 2, root := 0x8000, va := 0x200010, intent := intent, priv := true, startSeq := 0, who := [.context 0 .execute], ats := ats, stale := stale }

/-- The end of a walk for the page, and what its access is permitted. -/
def reached (pte : Nat) (w : Walk) : WalkEnd := (walkState pte false false w).walkTable (dieOf (4 * w.quad)) w.asid w.root w.va

/-- A leaf in the entry of the page. -/
def leafOf (pte : Nat) : Leaf := { level := 5, addr := 0x20000, entry := BitVec.ofNat 64 pte }

/-- R326 to R332: walks that end in each way: the entry says not present, not readable, readable device memory, host memory, and a bit that is
reserved; the walk is for a load, is stale, waits for the host. -/
theorem witness_walk :
    lookup (walkState 0 false false (walk .load false false)).walks 4 = some (walk .load false false) ∧
    (walk .load false false).ats = false ∧ (walkState 0 false false (walk .load false false)).hasWalker 4 (walk .load false false) = true ∧
    reached 0 (walk .load false false) = .notPresent ∧ takesPri (walkState 0 false false (walk .load false false)) 2 = false ∧
    takesPri (walkState 0 true true (walk .load false false)) 2 = true ∧
    reached 0x101 (walk .load false false) = .protection ∧
    (reached 0x30087 (walk .load false false) = .leaf (leafOf 0x30087) ∧ (leafOf 0x30087).permits .load true = true ∧
      pteTier (leafOf 0x30087).entry = 0 ∧ pteC64 (leafOf 0x30087).entry = false ∧ (leafOf 0x30087).permits .fetch true = false ∧
      (walkState 0x30087 false false (walk .load false false)).memWf = true) ∧
    (reached 0x30487 (walk .load false false) = .leaf (leafOf 0x30487) ∧ (leafOf 0x30487).permits .load true = true ∧
      pteTier (leafOf 0x30487).entry = 1 ∧ takesAts (walkState 0x30487 false true (walk .load false false)) 2 = true ∧
      takesAts (walkState 0x30487 false false (walk .load false false)) 2 = false) ∧
    (pteC64 (leafOf 0x30587).entry = true ∧ (walkState 0x30587 false true (walk .load true false)).blockWhole (leafOf 0x30587) = false ∧
      reached 0x30587 (walk .load true false) = .leaf (leafOf 0x30587)) ∧
    ((walk .load false false).who ++ (walk .load false false).also = [.context 0 .execute]) ∧
    (walk .load false true).stale = true ∧ (walk .load true false).ats = true ∧ hostGrants true false .load = true ∧
    hostGrants true false .store = false ∧ (12 : Nat) ≤ 12 := by decide

/-- R330, R331: a space that a PASID and function name; page requests before, at and with no limit. -/
theorem witness_page_request :
    let r : PageReq := { asid := 2, va := 0x5000, intent := .load, since := 7, who := [.lanes 2], pasid := 9, func := 1, last := true }
    let s := fun (limit now : Nat) => ({ s0 with spaces := [(2, { space0 with pritmo := limit })], pageReqs := [(6, r)], now := now } : State)
    (s 0 7).spaceOf 9 1 = some 2 ∧ (s 0 7).atsOwed = [] ∧ (∀ e ∈ (s 0 7).strands, e.2.allStreams = []) ∧ lookup (s 0 7).pageReqs 6 = some r ∧ lookup (s 1 7).spaces r.asid = some { space0 with pritmo := 1 } ∧
    (s 1 1048582).now - r.since < 1 * 2 ^ 20 ∧ 1 * 2 ^ 20 ≤ (s 1 1048583).now - r.since ∧ PriAnswer.responseFailure ≠ .success := by decide

/-- A packet of 64 bytes. -/
def packet (n : Nat) (kind : PacketKind) (bytes : List Byte) (state : PacketState) : Packet :=
  { seq := n, stamp := n, bytes := bytes, kind := kind, prio := 0, deps := [], spec := none, refusal := none, group := none, state := state }

/-- Bytes, zero but for a few little-endian fields, given as offset, size and value. -/
def bytesOf (n : Nat) (fields : List (Nat × Nat × Nat)) : List Byte :=
  fields.foldl (fun bs f => bs.take f.1 ++ leBytes f.2.1 f.2.2 ++ bs.drop (f.1 + f.2.1)) (List.replicate n 0)

/-- A queue with a packet that has ended or not, and one of a kind. -/
def queueWith (first : PacketState) (p : Packet) : Queue := { queue0 with fetched := 2, notify := 2, packets := [packet 0 .nop [] first, p] }

/-- A core that runs. -/
def core0 : Core := { heartbeat := 5, lastBeat := 0, event := none, lock := none, held := [], checkpoint := 0 }

/-- The machine with a queue. -/
def queueState (x : Queue) : State := { s0 with queues := [(0, x)], partitions := [(0, part0)], spaces := [(2, space0)], cores := [(0, core0)] }

/-- R338: a queue whose notify word is written, and a scan with a set bit, and with none. -/
theorem witness_notify :
    (queueState queue0).queue? 0 = some queue0 ∧ queue0.destroyed = none ∧ (11 : Nat) < 12 ∧
    (∃ e ∈ (queueState { queue0 with pending := true }).queues, e.2.part = 0 ∧ e.2.pending = true) ∧
    lookup (queueState queue0).partitions 0 = some part0 ∧ ∀ e ∈ (queueState queue0).queues, e.2.pending = false :=
  ⟨rfl, rfl, by decide, ⟨_, List.mem_singleton.2 rfl, rfl, rfl⟩, rfl, by decide⟩

/-- R338, R339: a fetch event, with the notify word at the packets fetched, one above them, at the ring's size, and past it. -/
theorem witness_fetch :
    let s : State := { queueState queue0 with inlet := [.fetch 0, .command 3] }
    s.replaying = [] ∧ s.inlet = .fetch 0 :: [.command 3] ∧ s.locked 0 = false ∧ s.coreRuns 0 0 = true ∧
    (0 : Word).toNat ≤ queue0.fetched ∧ queue0.fetched < (16 : Word).toNat ∧ (16 : Word).toNat ≤ queue0.fetched + 2 ^ queue0.log2n ∧
    queue0.fetched + 2 ^ queue0.log2n < (17 : Word).toNat := by decide

/-- A machine of one queue that is not destroyed, and none of whose packets is struck, is settled. -/
theorem settled_of {x : Queue} (quiet : ∀ y ∈ x.packets, (queueState x).struck x y = false) (kept : x.destroyed = none) : Settled (queueState x) 0 :=
  { quiet := by
      intro e he y hy
      obtain rfl := List.mem_singleton.1 he
      exact quiet y hy
    kept := by
      intro e he
      obtain rfl := List.mem_singleton.1 he
      exact kept
    number := by decide }

/-- A packet that is due, behind one that has ended. -/
theorem due_of (kind : PacketKind) (bytes : List Byte) (state : PacketState)
    (turn : (queueWith (.ended 1) (packet 1 kind bytes state)).due 1 [] = true)
    (core : ((queueState (queueWith (.ended 1) (packet 1 kind bytes state))).coreFor 0 0).isSome = true)
    (quiet : ∀ y ∈ (queueWith (.ended 1) (packet 1 kind bytes state)).packets,
      (queueState (queueWith (.ended 1) (packet 1 kind bytes state))).struck (queueWith (.ended 1) (packet 1 kind bytes state)) y = false) :
    Due (queueState (queueWith (.ended 1) (packet 1 kind bytes state))) 0 1 kind (queueWith (.ended 1) (packet 1 kind bytes state))
      (packet 1 kind bytes state) :=
  { queue := rfl, packet := rfl, number := rfl, kind := rfl, turn := turn, core := core
    settled := settled_of quiet rfl }

/-- R344: a NOP, a BARRIER and a WAITVAL that are due, the last before and after its first read; each condition, holding and not. -/
theorem witness_ordering :
    let w := bytesOf 64 [(0, 1, 5), (24, 8, 3), (32, 8, 0xFF), (40, 1, 2)]
    Due (queueState (queueWith (.ended 1) (packet 1 .nop [] .fetched))) 0 1 .nop (queueWith (.ended 1) (packet 1 .nop [] .fetched)) (packet 1 .nop [] .fetched) ∧
    Due (queueState (queueWith (.ended 1) (packet 1 .barrier [] .fetched))) 0 1 .barrier (queueWith (.ended 1) (packet 1 .barrier [] .fetched)) (packet 1 .barrier [] .fetched) ∧
    Due (queueState (queueWith (.ended 1) (packet 1 .waitval w .fetched))) 0 1 .waitval (queueWith (.ended 1) (packet 1 .waitval w .fetched)) (packet 1 .waitval w .fetched) ∧
    Due (queueState (queueWith (.ended 1) (packet 1 .waitval w .started))) 0 1 .waitval (queueWith (.ended 1) (packet 1 .waitval w .started)) (packet 1 .waitval w .started) ∧
    (packet 1 .nop [] .fetched).unstarted = true ∧ conditionHolds (packet 1 .waitval w .fetched) 3 ∧ ¬ conditionHolds (packet 1 .waitval w .fetched) 2 :=
  ⟨due_of _ _ _ (by decide) (by decide) (by decide), due_of _ _ _ (by decide) (by decide) (by decide),
    due_of _ _ _ (by decide) (by decide) (by decide), due_of _ _ _ (by decide) (by decide) (by decide), rfl,
    by simp only [conditionHolds]; decide, by simp only [conditionHolds]; decide⟩

/-- R344: a BARRIER behind a launch that has started and not ended. -/
theorem witness_barrier_held :
    let x := { queueWith .started (packet 1 .barrier [] .fetched) with packets := [packet 0 .launch [] .started, packet 1 .barrier [] .fetched] }
    Due (queueState x) 0 1 .barrier x (packet 1 .barrier [] .fetched) ∧ ∃ y ∈ x.packets.take 1, ∀ status, y.state ≠ .ended status := by
  refine ⟨{ queue := rfl, packet := rfl, number := rfl, kind := rfl, turn := by decide, core := by decide, settled := settled_of (by decide) rfl },
    packet 0 .launch [] .started, List.mem_singleton.2 rfl, by simp [packet]⟩

/-- A machine that translates page 0x5000 of space 2 to host page 0x35000 for the firmware. -/
def mapped (s : State) : State :=
  { s with
    walkCache := [{ die := 0, asid := 2, level := 4, pfx := 0, table := 0x20000 }]
    dev := { cells := [(0x20028, 0xEB), (0x20029, 0x54), (0x2002A, 3)] }
    spaces := [(2, { space0 with ats := true })] }

/-- R351: a NOP whose record's 64 bytes lie in host memory. -/
theorem witness_record :
    let p := packet 1 .nop (bytesOf 64 [(8, 8, 0x5000)]) .fetched
    let s := mapped (queueState (queueWith (.ended 1) p))
    p.compl ≠ 0 ∧ s.memWf = true ∧ ∀ i < 64, (s.fwMark 2 p.compl.toNat 64 .store).firmwarePlace 2 (p.compl.toNat + i) .store = some (.host (0x35000 + i)) := by decide +kernel

/-- A region of the weight store with its slots. -/
def region (a b : Option Generation) : WsRegion := { offset := 4096, place := 2, maxSize := 3000, nextGen := 6, slots := #v[a, b] }

/-- A generation. -/
def generation (n : Nat) (released : Bool) (pins : List Nat) : Generation := { gennum := n, released := released, pins := pins }

/-- R95, R345: a WSLOAD with a free slot, with none, and of another region; a WSREL of a generation that is pinned, that is not, with the other
slot occupied, and of none. -/
theorem witness_weight :
    let bs := bytesOf 64 [(0, 1, 6), (16, 8, 7), (32, 4, 4096), (36, 1, 2), (40, 8, 3000)]
    let p := packet 1 .wsload bs .fetched
    let s := fun (a b : Option Generation) => ({ queueState (queueWith (.ended 1) p) with regions := [(7, region a b)] } : State)
    let g := generation 5 false
    ((s none none).regionFor p).offset = fieldLE p.bytes 32 4 ∧ ((s none none).regionFor p).place = fieldLE p.bytes 36 1 ∧
    fieldLE p.bytes 40 8 ≤ ((s none none).regionFor p).maxSize ∧ (region none none).slots[(1 : Fin 2)] = none ∧
    (∀ j : Fin 2, (region (some (g [])) (some (g [2]))).slots[j] ≠ none) ∧ ((s none none).regionFor { p with bytes := bytesOf 64 [(16, 8, 7)] }).offset ≠ 0 ∧
    (region (some (g [2])) (some (generation 6 false []))).slots.toList[0]? = some (some (g [2])) ∧ (g [2]).pins ≠ [] ∧ (g []).pins = [] ∧
    (g []).gennum = 5 ∧ (generation 6 false []).gennum ≠ 5 ∧ (generation 6 false []).released = false ∧ (s none none).memWf = true := by decide

/-- R287, R343: a DEPGRAPH of one task under a free number, and under one that is active. -/
theorem witness_graph :
    let bs := bytesOf 64 [(0, 1, 8), (16, 2, 1), (20, 4, 1), (24, 8, 0x5000)]
    let p := packet 1 .depgraph bs .fetched
    let x := queueWith (.ended 1) p
    let task := bytesOf 128 [(0, 1, 1), (32, 8, 0xFFFFFFFFFFFFFFFF), (40, 8, 0xFFFFFFFFFFFFFFFF)]
    let s : State := { mapped (queueState x) with host := { cells := (0x35000, 1) :: (List.range 16).map (fun i => (0x35020 + i, 0xFF)) } }
    s.taskBytes x p = [task] ∧ (fieldLE task 0 1 = 1 ∧ ∀ d < 4, fieldLE task (32 + 4 * d) 4 = 0xFFFFFFFF) ∧
    lookup s.graphs (0 * 65536 + fieldLE p.bytes 16 2) = none ∧ s.graphs.length < 64 ∧
    lookup ({ s with graphs := [(1, graph)] } : State).graphs (0 * 65536 + fieldLE p.bytes 16 2) ≠ none := by decide +kernel

/-- A LAUNCH of one virtual cluster. -/
def launching (state : PacketState) : Packet := { packet 1 .launch (bytesOf 128 [(0, 1, 1)]) state with spec := some spec0 }

/-- The same, noted as dispatchable with itself in its window. -/
def readied (state : PacketState) : Packet := { launching state with ready := some (0, [(0, 1)]) }

/-- R346, R348: a LAUNCH in its window, a SIBLAUNCH, a LAUNCH that is decided alone, and one that is not due yet. -/
theorem witness_window :
    let p := packet 1 .launch (bytesOf 128 [(0, 1, 1)]) .fetched
    let x := queueWith (.ended 1) p
    let s := queueState x
    (s.coreFor 0 0).isSome = true ∧ (0, p) ∈ s.window 0 ∧ (packet 1 .siblaunch [] .fetched).state = .fetched ∧
    (let y := queueWith (.ended 1) (readied .windowed)
     (readied .windowed).ready = some (0, [(0, 1)]) ∧ y.due 1 [] = true ∧ (queueState y).depsMet y (readied .windowed) [] = true ∧
      (queueState y).firstReady y.part 0 = true ∧ (∀ m ∈ (queueState y).window 0, (m.1, m.2.seq) ∈ [(0, 1)] → m.2.state ≠ .fetched) ∧
      (readied .windowed).spliceSpec = none) ∧ (launching .windowed).ready = none ∧
    (queueWith .started (launching .windowed)).due 1 [] = false := by decide

/-- A machine that may dispatch packet 1. -/
def dispatching (p : Packet) : State := { queueState (queueWith (.ended 1) p) with strands := [] }

/-- The plan for it, with its members, places and turn. -/
theorem witness_dispatch :
    let s := dispatching (launching .decided)
    let r := dispatching { launching .decided with refusal := some 3 }
    (∃ p, s.planNamed 0 1 0 0 = some p ∧ p.members = [(0, 1, spec0)] ∧ p.placed = [] ∧ p.group = none ∧ p.task = none ∧ p.sib = none ∧
      s.coreRuns p.part 0 = true ∧ s.reasons p = [] ∧ s.placementOk p (placements [(0, 1, 0)]) = true ∧ s.served p = true) ∧
    (∃ p, r.planNamed 0 1 0 0 = some p ∧ r.reasons p ≠ []) ∧ s.dispatchDue 0 = true ∧ s.locked 0 = false ∧ s.replaying = [] ∧ Undepended s 0 1 := by
  refine ⟨⟨_, rfl, rfl, rfl, rfl, rfl, rfl, by decide, by decide, by decide, by decide⟩, ⟨_, rfl, by decide⟩, by decide, by decide, rfl, ?_⟩
  intro e he y hy
  obtain rfl := List.mem_singleton.1 he
  revert y
  decide

/-- R340: a heartbeat at its limit, and one cycle before. -/
theorem witness_core :
    let s : State := { s0 with cores := [(0, { core0 with lastBeat := 50, event := some (.fetch 2) })], now := 1048626 }
    (s.core 0).lastBeat + 2 ^ 20 ≤ s.now ∧ (s.core 0).event = some (.fetch 2) ∧ (s.now : Nat) - 1 < (s.core 0).lastBeat + 2 ^ 20 := by decide

/-- R351, R352: a launch whose strands are gone, with each status, and one with a strand left. -/
theorem witness_complete :
    let l := { launch0 with seq := 1, words := [{ ordinal := 0, status := 1, cause := 3, flags := 0 }] }
    let s := { queueState (queueWith (.ended 1) (packet 1 .launch [] .started)) with strands := [], launches := [(0, l)] }
    s.launch? 0 = some l ∧ s.launchOver l = true ∧ (s.coreFor l.queue l.part).isSome = true ∧ l.siblings = none ∧ l.task = none ∧ l.group = none ∧
    ({ s with strands := [(0, strand)] } : State).launchOver l = false := by decide

/-- A mailbox that holds a command. -/
def mailbox (cmd : Nat) (operands : List (Nat × Nat × Nat)) : Mailbox :=
  { addr := 0x7000, last := 9, irqen := false, busy := true, block := bytesOf 64 ((0, 2, cmd) :: operands) }

/-- The machine with a command in the mailbox of a function. -/
def asked (func cmd : Nat) (operands : List (Nat × Nat × Nat)) : State :=
  { queueState queue0 with mailboxes := [(func, mailbox cmd operands)], cur := { slot := 0, ctx := .execute, unit := func }, inlet := [.command func] }

/-- R359, R360: a CMD that is not assigned, and each of the physical function's in the mailbox of a virtual one. -/
theorem witness_mailbox :
    Asked (asked 1 0x32 []) 0x32 ∧ 0x32 ∉ [1, 2, 3, 4, 0x10, 0x11, 0x20, 0x21, 0x30, 0x31] ∧ (asked 1 0x10 []).memWf = true ∧
    (asked 1 0x10 []).cur.unit ≠ 0 ∧ Asked (asked 1 0x10 []) 0x10 ∧ Asked (asked 1 0x11 []) 0x11 ∧ Asked (asked 1 0x20 []) 0x20 ∧
    Asked (asked 1 0x21 []) 0x21 ∧ Asked (asked 1 0x30 []) 0x30 ∧ Asked (asked 1 0x31 []) 0x31 :=
  ⟨⟨rfl, rfl, rfl, rfl, by decide, rfl⟩, by decide, by decide, by decide, ⟨rfl, rfl, rfl, rfl, by decide, rfl⟩, ⟨rfl, rfl, rfl, rfl, by decide, rfl⟩, ⟨rfl, rfl, rfl, rfl, by decide, rfl⟩,
    ⟨rfl, rfl, rfl, rfl, by decide, rfl⟩, ⟨rfl, rfl, rfl, rfl, by decide, rfl⟩, ⟨rfl, rfl, rfl, rfl, by decide, rfl⟩⟩

/-- A queue record with the smallest ring, for space 2 of partition 0. -/
def queueRecord (log2n : Nat) : List (Nat × Nat × Nat) := [(8, 8, 0x5000), (16, 1, log2n), (17, 1, 2), (18, 1, 0), (19, 1, 7), (20, 2, 2)]

/-- R337, R354: a record that keeps its limits, and one that does not; queues that are there, and are not. -/
theorem witness_queue_commands :
    Asked (asked 0 1 (queueRecord 4)) 1 ∧ (∃ x, parseQueue (((asked 0 1 (queueRecord 4)).mailbox 0).block.drop 8) = some x ∧
      lookup (asked 0 1 (queueRecord 4)).spaces x.asid = some space0 ∧ space0.part = x.part ∧ (∃ q < 4096, (asked 0 1 (queueRecord 4)).queue? q = none) ∧
      lookup ({ asked 0 1 (queueRecord 4) with spaces := [] } : State).spaces x.asid = none) ∧
    parseQueue (((asked 0 1 (queueRecord 31)).mailbox 0).block.drop 8) = none ∧
    (let s := asked 1 2 [(8, 8, 0), (16, 8, 1)]
     Asked s 2 ∧ operandOf s 1 ≤ 1 ∧ s.queue? (operandOf s 0) = some queue0 ∧ (1 = queue0.part + 1) ∧ s.locked 0 = false ∧ s.firstOf (.command 1) 0 = true ∧
      queue0.notify.toNat ≤ queue0.fetched ∧ (∀ e ∈ s.queues, ∀ y ∈ e.2.packets, y.deps = []) ∧
      (∀ (k : Nat) (p : Packet), queue0.packets[k]? = some p → p.seq = k)) ∧
    (asked 1 2 [(8, 8, 5)]).queue? (operandOf (asked 1 2 [(8, 8, 5)]) 0) = none :=
  ⟨⟨rfl, rfl, rfl, rfl, by decide, rfl⟩, ⟨_, rfl, rfl, rfl, ⟨1, by decide, rfl⟩, rfl⟩, rfl,
    ⟨⟨rfl, rfl, rfl, rfl, by decide, rfl⟩, by decide, rfl, rfl, by decide, by decide, by decide, by decide, fun k p h => by simp [queue0] at h⟩, rfl⟩

/-- R323, R354: a space to bind, one that is bound, and spaces that a queue uses and that none uses. -/
theorem witness_space_commands :
    let s := fun (pasid : Nat) => asked 0 3 [(8, 8, pasid), (16, 3, pasid), (19, 1, 1), (20, 1, 0), (24, 8, 0x9000)]
    let u := fun (a : Nat) => ({ asked 0 4 [(8, 8, a)] with spaces := [(2, space0), (3, space0)] } : State)
    Asked (s 5) 3 ∧ (∃ r, parseSpace (((s 5).mailbox 0).block.drop 16) = some r ∧ operandOf (s 5) 0 = r.pasid ∧ (s 5).spaceOf r.pasid r.func = none) ∧
    (∃ r, parseSpace (((s 9).mailbox 0).block.drop 16) = some r ∧ (s 9).spaceOf r.pasid r.func ≠ none) ∧
    (∃ a < 65536, a ≠ 0 ∧ lookup (s 5).spaces a = none) ∧
    Asked (u 3) 4 ∧ (∃ e ∈ (u 2).queues, e.2.asid = 2) ∧ (∀ e ∈ (u 3).queues, e.2.asid ≠ 3) ∧ lookup (u 3).spaces 3 = some space0 ∧
    lookup (u 4).spaces 4 = none :=
  ⟨⟨rfl, rfl, rfl, rfl, by decide, rfl⟩, ⟨_, rfl, by decide, by decide⟩, ⟨_, rfl, by decide⟩, ⟨1, by decide, by decide, rfl⟩, ⟨rfl, rfl, rfl, rfl, by decide, rfl⟩,
    ⟨_, List.mem_singleton.2 rfl, rfl⟩, by decide, rfl, rfl⟩

/-- R362, R367: a partition that fits and one that does not; the last cluster, and one past it. -/
theorem witness_partition_commands :
    let s := fun (banks : Nat) => asked 0 0x10 [(8, 1, 0), (9, 1, 1), (10, 2, 1), (12, 3, 1), (16, 2, banks), (18, 2, 1)]
    Asked (s 16) 0x10 ∧ (∃ r, parsePart (((s 16).mailbox 0).block.drop 8) = some r ∧ (s 16).partOk r = true) ∧
    (∃ r, parsePart (((s 17).mailbox 0).block.drop 8) = some r ∧ (s 17).partOk r = false) ∧
    Asked (asked 0 0x11 [(8, 8, 191)]) 0x11 ∧ operandOf (asked 0 0x11 [(8, 8, 191)]) 0 < 192 ∧ 192 ≤ operandOf (asked 0 0x11 [(8, 8, 192)]) 0 ∧
    (∀ e ∈ (asked 0 0x11 []).launches, e.2.spec.cohort = false) :=
  ⟨⟨rfl, rfl, rfl, rfl, by decide, rfl⟩, ⟨_, rfl, by decide⟩, ⟨_, rfl, by decide⟩, ⟨rfl, rfl, rfl, rfl, by decide, rfl⟩, by decide, by decide, by decide⟩

/-- R363 to R365: KEYINSTALL of slot 1 and of slot 0, with the counter that follows and not; FWLOAD of the last kind, and past it. -/
theorem witness_root_commands :
    let s := fun (slot counter : Nat) => asked 0 0x20 [(8, 8, slot), (16, 8, 0x9000), (24, 8, 0xA000), (32, 8, counter)]
    Asked (s 1 1) 0x20 ∧ operandOf (s 1 1) 0 = 1 ∧ operandOf (s 1 1) 1 ≠ 0 ∧ operandOf (s 1 1) 3 = (s 1 1).root.installCounter + 1 ∧
    operandOf (s 1 1) 0 < (s 1 1).root.keys.length ∧ operandOf (s 0 1) 0 = 0 ∧ operandOf (s 1 2) 3 ≠ (s 1 2).root.installCounter + 1 ∧
    Asked (asked 0 0x21 [(8, 8, 3)]) 0x21 ∧ operandOf (asked 0 0x21 [(8, 8, 3)]) 0 ≤ 3 ∧ 3 < operandOf (asked 0 0x21 [(8, 8, 4)]) 0 :=
  ⟨⟨rfl, rfl, rfl, rfl, by decide, rfl⟩, by decide, by decide, by decide, by decide, by decide, by decide, ⟨rfl, rfl, rfl, rfl, by decide, rfl⟩, by decide, by decide⟩

/-- R368, R369: a ring in the second tier and one that ends past it; a replay that begins, and one in progress that is done, or has diverged. -/
theorem witness_recorder_commands :
    let s := fun (size : Nat) => asked 0 0x30 [(8, 8, 0), (16, 8, Config.hbmBytes), (24, 8, size)]
    let r : State := { asked 0 0x31 [(8, 8, 0), (16, 8, 1), (24, 8, 2)] with
      recorders := [(0, { base := Config.hbmBytes, size := 4096, nextIndex := 3, records := [(1, 2, [7])] })], strands := [] }
    Asked (s 4096) 0x30 ∧ ((lookup (s 4096).partitions 0).isSome = true ∧ Config.hbmBytes ≤ Config.hbmBytes ∧
      Config.hbmBytes + operandOf (s 4096) 2 ≤ Config.hbmBytes + Config.tier2Bytes) ∧
    ¬ (Config.hbmBytes + operandOf (s (Config.tier2Bytes + 1)) 2 ≤ Config.hbmBytes + Config.tier2Bytes) ∧
    Asked r 0x31 ∧ lookup r.replaying 0 = none ∧ r.idle 0 = true ∧ operandOf r 1 ≤ operandOf r 2 ∧ lookup (s 1).recorders 0 = none ∧
    (∃ x ∈ [((1 : Nat), (2 : Nat), [(7 : Nat)])], operandOf r 1 ≤ x.1 ∧ x.1 ≤ operandOf r 2) :=
  ⟨⟨rfl, rfl, rfl, rfl, by decide, rfl⟩, by decide, by decide, ⟨rfl, rfl, rfl, rfl, by decide, rfl⟩, rfl, by decide, by decide, rfl, ⟨_, List.mem_singleton.2 rfl, by decide, by decide⟩⟩

/-- R369: a replay of the physical function that has met every record, and one that has found that a record cannot be met. -/
theorem witness_replay :
    let r := fun (d : Option Nat) => ({ func := 0, records := [], shift := [], diverged := d } : Replay)
    let s := fun (d : Option Nat) => ({ asked 0 0x31 [(8, 8, 0)] with replaying := [(0, r d)] } : State)
    Asked (s none) 0x31 ∧ lookup (s none).replaying 0 = some (r none) ∧ (r none).diverged = none ∧ (r none).records = [] ∧
    Asked (s (some 4)) 0x31 ∧ lookup (s (some 4)).replaying 0 = some (r (some 4)) ∧ (r (some 4)).diverged = some 4 :=
  ⟨⟨rfl, rfl, rfl, rfl, by decide, rfl⟩, rfl, rfl, rfl, ⟨rfl, rfl, rfl, rfl, by decide, rfl⟩, rfl, rfl⟩

/-- R358, R359: an access that ends at the aperture's last byte, and one past it; a mailbox that is busy, and one that is not; a notify page. -/
theorem witness_host :
    let s := queueState queue0
    s.linkUp = true ∧ (12 : Nat) ≤ 12 ∧ s.memWf = true ∧ s.mailboxOpen = true ∧ (Config.hbmBytes - 8) + 8 ≤ Config.hbmBytes ∧
    Config.hbmBytes < (Config.hbmBytes - 8) + 9 ∧ (s.mailbox 12).busy = false ∧ ((asked 12 1 []).mailbox 12).busy = true ∧
    (5 : Word).getLsbD 0 = true ∧ s.queue? 0 = some queue0 ∧ queue0.destroyed = none ∧ (1 = queue0.part + 1) := by decide

/-- R361: a module whose path has owed an acknowledgement for 2^21 cycles, and for one less; an access that ends at the last address. -/
theorem witness_fabric :
    let r : RemoteModule := { mem := { cells := [] }, reachable := true, owedSince := some 10 }
    let s : State := { s0 with remotes := [(2, r)], now := 2097162 }
    lookup s.remotes 3 = none ∧ lookup s.remotes 2 = some r ∧ r.owedSince = some 10 ∧ r.reachable = true ∧ 10 + 2 ^ 21 ≤ s.now ∧
    s.now - 1 < 10 + 2 ^ 21 ∧ (∀ t ∈ r.askedSince, 10 ≤ t) ∧ (∀ e ∈ s.ports, e.2.training = true → s.now < e.2.since + 2 ^ 21) ∧
    (let q := { r with owedSince := none, askedSince := some 10 }
     q.askedSince = some 10 ∧ ∀ t ∈ q.owedSince, 10 ≤ t) ∧
    ({ replay := [], inFlight := [], training := true } : Port).training = true ∧ (23 : Nat) < 24 ∧ (s.port 23).training = false ∧
    (Config.hbmBytes + Config.tier2Bytes - 8) + 8 ≤ Config.hbmBytes + Config.tier2Bytes := by decide

/-- R96, R366, R367, R370: each bound. -/
theorem witness_service :
    64 * 4095 < Config.hbmBytes + Config.tier2Bytes ∧ (1023 : Nat) < 1024 ∧ (13 : Nat) ≤ 13 ∧ (104 : Nat) < 105 ∧ s0.cur.unit < 2 ∧
    (s0.refresh[0]).busy = false ∧ (s0.refresh[0]).origin + (s0.refresh[0]).count * (31250 * perNs) + 2000 * perNs ≤ 2000 * perNs + 31250 * perNs * 0 ∧
    s0.time < 31250 * perNs := by decide

/-- R117: an instruction of two words that the formats admit, and of one. -/
theorem witness_encode :
    WellFormed (.vadd vadd0) ∧ (encode (.vadd vadd0)).isSome = true ∧ WellFormed (.add 1 2 3) ∧ (encode (.add 1 2 3)).isSome = true ∧
    (∃ i, decodeWords 0x00294400 0 = .ok i) := ⟨by decide, by decide, by decide, by decide, _, rfl⟩

/-- A strand at 0x1000, where memory holds `add g9, g3, g4`, a vector word and an unassigned one. -/
def fetching (pc : Word) (w : Option Waiting) : State :=
  let st := with_ (fun c => { c with pc := pc, wait := w })
  { at_ st .execute with
    agenda := [{ cycles := 1, who := .context 0 .execute }]
    dev := { cells := ([0x00, 0x44, 0x29, 0x00, 0x8C, 0x42, 0x0C, 0x82, 0, 0, 0, 0, 0xFF, 0xFF, 0xFF, 0x1F].zipIdx.filter (fun b => b.1 != 0)).map (fun b => (0x1000 + b.2, b.1)) } }

/-- The cluster holds no instruction line. -/
theorem no_line : (turnOf (fetching 0x1000 none) [] 1 0 .execute).oldLines (fetcher 0 .execute strand) (.dev (64 * (0x1000 / 64))) = [] := rfl

/-- R117: a step at each of them. -/
theorem witness_step :
    let s := fetching 0x1000 none
    let t := turnOf s [] 1 0 .execute
    s.clocksStopped = false ∧ s.agenda = { cycles := 1, who := .context 0 .execute } :: [] ∧
    (∃ st, t.strand? 0 = some st ∧ st.issues .execute = true ∧ (st.ctx .execute).wait.bind (·.instr) = none) ∧ t.boundary 0 .execute = none ∧
    (∃ s1, t.fetchWord (fetcher 0 .execute strand) 0x1000 = .ok (0x00294400, s1)) ∧ wordCount 0x00294400 = 1 ∧
    decodeWords 0x00294400 0 = .ok (.add 10 10 4) ∧
    (∃ s1, t.fetchWord (fetcher 0 .execute strand) 0x1004 = .ok (0x820C428C, s1)) ∧ wordCount 0x820C428C = 2 ∧
    (∃ s1, t.fetchWord (fetcher 0 .execute strand) 0x100C = .ok (0x1FFFFFFF, s1)) ∧ wordCount 0x1FFFFFFF = 1 ∧ (∃ e, decodeWords 0x1FFFFFFF 0 = .error e) ∧
    t.resolve (fetcher 0 .execute strand) 0x1000 .fetch = .ok (.dev 0x1000) ∧ t.poisoned (.dev 0x1000) = false ∧
    (∀ old ∈ t.oldLines (fetcher 0 .execute strand) (.dev (64 * (0x1000 / 64))), old.2 = (List.range 64).map (fun i => t.dev.read (64 * (0x1000 / 64) + i))) ∧
    encode .scannerFind = none :=
  ⟨rfl, rfl, ⟨_, rfl, rfl, rfl⟩, rfl, ⟨_, rfl⟩, rfl, rfl, ⟨_, rfl⟩, rfl, ⟨_, rfl⟩, rfl, ⟨_, rfl⟩, rfl, rfl, fun _ h => absurd (no_line ▸ h) (by simp), rfl⟩

/-- R31: a context that waits in an instruction that has issued, and one in an instruction that has still to issue, at its stage's choice. -/
theorem witness_step_waits :
    (let w : Waiting := { kind := .barrier, since := 1928, instr := some (.barwait ys) }
     let t := turnOf (fetching 0x1000 (some w)) [] 1 0 .execute
     (∃ st, t.strand? 0 = some st ∧ st.issues .execute = true ∧ (st.ctx .execute).wait = some w) ∧ w.issued = true ∧ t.boundary 0 .execute = none) ∧
    (let w : Waiting := { kind := .register 9, since := 1928, instr := some (.add 9 3 4) }
     let t := turnOf (fetching 0x1000 (some w)) [] 1 0 .execute
     (∃ st, t.strand? 0 = some st ∧ st.issues .execute = true ∧ (st.ctx .execute).wait = some w) ∧ w.issued = false ∧ t.boundary 0 .execute = none ∧
      t.mayIssue 0 .execute = true) ∧
    (turnOf (fetching 0x1000 none) [] 1 0 .execute).mayIssue 0 .execute = true :=
  ⟨⟨⟨_, rfl, rfl, rfl⟩, rfl, rfl⟩, ⟨⟨_, rfl, rfl, rfl⟩, rfl, rfl, by decide⟩, by decide⟩

/-! ## Single steps of the lanes and of synchronisation -/

/-- The VQ's head is an entry for i with register tags t; v4 and v5 hold x and y. -/
def laneState (i : Instr) (t : Tag) (x y : Word) : State :=
  let st := { heading i with
    tags := Vector.replicate 32 t
    v := (strand.v.set 4 ((Vector.replicate 256 (0 : Word)).set 0 x)).set 5 ((Vector.replicate 256 (0 : Word)).set 0 y)
    vq := [{ entry i with tags := Vector.replicate 32 t }] }
  at_ st .execute

/-- Register v6 after the head has been performed, as a number, and the lanes' flags. -/
def lanesGive (i : Instr) (t : Tag) (x y : Word) : Option (Word × Flags) :=
  match exec .vqEntryStart (laneState i t x y) with
  | .next u => (u.strand? 0).map (fun st => ((st.vreg 6)[0], st.laneFlags.toList.foldl (· ||| ·) 0))
  | _ => none

/-- Fields of an instruction on the first three elements of v4 and v5, into v6. -/
def three : VxC := { vadd0 with gl := 6 }

/-- R168: sums of UINT8 elements wrap; the fourth element stays as it was, which is 0. -/
theorem test_vadd : (lanesGive (.vadd three) 5 0xFF_01_FF 0x01_01_02).map (·.1) = some 0x00_02_01 := by decide +kernel

/-- R168, R41: the smaller of signed elements is the negative one; of unsigned, the other. -/
theorem test_vmin :
    (lanesGive (.vmin three) 1 0x80_01 0x01_80).map (·.1) = some 0x80_80 ∧ (lanesGive (.vmin three) 5 0x80_01 0x01_80).map (·.1) = some 0x01_01 := by
  decide +kernel

/-- R76: a source code 10 reads the element above, and past the end EDGE = 0 gives zero. -/
theorem test_neighbour : (lanesGive (.vor { three with na := 2 }) 5 0x03_02_01 0).map (·.1) = some 0x00_03_02 := by decide +kernel

/-- R173: a shift is by the low bits of the second source. -/
theorem test_vshl : (lanesGive (.vshl three) 5 0x81_81_81 0x09_08_01).map (·.1) = some 0x02_81_02 := by decide +kernel

/-- R42, R168: in FP16 (tag 12), 1.0 + 2^-11 ties to even and sets NX; 1.0 + 1.0 is exact. -/
theorem test_vadd_half :
    lanesGive (.vadd three) 12 0x3C00_3C00 0x3C00_1000 = some (0x4000_3C00, 1) ∧ lanesGive (.vadd three) 12 0x3C00 0x3C00 = some (0x4000, 0) := by decide +kernel

/-- R115, R244: WMPUB raises the word at 0x1100 from 0 to 7, and not from 9 to 7. -/
theorem test_wmpub :
    stateAfter (at_ marked .execute) (.wmpub { ys with gd := 1, ga := 5 }) (fun t => numberAt t (.dev 0x1100) 8) = some 7 ∧
    stateAfter { at_ marked .execute with dev := { cells := [(0x1100, 9)] } } (.wmpub { ys with gd := 1, ga := 5 })
      (fun t => numberAt t (.dev 0x1100) 8) = some 9 := by decide +kernel

/-- R246: the last arrival of a phase clears the count and turns the phase, and gives the phase it arrived in. -/
theorem test_barrive :
    stateAfter (barrier false).2 (.barrive { ys with ga := 3 }) (fun t => (numberAt t (.dev 0x1140) 4, numberAt t (.dev 0x1147) 1)) = some (0, 0x80) ∧
    regAfter (barrier true).2 (.barrive { ys with ga := 3 }) 9 = some 1 := by decide +kernel

/-- R111: a FENCE that finds an engine command waits. -/
theorem test_fence_waits :
    after (engineState (command (.upd ys) 0 false)) (.fence 3 0x15) (fun st => st.exec.wait.map (·.kind)) = some (some .engines) := by decide +kernel

/-! ## What commands do -/

/-- A memory with bytes at addresses. -/
def memoryOf (l : List (Nat × List Byte)) : Memory := l.foldl (fun m x => m.writeBytes x.1 x.2) { cells := [] }

/-- The machine with a command whose descriptor stands at 0x1100, and other bytes in device memory. -/
def commanded (i : Instr) (d : List Byte) (l : List (Nat × List Byte)) : State :=
  { engineState (command i 0x1100 false) with dev := memoryOf ((0x1100, d) :: l) }

/-- Words of four and of eight bytes. -/
def w4 (l : List Nat) : List Byte := l.flatMap (leBytes 4)
/-- eight bytes each -/
def w8 (l : List Nat) : List Byte := l.flatMap (leBytes 8)

/-- Virtual addresses are device addresses there. -/
def same (va : Nat) : Nat := va

/-- Such a command may do its work. -/
theorem works_of (i : Instr) (d : List Byte) (l : List (Nat × List Byte)) (silent : (commandFields i).gb = 0)
    (ready : (commanded i d l).mayEnd (command i 0x1100 false) = true) (canonical : (commanded i d l).memWf = true) :
    Works (commanded i d l) 0 strand (command i 0x1100 false) same :=
  ⟨rfl, rfl, by simp [commanded, engineState], silent, rfl, ready, rfl, ⟨rfl, rfl, rfl⟩, fun va => by simp only [same]; omega,
    by simp [commanded, engineState, s0, at_, State.reset], canonical⟩

/-- No completion object. -/
def quietly : YsF := { ys with gb := 0 }

/-- A CPY of a run of four bytes from 0x2000 to 0x3000. -/
def cpyWords : List Byte := w8 [0x2000, 0x3000, 0, 0, 0, 0] ++ w4 [4, 1, 1, 0]
/-- An UPD, with RULE 1, of one FP32 element: W, G, M and V, and a skip word. -/
def updWords : List Byte := w8 [0x2000, 0x2100, 0x2200, 0x2300, 0x2400] ++ w4 [1] ++ [1, 14] ++ List.replicate 18 0 ++
  w4 [0x3DCCCCCD, 0, 0x3F000000, 0x3F000000, 0x3F000000, 0x3F000000, 0x322BCC77, 0x3F800000, 0x3F800000, 0x3F800000] ++ List.replicate 24 0
/-- An RQNT of two FP32 elements into codes of tag 10. -/
def rqntWords : List Byte := w8 [0x2000, 0x3000, 0x3100] ++ w4 [2] ++ [14, 10, 0] ++ List.replicate 33 0
/-- An RINV of a line, and a PUB of a page. -/
def rinvWords : List Byte := w8 [0x2000, 64]
/-- a PUB -/
def pubWords : List Byte := w8 [0x5000, 4096]

/-- R259: a CPY that may do its work, with its descriptor, its source and its destination mapped. -/
theorem witness_cpy :
    let s := commanded (.cpy quietly) cpyWords [(0x2000, [1, 2, 3, 4])]
    let e := command (.cpy quietly) 0x1100 false
    Works s 0 strand e same ∧ Described s e same 64 64 cpyWords ∧ fieldLE cpyWords 0 8 ≠ fieldLE cpyWords 8 8 ∧ fieldLE cpyWords 60 4 = 0 ∧
    0 < fieldLE cpyWords 48 4 ∧ fieldLE cpyWords 52 4 = 1 ∧ fieldLE cpyWords 56 4 = 1 ∧
    runStart (fieldLE cpyWords 0 8) (fieldLEs cpyWords 16 8) (fieldLEs cpyWords 24 8) 0 0 = 0x2000 ∧
    runStart (fieldLE cpyWords 8 8) (fieldLEs cpyWords 32 8) (fieldLEs cpyWords 40 8) 0 0 = 0x3000 ∧
    Mapped s e same .load 0x2000 4 ∧ Mapped s e same .store 0x3000 4 := by
  refine ⟨works_of _ _ _ rfl (by decide +kernel) (by decide +kernel), Or.inr ?_, ?_⟩ <;> first | decide +kernel | (simp only [Mapped]; decide +kernel)

/-- R262: an UPD with SKIP zero and with SKIP 1, and the spans it names. -/
theorem witness_upd :
    let s := commanded (.upd quietly) updWords [(0x2000, w4 [0x3F800000]), (0x2100, w4 [0x3F800000])]
    let u := commanded (.upd quietly) updWords [(0x2400, [1])]
    let e := command (.upd quietly) 0x1100 false
    Works s 0 strand e same ∧ Works u 0 strand e same ∧
    (Described s e same 128 64 updWords ∧ Described u e same 128 64 updWords) ∧
    (fieldLE updWords 32 8 % 8 = 0 ∧ Mapped s e same .load 0x2400 8 ∧ leNat (visible s same 0x2400 8) = 0 ∧ leNat (visible u same 0x2400 8) = 1 ∧
      fieldLE updWords 45 1 = 14 ∧ zeroBytes updWords 46 18 = true ∧ zeroBytes updWords 104 24 = true ∧ fieldLE updWords 44 1 = 1 ∧
      Mapped s e same .load 0x2100 4 ∧ ∀ a ∈ [0x2000, 0x2200, 0x2300], Mapped s e same .load a 4 ∧ Mapped s e same .store a 4) := by
  refine ⟨works_of _ _ _ rfl (by decide +kernel) (by decide +kernel), works_of _ _ _ rfl (by decide +kernel) (by decide +kernel),
    ⟨Or.inr ?_, Or.inr ?_⟩, ?_⟩ <;> first | decide +kernel | (simp only [Mapped]; decide +kernel)

/-- R265: an RQNT of two finite elements. -/
theorem witness_rqnt :
    let s := commanded (.rqnt quietly) rqntWords [(0x2000, w4 [0x3F800000, 0x40400000])]
    let e := command (.rqnt quietly) 0x1100 false
    Works s 0 strand e same ∧ Described s e same 64 64 rqntWords ∧
    (fieldLE rqntWords 28 1 = 14 ∧ fieldLE rqntWords 29 1 = 10 ∧ fieldLE rqntWords 30 1 = 0 ∧ zeroBytes rqntWords 31 33 = true ∧
      Mapped s e same .load 0x2000 8 ∧ Mapped s e same .store 0x3000 2 ∧ Mapped s e same .store 0x3100 1 ∧
      ∀ i < 2, (decodeF 14 (leNat (visible s same (0x2000 + 4 * i) 4))).nonFinite = false) := by
  refine ⟨works_of _ _ _ rfl (by decide +kernel) (by decide +kernel), Or.inr ?_, ?_⟩ <;> first | decide +kernel | (simp only [Mapped]; decide +kernel)

/-- R263: an RINV of one line. -/
theorem witness_rinv :
    let s := commanded (.rinv quietly) rinvWords []
    let e := command (.rinv quietly) 0x1100 false
    Works s 0 strand e same ∧ Described s e same 16 16 rinvWords ∧ Mapped s e same .load (fieldLE rinvWords 0 8) (fieldLE rinvWords 8 8) ∧
    fieldLE rinvWords 0 8 + fieldLE rinvWords 8 8 ≤ 2 ^ 64 := by
  refine ⟨works_of _ _ _ rfl (by decide +kernel) (by decide +kernel), Or.inr ?_, ?_, by decide⟩ <;> first | decide +kernel | (simp only [Mapped]; decide +kernel)

/-- A shadow page of the strand's execute context at 0x5000. -/
def shadow0 : Shadow :=
  { asid := 0, va := 0x5000, scratch := none, bytes := List.replicate 4096 7, owners := [(0, 0, .execute)], errored := none, incomplete := false
    moved := none, origin := none, poison := [] }

/-- R260: a PUB of a page that has a good shadow. -/
theorem witness_pub :
    let s := { commanded (.pub quietly) pubWords [] with shadows := [shadow0] }
    let e := command (.pub quietly) 0x1100 false
    Works s 0 strand e same ∧ Described s e same 16 16 pubWords ∧ fieldLE pubWords 0 8 = 0x5000 ∧ fieldLE pubWords 8 8 = 4096 ∧
    shadowPage s 0 0x5000 = some shadow0 ∧ Mapped s e same .store 0x5000 1 := by
  have w := works_of (.pub quietly) pubWords [] rfl (by decide +kernel) (by decide +kernel)
  refine ⟨⟨rfl, rfl, by simp [commanded, engineState], rfl, rfl, by decide +kernel, rfl, ⟨rfl, rfl, rfl⟩, w.pages, ?_, w.canonical⟩, Or.inr ?_, ?_, ?_, rfl, ?_⟩
  · intro sh h
    obtain rfl := List.mem_singleton.1 h
    exact ⟨List.length_replicate, rfl, rfl, rfl⟩
  all_goals first | decide +kernel | (simp only [Mapped]; decide +kernel)

/-- A journal record of position 1 and head 0, with two bytes. -/
def record0 : JournalRecord := { key := 1, count := 2, tag := 5, seq := 0, commit := 3, data := [0xAA, 0xBB], spilled := false }
/-- A strand that has it. -/
def journaled : Strand := { strand with journal := [record0] }
/-- A KVFILE's descriptor, and its block table's, of one block of records of eight bytes. -/
def kvWords : List Byte := w8 [0x2000, 64, 0, 0]
/-- the table's -/
def tableWords : List Byte := w8 [0x2100] ++ w4 [1] ++ [8, 0, 0, 0] ++ w8 [0, 0]
/-- The command and its state. -/
def filing : EngineCmd := { command (.kvfile quietly) 0x1100 false with upTo := 9 }
/-- the state -/
def filingState : State :=
  { engineState filing with strands := [(0, journaled)], dev := memoryOf [(0x1100, kvWords), (0x2000, tableWords), (0x2100, w8 [0x3000])] }

/-- R264: a KVFILE with one record to file, at 0x3008. -/
theorem witness_kvfile :
    Works filingState 0 journaled filing same ∧ filing.snap = none ∧
    (filing.desc.toNat % 32 = 0 ∧ Mapped filingState filing same .load 0x1100 32 ∧ Mapped filingState filing same .load 0x2000 32 ∧
      kvWords ++ tableWords = visible filingState same 0x1100 32 ++ visible filingState same 0x2000 32) ∧
    (journaled.journal.filter (fun x => decide (x.commit < filing.upTo)) = [record0] ∧ fieldLE kvWords 0 8 % 8 = 0 ∧ zeroBytes kvWords 16 16 = true ∧
      fieldLE tableWords 12 2 = 8 ∧ zeroBytes tableWords 14 2 = true ∧ zeroBytes tableWords 24 8 = true ∧ fieldLE tableWords 0 8 % 8 = 0 ∧
      record0.key.toNat / 2 ^ 56 = 0 ∧ record0.key.toNat % 2 ^ 48 / 256 < fieldLE tableWords 8 4 ∧ Mapped filingState filing same .load 0x2100 8 ∧
      leNat (visible filingState same 0x2100 8) = 0x3000 ∧ Mapped filingState filing same .store 0x3008 2) := by
  refine ⟨⟨rfl, rfl, by simp [filingState, engineState], rfl, rfl, by decide +kernel, rfl, ⟨rfl, rfl, rfl⟩, fun va => by simp only [same]; omega,
    by simp [filingState, engineState, s0, at_, State.reset], by decide +kernel⟩, rfl, ?_, ?_⟩ <;> first | decide +kernel | (simp only [Mapped]; decide +kernel)

/-- A CRED of two members, of one FP32 element a member: member 0 of group 6, for an operation. -/
def credWords (op : Nat) : List Byte :=
  w8 [0x2000, 0x3000, 0x3100] ++ w4 [1] ++ [BitVec.ofNat 8 op, 14, 2, 0] ++ w4 [4096, 6] ++ w8 [0x2200, 0, 0]
/-- The other member's contribution. -/
def part1 (data : List Byte) (lost : Bool) : CredPart := { group := 6, member := 1, data, lost, here := false, done := false, module := some 1 }
/-- The state for it. -/
def credState (op : Nat) (p : CredPart) : State :=
  { commanded (.cred quietly) (credWords op) [(0x2000, w4 [0x3F800000, 0x40000000]), (0x2200, w8 [0, 1])] with creds := [p] }

/-- What a CRED has before it does its work. -/
theorem cred_works (op : Nat) (p : CredPart) (ready : (credState op p).mayEnd (command (.cred quietly) 0x1100 false) = true)
    (canonical : (credState op p).memWf = true) : Works (credState op p) 0 strand (command (.cred quietly) 0x1100 false) same :=
  ⟨rfl, rfl, by simp [credState, commanded, engineState], rfl, rfl, ready, rfl, ⟨rfl, rfl, rfl⟩, fun va => by simp only [same]; omega,
    by simp [credState, commanded, engineState, s0, at_, State.reset], canonical⟩

/-- R261: a reduce-scatter and an all-gather of which every member has contributed, and a reduce-scatter of which member 1 is lost. -/
theorem witness_cred :
    let e := command (.cred quietly) 0x1100 false
    let whole := part1 (w4 [0x3F800000, 0x3F800000]) false
    let short := part1 (w4 [0x3F800000]) false
    let gone := part1 [] true
    (Works (credState 0 whole) 0 strand e same ∧ Works (credState 1 short) 0 strand e same ∧ Works (credState 0 gone) 0 strand e same) ∧
    (Described (credState 0 whole) e same 64 64 (credWords 0) ∧ Described (credState 1 short) e same 64 64 (credWords 1) ∧
      Described (credState 0 gone) e same 64 64 (credWords 0)) ∧
    (∀ op < 2, zeroBytes (credWords op) 48 16 = true ∧ fieldLE (credWords op) 28 1 = op ∧ fieldLE (credWords op) 29 1 = 14 ∧ fieldLE (credWords op) 30 1 = 2 ∧
      fieldLE (credWords op) 31 1 = 0 ∧ fieldLE (credWords op) 32 4 = 4096 ∧ fieldLE (credWords op) 16 8 % 8 = 0) ∧
    (Mapped (credState 0 whole) e same .load 0x2000 8 ∧ Mapped (credState 0 whole) e same .load 0x2200 16 ∧ Mapped (credState 1 short) e same .store 0x3000 8 ∧
      Mapped (credState 0 gone) e same .store 0x3100 16 ∧
      (∀ m < 2, leNat (visible (credState 0 whole) same (0x2200 + 8 * m) 8) = m ∧ ((credState 0 whole).remote m).reachable = true) ∧
      (credState 0 whole).credPart 6 0 = none ∧ ((credState 0 whole).credPart 6 1).map (fun p => (p.data, p.lost, p.here)) = some (whole.data, false, false) ∧
      whole.data.length = 8 ∧ short.data.length = 4 ∧ ((credState 0 gone).credPart 6 1).map (fun p => (p.data, p.lost, p.here)) = some ([], true, false)) := by
  refine ⟨⟨cred_works _ _ (by decide +kernel) (by decide +kernel), cred_works _ _ (by decide +kernel) (by decide +kernel),
    cred_works _ _ (by decide +kernel) (by decide +kernel)⟩, ⟨Or.inr ?_, Or.inr ?_, Or.inr ?_⟩, ?_, ?_⟩ <;> first | decide +kernel | (simp only [Mapped]; decide +kernel)

/-- R32, R212, R316: waits in which a limit stop is taken at once: one of each kind, and a translation whose page has been asked for. -/
theorem witness_long_wait :
    (∀ k ∈ [Wait.queue 0, .watermark 1 0, .barrier, .commit, .register 9, .wfe 0, .feed 7], LongWait s0 { kind := k, since := 0, instr := none }) ∧
    LongWait { s0 with pageReqs := [(6, { asid := 2, va := 0x5000, intent := .load, since := 7, who := [.context 0 .execute], pasid := 9, func := 1, last := true })] }
      { kind := .translation, since := 0, instr := none } ∧
    (strand.exec.wait = none ∧ strand.vq = [] ∧ s0.arrayBusy 0 = false) := by
  refine ⟨?_, ?_, by decide⟩
  · simp [LongWait]
  · simp [LongWait, s0, at_]

/-- R9, R158: BSEND on a stream whose chunks have all been claimed, on one that has not ended, and on an empty slot. -/
theorem witness_stream_end :
    let done := { streamOf .sfeed 0 true with claimed := 3, arrived := 3 }
    ((streaming done).committedStream 7).map Stream.finished = some true ∧
    ((streaming (streamOf .sfeed 2 false)).committedStream 7).map Stream.finished = some false ∧ strand.committedStream 7 = none ∧
    AtMostImx (running (at_ (streaming done) .execute) (streaming done)) := by decide

/-- R318: a strand whose held frame has a VQ instruction that had started. -/
theorem witness_return_frame :
    let fr := savedAs [{ waiting with element := some 37 }]
    let st := { superStrand with frame := some fr, vstart := 40 }
    (running (at_ st .execute) st).priv = true ∧ st.frame = some fr ∧ fr.matrix = [] ∧ fr.queued = { waiting with element := some 37 } :: [] :=
  ⟨rfl, rfl, rfl, rfl⟩
end Sys2Proof.Tests
end

/-! # Chapter 8: how a scalar instruction issues and completes -/

namespace Sys2Proof.Machine
open Sys2Proof.Claim

/-- The prefixes read, if any, make a legal sequence with an instruction of this form (R119). -/
abbrev Context.Admits (c : Context) (f : Form) : Prop := ((c.prefixes.map (fun p => p.illegal f)).getD false) = false

theorem Context.admits_of_bare {c : Context} (f : Form) (h : Bare c) : c.Admits f := by
  simp [Context.Admits, h]

/-- R131, R132: an instruction with an immediate takes any IMX, and a MATTR that its kind of access admits. -/
theorem Context.admits_widens {c : Context} (use : MattrUse)
    (h : c.prefixes.all (fun p => !p.rejected && p.mattr.all use.admits) = true) : c.Admits (accessForm .widens use) := by
  cases hp : c.prefixes with
  | none => exact Context.admits_of_bare _ hp
  | some p =>
    simp only [hp, Option.all_some, Bool.and_eq_true, Bool.not_eq_true'] at h
    cases hm : p.mattr <;> simp_all [Context.Admits, accessForm, Prefixes.illegal]

theorem Context.admits_wideForm {c : Context} (h : AtMostImx c) : c.Admits wideForm := by
  have hnone : ∀ o : Option (BitVec 3 × BitVec 3 × BitVec 3), o.isNone = o.all MattrUse.refused.admits := by rintro (_ | _) <;> rfl
  simp only [AtMostImx, hnone] at h
  exact Context.admits_widens .refused h

theorem Context.admits_loadForm {c : Context} {plain : Bool} (h : LoadTakes c plain) :
    c.Admits (accessForm .widens (.load plain)) := Context.admits_widens (.load plain) h

theorem Context.admits_storeForm {c : Context} {plain : Bool} (h : StoreTakes c plain) :
    c.Admits (accessForm .widens (.store plain)) := Context.admits_widens (.store plain) h

/-- R131, R132: an atomic takes a MATTR alone. -/
theorem Context.admits_atomicForm {c : Context} (h : AtomicTakes c) : c.Admits (accessForm .refused .amo) := by
  cases hp : c.prefixes with
  | none => exact Context.admits_of_bare _ hp
  | some p =>
    simp only [AtomicTakes, hp, Option.all_some, Bool.and_eq_true, Bool.not_eq_true', Option.isNone_iff_eq_none] at h
    obtain ⟨⟨hrej, himx⟩, hmattr⟩ := h
    cases hm : p.mattr with
    | none => simp [Context.Admits, accessForm, Prefixes.illegal, hp, hrej, himx, hm]
    | some m =>
      have hadm : MattrUse.amo.admits m = true := by simpa [hm, MattrUse.admits, or_comm] using hmattr
      simp [Context.Admits, accessForm, Prefixes.illegal, hp, hrej, himx, hm, hadm]

/-- R119, R19: an unprivileged instruction that takes its prefixes and names no pending register is its own execution. -/
theorem State.issue_ready {s : State} {st : Strand} {regs : List Reg} (i : Instr) (f : Form) (body : Env → Act)
    (h : Stands s st regs) (hp : (running s st).Admits f) (hz : f.imx ≠ .zero) (hu : f.priv = false) :
    s.issue i f regs body = s.conclude s.cur.slot s.cur.ctx i f.words f.vector (body (Env.here s st)) := by
  obtain ⟨hst, hr⟩ := h
  have hs : (if s.cur.ctx = .execute then st.stalls regs else none) = none := by
    split
    · exact Strand.stalls_none (hr ‹_›)
    · rfl
  simp only [State.issue_passes i f regs body hst hp (fun x => hz x.1) (by simp [hu]), hs]

@[simp] theorem Env.reg_here (s : State) (st : Strand) (r : Reg) : (Env.here s st).reg r = (running s st).reg r := rfl

/-- R131: the immediate an instruction sees is the one the claims speak of. -/
@[simp] theorem Env.imm_here (s : State) (st : Strand) {n : Nat} (x : BitVec n) :
    (Env.here s st).imm x = immediate (running s st) x := by
  simp only [Env.imm, immediate, Env.here, running]
  cases (st.ctx s.cur.ctx).prefixes.bind (·.imx) <;> rfl

/-- Of the effect of a completion only what it does to the running context counts. -/
theorem complete_congr {s : State} {st : Strand} {f g : Context → Context} (n : Nat) (h : s.strand? s.cur.slot = some st)
    (hfg : f (running s st) = g (running s st)) : complete s n f = complete s n g := by
  simp only [running] at hfg
  simp only [complete, State.updCtx_of _ _ _ h, hfg]

/-- An instruction of one word that writes a register completes (R82, R117, R130). -/
theorem conclude_setReg {s : State} {st : Strand} (i : Instr) (vector : Bool) (d : Reg) (x : Word) (h : s.strand? s.cur.slot = some st) :
    s.conclude s.cur.slot s.cur.ctx i 1 vector (.done (s.setReg (Env.here s st) d x)) =
      .next (complete s 1 (fun c => c.setReg d x)) := by
  simp only [State.conclude_done, State.setReg, Env.here, State.updCtx_updCtx s _ _ _ h, complete, Context.setReg_pc]

/-- An instruction whose whole execution is to write one register writes it and completes. -/
theorem State.issue_setReg {s : State} {st : Strand} {regs : List Reg} (i : Instr) {f : Form} (d : Reg) {v : Env → Word}
    {w : Context → Word} (h : Stands s st regs) (hp : (running s st).Admits f) (hz : f.imx ≠ .zero) (hu : f.priv = false)
    (hw : f.words = 1) (hv : v (Env.here s st) = w (running s st)) :
    s.issue i f regs (fun e => .done (s.setReg e d (v e))) = .next (complete s 1 (fun c => c.setReg d (w c))) := by
  rw [State.issue_ready i f _ h hp hz hu, hw, conclude_setReg i _ d _ h.1]
  exact congrArg Host.Outcome.next (complete_congr 1 h.1 (by simp only [hv]))

/-! ## Chapter 8: the shared shapes of the integer instructions -/

/-- An integer operation on two registers (R138). -/
theorem State.intOp_completes {s : State} {st : Strand} (i : Instr) {d a b : Reg} (f : Word → Word → Word)
    (h : Stands s st [d, a, b]) (hb : Bare (running s st)) :
    s.intOp i d a b f = .next (complete s 1 (fun c => c.setReg d (f (c.reg a) (c.reg b)))) :=
  State.issue_setReg i d h (Context.admits_of_bare _ hb) (by decide) rfl rfl rfl

/-- An integer operation on one register (R138, R145). -/
theorem State.intOp1_completes {s : State} {st : Strand} (i : Instr) {d a : Reg} (f : Word → Word)
    (h : Stands s st [d, a]) (hb : Bare (running s st)) :
    s.intOp1 i d a f = .next (complete s 1 (fun c => c.setReg d (f (c.reg a)))) :=
  State.issue_setReg i d h (Context.admits_of_bare _ hb) (by decide) rfl rfl rfl

/-- The same, of the register as the instruction finds it. -/
theorem State.intOp1_writes {s : State} {st : Strand} (i : Instr) {d a : Reg} (f : Word → Word)
    (h : Stands s st [d, a]) (hb : Bare (running s st)) :
    s.intOp1 i d a f = .next (complete s 1 (fun c => c.setReg d (f ((running s st).reg a)))) :=
  State.issue_setReg i d h (Context.admits_of_bare _ hb) (by decide) rfl rfl rfl

/-- An integer operation on a register and an immediate (R145). -/
theorem State.immOp_completes {s : State} {st : Strand} (i : Instr) {d a : Reg} (imm : BitVec 13) (f : Word → Word → Word)
    (h : Stands s st [d, a]) (hp : AtMostImx (running s st)) :
    s.immOp i d a imm f = .next (complete s 1 (fun c => c.setReg d (f (c.reg a) (immediate c imm)))) :=
  State.issue_setReg i d h (Context.admits_wideForm hp) (by decide) rfl rfl (by simp)

/-- The instruction on two registers completes with f of them in gd, whatever they hold. -/
def ComputesBinary (mk : Reg → Reg → Reg → Instr) (f : Word → Word → Word) : Prop :=
  ∀ (d a b : Reg) (s : State) (st : Strand), Stands s st [d, a, b] → Bare (running s st) →
    exec (mk d a b) s = .next (complete s 1 (fun c => c.setReg d (f (c.reg a) (c.reg b))))

theorem computesBinary_of_intOp {mk : Reg → Reg → Reg → Instr} {f g : Word → Word → Word}
    (hfg : ∀ x y, f x y = g x y) (hexec : ∀ d a b s, exec (mk d a b) s = s.intOp (mk d a b) d a b f) : ComputesBinary mk g := by
  intro d a b s st h hb
  rw [hexec, State.intOp_completes _ f h hb]
  simp only [hfg]

/-! ## R138, R139: the values -/

theorem minSigned_eq (x y : Word) : minSigned x y = if x.slt y then x else y := by
  rcases lt_trichotomy x.toInt y.toInt with h | h | h
  · simp [minSigned, BitVec.slt_eq_decide, h, h.le]
  · simp [minSigned, BitVec.toInt_inj.1 h]
  · simp [minSigned, BitVec.slt_eq_decide, h.not_ge, h.not_gt]

theorem maxSigned_eq (x y : Word) : maxSigned x y = if x.slt y then y else x := by
  rcases lt_trichotomy x.toInt y.toInt with h | h | h
  · simp [maxSigned, BitVec.slt_eq_decide, h, h.le]
  · simp [maxSigned, BitVec.toInt_inj.1 h]
  · simp [maxSigned, BitVec.slt_eq_decide, h.not_ge, h.not_gt]

theorem minUnsigned_eq (x y : Word) : minUnsigned x y = if x.ult y then x else y := by
  rcases lt_trichotomy x.toNat y.toNat with h | h | h
  · simp [minUnsigned, BitVec.ult, h, h.le]
  · simp [minUnsigned, BitVec.eq_of_toNat_eq h]
  · simp [minUnsigned, BitVec.ult, h.not_ge, h.not_gt]

theorem maxUnsigned_eq (x y : Word) : maxUnsigned x y = if x.ult y then y else x := by
  rcases lt_trichotomy x.toNat y.toNat with h | h | h
  · simp [maxUnsigned, BitVec.ult, h, h.le]
  · simp [maxUnsigned, BitVec.eq_of_toNat_eq h]
  · simp [maxUnsigned, BitVec.ult, h.not_ge, h.not_gt]

theorem shiftLeft_eq_ofNat (x : Word) (n : Nat) : x <<< n = BitVec.ofNat 64 (x.toNat * 2 ^ n) :=
  BitVec.eq_of_toNat_eq (by simp [Nat.shiftLeft_eq])

theorem shiftRight_eq_ofNat (x : Word) (n : Nat) : x >>> n = BitVec.ofNat 64 (x.toNat / 2 ^ n) := by
  rw [← Nat.shiftRight_eq_div_pow, ← BitVec.toNat_ushiftRight, BitVec.ofNat_toNat, BitVec.setWidth_eq]

theorem sshiftRight_eq_ofInt (x : Word) (n : Nat) : x.sshiftRight n = BitVec.ofInt 64 (x.toInt / 2 ^ n) := by
  rw [BitVec.sshiftRight_eq, Int.shiftRight_eq_div_pow]
  norm_cast

@[simp] theorem flagWord_decide (p : Prop) [Decidable p] : flagWord (decide p) = if p then 1 else 0 := by
  simp [flagWord]

/-- R139: the quotient that does not fit is the only one that the exact quotient does not give. -/
theorem divSigned_eq (a b : Word) : divSigned a b = signedQuotient a b := by
  by_cases hb : b = 0
  · have hneg : a.slt 0 = decide (a.toInt < 0) := BitVec.slt_eq_decide
    have hmin : BitVec.ofInt 64 (-(2 ^ (64 - 1))) = BitVec.intMin 64 := by decide
    have hmax : BitVec.ofInt 64 (2 ^ (64 - 1) - 1) = BitVec.intMax 64 := by decide
    simp only [divSigned, signedQuotient, if_pos hb, hneg, decide_eq_true_eq, hmin, hmax]
  · by_cases hover : a = BitVec.intMin 64 ∧ b = -1
    · obtain ⟨rfl, rfl⟩ := hover
      decide
    · have hq : (a.sdiv b).toInt = a.toInt.tdiv b.toInt :=
        BitVec.toInt_sdiv_of_ne_or_ne a b (not_and_or.1 hover)
      have hlt : ¬ (2 : Int) ^ (64 - 1) ≤ a.toInt.tdiv b.toInt := by
        rw [← hq, not_le]
        exact BitVec.toInt_lt
      simp only [divSigned, signedQuotient, if_neg hb, if_neg hover, if_neg hlt]
      rw [← hq, BitVec.ofInt_toInt]

theorem divUnsigned_eq (a b : Word) :
    divUnsigned a b = if b = 0 then (if a = 0 then 0 else BitVec.allOnes 64) else a.udiv b := by
  rw [BitVec.udiv_eq, BitVec.udiv_def, divUnsigned]

theorem remSigned_eq (a b : Word) : remSigned a b = if b = 0 then a else a.srem b := by
  rw [remSigned, ← BitVec.toInt_srem, BitVec.ofInt_toInt]

theorem remUnsigned_eq (a b : Word) : remUnsigned a b = if b = 0 then a else a.umod b := by
  rw [remUnsigned, ← BitVec.toNat_umod, BitVec.ofNat_toNat, BitVec.setWidth_eq]
  rfl

/-- R138: each entry of the table is the register form of what the model computes. -/
theorem intOps_compute : ∀ op ∈ intOps, ComputesBinary op.1 op.2 := by
  simp only [intOps, List.forall_mem_cons]
  exact
    ⟨computesBinary_of_intOp (fun _ _ => rfl) (fun _ _ _ _ => rfl),
     computesBinary_of_intOp (fun _ _ => rfl) (fun _ _ _ _ => rfl),
     computesBinary_of_intOp (fun _ _ => rfl) (fun _ _ _ _ => rfl),
     computesBinary_of_intOp (fun _ _ => rfl) (fun _ _ _ _ => rfl),
     computesBinary_of_intOp (fun _ _ => rfl) (fun _ _ _ _ => rfl),
     computesBinary_of_intOp minSigned_eq (fun _ _ _ _ => rfl),
     computesBinary_of_intOp maxSigned_eq (fun _ _ _ _ => rfl),
     computesBinary_of_intOp minUnsigned_eq (fun _ _ _ _ => rfl),
     computesBinary_of_intOp maxUnsigned_eq (fun _ _ _ _ => rfl),
     computesBinary_of_intOp (fun _ _ => rfl) (fun _ _ _ _ => rfl),
     computesBinary_of_intOp (fun _ _ => rfl) (fun _ _ _ _ => rfl),
     computesBinary_of_intOp (fun _ _ => rfl) (fun _ _ _ _ => rfl),
     computesBinary_of_intOp (fun _ _ => rfl) (fun _ _ _ _ => rfl),
     computesBinary_of_intOp (fun x y => shiftLeft_eq_ofNat x (places y)) (fun _ _ _ _ => rfl),
     computesBinary_of_intOp (fun x y => shiftRight_eq_ofNat x (places y)) (fun _ _ _ _ => rfl),
     computesBinary_of_intOp (fun x y => sshiftRight_eq_ofInt x (places y)) (fun _ _ _ _ => rfl),
     computesBinary_of_intOp (fun _ _ => rfl) (fun _ _ _ _ => rfl),
     computesBinary_of_intOp (fun _ _ => flagWord_decide _) (fun _ _ _ _ => rfl),
     computesBinary_of_intOp (fun _ _ => flagWord_decide _) (fun _ _ _ _ => rfl),
     nofun⟩

/-- R138, R139: so is each division. -/
theorem divOps_compute : ∀ op ∈ divOps, ComputesBinary op.1 op.2 := by
  simp only [divOps, List.forall_mem_cons]
  exact
    ⟨computesBinary_of_intOp divSigned_eq (fun _ _ _ _ => rfl),
     computesBinary_of_intOp divUnsigned_eq (fun _ _ _ _ => rfl),
     computesBinary_of_intOp remSigned_eq (fun _ _ _ _ => rfl),
     computesBinary_of_intOp remUnsigned_eq (fun _ _ _ _ => rfl),
     nofun⟩

/-! ## R138: the counts of bits -/

/-- CLZ's count over the low n bits: the bits it counts are clear, and the next one below, if any, is set. -/
theorem leadingZeros_spec (x : Word) (n : Nat) :
    leadingZeros x n ≤ n ∧ (∀ i < leadingZeros x n, x.getLsbD (n - 1 - i) = false) ∧
      (leadingZeros x n < n → x.getLsbD (n - 1 - leadingZeros x n) = true) := by
  induction n with
  | zero => simp [leadingZeros]
  | succ n ih =>
    obtain ⟨hle, hclear, hset⟩ := ih
    by_cases hbit : x.getLsbD n = true
    · simp [leadingZeros, bit, hbit]
    · have hcount : leadingZeros x (n + 1) = 1 + leadingZeros x n := by simp [leadingZeros, bit, hbit]
      rw [hcount]
      refine ⟨by omega, fun i hi => ?_, fun h => ?_⟩
      · cases i with
        | zero => simpa using hbit
        | succ j => rw [show n + 1 - 1 - (j + 1) = n - 1 - j by omega]; exact hclear j (by omega)
      · rw [show n + 1 - 1 - (1 + leadingZeros x n) = n - 1 - leadingZeros x n by omega]
        exact hset (by omega)

/-- CTZ's count over the n bits from bit 64 - n upward, alike. -/
theorem trailingZeros_spec (x : Word) (n : Nat) (hn : n ≤ 64) :
    trailingZeros x n ≤ n ∧ (∀ i < trailingZeros x n, x.getLsbD (64 - n + i) = false) ∧
      (trailingZeros x n < n → x.getLsbD (64 - n + trailingZeros x n) = true) := by
  induction n with
  | zero => simp [trailingZeros]
  | succ n ih =>
    obtain ⟨hle, hclear, hset⟩ := ih (by omega)
    have hfirst : 64 - (n + 1) = 63 - n := by omega
    by_cases hbit : x.getLsbD (63 - n) = true
    · simp [trailingZeros, bit, hbit, hfirst]
    · have hcount : trailingZeros x (n + 1) = 1 + trailingZeros x n := by simp [trailingZeros, bit, hbit]
      rw [hcount]
      refine ⟨by omega, fun i hi => ?_, fun h => ?_⟩
      · cases i with
        | zero => simpa [hfirst] using hbit
        | succ j => rw [show 64 - (n + 1) + (j + 1) = 64 - n + j by omega]; exact hclear j (by omega)
      · rw [show 64 - (n + 1) + (1 + trailingZeros x n) = 64 - n + trailingZeros x n by omega]
        exact hset (by omega)

theorem popCount_eq_countP (x : Word) (n : Nat) : popCount x n = (List.range n).countP (fun i => x.getLsbD i) := by
  induction n with
  | zero => rfl
  | succ n ih => simp [popCount, bit, ih, List.range_succ, List.countP_append, List.countP_cons, Nat.add_comm]; rfl

/-- R138: CLZ, CTZ and POPC. -/
theorem bitCounts_claim : Claim.BitCounts := by
  intro d a s st h hb
  refine
    ⟨⟨leadingZeros ((running s st).reg a) 64, ?_, State.intOp1_writes (.clz d a) (fun x => BitVec.ofNat 64 (leadingZeros x 64)) h hb, ?_⟩,
     ⟨trailingZeros ((running s st).reg a) 64, ?_, State.intOp1_writes (.ctz d a) (fun x => BitVec.ofNat 64 (trailingZeros x 64)) h hb, ?_⟩,
     ?_⟩
  · exact (leadingZeros_spec _ 64).1
  · exact (leadingZeros_spec _ 64).2
  · exact (trailingZeros_spec _ 64 le_rfl).1
  · simpa using (trailingZeros_spec ((running s st).reg a) 64 le_rfl).2
  · simp only [← popCount_eq_countP]
    exact State.intOp1_completes (.popc d a) (fun x => BitVec.ofNat 64 (popCount x 64)) h hb

/-- Settles O1: each instruction is one of three shared shapes, whose value is the table's. -/
theorem integerRegisterResults : Obligations.IntegerRegisterResults :=
  ⟨intOps_compute, divOps_compute, bitCounts_claim⟩

end Sys2Proof.Machine

/-! # Chapter 8: the SI class, R145 to R147 -/

namespace Sys2Proof.Machine
open Sys2Proof.Claim

/-- The instruction on a register and an immediate completes with f of them in gd, behind an IMX too. -/
def ComputesImmediate (mk : Reg → Reg → BitVec 13 → Instr) (f : Word → Word → Word) : Prop :=
  ∀ (d a : Reg) (imm : BitVec 13) (s : State) (st : Strand), Stands s st [d, a] → AtMostImx (running s st) →
    exec (mk d a imm) s = .next (complete s 1 (fun c => c.setReg d (f (c.reg a) (immediate c imm))))

theorem computesImmediate_of_immOp {mk : Reg → Reg → BitVec 13 → Instr} {f g : Word → Word → Word} (hfg : ∀ x y, f x y = g x y)
    (hexec : ∀ d a imm s, exec (mk d a imm) s = s.immOp (mk d a imm) d a imm f) : ComputesImmediate mk g := by
  intro d a imm s st h hp
  rw [hexec, State.immOp_completes _ imm f h hp]
  simp only [hfg]

/-- The shift by an amount in the word completes with f of the register and the amount in gd. -/
def ComputesShift (mk : Reg → Reg → BitVec 6 → Instr) (f : Word → Nat → Word) : Prop :=
  ∀ (d a : Reg) (n : BitVec 6) (s : State) (st : Strand), Stands s st [d, a] → Bare (running s st) →
    exec (mk d a n) s = .next (complete s 1 (fun c => c.setReg d (f (c.reg a) n.toNat)))

theorem computesShift_of_intOp1 {mk : Reg → Reg → BitVec 6 → Instr} {f g : Word → Nat → Word} (hfg : ∀ x n, f x n = g x n)
    (hexec : ∀ d a n s, exec (mk d a n) s = s.intOp1 (mk d a n) d a (fun x => f x n.toNat)) :
    ComputesShift mk g := by
  intro d a n s st h hb
  rw [hexec, State.intOp1_completes _ _ h hb]
  simp only [hfg]

theorem immOps_compute : ∀ op ∈ immOps, ComputesImmediate op.1 op.2 := by
  simp only [immOps, List.forall_mem_cons]
  exact
    ⟨computesImmediate_of_immOp (fun _ _ => rfl) (fun _ _ _ _ => rfl),
     computesImmediate_of_immOp (fun _ _ => rfl) (fun _ _ _ _ => rfl),
     computesImmediate_of_immOp (fun _ _ => rfl) (fun _ _ _ _ => rfl),
     computesImmediate_of_immOp (fun _ _ => rfl) (fun _ _ _ _ => rfl),
     computesImmediate_of_immOp (fun _ _ => flagWord_decide _) (fun _ _ _ _ => rfl),
     computesImmediate_of_immOp (fun _ _ => flagWord_decide _) (fun _ _ _ _ => rfl),
     nofun⟩

theorem shiftOps_compute : ∀ op ∈ shiftOps, ComputesShift op.1 op.2 := by
  simp only [shiftOps, List.forall_mem_cons]
  exact
    ⟨computesShift_of_intOp1 shiftLeft_eq_ofNat (fun _ _ _ _ => rfl),
     computesShift_of_intOp1 shiftRight_eq_ofNat (fun _ _ _ _ => rfl),
     computesShift_of_intOp1 sshiftRight_eq_ofInt (fun _ _ _ _ => rfl),
     nofun⟩

theorem execLui_completes {s : State} {st : Strand} {d : Reg} (imm : BitVec 18) (h : Stands s st [d])
    (hp : AtMostImx (running s st)) :
    execLui d imm s = .next (complete s 1 (fun c => c.setReg d (immediate c (imm ++ 0#14)))) :=
  State.issue_setReg _ d h (Context.admits_wideForm hp) (by decide) rfl rfl (Env.imm_here s st _)

/-- R120, R146: AUIPC adds to the address of its own word. -/
theorem execAuipc_completes {s : State} {st : Strand} {d : Reg} (imm : BitVec 18) (h : Stands s st [d])
    (hp : AtMostImx (running s st)) :
    execAuipc d imm s = .next (complete s 1 (fun c => c.setReg d (c.pc + immediate c (imm ++ 0#14)))) :=
  State.issue_setReg _ d h (Context.admits_wideForm hp) (by decide) rfl rfl
    (congrArg ((running s st).pc + ·) (Env.imm_here s st _))

/-- R145, R146: the immediate forms, LUI and AUIPC. -/
theorem immediateResults_claim : Claim.ImmediateResults := by
  intro d a s st h hp
  have hd : Stands s st [d] := ⟨h.1, fun hx r hr => h.2 hx r (by simp_all)⟩
  refine ⟨fun op hop imm => immOps_compute op hop d a imm s st h hp, fun imm => ⟨?_, ?_⟩⟩
  · exact execLui_completes imm hd hp
  · exact execAuipc_completes imm hd hp

/-! ## R147: bit fields, bit by bit -/

theorem fieldBits_eq (w : BitVec 7) (o : BitVec 6) : fieldBits w o = min (min w.toNat 64) (64 - o.toNat) := rfl

theorem fieldBit_eq (x : Word) (w : BitVec 7) (o : BitVec 6) (signed : Bool) (i : Nat) :
    fieldBit x w o signed i = if i < fieldBits w o then x.getLsbD (o.toNat + i)
      else signed && decide (0 < fieldBits w o) && x.getLsbD (o.toNat + fieldBits w o - 1) := rfl

/-- R147: a field stops at bit 63, so inside the register its width is the one the instruction gives. -/
theorem lt_fieldBits_iff (w : BitVec 7) (o : BitVec 6) {i : Nat} (hlo : o.toNat ≤ i) (hi : i < 64) :
    i - o.toNat < fieldBits w o ↔ i < o.toNat + w.toNat := by
  rw [fieldBits_eq]
  omega

theorem signedOf_eq_toInt (w n : Nat) : signedOf w n = (BitVec.ofNat w n).toInt := by
  rcases w with _ | w
  · simp [signedOf, Nat.mod_one, BitVec.of_length_zero]
  · have hlt : n % 2 ^ (w + 1) < 2 ^ (w + 1) := Nat.mod_lt _ (by positivity)
    simp only [signedOf, BitVec.toInt_eq_toNat_cond, BitVec.toNat_ofNat, Nat.add_sub_cancel, pow_succ] at hlt ⊢
    split <;> split <;> omega

theorem getLsbD_extractU (x : Word) (w : BitVec 7) (o : BitVec 6) {i : Nat} (hi : i < 64) :
    (extractU x w o).getLsbD i = fieldBit x w o false i := by
  rw [fieldBit_eq, extractU, BitVec.getLsbD_ofNat, Nat.testBit_mod_two_pow, Nat.testBit_div_two_pow]
  by_cases hk : i < fieldBits w o <;> simp [hi, hk, Nat.add_comm i, BitVec.testBit_toNat]

/-- The field sign-extended is a word of as many bits as it has, sign-extended. -/
theorem extractS_eq_signExtend (x : Word) (w : BitVec 7) (o : BitVec 6) :
    extractS x w o = (BitVec.ofNat (fieldBits w o) (x.toNat / 2 ^ o.toNat)).signExtend 64 := by
  rw [extractS, signedOf_eq_toInt, BitVec.signExtend]
  congr 2
  exact BitVec.eq_of_toNat_eq (by simp)

theorem getLsbD_extractS (x : Word) (w : BitVec 7) (o : BitVec 6) {i : Nat} (hi : i < 64) :
    (extractS x w o).getLsbD i = fieldBit x w o true i := by
  rw [fieldBit_eq, extractS_eq_signExtend, BitVec.getLsbD_signExtend, BitVec.msb_eq_getLsbD_last]
  simp only [BitVec.getLsbD_ofNat, Nat.testBit_div_two_pow, BitVec.testBit_toNat, hi, decide_true, Bool.true_and]
  by_cases hk : i < fieldBits w o
  · simp [hk, Nat.add_comm i]
  · by_cases h0 : 0 < fieldBits w o
    · simp [hk, h0, Nat.add_comm, Nat.add_sub_assoc h0]
    · simp [hk, h0]

theorem getLsbD_insertField (y x : Word) (w : BitVec 7) (o : BitVec 6) {i : Nat} (hi : i < 64) :
    (insertField y x w o).getLsbD i = if o.toNat ≤ i ∧ i < o.toNat + w.toNat then x.getLsbD (i - o.toNat) else y.getLsbD i := by
  simp only [insertField, BitVec.getLsbD_or, BitVec.getLsbD_and, BitVec.getLsbD_not, BitVec.getLsbD_ofNat, hi, decide_true,
    Bool.true_and, Nat.testBit_mul_two_pow, Nat.testBit_two_pow_sub_one, Nat.testBit_mod_two_pow, BitVec.testBit_toNat]
  by_cases hlo : o.toNat ≤ i
  · by_cases hhi : i < o.toNat + w.toNat <;> simp [hlo, hhi, lt_fieldBits_iff w o hlo hi]
  · simp [hlo]

/-- BFI reads gd as it stands. -/
theorem execBfi_writes {s : State} {st : Strand} {d a : Reg} (w : BitVec 7) (o : BitVec 6) (h : Stands s st [d, a])
    (hb : Bare (running s st)) :
    execBfi d a w o s =
      .next (complete s 1 (fun c => c.setReg d (insertField ((running s st).reg d) ((running s st).reg a) w o))) :=
  State.issue_setReg _ d h (Context.admits_of_bare _ hb) (by decide) rfl rfl rfl

/-- R145, R147: the shifts by an amount, BFXU, BFX and BFI. -/
theorem shiftAndFieldResults_claim : Claim.ShiftAndFieldResults := by
  intro d a s st h hb
  refine ⟨fun op hop n => shiftOps_compute op hop d a n s st h hb, fun w o =>
    ⟨extractU ((running s st).reg a) w o, extractS ((running s st).reg a) w o,
      insertField ((running s st).reg d) ((running s st).reg a) w o, ?_, ?_, ?_,
      fun i hi => ⟨getLsbD_extractU _ w o hi, getLsbD_extractS _ w o hi, getLsbD_insertField _ _ w o hi⟩⟩⟩
  · exact State.intOp1_writes (.bfxu d a w o) (extractU · w o) h hb
  · exact State.intOp1_writes (.bfx d a w o) (extractS · w o) h hb
  · exact execBfi_writes w o h hb

/-- Settles O2: the immediate forms and shifts by their shared shapes, the bit fields by the bits of what they compute. -/
theorem immediateAndFieldResults : Obligations.ImmediateAndFieldResults :=
  ⟨immediateResults_claim, shiftAndFieldResults_claim⟩

end Sys2Proof.Machine

/-! # Chapter 8: scalar accesses that trap, R148 and R154 -/

namespace Sys2Proof.Machine
open Sys2Proof.Claim

/-- A trap that leaves the state as it was is entered as `trapNow` does it (R312). -/
theorem trapsIn_self (s : State) (cause : Cause) (vector : Bool) (tval : Word) :
    trapsIn s s cause vector tval = .next (s.trapNow s.cur.slot s.cur.ctx cause vector tval) := by
  unfold trapsIn State.trapNow
  split <;> rfl

/-- R148: a misaligned load raises 0x04 with its address, whatever its offset, order and extension. -/
theorem State.scalarLoad_misaligned {s : State} {st : Strand} (i : Instr) {d a : Reg} {plain : Bool} {n : Nat} {offset : Env → Word}
    (own : Attr) (ext : Nat → Word) {va : Word} (h : Stands s st [d, a]) (hp : LoadTakes (running s st) plain)
    (hva : (running s st).reg a + offset (Env.here s st) = va) (hn : va.toNat % n ≠ 0) :
    s.scalarLoad i d a plain n offset own ext = trapsIn s s .misaligned false va := by
  rw [State.scalarLoad, State.issue_ready i _ _ h (Context.admits_loadForm hp) nofun rfl]
  simp only [Env.reg_here, hva, if_pos hn, BitVec.ofNat_toNat, BitVec.setWidth_eq, State.conclude_trap, trapsIn_self, accessForm]

/-- R148: a misaligned store alike. -/
theorem State.scalarStore_misaligned {s : State} {st : Strand} (i : Instr) {d a : Reg} {plain : Bool} {n : Nat} {offset : Env → Word}
    (own : Attr) {va : Word} (h : Stands s st [d, a]) (hp : StoreTakes (running s st) plain)
    (hva : (running s st).reg a + offset (Env.here s st) = va) (hn : va.toNat % n ≠ 0) :
    s.scalarStore i d a plain n offset own = trapsIn s s .misaligned false va := by
  rw [State.scalarStore, State.issue_ready i _ _ h (Context.admits_storeForm hp) nofun rfl]
  simp only [Env.reg_here, hva, if_pos hn, BitVec.ofNat_toNat, BitVec.setWidth_eq, State.conclude_trap, trapsIn_self, accessForm]

/-- What an instruction does as a load of the claims: that of the model with the claim's size and offset. -/
def RunsAsLoad (x : Load) : Prop :=
  ∃ (offset : Env → Word) (own : Attr) (ext : Nat → Word),
    (∀ d a s, exec (x.instr d a) s = s.scalarLoad (x.instr d a) d a x.plain x.bytes offset own ext) ∧
      ∀ s st, offset (Env.here s st) = x.offset (running s st)

/-- The same for a store. -/
def RunsAsStore (x : Store) : Prop :=
  ∃ (offset : Env → Word) (own : Attr),
    (∀ d a s, exec (x.instr d a) s = s.scalarStore (x.instr d a) d a x.plain x.bytes offset own) ∧
      ∀ s st, offset (Env.here s st) = x.offset (running s st)

theorem runsAsLoad_ofPlain {f : Reg → Reg → BitVec 13 → Instr} {off : BitVec 13} {n : Nat} {signed : Bool} (ext : Nat → Word)
    (hexec : ∀ d a s, exec (f d a off) s = s.scalarLoad (f d a off) d a true n (fun e => e.imm off) .plain ext) :
    RunsAsLoad (.ofPlain f off n signed) :=
  ⟨fun e => e.imm off, .plain, ext, hexec, fun s st => Env.imm_here s st off⟩

theorem runsAsStore_ofPlain {f : Reg → Reg → BitVec 13 → Instr} {off : BitVec 13} {n : Nat}
    (hexec : ∀ d a s, exec (f d a off) s = s.scalarStore (f d a off) d a true n (fun e => e.imm off) .plain) :
    RunsAsStore (.ofPlain f off n) :=
  ⟨fun e => e.imm off, .plain, hexec, fun s st => Env.imm_here s st off⟩

theorem loadsOf_runAsLoad (off : BitVec 13) (off10 : BitVec 10) (scope : BitVec 3) : ∀ x ∈ loadsOf off off10 scope, RunsAsLoad x := by
  simp only [loadsOf, List.forall_mem_cons]
  exact
    ⟨runsAsLoad_ofPlain (signFill 1) (fun _ _ _ => rfl),
     runsAsLoad_ofPlain (signFill 2) (fun _ _ _ => rfl),
     runsAsLoad_ofPlain (signFill 4) (fun _ _ _ => rfl),
     runsAsLoad_ofPlain zeroFill (fun _ _ _ => rfl),
     runsAsLoad_ofPlain zeroFill (fun _ _ _ => rfl),
     runsAsLoad_ofPlain zeroFill (fun _ _ _ => rfl),
     runsAsLoad_ofPlain zeroFill (fun _ _ _ => rfl),
     ⟨fun e => e.imm off10, _, zeroFill, fun _ _ _ => rfl, fun s st => Env.imm_here s st off10⟩, nofun⟩

theorem storesOf_runAsStore (off : BitVec 13) (off10 : BitVec 10) (scope : BitVec 3) : ∀ x ∈ storesOf off off10 scope, RunsAsStore x := by
  simp only [storesOf, List.forall_mem_cons]
  exact
    ⟨runsAsStore_ofPlain (fun _ _ _ => rfl),
     runsAsStore_ofPlain (fun _ _ _ => rfl),
     runsAsStore_ofPlain (fun _ _ _ => rfl),
     runsAsStore_ofPlain (fun _ _ _ => rfl),
     ⟨fun e => e.imm off10, _, fun _ _ _ => rfl, fun s st => Env.imm_here s st off10⟩, nofun⟩

/-- R148: every misaligned load and store. -/
theorem misalignedAccessTraps_claim : Claim.MisalignedAccessTraps := by
  intro off off10 scope d a s st h
  refine ⟨fun x hx hp hn => ?_, fun x hx hp hn => ?_⟩
  · obtain ⟨offset, own, ext, hexec, hoff⟩ := loadsOf_runAsLoad off off10 scope x hx
    rw [hexec]
    exact State.scalarLoad_misaligned _ own ext h hp (congrArg _ (hoff s st)) hn
  · obtain ⟨offset, own, hexec, hoff⟩ := storesOf_runAsStore off off10 scope x hx
    rw [hexec]
    exact State.scalarStore_misaligned _ own h hp (congrArg _ (hoff s st)) hn

/-! ## R154: atomics that a host has no AtomicOp for -/

@[simp] theorem Env.slot_here (s : State) (st : Strand) : (Env.here s st).slot = s.cur.slot := rfl
@[simp] theorem Env.ctx_here (s : State) (st : Strand) : (Env.here s st).ctx = s.cur.ctx := rfl
@[simp] theorem Env.st_here (s : State) (st : Strand) : (Env.here s st).st = st := rfl
@[simp] theorem Env.agent_here (s : State) (st : Strand) : (Env.here s st).agent = Claim.agent s st := rfl
@[simp] theorem Env.mattr_here (s : State) (st : Strand) : (Env.here s st).mattr = Claim.mattr (running s st) := rfl

/-- R132: the scope of an access is the one the claims speak of, -/
theorem Env.attr_here_scope (s : State) (st : Strand) (own : Attr) :
    ((Env.here s st).attr own).scope = scopeOf (running s st) own.scope := by
  simp only [Env.attr, Env.mattr_here, scopeOf]
  cases Claim.mattr (running s st) <;> rfl

/-- and so is whether it releases. -/
theorem Env.attr_here_release (s : State) (st : Strand) {own : Attr} {order : BitVec 3} (h : own.release = order.getLsbD 1) :
    ((Env.here s st).attr own).release = (Claim.orderOf (running s st) order).getLsbD 1 := by
  simp only [Env.attr, Env.mattr_here, Claim.orderOf]
  cases Claim.mattr (running s st) with
  | none => exact h
  | some m =>
    change (if m.2.2 = 7 then own.release else bit m.2.2 1) = (if m.2.2 = 7 then order else m.2.2).getLsbD 1
    split
    · exact h
    · rfl

/-- R107, R109: an access whose release has nothing to wait for is not held back. -/
theorem Env.heldBack_here {s : State} {st : Strand} {own : Attr} {order : BitVec 3} (hown : own.release = order.getLsbD 1)
    (hnov : st.novHeld s.cur.ctx = false)
    (hrel : (Claim.orderOf (running s st) order).getLsbD 1 = true →
      s.releaseHeld s.cur.slot s.cur.ctx st (scopeOf (running s st) own.scope) = false) :
    (st.novHeld s.cur.ctx || ((Env.here s st).attr own).release &&
      s.releaseHeld s.cur.slot s.cur.ctx st ((Env.here s st).attr own).scope) = false := by
  rw [Env.attr_here_release s st hown, Env.attr_here_scope, hnov, Bool.false_or, Bool.and_eq_false_imp]
  exact hrel

/-- An atomic without a PCIe AtomicOp raises 0x07 where its doubleword lies in host memory, before anything is read. -/
theorem State.atomicOp_hostRefuses {s : State} {st : Strand} (i : Instr) {d a src : Reg} {scope : BitVec 3} {order : BitVec 2}
    (f : Word → Word → Word) {p : Place} (h : Stands s st [d, a, src]) (hp : AtomicTakes (running s st))
    (halign : ((running s st).reg a).toNat % 8 = 0) (hnov : st.novHeld s.cur.ctx = false)
    (hrel : (orderOf (running s st) (order.setWidth 3)).getLsbD 1 = true →
      s.releaseHeld s.cur.slot s.cur.ctx st (scopeOf (running s st) scope) = false)
    (hroute : s.route st st.strip .other ((running s st).reg a).toNat 8 = .memory)
    (hplace : s.resolve (agent s st) ((running s st).reg a).toNat .atomic = .ok p) (hhost : isHost p = true) :
    s.atomicOp i d a scope order src false f = trapsIn s s .protection false ((running s st).reg a) := by
  obtain ⟨pa, rfl⟩ : ∃ pa, p = .host pa := by
    cases p <;> simp_all [isHost]
  rw [State.atomicOp, State.atomic, State.issue_ready i _ _ h (Context.admits_atomicForm hp) nofun rfl]
  have hheld := Env.heldBack_here (own := { scope, cache := 0, acquire := bit order 0, release := bit order 1 })
    (order := order.setWidth 3) (by simp [bit]) hnov hrel
  simp only [Env.slot_here, Env.ctx_here, Env.st_here, Env.agent_here, Env.reg_here, if_neg (not_not.2 halign), hheld, hroute, hplace,
    Bool.false_eq_true, Bool.not_false, Bool.and_self, ↓reduceIte, State.conclude_trap, trapsIn_self, accessForm]

/-- R154: the atomics of the table with no PCIe AtomicOp are the model's with none. -/
theorem atomicOps_withoutHostOp : ∀ op ∈ atomicOps, op.2.1 = false →
    ∃ f, ∀ d a src scope order s, exec (op.1 d a scope order src) s = s.atomicOp (op.1 d a scope order src) d a scope order src false f := by
  simp only [atomicOps, List.forall_mem_cons]
  exact ⟨nofun, nofun, fun _ => ⟨_, fun _ _ _ _ _ _ => rfl⟩, fun _ => ⟨_, fun _ _ _ _ _ _ => rfl⟩,
    fun _ => ⟨_, fun _ _ _ _ _ _ => rfl⟩, fun _ => ⟨_, fun _ _ _ _ _ _ => rfl⟩, fun _ => ⟨_, fun _ _ _ _ _ _ => rfl⟩, nofun⟩

/-- R154: AMOAND, AMOOR, AMOXOR, AMOMIN and AMOMAX on host memory. -/
theorem hostRefusesSomeAtomics_claim : Claim.HostRefusesSomeAtomics := by
  intro op hop hno d a src scope order s st p h hp c va halign hnov hrel hroute hplace hhost
  obtain ⟨f, hexec⟩ := atomicOps_withoutHostOp op hop hno
  rw [hexec]
  exact State.atomicOp_hostRefuses _ f h hp halign hnov hrel hroute hplace hhost

/-- Settles O6: the checks of R148 and R154 come before anything is accessed. -/
theorem scalarAccessTraps : Obligations.ScalarAccessTraps :=
  ⟨misalignedAccessTraps_claim, hostRefusesSomeAtomics_claim⟩

end Sys2Proof.Machine

/-! # Chapter 7: decoding and encoding -/

namespace Sys2Proof
-- one proof at a time: the memory of proofs in flight together is more than the check has
set_option Elab.async false
open WF

/-! ## Fields of words (R117, R121 to R132) -/

@[simp] theorem bits_self {w : Nat} (x : BitVec w) : bits x 0 w = x := by simp [bits]

/-- A field of two adjoining parts lies in the lower one or in the upper one. (The width is a numeral where this is used: it is no
key by which `simp` should look for these.) -/
theorem bits_append_low {v u : Nat} (x : BitVec v) (y : BitVec u) (lo n : Nat) (h : lo + n ≤ u) :
    bits (@HAppend.hAppend _ _ (no_index (BitVec (v + u))) _ x y) lo n = bits y lo n := by
  ext i hi
  simp only [bits, BitVec.getElem_extractLsb', BitVec.getLsbD_append]
  grind

theorem bits_append_high {v u : Nat} (x : BitVec v) (y : BitVec u) (lo n : Nat) (h : u ≤ lo) :
    bits (@HAppend.hAppend _ _ (no_index (BitVec (v + u))) _ x y) lo n = bits x (lo - u) n := by
  ext i hi
  simp only [bits, BitVec.getElem_extractLsb', BitVec.getLsbD_append]
  grind

theorem bit_append_low {v u : Nat} (x : BitVec v) (y : BitVec u) (i : Nat) (h : i < u) :
    bit (@HAppend.hAppend _ _ (no_index (BitVec (v + u))) _ x y) i = bit y i := by
  simp only [bit, BitVec.getLsbD_append, h, if_true]

theorem bit_append_high {v u : Nat} (x : BitVec v) (y : BitVec u) (i : Nat) (h : u ≤ i) :
    bit (@HAppend.hAppend _ _ (no_index (BitVec (v + u))) _ x y) i = bit x (i - u) := by
  simp only [bit, BitVec.getLsbD_append, Nat.not_lt.mpr h, if_false]

theorem bit_ofBool (b : Bool) : bit (BitVec.ofBool b) 0 = b := by cases b <;> rfl

/-- Adjoining fields of a word, put together again. -/
theorem bits_append_bits {v : Nat} (w : BitVec v) (lo m n : Nat) : bits w (lo + m) n ++ bits w lo m = bits w lo (n + m) := by
  ext i hi
  simp only [bits, BitVec.getElem_append, BitVec.getElem_extractLsb']
  grind

theorem join_bits {v : Nat} (w : BitVec v) {hi lo m : Nat} (n : Nat) (h : hi = lo + m) : bits w hi n ++ bits w lo m = bits w lo (n + m) := by
  subst h
  exact bits_append_bits w lo m n

@[simp] theorem opcode_scalarWord (cls : BitVec 3) (op : BitVec 6) (low : BitVec 23) : bits (scalarWord cls op low) 23 6 = op := by
  rw [scalarWord]
  simp only [bits_append_low, bits_append_high, bits_self, Nat.reduceAdd, Nat.reduceSub, Nat.reduceLeDiff]

/-- Below its opcode a scalar word is its low part. -/
theorem bits_scalarWord (cls : BitVec 3) (op : BitVec 6) (low : BitVec 23) (lo n : Nat) (h : lo + n ≤ 23) :
    bits (scalarWord cls op low) lo n = bits low lo n := by
  exact bits_append_low _ _ _ _ h

/-- The fields of an SI, SM or SB word with two registers (R122 to R124). -/
@[simp] theorem fields_dai (d a : Reg) (l : BitVec 13) :
    bits (d ++ a ++ l : BitVec 23) 18 5 = d ∧ bits (d ++ a ++ l : BitVec 23) 13 5 = a := by
  constructor <;> simp only [bits_append_low, bits_append_high, bits_self, Nat.reduceAdd, Nat.reduceSub, Nat.reduceLeDiff]

theorem low_dai (d a : Reg) (l : BitVec 13) (lo n : Nat) (h : lo + n ≤ 13) : bits (d ++ a ++ l : BitVec 23) lo n = bits l lo n := by
  exact bits_append_low _ _ _ _ h

/-- The fields of an SR word (R121). -/
@[simp] theorem fields_sr (d a b : Reg) (f : BitVec 8) :
    bits (d ++ a ++ b ++ f : BitVec 23) 18 5 = d ∧ bits (d ++ a ++ b ++ f : BitVec 23) 13 5 = a ∧
      bits (d ++ a ++ b ++ f : BitVec 23) 8 5 = b := by
  refine ⟨?_, ?_, ?_⟩ <;> simp only [bits_append_low, bits_append_high, bits_self, Nat.reduceAdd, Nat.reduceSub, Nat.reduceLeDiff]

theorem low_sr (d a b : Reg) (f : BitVec 8) (lo n : Nat) (h : lo + n ≤ 8) :
    bits (d ++ a ++ b ++ f : BitVec 23) lo n = bits f lo n := by
  exact bits_append_low _ _ _ _ h

/-- What the function field of an SR word holds: a rounding mode, a third source, a relation, or a conversion (R121, R141 to R144). -/
@[simp] theorem fields_rm (rm : BitVec 3) : bits (0#5 ++ rm : BitVec 8) 3 5 = 0 ∧ bits (0#5 ++ rm : BitVec 8) 0 3 = rm := by
  constructor <;> simp only [bits_append_low, bits_append_high, bits_self, Nat.reduceAdd, Nat.reduceSub, Nat.reduceLeDiff,
    BitVec.ofNat_eq_ofNat]

@[simp] theorem fields_fma (rm : BitVec 3) (c : Reg) : bits (rm ++ c : BitVec 8) 5 3 = rm ∧ bits (rm ++ c : BitVec 8) 0 5 = c := by
  constructor <;> simp only [bits_append_low, bits_append_high, bits_self, Nat.reduceAdd, Nat.reduceSub, Nat.reduceLeDiff]

@[simp] theorem fields_rel (rel : BitVec 2) : bits (0#6 ++ rel : BitVec 8) 2 6 = 0 ∧ bits (0#6 ++ rel : BitVec 8) 0 2 = rel := by
  constructor <;> simp only [bits_append_low, bits_append_high, bits_self, Nat.reduceAdd, Nat.reduceSub, Nat.reduceLeDiff,
    BitVec.ofNat_eq_ofNat]

@[simp] theorem fields_fcvt (sat : Bool) (dir : BitVec 4) (rm : BitVec 3) :
    bits (BitVec.ofBool sat ++ dir ++ rm : BitVec 8) 3 4 = dir ∧ bits (BitVec.ofBool sat ++ dir ++ rm : BitVec 8) 0 3 = rm := by
  constructor <;> simp only [bits_append_low, bits_append_high, bits_self, Nat.reduceAdd, Nat.reduceSub, Nat.reduceLeDiff]

@[simp] theorem sat_fcvt (sat : Bool) (dir : BitVec 4) (rm : BitVec 3) : bit (BitVec.ofBool sat ++ dir ++ rm : BitVec 8) 7 = sat := by
  simp only [bit_append_high, bit_ofBool, Nat.reduceAdd, Nat.reduceSub, Nat.reduceLeDiff]

/-- What the low 13 bits of an SI or SM word hold (R122, R123). -/
@[simp] theorem fields_shift (width : BitVec 7) (amount : BitVec 6) :
    bits (width ++ amount : BitVec 13) 6 7 = width ∧ bits (width ++ amount : BitVec 13) 0 6 = amount := by
  constructor <;> simp only [bits_append_low, bits_append_high, bits_self, Nat.reduceAdd, Nat.reduceSub, Nat.reduceLeDiff]

@[simp] theorem fields_scope (scope : BitVec 3) (off : BitVec 10) :
    bits (scope ++ off : BitVec 13) 10 3 = scope ∧ bits (scope ++ off : BitVec 13) 0 10 = off := by
  constructor <;> simp only [bits_append_low, bits_append_high, bits_self, Nat.reduceAdd, Nat.reduceSub, Nat.reduceLeDiff]

@[simp] theorem fields_amo (scope : BitVec 3) (order : BitVec 2) (s : Reg) :
    bits (scope ++ order ++ 0#3 ++ s : BitVec 13) 10 3 = scope ∧ bits (scope ++ order ++ 0#3 ++ s : BitVec 13) 8 2 = order ∧
      bits (scope ++ order ++ 0#3 ++ s : BitVec 13) 5 3 = 0 ∧ bits (scope ++ order ++ 0#3 ++ s : BitVec 13) 0 5 = s := by
  refine ⟨?_, ?_, ?_, ?_⟩ <;> simp only [bits_append_low, bits_append_high, bits_self, Nat.reduceAdd, Nat.reduceSub, Nat.reduceLeDiff,
    BitVec.ofNat_eq_ofNat]

@[simp] theorem low_amocas (scope : BitVec 3) (order : BitVec 2) : bits (scope ++ order ++ 0#3 ++ 0#5 : BitVec 13) 0 8 = 0 := by
  ext i hi
  simp only [bits, BitVec.getElem_extractLsb', BitVec.getLsbD_append]
  grind

@[simp] theorem fields_fence (scope : BitVec 3) (kinds : BitVec 6) :
    bits (scope ++ 0#4 ++ kinds : BitVec 13) 10 3 = scope ∧ bits (scope ++ 0#4 ++ kinds : BitVec 13) 6 4 = 0 ∧
      bits (scope ++ 0#4 ++ kinds : BitVec 13) 0 6 = kinds := by
  refine ⟨?_, ?_, ?_⟩ <;> simp only [bits_append_low, bits_append_high, bits_self, Nat.reduceAdd, Nat.reduceSub, Nat.reduceLeDiff,
    BitVec.ofNat_eq_ofNat]

/-- The fields of LUI, AUIPC and JAL, of QPOP, and the queue or slot that a register field holds (R122, R124). -/
@[simp] theorem fields_wide (d : Reg) (m : BitVec 18) : bits (d ++ m : BitVec 23) 18 5 = d ∧ bits (d ++ m : BitVec 23) 0 18 = m := by
  constructor <;> simp only [bits_append_low, bits_append_high, bits_self, Nat.reduceAdd, Nat.reduceSub, Nat.reduceLeDiff]

@[simp] theorem fields_qpop (d : Reg) (q : BitVec 2) :
    bits (d ++ q ++ 0#16 : BitVec 23) 18 5 = d ∧ bits (d ++ q ++ 0#16 : BitVec 23) 16 2 = q ∧ bits (d ++ q ++ 0#16 : BitVec 23) 0 16 = 0 := by
  refine ⟨?_, ?_, ?_⟩ <;> simp only [bits_append_low, bits_append_high, bits_self, Nat.reduceAdd, Nat.reduceSub, Nat.reduceLeDiff,
    BitVec.ofNat_eq_ofNat]

@[simp] theorem fields_queue (q : BitVec 2) : bits (0#3 ++ q : Reg) 2 3 = 0 ∧ bits (0#3 ++ q : Reg) 0 2 = q := by
  constructor <;> simp only [bits_append_low, bits_append_high, bits_self, Nat.reduceAdd, Nat.reduceSub, Nat.reduceLeDiff,
    BitVec.ofNat_eq_ofNat]

@[simp] theorem fields_slot (slot : BitVec 3) : bits (0#2 ++ slot : Reg) 3 2 = 0 ∧ bits (0#2 ++ slot : Reg) 0 3 = slot := by
  constructor <;> simp only [bits_append_low, bits_append_high, bits_self, Nat.reduceAdd, Nat.reduceSub, Nat.reduceLeDiff,
    BitVec.ofNat_eq_ofNat]

/-- The fields of the prefixes (R130 to R132). -/
@[simp] theorem fields_imx (p : BitVec 27) : bits (7#3 ++ 0#2 ++ p : BitVec 32) 27 2 = 0 ∧ bits (7#3 ++ 0#2 ++ p : BitVec 32) 0 27 = p := by
  constructor <;> simp only [bits_append_low, bits_append_high, bits_self, Nat.reduceAdd, Nat.reduceSub, Nat.reduceLeDiff,
    BitVec.ofNat_eq_ofNat]

@[simp] theorem fields_mattr (scope cache order : BitVec 3) :
    bits (7#3 ++ 1#2 ++ scope ++ cache ++ order ++ 0#18 : BitVec 32) 27 2 = 1 ∧
      bits (7#3 ++ 1#2 ++ scope ++ cache ++ order ++ 0#18 : BitVec 32) 0 18 = 0 ∧
      bits (7#3 ++ 1#2 ++ scope ++ cache ++ order ++ 0#18 : BitVec 32) 24 3 = scope ∧
      bits (7#3 ++ 1#2 ++ scope ++ cache ++ order ++ 0#18 : BitVec 32) 21 3 = cache ∧
      bits (7#3 ++ 1#2 ++ scope ++ cache ++ order ++ 0#18 : BitVec 32) 18 3 = order := by
  refine ⟨?_, ?_, ?_, ?_, ?_⟩ <;> simp only [bits_append_low, bits_append_high, bits_self, Nat.reduceAdd, Nat.reduceSub, Nat.reduceLeDiff,
    BitVec.ofNat_eq_ofNat]

/-- The first word of a VX or MX instruction (R125, R128). -/
@[simp] theorem opcode_vector (cls : BitVec 3) (op : BitVec 7) (a b c d : Reg) (e : BitVec 2) :
    bits (cls ++ op ++ a ++ b ++ c ++ d ++ e : BitVec 32) 22 7 = op ∧ bits (cls ++ op ++ a ++ b ++ c ++ d ++ e : BitVec 32) 0 2 = e := by
  constructor <;> simp only [bits_append_low, bits_append_high, bits_self, Nat.reduceAdd, Nat.reduceSub, Nat.reduceLeDiff]

/-- The first word of a YS instruction (R129). -/
@[simp] theorem opcode_ys (cls : BitVec 3) (op : BitVec 7) (a b c : Reg) (e : BitVec 7) :
    bits (cls ++ op ++ a ++ b ++ c ++ e : BitVec 32) 22 7 = op := by
  simp only [bits_append_low, bits_append_high, bits_self, Nat.reduceAdd, Nat.reduceSub, Nat.reduceLeDiff]

/-- R125, R126: the fields of a compute-form instruction are read back from its words. -/
theorem vxcFields_words (op : BitVec 7) (f : VxC) : vxcFields ((vxcWords op f).getD 0 0) ((vxcWords op f).getD 1 0) = f := by
  simp only [vxcFields, vxcWords, List.getD_cons_zero, List.getD_cons_succ]
  simp only [bits_append_low, bits_append_high, bit_append_low, bit_append_high, bit_ofBool, bits_self, Nat.reduceAdd, Nat.reduceSub,
    Nat.reduceLeDiff, Nat.reduceLT]

/-- R125, R127: so are those of a memory-form one, -/
theorem vxmFields_words (op : BitVec 7) (f : VxM) : vxmFields ((vxmWords op f).getD 0 0) ((vxmWords op f).getD 1 0) = f := by
  simp only [vxmFields, vxmWords, List.getD_cons_zero, List.getD_cons_succ]
  simp only [bits_append_low, bits_append_high, bit_append_low, bit_append_high, bit_ofBool, bits_self, Nat.reduceAdd, Nat.reduceSub,
    Nat.reduceLeDiff, Nat.reduceLT]

/-- R128: of an MX one, -/
theorem mxFields_words (op : BitVec 7) (f : MxF) : mxFields ((mxWords op f).getD 0 0) ((mxWords op f).getD 1 0) = f := by
  simp only [mxFields, mxWords, List.getD_cons_zero, List.getD_cons_succ]
  simp only [bits_append_low, bits_append_high, bit_append_low, bit_append_high, bit_ofBool, bits_self, Nat.reduceAdd, Nat.reduceSub,
    Nat.reduceLeDiff, Nat.reduceLT]

/-- R129: and of a YS one. -/
theorem ysFields_words (op : BitVec 7) (f : YsF) : ysFields ((ysWords op f).getD 0 0) ((ysWords op f).getD 1 0) = f := by
  simp only [ysFields, ysWords, List.getD_cons_zero, List.getD_cons_succ]
  simp only [bits_append_low, bits_append_high, bits_self, Nat.reduceAdd, Nat.reduceSub, Nat.reduceLeDiff]

/-- The bits between the fields of a second word are zero (R118, R125). -/
@[simp] theorem gap_vxc (op : BitVec 7) (f : VxC) : bits ((vxcWords op f).getD 1 0) 13 5 = 0 := by
  simp only [vxcWords, List.getD_cons_succ, List.getD_cons_zero]
  simp only [bits_append_low, bits_append_high, bits_self, Nat.reduceAdd, Nat.reduceSub, Nat.reduceLeDiff,
    BitVec.ofNat_eq_ofNat]

@[simp] theorem gap_vxm (op : BitVec 7) (f : VxM) :
    bits ((vxmWords op f).getD 1 0) 25 2 = 0 ∧ bit ((vxmWords op f).getD 1 0) 18 = false := by
  simp only [vxmWords, List.getD_cons_succ, List.getD_cons_zero]
  constructor
  · simp only [bits_append_low, bits_append_high, bits_self, Nat.reduceAdd, Nat.reduceSub, Nat.reduceLeDiff,
    BitVec.ofNat_eq_ofNat]
  · simp only [bit_append_low, bit_append_high, Nat.reduceAdd, Nat.reduceSub, Nat.reduceLeDiff, Nat.reduceLT]
    rfl

/-! ## Parsing what was encoded -/

/-- A row of the map for a compute-form instruction is found behind any encoding with that opcode. -/
theorem parse_vxcWords {op : BitVec 7} {f : VxC} {i : Instr} (hop : ¬ (0x48 ≤ op.toNat ∧ op.toNat ≤ 0x5A)) (hna : f.na ≠ 3#2)
    (hi : vxcOf op.toNat f = some i) : parse ((vxcWords op f).getD 0 0) ((vxcWords op f).getD 1 0) = .ok i := by
  have hcls : classOf ((vxcWords op f).getD 0 0) = 4 := classOf_vector ..
  have hop' : bits ((vxcWords op f).getD 0 0) 22 7 = op := (opcode_vector ..).1
  have hna' : bits ((vxcWords op f).getD 0 0) 0 2 = f.na := (opcode_vector ..).2
  have hgap := gap_vxc op f
  simp only [parse, hcls, hop', hna', vxcFields_words, hi, hgap]
  simp [hop, hna, reserved]

theorem parse_vxmWords {op : BitVec 7} {f : VxM} {i : Instr} (hop : 0x48 ≤ op.toNat ∧ op.toNat ≤ 0x5A)
    (hi : vxmOf op.toNat f = some i) : parse ((vxmWords op f).getD 0 0) ((vxmWords op f).getD 1 0) = .ok i := by
  have hcls : classOf ((vxmWords op f).getD 0 0) = 4 := classOf_vector ..
  have hop' : bits ((vxmWords op f).getD 0 0) 22 7 = op := (opcode_vector ..).1
  have hna' : bits ((vxmWords op f).getD 0 0) 0 2 = 0 := (opcode_vector ..).2
  have hgap := gap_vxm op f
  simp only [parse, hcls, hop', hna', vxmFields_words, hi, hgap]
  simp [hop, reserved]

theorem parse_mxWords {op : BitVec 7} {f : MxF} {i : Instr} (hi : mxOf op.toNat f = some i) :
    parse ((mxWords op f).getD 0 0) ((mxWords op f).getD 1 0) = .ok i := by
  have hcls : classOf ((mxWords op f).getD 0 0) = 5 := classOf_vector ..
  have hop' : bits ((mxWords op f).getD 0 0) 22 7 = op := (opcode_vector ..).1
  have hlow : bits ((mxWords op f).getD 0 0) 0 2 = 0 := (opcode_vector ..).2
  simp only [parse, hcls, hop', mxFields_words, hi, hlow]
  rfl

theorem parse_ysWords {op : BitVec 7} {f : YsF} {i : Instr} (hi : ysOf op.toNat f = some i) :
    parse ((ysWords op f).getD 0 0) ((ysWords op f).getD 1 0) = .ok i := by
  have hcls : classOf ((ysWords op f).getD 0 0) = 6 := classOf_ys ..
  have hop' : bits ((ysWords op f).getD 0 0) 22 7 = op := opcode_ys ..
  simp only [parse, hcls, hop', ysFields_words, hi]
  rfl

/-- The form in which a decoder meets a CRRD or CRWR whose register has a row of its own: the register's number is its immediate. -/
def generalForm : Instr → Instr
  | .vstartAccess false d => .crrd { gd := d, ga := 0, gb := 0, fn7 := 0, imm := 0x010 }
  | .xflagsRead d => .crrd { gd := d, ga := 0, gb := 0, fn7 := 0, imm := 0x014 }
  | .vstartAccess true a => .crwr { gd := 0, ga := a, gb := 0, fn7 := 0, imm := 0x010 }
  | .xflagsWrite a => .crwr { gd := 0, ga := a, gb := 0, fn7 := 0, imm := 0x014 }
  | .xseedWrite a => .crwr { gd := 0, ga := a, gb := 0, fn7 := 0, imm := 0x016 }
  | .asidWrite a => .crwr { gd := 0, ga := a, gb := 0, fn7 := 0, imm := 0x110 }
  | .ptrootWrite a => .crwr { gd := 0, ga := a, gb := 0, fn7 := 0, imm := 0x111 }
  | .yield a => .crwr { gd := 0, ga := a, gb := 0, fn7 := 0, imm := 0x121 }
  | i => i

theorem fieldError_generalForm {i : Instr} (h : fieldError i = none) : fieldError (generalForm i) = none := by
  unfold generalForm
  split
  case h_9 => exact h
  case h_1 | h_2 =>
    change ys _ { d := true, imm := .crNumber } = none
    simp [ys, firstFailing]
  all_goals
    change ys _ { a := true, imm := .crNumber } = none
    simp [ys, firstFailing]

theorem ownRow_of_not_shadowed {i : Instr} (h : shadowedByOwnRow i = false) : ownRow i = i := by
  unfold ownRow
  split <;> simp_all [shadowedByOwnRow]

theorem ownRow_generalForm {i : Instr} (h : shadowedByOwnRow i = false) : ownRow (generalForm i) = i := by
  unfold generalForm
  split
  case h_9 => exact ownRow_of_not_shadowed h
  all_goals simp [ownRow]

/-- A neighbour code of 11 is refused on every compute-form instruction (R125). -/
theorem na_of_vxc {f : VxC} {u : Uses} {sc : Bool} (h : vxc f u sc = none) : f.na ≠ 3#2 := by
  intro hna
  simp [vxc, firstFailing, hna] at h

/-- A scalar word is parsed by its class. -/
theorem parse_scalarWord (cls : BitVec 3) (op : BitVec 6) (low : BitVec 23) (w1 : BitVec 32) :
    (cls = 0 → parse (scalarWord cls op low) w1 = parseSR (scalarWord cls op low)) ∧
      (cls = 1 → parse (scalarWord cls op low) w1 = parseSI (scalarWord cls op low)) ∧
      (cls = 2 → parse (scalarWord cls op low) w1 = parseSM (scalarWord cls op low)) ∧
      (cls = 3 → parse (scalarWord cls op low) w1 = parseSB (scalarWord cls op low)) := by
  refine ⟨?_, ?_, ?_, ?_⟩ <;> (rintro rfl; simp only [parse, classOf_scalarWord]; rfl)

/-- A field that lies within another one whose value is known. -/
theorem bits_within {m : Nat} {w : BitVec 32} {base : Nat} {x : BitVec m} (h : bits w base m = x) {k : Nat} (lo n : Nat) (hk : k = base + lo)
    (hn : lo + n ≤ m) : bits w k n = bits x lo n := by
  subst h hk
  ext i hi
  simp only [bits, BitVec.getElem_extractLsb', BitVec.getLsbD_extractLsb']
  rw [decide_eq_true (by omega), Bool.true_and, Nat.add_assoc]

theorem bits_of_bits {m : Nat} {w : BitVec 32} {x : BitVec m} (h : bits w 0 m = x) (lo n : Nat) (hn : lo + n ≤ m) :
    bits w lo n = bits x lo n := bits_within h lo n (Nat.zero_add lo).symm hn

theorem bit_of_bits {m : Nat} {w : BitVec 32} {x : BitVec m} (h : bits w 0 m = x) (i : Nat) (hi : i < m) : bit w i = bit x i := by
  subst h
  simp only [bit, bits, BitVec.getLsbD_extractLsb']
  rw [decide_eq_true hi, Bool.true_and, Nat.zero_add]

theorem bits_low13 {w : BitVec 32} (hb : bits w 8 5 = 0) (hz : bits w 0 8 = 0) : bits w 0 13 = 0 := by
  have h : bits w (0 + 8) 5 ++ bits w 0 8 = bits w 0 (5 + 8) := bits_append_bits w 0 8 5
  rw [show bits w (0 + 8) 5 = 0 from hb, hz] at h
  exact h.symm

/-- The words `ws` are parsed to `i` in its general form, and are as many as the class of the first says. -/
def ParsedAs (i : Instr) (ws : List (BitVec 32)) : Prop :=
  parse (ws.getD 0 0) (ws.getD 1 0) = .ok (generalForm i) ∧ ws.length = wordCount (ws.getD 0 0)

section
variable {i : Instr} {ws : List (BitVec 32)} (he : encode i = some ws)
include he

/-- A row of class SR is found by its opcode, whatever its function field holds. -/
theorem parsedAs_sr {op : BitVec 6} {d a b : Reg} {fn : BitVec 8} (hi : encode i = some (srWord op d a b fn))
    (hrow : ∀ w : BitVec 32, bits w 23 6 = op → bits w 18 5 = d → bits w 13 5 = a → bits w 8 5 = b → bits w 0 8 = fn →
      parseSR w = .ok (generalForm i)) : ParsedAs i ws := by
  cases hi.symm.trans he
  refine ⟨(parse_scalarWord ..).1 rfl |>.trans (hrow _ ?_ ?_ ?_ ?_ ?_), words_scalar _ _ _ (by decide)⟩
  all_goals simp [bits_scalarWord, low_sr]

/-- So is a row of class SI, SM or SB. -/
theorem parsedAs_scalar {cls : BitVec 3} {op : BitVec 6} {low : BitVec 23} (hi : encode i = some [scalarWord cls op low])
    (hcls : cls.toNat ≠ 4 ∧ cls.toNat ≠ 5 ∧ cls.toNat ≠ 6)
    (hrow : ∀ w w1 : BitVec 32, classOf w = cls → bits w 23 6 = op → bits w 0 23 = low → parse w w1 = .ok (generalForm i)) :
    ParsedAs i ws := by
  cases hi.symm.trans he
  refine ⟨hrow _ _ (classOf_scalarWord ..) ?_ ?_, words_scalar _ _ _ hcls⟩
  all_goals simp [bits_scalarWord]

/-- So is one with two register fields. -/
theorem parsedAs_dai {cls : BitVec 3} {op : BitVec 6} {d a : Reg} {low : BitVec 13} (hi : encode i = some (dai cls op d a low))
    (hcls : cls.toNat ≠ 4 ∧ cls.toNat ≠ 5 ∧ cls.toNat ≠ 6)
    (hrow : ∀ w w1 : BitVec 32, classOf w = cls → bits w 23 6 = op → bits w 18 5 = d → bits w 13 5 = a → bits w 0 13 = low →
      parse w w1 = .ok (generalForm i)) : ParsedAs i ws := by
  cases hi.symm.trans he
  refine ⟨hrow _ _ (classOf_scalarWord ..) ?_ ?_ ?_ ?_, words_scalar _ _ _ hcls⟩
  all_goals simp [dai, bits_scalarWord, low_dai]

theorem parsedAs_vxc {op : BitVec 7} {f : VxC} (hi : encode i = some (vxcWords op f)) (hop : ¬ (0x48 ≤ op.toNat ∧ op.toNat ≤ 0x5A))
    (hna : f.na ≠ 3#2) (hrow : vxcOf op.toNat f = some (generalForm i)) : ParsedAs i ws := by
  cases hi.symm.trans he
  exact ⟨parse_vxcWords hop hna hrow, words_vxc _ _⟩

theorem parsedAs_vxm {op : BitVec 7} {f : VxM} (hi : encode i = some (vxmWords op f)) (hop : 0x48 ≤ op.toNat ∧ op.toNat ≤ 0x5A)
    (hrow : vxmOf op.toNat f = some (generalForm i)) : ParsedAs i ws := by
  cases hi.symm.trans he
  exact ⟨parse_vxmWords hop hrow, words_vxm _ _⟩

theorem parsedAs_mx {op : BitVec 7} {f : MxF} (hi : encode i = some (mxWords op f))
    (hrow : mxOf op.toNat f = some (generalForm i)) : ParsedAs i ws := by
  cases hi.symm.trans he
  exact ⟨parse_mxWords hrow, words_mx _ _⟩

theorem parsedAs_ys {op : BitVec 7} {f : YsF} (hi : encode i = some (ysWords op f))
    (hrow : ysOf op.toNat f = some (generalForm i)) : ParsedAs i ws := by
  cases hi.symm.trans he
  exact ⟨parse_ysWords hrow, words_ys _ _⟩

end

theorem not_encoded {i : Instr} {ws : List (BitVec 32)} {P : Prop} (he : encode i = some ws) (hi : encode i = none) : P :=
  nomatch hi.symm.trans he

/-- The words of an instruction that the formats admit are parsed to it, in its general form, and are as many as their class says. -/
theorem parse_encode {i : Instr} {ws : List (BitVec 32)} (hf : fieldError i = none) (he : encode i = some ws)
    (hu : ∀ w, i ≠ .unassignedEncoding w) : ParsedAs i ws := by
  cases i
  case unassignedEncoding w => exact absurd rfl (hu w)
  case add | sub | mul | mulh | mulhu | div | divu | rem | remu | min | max | minu | maxu | and | or | xor | andn | shl | shr | sra |
      rol | slt | sltu =>
    exact parsedAs_sr he rfl fun w ho hd ha hb hz => by subst hd ha hb; unfold parseSR; rw [ho, hz]; rfl
  case clz | ctz | popc =>
    exact parsedAs_sr he rfl fun w ho hd ha hb hz => by subst hd ha; unfold parseSR; rw [ho, bits_low13 hb hz]; rfl
  case fadd | fsub | fmul | fmin | fmax =>
    exact parsedAs_sr he rfl fun w ho hd ha hb hfn => by
      subst hd ha hb
      unfold parseSR
      rw [ho, bits_of_bits hfn 3 5 (by decide), bits_of_bits hfn 0 3 (by decide), (fields_rm _).1, (fields_rm _).2]
      rfl
  case fma =>
    exact parsedAs_sr he rfl fun w ho hd ha hb hfn => by
      subst hd ha hb
      unfold parseSR
      rw [ho, bits_of_bits hfn 0 5 (by decide), bits_of_bits hfn 5 3 (by decide), (fields_fma ..).1, (fields_fma ..).2]
      rfl
  case fcmp =>
    exact parsedAs_sr he rfl fun w ho hd ha hb hfn => by
      subst hd ha hb
      unfold parseSR
      rw [ho, bits_of_bits hfn 2 6 (by decide), bits_of_bits hfn 0 2 (by decide), (fields_rel _).1, (fields_rel _).2]
      rfl
  case fcvt =>
    exact parsedAs_sr he rfl fun w ho hd ha hb hfn => by
      subst hd ha
      unfold parseSR
      rw [ho, hb, bit_of_bits hfn 7 (by decide), bits_of_bits hfn 3 4 (by decide), bits_of_bits hfn 0 3 (by decide), sat_fcvt,
        (fields_fcvt ..).1, (fields_fcvt ..).2]
      rfl
  case addi | andi | ori | xori | slti | sltui =>
    exact parsedAs_dai he rfl (by decide) fun w w1 hc ho hd ha hl => by
      subst hd ha hl; unfold parse; rw [hc]; change parseSI w = _; unfold parseSI; rw [ho]; rfl
  case shli | shri | srai | bfx | bfxu | bfi =>
    exact parsedAs_dai he rfl (by decide) fun w w1 hc ho hd ha hl => by
      subst hd ha
      unfold parse
      rw [hc]
      change parseSI w = _
      unfold parseSI
      rw [ho, bits_of_bits hl 6 7 (by decide), bits_of_bits hl 0 6 (by decide), (fields_shift ..).1, (fields_shift ..).2]
      rfl
  case lui | auipc =>
    exact parsedAs_scalar he rfl (by decide) fun w w1 hc ho hl => by
      unfold parse
      rw [hc]
      change parseSI w = _
      unfold parseSI
      rw [ho, bits_of_bits hl 18 5 (by decide), bits_of_bits hl 0 18 (by decide), (fields_wide ..).1, (fields_wide ..).2]
      rfl
  case ldb | ldh | ldw | ldd | ldbu | ldhu | ldwu | stb | sth | stw | std =>
    exact parsedAs_dai he rfl (by decide) fun w w1 hc ho hd ha hl => by
      subst hd ha hl; unfold parse; rw [hc]; change parseSM w = _; unfold parseSM; rw [ho]; rfl
  case amoswap | amoadd | amoand | amoor | amoxor | amomin | amomax =>
    exact parsedAs_dai he rfl (by decide) fun w w1 hc ho hd ha hl => by
      subst hd ha
      obtain ⟨hscope, horder, hzero, hs⟩ := fields_amo _ _ _
      unfold parse
      rw [hc]
      change parseSM w = _
      unfold parseSM
      rw [ho, bits_of_bits hl 10 3 (by decide), bits_of_bits hl 8 2 (by decide), bits_of_bits hl 5 3 (by decide),
        bits_of_bits hl 0 5 (by decide), hscope, horder, hzero, hs]
      rfl
  case lda | stl =>
    exact parsedAs_dai he rfl (by decide) fun w w1 hc ho hd ha hl => by
      subst hd ha
      unfold parse
      rw [hc]
      change parseSM w = _
      unfold parseSM
      rw [ho, bits_of_bits hl 10 3 (by decide), bits_of_bits hl 0 10 (by decide), (fields_scope ..).1, (fields_scope ..).2]
      rfl
  case fence =>
    exact parsedAs_dai he rfl (by decide) fun w w1 hc ho hd ha hl => by
      unfold parse
      rw [hc]
      change parseSM w = _
      unfold parseSM
      rw [ho, hd, ha, bits_of_bits hl 10 3 (by decide), bits_of_bits hl 6 4 (by decide), bits_of_bits hl 0 6 (by decide),
        (fields_fence ..).1, (fields_fence ..).2.1, (fields_fence ..).2.2]
      rfl
  case amocas =>
    exact parsedAs_dai he rfl (by decide) fun w w1 hc ho hd ha hl => by
      subst hd ha
      have hzero : bits w 0 8 = 0 := (bits_of_bits hl 0 8 (by decide)).trans (low_amocas ..)
      unfold parse
      rw [hc]
      change parseSM w = _
      unfold parseSM
      rw [ho, bits_of_bits hl 10 3 (by decide), bits_of_bits hl 8 2 (by decide), hzero, (fields_amo ..).1,
        (fields_amo ..).2.1]
      rfl
  case beq | bne | blt | bge | bltu | bgeu | jalr =>
    exact parsedAs_dai he rfl (by decide) fun w w1 hc ho hd ha hl => by
      subst hd ha hl; unfold parse; rw [hc]; change parseSB w = _; unfold parseSB; rw [ho]; rfl
  case bq =>
    exact parsedAs_dai he rfl (by decide) fun w w1 hc ho hd ha hl => by
      subst hl
      unfold parse
      rw [hc]
      change parseSB w = _
      unfold parseSB
      rw [ho, ha, bits_within hd (k := 20) 2 3 rfl (by decide), bits_within hd (k := 18) 0 2 rfl (by decide), (fields_queue _).1,
        (fields_queue _).2]
      rfl
  case bsend =>
    exact parsedAs_dai he rfl (by decide) fun w w1 hc ho hd ha hl => by
      subst hl
      unfold parse
      rw [hc]
      change parseSB w = _
      unfold parseSB
      rw [ho, ha, bits_within hd (k := 21) 3 2 rfl (by decide), bits_within hd (k := 18) 0 3 rfl (by decide), (fields_slot _).1,
        (fields_slot _).2]
      rfl
  case j =>
    exact parsedAs_scalar he rfl (by decide) fun w w1 hc ho hl => by
      unfold parse
      rw [hc]
      change parseSB w = _
      unfold parseSB
      rw [ho, hl]
      rfl
  case jal =>
    exact parsedAs_scalar he rfl (by decide) fun w w1 hc ho hl => by
      unfold parse
      rw [hc]
      change parseSB w = _
      unfold parseSB
      rw [ho, bits_of_bits hl 18 5 (by decide), bits_of_bits hl 0 18 (by decide), (fields_wide ..).1, (fields_wide ..).2]
      rfl
  case qpush =>
    exact parsedAs_dai he rfl (by decide) fun w w1 hc ho hd ha hl => by
      subst hd
      unfold parse
      rw [hc]
      change parseSB w = _
      unfold parseSB
      rw [ho, hl, bits_within ha (k := 15) 2 3 rfl (by decide), bits_within ha (k := 13) 0 2 rfl (by decide), (fields_queue _).1,
        (fields_queue _).2]
      rfl
  case qpop =>
    exact parsedAs_scalar he rfl (by decide) fun w w1 hc ho hl => by
      unfold parse
      rw [hc]
      change parseSB w = _
      unfold parseSB
      rw [ho, bits_of_bits hl 18 5 (by decide), bits_of_bits hl 16 2 (by decide), bits_of_bits hl 0 16 (by decide),
        (fields_qpop ..).1, (fields_qpop ..).2.1, (fields_qpop ..).2.2]
      rfl
  case imx p =>
    cases he
    simp only [ParsedAs, List.getD_cons_zero, parse, classOf_imx, parsePF, fields_imx]
    exact ⟨rfl, words_imx p⟩
  case mattr scope cache order =>
    cases he
    simp only [ParsedAs, List.getD_cons_zero, parse, classOf_mattr, parsePF, fields_mattr]
    exact ⟨rfl, words_mattr scope cache order⟩
  case vcfg | vpart | vtrans8 => exact parsedAs_vxc he rfl (by decide) (na_of_vxc (Option.or_eq_none_iff.mp hf).1) rfl
  case vsetl | vsetrc | vjoin | vadd | vsub | vmul | vmulh | vfma | vfms | vfnma | vdiv | vsqrt | vrcp | vrsq | vexp2 | vlog2 | vmin |
      vmax | vabs | vneg | vand | vor | vxor | vnot | vshl | vshr | vsra | vcmpeq | vcmpne | vcmplt | vcmple | vsel | vclass | vcvt |
      vnarrow | vwiden | vq4 | vslideup | vslidedn | vperm | vbcast | vmvs | vget | vredsum | vredmax | vredmin | vredand | vredor |
      vscan | vcompress | vexpand | viota | vfirst | vpopm =>
    exact parsedAs_vxc he rfl (by decide) (na_of_vxc hf) rfl
  case vld | vlds | vldx | vldff | vld2d | vst | vsts | vstx | vst2d | vamo | vxlat | vpref | kvapp | vbind | vunbind | sfeed =>
    exact parsedAs_vxm he rfl (by decide) rfl
  case mzero | mma | mmav | mmas | mloadc | mstore | mreadv | mwritev | mcvt | tload | teval | tleaf | tclr =>
    exact parsedAs_mx he rfl rfl
  case vstartAccess write r => cases write <;> exact parsedAs_ys he rfl rfl
  case kend | splpt | canpt | wmpub | wmwait | barrive | barwait | depinit | depdec | tspawn | sbpost | sbstat | sbleave | cpy | pub |
      cred | upd | rinv | kvfile | rqnt | wsinfo | syscall | brk | svfence | crrd | crwr | trapret | vfsave | vfload | tlbinv | wfe |
      xflagsRead | xflagsWrite | xseedWrite | asidWrite | ptrootWrite | yield =>
    exact parsedAs_ys he rfl rfl
  all_goals exact not_encoded he rfl

/-- Settles O55: the decoder reads each field where the encoder put it, and a register's own row is found by its number. -/
theorem encodeThenDecode : Obligations.EncodeThenDecode := by
  rintro i ws ⟨hf, hs⟩ he hu
  obtain ⟨hparse, hlen⟩ := parse_encode hf he hu
  exact ⟨by simp only [decodeWords, hparse, fieldError_generalForm hf, ownRow_generalForm hs], hlen⟩

/-! ## Encoding what was parsed (R118) -/

theorem reserved_eq_ok {ok : Bool} {i j : Instr} : reserved ok i = .ok j ↔ ok = true ∧ i = j := by
  cases ok <;> simp [reserved]

/-- A field above which only zero bits stand. -/
theorem zero_append_bits {v : Nat} {w : BitVec v} {lo m n : Nat} (h : bits w (lo + m) n = 0) : 0#n ++ bits w lo m = bits w lo (n + m) := by
  rw [← bits_append_bits, h]; rfl

/-- A field of zero bits has only zero fields. -/
theorem bits_zero_of_bits_zero {v : Nat} {w : BitVec v} {lo n : Nat} (h : bits w lo n = 0) (lo' m : Nat) (hlo : lo ≤ lo')
    (hm : lo' + m ≤ lo + n) : bits w lo' m = 0 := by
  ext i hi
  have hbit := congrArg (fun x => x.getLsbD (lo' - lo + i)) h
  simp only [bits, BitVec.getLsbD_extractLsb', show lo' - lo + i < n by omega, decide_true, Bool.true_and,
    show lo + (lo' - lo + i) = lo' + i by omega] at hbit
  simpa [bits] using hbit

/-- A scalar word is its class, its opcode and its low part. -/
theorem scalar_row {w : BitVec 32} {cls : BitVec 3} {op : BitVec 6} {low : BitVec 23} (hc : classOf w = cls)
    (ho : (bits w 23 6).toNat = op.toNat) (hl : low = bits w 0 23) : some [scalarWord cls op low] = some [w] := by
  obtain rfl : bits w 23 6 = op := BitVec.eq_of_toNat_eq ho
  have hcls : cls = bits w 29 3 := hc.symm
  subst hcls hl
  refine congrArg (fun x => some [x]) ?_
  simp only [scalarWord, join_bits]
  exact bits_self w

theorem sr_row {w : BitVec 32} {op : BitVec 6} {b : Reg} {f : BitVec 8} (hc : classOf w = 0) (ho : (bits w 23 6).toNat = op.toNat)
    (hb : b = bits w 8 5) (hf : f = bits w 0 8) : some (srWord op (bits w 18 5) (bits w 13 5) b f) = some [w] := by
  refine scalar_row hc ho ?_
  subst hb hf
  simp only [join_bits]

theorem dai_row {w : BitVec 32} {cls : BitVec 3} {op : BitVec 6} {d a : Reg} {l : BitVec 13} (hc : classOf w = cls)
    (ho : (bits w 23 6).toNat = op.toNat) (hd : d = bits w 18 5) (ha : a = bits w 13 5) (hl : l = bits w 0 13) :
    some (dai cls op d a l) = some [w] := by
  refine scalar_row hc ho ?_
  subst hd ha hl
  simp only [join_bits]

theorem ofBool_bit {v : Nat} (w : BitVec v) (i : Nat) : BitVec.ofBool (bit w i) = bits w i 1 := by
  ext j hj
  simp [bit, bits, show j = 0 by omega]

theorem fcvt_append_bits (w : BitVec 32) : (BitVec.ofBool (bit w 7) ++ bits w 3 4 ++ bits w 0 3 : BitVec 8) = bits w 0 8 := by
  simp only [ofBool_bit, join_bits]

/-- The low 13 bits of an atomic's word and of a FENCE's, whose gap is zero. -/
theorem amo_append_bits {w : BitVec 32} {s : Reg} (h : bits w 5 3 = 0) (hs : s = bits w 0 5) :
    (bits w 10 3 ++ bits w 8 2 ++ 0#3 ++ s : BitVec 13) = bits w 0 13 := by
  rw [show 0#3 = bits w 5 3 from h.symm, hs]
  simp only [join_bits]

theorem fence_append_bits {w : BitVec 32} (h : bits w 6 4 = 0) : (bits w 10 3 ++ 0#4 ++ bits w 0 6 : BitVec 13) = bits w 0 13 := by
  rw [show 0#4 = bits w 6 4 from h.symm]
  simp only [join_bits]

theorem qpop_append_bits {w : BitVec 32} (h : bits w 0 16 = 0) : (bits w 18 5 ++ bits w 16 2 ++ 0#16 : BitVec 23) = bits w 0 23 := by
  rw [show 0#16 = bits w 0 16 from h.symm]
  simp only [join_bits]

theorem error_ne_ok {x : DecodeError} {i : Instr} {P : Prop} (h : Except.error x = Except.ok i) : P := nomatch h

/-- The instruction stands for a word that the map does not assign. -/
def isUnassigned (i : Instr) : Bool := i.ctorIdx == (Instr.unassignedEncoding 0).ctorIdx

theorem ne_unassigned {i : Instr} (h : isUnassigned i = false) : ∀ x, i ≠ .unassignedEncoding x := by
  rintro x rfl
  exact Bool.noConfusion (h : true = false)

theorem encode_of_parseSR {w : BitVec 32} {i : Instr} (hc : classOf w = 0) (h : parseSR w = .ok i) :
    encode i = some [w] ∧ ∀ x, i ≠ .unassignedEncoding x := by
  have hop := (bits w 23 6).isLt
  unfold parseSR at h
  generalize ho : (bits w 23 6).toNat = op at h hop
  interval_cases op
  iterate 23
    · obtain ⟨hz, rfl⟩ := reserved_eq_ok.mp h
      exact ⟨sr_row hc ho rfl (beq_iff_eq.mp hz).symm, ne_unassigned rfl⟩
  iterate 3
    · obtain ⟨hz, rfl⟩ := reserved_eq_ok.mp h
      have hzero := bits_zero_of_bits_zero (beq_iff_eq.mp hz)
      exact ⟨sr_row hc ho (hzero 8 5 (by decide) (by decide)).symm (hzero 0 8 (by decide) (by decide)).symm, ne_unassigned rfl⟩
  iterate 6 exact error_ne_ok h
  iterate 3
    · obtain ⟨hz, rfl⟩ := reserved_eq_ok.mp h
      exact ⟨sr_row hc ho rfl (zero_append_bits (beq_iff_eq.mp hz)), ne_unassigned rfl⟩
  · cases h
    exact ⟨sr_row hc ho rfl (bits_append_bits w 0 5 3), ne_unassigned rfl⟩
  iterate 3
    · obtain ⟨hz, rfl⟩ := reserved_eq_ok.mp h
      exact ⟨sr_row hc ho rfl (zero_append_bits (beq_iff_eq.mp hz)), ne_unassigned rfl⟩
  · obtain ⟨hz, rfl⟩ := reserved_eq_ok.mp h
    exact ⟨sr_row hc ho (beq_iff_eq.mp hz).symm (fcvt_append_bits w), ne_unassigned rfl⟩
  iterate 24 exact error_ne_ok h

theorem encode_of_parseSI {w : BitVec 32} {i : Instr} (hc : classOf w = 1) (h : parseSI w = .ok i) :
    encode i = some [w] ∧ ∀ x, i ≠ .unassignedEncoding x := by
  have hop := (bits w 23 6).isLt
  unfold parseSI at h
  generalize ho : (bits w 23 6).toNat = op at h hop
  interval_cases op
  iterate 4
    · cases h
      exact ⟨dai_row hc ho rfl rfl rfl, ne_unassigned rfl⟩
  iterate 3
    · obtain ⟨hz, rfl⟩ := reserved_eq_ok.mp h
      exact ⟨dai_row hc ho rfl rfl (zero_append_bits (beq_iff_eq.mp hz)), ne_unassigned rfl⟩
  iterate 2
    · cases h
      exact ⟨dai_row hc ho rfl rfl rfl, ne_unassigned rfl⟩
  iterate 2
    · cases h
      exact ⟨scalar_row hc ho (bits_append_bits w 0 18 5), ne_unassigned rfl⟩
  iterate 3
    · cases h
      exact ⟨dai_row hc ho rfl rfl (bits_append_bits w 0 6 7), ne_unassigned rfl⟩
  iterate 50 exact error_ne_ok h

theorem encode_of_parseSM {w : BitVec 32} {i : Instr} (hc : classOf w = 2) (h : parseSM w = .ok i) :
    encode i = some [w] ∧ ∀ x, i ≠ .unassignedEncoding x := by
  have hop := (bits w 23 6).isLt
  unfold parseSM at h
  generalize ho : (bits w 23 6).toNat = op at h hop
  interval_cases op
  iterate 7
    · cases h
      exact ⟨dai_row hc ho rfl rfl rfl, ne_unassigned rfl⟩
  · exact error_ne_ok h
  iterate 4
    · cases h
      exact ⟨dai_row hc ho rfl rfl rfl, ne_unassigned rfl⟩
  iterate 2
    · cases h
      exact ⟨dai_row hc ho rfl rfl (bits_append_bits w 0 10 3), ne_unassigned rfl⟩
  iterate 2 exact error_ne_ok h
  iterate 7
    · obtain ⟨hz, rfl⟩ := reserved_eq_ok.mp h
      exact ⟨dai_row hc ho rfl rfl (amo_append_bits (beq_iff_eq.mp hz) rfl), ne_unassigned rfl⟩
  · obtain ⟨hz, rfl⟩ := reserved_eq_ok.mp h
    have hzero := bits_zero_of_bits_zero (beq_iff_eq.mp hz)
    exact ⟨dai_row hc ho rfl rfl (amo_append_bits (hzero 5 3 (by decide) (by decide)) (hzero 0 5 (by decide) (by decide)).symm), ne_unassigned rfl⟩
  · obtain ⟨hz, rfl⟩ := reserved_eq_ok.mp h
    simp only [Bool.and_eq_true, beq_iff_eq] at hz
    obtain ⟨⟨hd, ha⟩, hgap⟩ := hz
    exact ⟨dai_row hc ho hd.symm ha.symm (fence_append_bits hgap), ne_unassigned rfl⟩
  iterate 39 exact error_ne_ok h

theorem encode_of_parseSB {w : BitVec 32} {i : Instr} (hc : classOf w = 3) (h : parseSB w = .ok i) :
    encode i = some [w] ∧ ∀ x, i ≠ .unassignedEncoding x := by
  have hop := (bits w 23 6).isLt
  unfold parseSB at h
  generalize ho : (bits w 23 6).toNat = op at h hop
  interval_cases op
  iterate 6
    · cases h
      exact ⟨dai_row hc ho rfl rfl rfl, ne_unassigned rfl⟩
  iterate 2
    · obtain ⟨hz, rfl⟩ := reserved_eq_ok.mp h
      simp only [Bool.and_eq_true, beq_iff_eq] at hz
      exact ⟨dai_row hc ho (zero_append_bits hz.1) hz.2.symm rfl, ne_unassigned rfl⟩
  · cases h
    exact ⟨scalar_row hc ho rfl, ne_unassigned rfl⟩
  · cases h
    exact ⟨scalar_row hc ho (bits_append_bits w 0 18 5), ne_unassigned rfl⟩
  · cases h
    exact ⟨dai_row hc ho rfl rfl rfl, ne_unassigned rfl⟩
  · obtain ⟨hz, rfl⟩ := reserved_eq_ok.mp h
    simp only [Bool.and_eq_true, beq_iff_eq] at hz
    exact ⟨dai_row hc ho rfl (zero_append_bits hz.1) hz.2.symm, ne_unassigned rfl⟩
  · obtain ⟨hz, rfl⟩ := reserved_eq_ok.mp h
    exact ⟨scalar_row hc ho (qpop_append_bits (beq_iff_eq.mp hz)), ne_unassigned rfl⟩
  iterate 51 exact error_ne_ok h

theorem encode_of_parsePF {w : BitVec 32} {i : Instr} (hc : classOf w = 7) (h : parsePF w = .ok i) :
    encode i = some [w] ∧ ∀ x, i ≠ .unassignedEncoding x := by
  have hcls : 7#3 = bits w 29 3 := hc.symm
  simp only [parsePF] at h
  split at h
  case h_1 ho =>
    cases h
    have hkind : 0#2 = bits w 27 2 := (BitVec.eq_of_toNat_eq ho).symm
    refine ⟨congrArg (fun x => some [x]) ?_, ne_unassigned rfl⟩
    simp only [hcls, hkind, join_bits]
    exact bits_self w
  case h_2 ho =>
    split at h
    case isTrue hz =>
      cases h
      have hkind : 1#2 = bits w 27 2 := (BitVec.eq_of_toNat_eq ho).symm
      have hlow : 0#18 = bits w 0 18 := (beq_iff_eq.mp hz).symm
      refine ⟨congrArg (fun x => some [x]) ?_, ne_unassigned rfl⟩
      simp only [hcls, hkind, hlow, join_bits]
      exact bits_self w
    case isFalse => cases h
  case h_3 => cases h

/-- The words of a compute-form instruction, field by field, are the ones it was read from. -/
theorem vxcWords_of_fields {w0 w1 : BitVec 32} (hc : classOf w0 = 4) (hgap : bits w1 13 5 = 0) :
    vxcWords (bits w0 22 7) (vxcFields w0 w1) = [w0, w1] := by
  have h0 : 4#3 = bits w0 29 3 := hc.symm
  have h1 : 0#5 = bits w1 13 5 := hgap.symm
  simp only [vxcWords, vxcFields, h0, h1, ofBool_bit, join_bits]
  exact congrArg₂ (fun a b => [a, b]) (bits_self _) (bits_self _)

theorem vxmWords_of_fields {w0 w1 : BitVec 32} (hc : classOf w0 = 4) (hna : bits w0 0 2 = 0) (hgap : bits w1 25 2 = 0)
    (hbit : bit w1 18 = false) : vxmWords (bits w0 22 7) (vxmFields w0 w1) = [w0, w1] := by
  have h0 : 4#3 = bits w0 29 3 := hc.symm
  have h1 : 0#1 = bits w1 18 1 := by rw [← ofBool_bit, hbit]; rfl
  have hhigh : bits w1 27 5 ++ 0#2 = bits w1 25 7 := by
    rw [show 0#2 = bits w1 25 2 from hgap.symm]
    exact join_bits w1 5 rfl
  simp only [vxmWords, vxmFields, h0, h1, hhigh, ofBool_bit, join_bits]
  refine congrArg₂ (fun a b => [a, b]) ?_ (bits_self _)
  rw [show 0#2 = bits w0 0 2 from hna.symm]
  exact (join_bits w0 _ rfl).trans (bits_self _)

theorem mxWords_of_fields {w0 w1 : BitVec 32} (hc : classOf w0 = 5) (hlow : bits w0 0 2 = 0) :
    mxWords (bits w0 22 7) (mxFields w0 w1) = [w0, w1] := by
  have h0 : 5#3 = bits w0 29 3 := hc.symm
  have h1 : 0#2 = bits w0 0 2 := hlow.symm
  simp only [mxWords, mxFields, h0, h1, ofBool_bit, join_bits]
  exact congrArg₂ (fun a b => [a, b]) (bits_self _) (bits_self _)

theorem ysWords_of_fields {w0 w1 : BitVec 32} (hc : classOf w0 = 6) : ysWords (bits w0 22 7) (ysFields w0 w1) = [w0, w1] := by
  have h0 : 6#3 = bits w0 29 3 := hc.symm
  simp only [ysWords, ysFields, h0, join_bits]
  exact congrArg (fun a => [a, w1]) (bits_self _)

theorem eq_ofNat_of_toNat {v n : Nat} {op : BitVec v} (h : op.toNat = n) : op = BitVec.ofNat v n := by
  subst h
  simp

/-- A row that is found, and whose words are two, is no unassigned encoding, which has one. -/
theorem encodesTwo {o : Option Instr} {i : Instr} {ws : List (BitVec 32)} (hall : ∀ j ∈ o, encode j = some ws) (h : o = some i)
    (hlen : ws.length = 2) : encode i = some ws ∧ ∀ x, i ≠ .unassignedEncoding x := by
  have he : encode i = some ws := hall i h
  refine ⟨he, ?_⟩
  rintro x rfl
  cases he
  cases hlen

/-- Every row of the map of class VX, compute form, has its own opcode in its words, -/
theorem encode_of_vxcOf {op : BitVec 7} {f : VxC} {i : Instr} (h : vxcOf op.toNat f = some i) :
    encode i = some (vxcWords op f) ∧ ∀ x, i ≠ .unassignedEncoding x := by
  refine encodesTwo ?_ h rfl
  obtain ⟨n, hn⟩ := op
  interval_cases n
  all_goals
    rintro j ⟨⟩
    try rfl

/-- so has every row of the memory form, -/
theorem encode_of_vxmOf {op : BitVec 7} {f : VxM} {i : Instr} (h : vxmOf op.toNat f = some i) :
    encode i = some (vxmWords op f) ∧ ∀ x, i ≠ .unassignedEncoding x := by
  unfold vxmOf at h
  split at h <;> cases h
  all_goals
    rename_i ho
    obtain rfl := eq_ofNat_of_toNat ho
    exact ⟨rfl, ne_unassigned rfl⟩

/-- every row of class MX, -/
theorem encode_of_mxOf {op : BitVec 7} {f : MxF} {i : Instr} (h : mxOf op.toNat f = some i) :
    encode i = some (mxWords op f) ∧ ∀ x, i ≠ .unassignedEncoding x := by
  unfold mxOf at h
  split at h <;> cases h
  all_goals
    rename_i ho
    obtain rfl := eq_ofNat_of_toNat ho
    exact ⟨rfl, ne_unassigned rfl⟩

/-- and every row of class YS. -/
theorem encode_of_ysOf {op : BitVec 7} {f : YsF} {i : Instr} (h : ysOf op.toNat f = some i) :
    encode i = some (ysWords op f) ∧ ∀ x, i ≠ .unassignedEncoding x := by
  refine encodesTwo ?_ h rfl
  obtain ⟨n, hn⟩ := op
  interval_cases n
  all_goals
    rintro j ⟨⟩
    try rfl

/-- What a word and the one after it are parsed to has these words again. -/
theorem encode_of_parse {w0 w1 : BitVec 32} {i : Instr} (h : parse w0 w1 = .ok i) :
    encode i = some (if wordCount w0 = 2 then [w0, w1] else [w0]) ∧ ∀ x, i ≠ .unassignedEncoding x := by
  have hclass : ∀ c : BitVec 3, (classOf w0).toNat = c.toNat → classOf w0 = c := fun _ => BitVec.eq_of_toNat_eq
  simp only [parse] at h
  split at h
  case h_1 hc => simpa [wordCount, hc] using encode_of_parseSR (hclass 0 hc) h
  case h_2 hc => simpa [wordCount, hc] using encode_of_parseSI (hclass 1 hc) h
  case h_3 hc => simpa [wordCount, hc] using encode_of_parseSM (hclass 2 hc) h
  case h_4 hc => simpa [wordCount, hc] using encode_of_parseSB (hclass 3 hc) h
  case h_5 hc =>
    have hwords : wordCount w0 = 2 := by simp [wordCount, hc]
    simp only [hwords, if_true]
    split at h
    · cases h
    split at h
    · split at h
      · cases h
      rename_i hrow
      split at h
      · cases h
      rename_i hna
      obtain ⟨hz, rfl⟩ := reserved_eq_ok.mp h
      simp only [Bool.and_eq_true, beq_iff_eq, Bool.not_eq_true'] at hz
      rw [← vxmWords_of_fields (hclass 4 hc) (by simpa using hna) hz.1 hz.2]
      exact encode_of_vxmOf hrow
    · split at h
      · cases h
      rename_i hrow
      obtain ⟨hz, rfl⟩ := reserved_eq_ok.mp h
      rw [← vxcWords_of_fields (hclass 4 hc) (beq_iff_eq.mp hz)]
      exact encode_of_vxcOf hrow
  case h_6 hc =>
    have hwords : wordCount w0 = 2 := by simp [wordCount, hc]
    simp only [hwords, if_true]
    split at h
    · cases h
    rename_i hrow
    obtain ⟨hz, rfl⟩ := reserved_eq_ok.mp h
    rw [← mxWords_of_fields (hclass 5 hc) (beq_iff_eq.mp hz)]
    exact encode_of_mxOf hrow
  case h_7 hc =>
    have hwords : wordCount w0 = 2 := by simp [wordCount, hc]
    simp only [hwords, if_true]
    split at h
    · cases h
    rename_i hrow
    cases h
    rw [← ysWords_of_fields (hclass 6 hc)]
    exact encode_of_ysOf hrow
  case h_8 h0 h1 h2 h3 h4 h5 h6 =>
    have hc : (classOf w0).toNat = 7 := by
      have := (classOf w0).isLt
      grind
    simpa [wordCount, hc] using encode_of_parsePF (hclass 7 hc) h

/-- R118: a CRRD that the formats admit has only its register's number beside gd, -/
theorem fields_of_crrd {f : YsF} (h : fieldError (.crrd f) = none) : f = { gd := f.gd, ga := 0, gb := 0, fn7 := 0, imm := f.imm } := by
  have h : ys f { d := true, imm := .crNumber } = none := h
  simp only [ys, firstFailing] at h
  cases f
  grind

/-- and a CRWR beside ga. -/
theorem fields_of_crwr {f : YsF} (h : fieldError (.crwr f) = none) : f = { gd := 0, ga := f.ga, gb := 0, fn7 := 0, imm := f.imm } := by
  have h : ys f { a := true, imm := .crNumber } = none := h
  simp only [ys, firstFailing] at h
  cases f
  grind

/-- An instruction that the formats admit, taken by its register's own row: its words are the same, and it is well formed. -/
theorem ownRow_wellFormed {i : Instr} (h : fieldError i = none) (hu : ∀ x, i ≠ .unassignedEncoding x) :
    WellFormed (ownRow i) ∧ encode (ownRow i) = encode i ∧ ∀ x, ownRow i ≠ .unassignedEncoding x := by
  unfold ownRow
  split
  case h_1 f =>
    have hf := fields_of_crrd h
    split_ifs with h1 h2
    · rw [hf, beq_iff_eq.mp h1]; exact ⟨⟨rfl, rfl⟩, rfl, ne_unassigned rfl⟩
    · rw [hf, beq_iff_eq.mp h2]; exact ⟨⟨rfl, rfl⟩, rfl, ne_unassigned rfl⟩
    · exact ⟨⟨h, by simp only [shadowedByOwnRow, h1, h2, Bool.or_self]⟩, rfl, ne_unassigned rfl⟩
  case h_2 f =>
    have hf := fields_of_crwr h
    split_ifs with h1 h2 h3 h4 h5 h6
    · rw [hf, beq_iff_eq.mp h1]; exact ⟨⟨rfl, rfl⟩, rfl, ne_unassigned rfl⟩
    · rw [hf, beq_iff_eq.mp h2]; exact ⟨⟨rfl, rfl⟩, rfl, ne_unassigned rfl⟩
    · rw [hf, beq_iff_eq.mp h3]; exact ⟨⟨rfl, rfl⟩, rfl, ne_unassigned rfl⟩
    · rw [hf, beq_iff_eq.mp h4]; exact ⟨⟨rfl, rfl⟩, rfl, ne_unassigned rfl⟩
    · rw [hf, beq_iff_eq.mp h5]; exact ⟨⟨rfl, rfl⟩, rfl, ne_unassigned rfl⟩
    · rw [hf, beq_iff_eq.mp h6]; exact ⟨⟨rfl, rfl⟩, rfl, ne_unassigned rfl⟩
    · exact ⟨⟨h, by simp only [shadowedByOwnRow, h1, h2, h3, h4, h5, h6, Bool.or_self]⟩, rfl, ne_unassigned rfl⟩
  case h_3 hr hw =>
    refine ⟨⟨h, ?_⟩, rfl, hu⟩
    unfold shadowedByOwnRow
    split
    · exact absurd rfl (hr _)
    · exact absurd rfl (hw _)
    · rfl

/-- Settles O56: each field of the words is one of the instruction's or a field that the decoder finds zero. -/
theorem decodeThenEncode : Obligations.DecodeThenEncode := by
  intro w0 w1 i h
  simp only [decodeWords] at h
  split at h
  case h_1 => cases h
  case h_2 j hparse =>
    obtain ⟨henc, hu⟩ := encode_of_parse hparse
    split at h
    case h_1 => cases h
    case h_2 hf =>
      cases h
      obtain ⟨hwf, hsame, hu'⟩ := ownRow_wellFormed hf hu
      exact ⟨hwf, hsame.trans henc, hu'⟩

end Sys2Proof


/-! # Chapter 5: every step keeps every memory canonical -/

namespace Sys2Proof.Machine
-- one proof at a time: the memory of proofs in flight together is more than the check has
set_option Elab.async false

/-- Memories in canonical form: device memory, the weight stores, host memory and those of the other modules. -/
def memoriesWf (dev : Memory) (ws : Vector Memory 2) (host : Memory) (remotes : List (Nat × RemoteModule)) : Bool :=
  dev.wf && ws[0].wf && ws[1].wf && host.wf && remotes.all (fun r => r.2.mem.wf)

/-- A state's memories are four of its fields: an update of any other leaves them. -/
@[simp] theorem State.memWf_mk (agenda draws cur now time strands issued clusters dev ws host remotes poison shadows engines nextCmd pool
    leaving creds tlb walkCache walks pageReqs xlatFaults atsOwed atsSent tlbseq spaces partitions scanPart queues inlet readied cores log
    nextLsn launches nextLaunch groups elided graphs sibgroups returned lingering frames regions refresh mailboxes reply msix spdm root
    recorders replaying ports repairedRows clockMHz clocksStopped linkUp ideFailed mailboxOpen) :
    (State.mk agenda draws cur now time strands issued clusters dev ws host remotes poison shadows engines nextCmd pool
      leaving creds tlb walkCache walks pageReqs xlatFaults atsOwed atsSent tlbseq spaces partitions scanPart queues inlet readied cores log
      nextLsn launches nextLaunch groups elided graphs sibgroups returned lingering frames regions refresh mailboxes reply msix spdm root
      recorders replaying ports repairedRows clockMHz clocksStopped linkUp ideFailed mailboxOpen).memWf = memoriesWf dev ws host remotes := rfl

@[simp] theorem memoriesWf_fields (s : State) : memoriesWf s.dev s.ws s.host s.remotes = s.memWf := rfl

@[simp] theorem State.memWf_ite (p : Prop) [Decidable p] (a b : State) :
    (if p then a else b).memWf = if p then a.memWf else b.memWf := apply_ite State.memWf p a b

theorem State.memWf_foldl_eq {α : Type} (f : State → α → State) (hf : ∀ s x, (f s x).memWf = s.memWf) (l : List α) (s : State) :
    (l.foldl f s).memWf = s.memWf :=
  List.foldlRecOn (motive := fun t => t.memWf = s.memWf) l f rfl (fun t ht x _ => (hf t x).trans ht)

/-! ## What the operations on the state do to the memories -/

@[simp] theorem State.memWf_setLaunch (s : State) (id : Nat) (l : Launch) : (s.setLaunch id l).memWf = s.memWf := by
  rfl

@[simp] theorem State.memWf_setQueue (s : State) (q : Nat) (x : Queue) : (s.setQueue q x).memWf = s.memWf := by
  rfl

@[simp] theorem State.memWf_decided (s : State) (part : Nat) (ds : List (Nat × Nat × Nat × List Nat))
    (h : s.memWf = true) : (s.decided part ds).memWf = true := by
  unfold State.decided
  split
  · exact State.memWf_foldl _ (fun s d h => s.memWf_record _ _ _ h) _ _ h
  · simpa using h

@[simp] theorem State.memWf_hostReadFor (s : State) (part : Nat) (bs : List Byte) (h : s.memWf = true) : (s.hostReadFor part bs).memWf = true := by
  unfold State.hostReadFor
  (repeat' split) <;> simp [h, State.memWf_record]

@[simp] theorem State.memWf_fill (s : State) (e : TlbEntry) : (s.fill e).memWf = s.memWf := by
  rfl

@[simp] theorem State.memWf_cacheTranslation (s : State) (a : Agent) (va : Nat) : (s.cacheTranslation a va).memWf = s.memWf := by
  unfold State.cacheTranslation
  split <;> simp

@[simp] theorem State.memWf_startWalk (s : State) (a : Agent) (va : Nat) (intent : Intent) : (s.startWalk a va intent).memWf = s.memWf := by
  unfold State.startWalk
  dsimp only
  (repeat' split) <;> simp

@[simp] theorem State.memWf_dropXlatFaults (s : State) (who : Requester) : (s.dropXlatFaults who).memWf = s.memWf := by
  rfl

@[simp] theorem State.memWf_writeRegion (s : State) (gid pair vcluster addr : Nat) (bs : List Byte)
    : (s.writeRegion gid pair vcluster addr bs).memWf = s.memWf := by
  unfold State.writeRegion
  split <;> simp

@[simp] theorem State.memWf_dropL1 (s : State) (cluster : Nat) : (s.dropL1 cluster).memWf = s.memWf := by
  simp [State.dropL1]

@[simp] theorem State.memWf_acquire (s : State) (cluster : Nat) (scope : BitVec 3) : (s.acquire cluster scope).memWf = s.memWf := by
  simp [State.acquire]

@[simp] theorem State.memWf_owePoison (s : State) (a : Agent) (va : Nat) : (s.owePoison a va).memWf = s.memWf := by
  simp [State.owePoison]

@[simp] theorem State.memWf_seenBy (s : State) (a : Agent) (p : Place) (bs : List Byte) : (s.seenBy a p bs).memWf = s.memWf := by
  unfold State.seenBy
  split <;> simp

@[simp] theorem State.memWf_noteRead (s : State) (a : Agent) (va n : Nat) (h : s.memWf = true) : (s.noteRead a va n).memWf = true := by
  refine State.memWf_foldl _ (fun s x h => ?_) _ _ h
  dsimp only
  (repeat' split) <;> simp [h, State.memWf_farRead]

@[simp] theorem State.memWf_fwSeen (s : State) (part asid va n : Nat) (h : s.memWf = true) : (s.fwSeen part asid va n).memWf = true := by
  refine State.memWf_foldl _ (fun s i h => ?_) _ _ (s.memWf_fwMark _ _ _ _ h)
  dsimp only
  split <;> simp [h]

@[simp] theorem State.memWf_dropOwners (s : State) (gone : Nat × Nat × CtxId → Bool) : (s.dropOwners gone).memWf = s.memWf := by
  rfl

@[simp] theorem State.memWf_report (s : State) (queue : Nat) : (s.report queue).memWf = s.memWf := by
  rfl

@[simp] theorem State.memWf_logEntry (s : State) (kind : LogKind) (core queue seq data : Nat)
    : (s.logEntry kind core queue seq data).memWf = s.memWf := by
  rfl

@[simp] theorem State.memWf_logState (s : State) (core queue seq : Nat) (new : List Nat) : (s.logState core queue seq new).memWf = s.memWf := by
  rfl

@[simp] theorem State.memWf_decideGroup (s : State) (gid : Nat) (g : SibGroup) (how : GroupState) (winner : Nat) (hash : Word)
    : (s.decideGroup gid g how winner hash).memWf = s.memWf := by
  unfold State.decideGroup
  split <;> simp

@[simp] theorem State.memWf_settle (s : State) (gid : Nat) : (s.settle gid).memWf = s.memWf := by
  unfold State.settle
  (repeat' split) <;> simp

@[simp] theorem State.memWf_sweepPages (s : State) : (s.sweepPages).memWf = s.memWf := by
  rfl

@[simp] theorem State.memWf_closeGroup (s : State) (gid : Nat) (g : SibGroup) (launch : Nat) (l : Launch)
    (h : s.memWf = true) : (s.closeGroup gid g launch l).memWf = true := by
  simp [State.closeGroup, h, State.memWf_fwWrite]

@[simp] theorem State.memWf_abortGroup (s : State) (launch : Nat) (h : s.memWf = true) : (s.abortGroup launch).memWf = true := by
  unfold State.abortGroup
  (repeat' split) <;> simp [h]

@[simp] theorem State.memWf_siblingGone (s : State) (st : Strand) (status : BitVec 8) : (s.siblingGone st status).memWf = s.memWf := by
  unfold State.siblingGone
  (repeat' split) <;> simp

@[simp] theorem State.memWf_closeIfOver (s : State) (launch : Nat) (h : s.memWf = true) : (s.closeIfOver launch).memWf = true := by
  unfold State.closeIfOver
  (repeat' split) <;> simp [h]

@[simp] theorem State.memWf_spliceGone (s : State) (st : Strand) (status : BitVec 8) : (s.spliceGone st status).memWf = s.memWf := by
  unfold State.spliceGone
  (repeat' split) <;> simp

@[simp] theorem State.memWf_strandGone (s : State) (st : Strand) (status cause : BitVec 8) (fr : Option FaultRecord)
    : (s.strandGone st status cause fr).memWf = s.memWf := by
  unfold State.strandGone
  split <;> simp

@[simp] theorem State.memWf_freeSlots (s : State) (cluster launch : Nat) : (s.freeSlots cluster launch).memWf = s.memWf := by
  unfold State.freeSlots
  dsimp only
  (repeat' split) <;> simp

@[simp] theorem State.memWf_abandonAll (s : State) (mine : Requester → Bool) : (s.abandonAll mine).memWf = s.memWf := by
  rfl

@[simp] theorem State.memWf_abandon (s : State) (who : Requester) : (s.abandon who).memWf = s.memWf := by
  rfl

@[simp] theorem State.memWf_abandonLanes (s : State) (slot : Nat) : (s.abandonLanes slot).memWf = s.memWf := by
  rfl

@[simp] theorem State.memWf_abandonSlot (s : State) (slot : Nat) : (s.abandonSlot slot).memWf = s.memWf := by
  rfl

@[simp] theorem State.memWf_vacate (s : State) (slot : Nat) : (s.vacate slot).memWf = s.memWf := by
  simp [State.vacate]

@[simp] theorem State.memWf_endNow (s : State) (slot : Nat) (st : Strand) (status cause : BitVec 8) (fr : Option FaultRecord)
    (h : s.memWf = true) : (s.endNow slot st status cause fr).memWf = true := by
  simp [State.endNow, h]

@[simp] theorem State.memWf_endStrand (s : State) (slot : Nat) (status cause : BitVec 8) (fr : Option FaultRecord)
    (h : s.memWf = true) : (s.endStrand slot status cause fr).memWf = true := by
  unfold State.endStrand
  split <;> simp [h]

@[simp] theorem State.memWf_finishEnd (s : State) (slot : Nat) (h : s.memWf = true) : (s.finishEnd slot).memWf = true := by
  unfold State.finishEnd
  (repeat' split) <;> simp [h]

@[simp] theorem State.memWf_endPreempted (s : State) (launch : Nat) (st : Strand) (status cause : BitVec 8)
    (h : s.memWf = true) : (s.endPreempted launch st status cause).memWf = true := by
  unfold State.endPreempted
  dsimp only
  (repeat' split) <;> simp [h]

@[simp] theorem State.memWf_endSeated (s : State) (mine : Strand → Bool) (status cause : BitVec 8)
    (h : s.memWf = true) : (s.endSeated mine status cause).memWf = true := by
  refine State.memWf_foldl _ (fun s x h => ?_) _ _ h
  simp [h]

@[simp] theorem State.memWf_requestSiblingCancels (s : State) (gid : Nat) (h : s.memWf = true) : (s.requestSiblingCancels gid).memWf = true := by
  unfold State.requestSiblingCancels
  split
  · exact h
  · dsimp only
    split
    · simp [h]
    · refine State.memWf_foldl _ (fun s st h => ?_) _ _ ?_ <;> simp [h]

@[simp] theorem State.memWf_sendCancels (s : State) (h : s.memWf = true) : (s.sendCancels).memWf = true := by
  refine State.memWf_foldl _ (fun s x h => ?_) _ _ h
  simp [h]

@[simp] theorem State.memWf_enterTrap (s : State) (slot : Nat) (id : CtxId) (t : Trap)
    (h : s.memWf = true) : (s.enterTrap slot id t).memWf = true := by
  unfold State.enterTrap
  split <;> simp [h, State.memWf_recordFault, State.memWf_freezeFrame]

@[simp] theorem State.memWf_preciseTrap (s : State) (slot : Nat) (id : CtxId) (cause : Cause) (vector : Bool) (tval : Word)
    (h : s.memWf = true) : (s.preciseTrap slot id cause vector tval).memWf = true := by
  unfold State.preciseTrap
  split <;> simp [h]

@[simp] theorem State.memWf_trapNow (s : State) (slot : Nat) (id : CtxId) (cause : Cause) (vector : Bool) (tval : Word)
    (h : s.memWf = true) : (s.trapNow slot id cause vector tval).memWf = true := by
  simp [State.trapNow, h]

@[simp] theorem State.memWf_asyncTrap (s : State) (slot : Nat) (id : CtxId) (cause : Cause) (tval : Word) (charge : Option (Word × Nat)) (limit issuing : Bool)
    (h : s.memWf = true) : (s.asyncTrap slot id cause tval charge limit issuing).memWf = true := by
  unfold State.asyncTrap
  split <;> simp [h]

@[simp] theorem State.memWf_impreciseTrap (s : State) (slot : Nat) (h : s.memWf = true) : (s.impreciseTrap slot).memWf = true := by
  unfold State.impreciseTrap
  (repeat' split) <;> simp [h]

@[simp] theorem State.memWf_trapReturn (s : State) (slot : Nat) (id : CtxId) (h : s.memWf = true) : (s.trapReturn slot id).memWf = true := by
  simp [State.trapReturn, State.memWf_thaw, h]

@[simp] theorem State.memWf_takeCancel (s : State) (slot : Nat) (id : CtxId) (h : s.memWf = true) : (s.takeCancel slot id).memWf = true := by
  unfold State.takeCancel
  (repeat' split) <;> simp [h]

@[simp] theorem State.memWf_takePreempt (s : State) (slot : Nat) (id : CtxId) (limit issuing : Bool)
    (h : s.memWf = true) : (s.takePreempt slot id limit issuing).memWf = true := by
  unfold State.takePreempt
  split <;> simp [h]

@[simp] theorem State.memWf_setReg (s : State) (e : Env) (r : Reg) (x : Word) : (s.setReg e r x).memWf = s.memWf := by
  simp [State.setReg]

@[simp] theorem State.memWf_shadowByte (s : State) (asid va : Nat) (p : Place) (owner : Nat × Nat × CtxId) (moved : Option (Nat × Nat)) (b : Byte)
    : (s.shadowByte asid va p owner moved b).memWf = s.memWf := by
  simp [State.shadowByte]

@[simp] theorem State.memWf_dropCopies (s : State) (pa n : Nat) : (s.dropCopies pa n).memWf = s.memWf := by
  rfl

@[simp] theorem State.memWf_swapPage (s : State) (p : Place) (bs : List Byte) (h : s.memWf = true) : (s.swapPage p bs).memWf = true := by
  unfold State.swapPage
  split <;> simp [h, State.memWf_putBytes]

@[simp] theorem Run.closed_memWf (r : Run) (s : State) : (Run.closed r s).memWf = s.memWf := by
  simp [Run.closed]

@[simp] theorem Run.healed_memWf (r : Run) (s : State) : (Run.healed r s).memWf = s.memWf := by
  simp [Run.healed]

@[simp] theorem State.memWf_allocGathered (s : State) (a : Agent) (use : L1Line → Bool) (va : Nat) (stride : Int) (size : Nat)
    : (s.allocGathered a use va stride size).memWf = s.memWf := by
  simp [State.allocGathered]

@[simp] theorem State.memWf_prefetch (s : State) (a : Agent) (base : Nat) (pitch : Int) (len : Word) (cache : BitVec 3) (vbypass : BitVec 25)
    : (s.prefetch a base pitch len cache vbypass).memWf = s.memWf := by
  unfold State.prefetch
  lift_lets
  intro cols rows fills
  split
  · rfl
  · refine State.memWf_foldl_eq _ (fun s row => State.memWf_foldl_eq _ (fun s j => ?_) _ _) _ _
    (repeat' split) <;> simp

@[simp] theorem State.memWf_keepLine (s : State) (cluster : Nat) (p : Place) (v : Nat × List Byte) : (s.keepLine cluster p v).memWf = s.memWf := by
  unfold State.keepLine
  split <;> simp

@[simp] theorem State.memWf_noteIssue (s : State) (slot : Nat) (id : CtxId) : (s.noteIssue slot id).memWf = s.memWf := by
  simp [State.noteIssue]

@[simp] theorem State.memWf_sendAts (s : State) : (s.sendAts).memWf = s.memWf := by
  simp [State.sendAts]

@[simp] theorem State.memWf_pass (s : State) (cycles : Nat) (h : s.memWf = true) : (s.pass cycles).memWf = true := by
  simp [State.pass, h]

@[simp] theorem State.memWf_acquires (s : State) (e : Env) (scope : BitVec 3) : (s.acquires e scope).memWf = s.memWf := by
  simp [State.acquires]

@[simp] theorem State.memWf_enterPreempted (s : State) (slot : Nat) : (s.enterPreempted slot).memWf = s.memWf := by
  unfold State.enterPreempted
  (repeat' split) <;> simp

@[simp] theorem State.memWf_contextGone (s : State) (slot : Nat) (h : s.memWf = true) : (s.contextGone slot).memWf = true := by
  unfold State.contextGone
  split
  · exact h
  · dsimp only
    split
    · simp [h]
    · split
      · split <;> simp [h]
      · split
        · exact h
        · split
          · simp [h]
          · split
            · exact (State.memWf_foldl_eq _ (fun s p => by simp) _ _).trans h
            · exact h

@[simp] theorem State.memWf_kendGate (s : State) (st : Strand) : (s.kendGate st).memWf = s.memWf := by
  unfold State.kendGate
  (repeat' split) <;> simp

@[simp] theorem State.memWf_kendDone (s : State) (slot : Nat) (id : CtxId) (h : s.memWf = true) : (s.kendDone slot id).memWf = true := by
  unfold State.kendDone
  split <;> simp [h]

@[simp] theorem State.memWf_setCounter (s : State) (key : Nat) (g : Graph) (t : Nat) (task : Task) (n : Nat)
    (h : s.memWf = true) : (s.setCounter key g t task n).memWf = true := by
  simp [State.setCounter, h]

@[simp] theorem State.memWf_endByPartner (s : State) (slot : Nat) (st : Strand) (e : VqEntry)
    (h : s.memWf = true) : (s.endByPartner slot st e).memWf = true := by
  simp [State.endByPartner, h]

@[simp] theorem State.memWf_startRepartition (s : State) (slot : Nat) (mode : BitVec 2) : (s.startRepartition slot mode).memWf = s.memWf := by
  rfl

@[simp] theorem State.memWf_repartitionEffect (s : State) (k : Nat) : (s.repartitionEffect k).memWf = s.memWf := by
  unfold State.repartitionEffect
  dsimp only
  split <;> simp

@[simp] theorem State.memWf_updMatrix (s : State) (cluster k : Nat) (f : VqEntry → VqEntry) : (s.updMatrix cluster k f).memWf = s.memWf := by
  rfl

@[simp] theorem State.memWf_updOwner (s : State) (c : EngineCmd) (f : Strand → Strand) : (s.updOwner c f).memWf = s.memWf := by
  unfold State.updOwner
  (repeat' split) <;> simp

@[simp] theorem State.memWf_restartOn (s : State) (i : Invalidation) : (s.restartOn i).memWf = s.memWf := by
  rfl

@[simp] theorem State.memWf_invalidate (s : State) (i : Invalidation) : (s.invalidate i).memWf = s.memWf := by
  rfl

@[simp] theorem State.memWf_publishMoved (s : State) (w : Work) (page : Nat) (sh : Shadow) (m : Nat × Nat) (p : Place)
    (h : s.memWf = true) : (s.publishMoved w page sh m p).memWf = true := by
  unfold State.publishMoved
  split <;> simp [h, State.memWf_putBytes]

@[simp] theorem State.memWf_keepOld (s : State) (p : Place) (n : Nat) : (s.keepOld p n).memWf = s.memWf := by
  rfl

@[simp] theorem State.memWf_publish (s : State) (w : Work) (page : Nat) (sh : Shadow) (p : Place)
    (h : s.memWf = true) : (s.publish w page sh p).memWf = true := by
  unfold State.publish
  (repeat' split) <;> simp [h]

@[simp] theorem State.memWf_discard (s : State) (sh : Shadow) : (s.discard sh).memWf = s.memWf := by
  rfl

@[simp] theorem State.memWf_setCredPart (s : State) (p : CredPart) : (s.setCredPart p).memWf = s.memWf := by
  rfl

@[simp] theorem State.memWf_endCred (s : State) (group : Nat) : (s.endCred group).memWf = s.memWf := by
  simp [State.endCred]

@[simp] theorem State.memWf_credOver (s : State) (d : List Byte) (lost : Bool) : (s.credOver d lost).memWf = s.memWf := by
  simp [State.credOver]

@[simp] theorem State.memWf_loseMembers (s : State) (group : Nat) (lost : List Nat) : (s.loseMembers group lost).memWf = s.memWf := by
  refine State.memWf_foldl_eq _ (fun s x => ?_) _ _
  simp

@[simp] theorem State.memWf_arriveAt (s : State) (p : Place) (status : Nat) (cause : Option Cause) (detail : Word)
    (h : s.memWf = true) : (s.arriveAt p status cause detail).memWf = true := by
  simp [State.arriveAt, h, State.memWf_putBytes]

@[simp] theorem State.memWf_removeCommand (s : State) (c : EngineCmd) : (s.removeCommand c).memWf = s.memWf := by
  unfold State.removeCommand
  split <;> simp

@[simp] theorem State.memWf_losePart (s : State) (c : EngineCmd) : (s.losePart c).memWf = s.memWf := by
  unfold State.losePart
  generalize c.instr = i
  generalize s.descriptorOf c = o
  cases i
  case cred => cases o <;> simp
  all_goals rfl

@[simp] theorem State.memWf_oweError (s : State) (c : EngineCmd) (cause : Cause) : (s.oweError c cause).memWf = s.memWf := by
  simp [State.oweError]

@[simp] theorem State.memWf_commandEnds (s : State) (c : EngineCmd) (flags : Flags) (object : Option Place) (e : Ending)
    (h : s.memWf = true) : (s.commandEnds c flags object e).memWf = true := by
  unfold State.commandEnds
  (repeat' split) <;> simp [h]

@[simp] theorem State.memWf_requestPreempt (s : State) (slot : Nat) (reason : BitVec 8) : (s.requestPreempt slot reason).memWf = s.memWf := by
  simp [State.requestPreempt]

@[simp] theorem State.memWf_specSeen (s : State) (q : Queue) (bs : List Byte) (h : s.memWf = true) : (s.specSeen q bs).memWf = true := by
  simp [State.specSeen, h]

@[simp] theorem State.memWf_beat (s : State) (core : Nat) : (s.beat core).memWf = s.memWf := by
  rfl

@[simp] theorem State.memWf_writeRecord (s : State) (asid : Nat) (compl : Word) (bs : List Byte)
    (h : s.memWf = true) : (s.writeRecord asid compl bs).memWf = true := by
  simp [State.writeRecord, h, State.memWf_fwWrite]

@[simp] theorem State.memWf_updPacket (s : State) (q seq : Nat) (f : Packet → Packet) : (s.updPacket q seq f).memWf = s.memWf := by
  unfold State.updPacket
  (repeat' split) <;> simp

@[simp] theorem State.memWf_logEnd (s : State) (core q seq status : Nat) : (s.logEnd core q seq status).memWf = s.memWf := by
  rfl

@[simp] theorem State.memWf_endPacket (s : State) (q : Nat) (x : Queue) (p : Packet) (status reason result : Nat)
    (h : s.memWf = true) : (s.endPacket q x p status reason result).memWf = true := by
  simp [State.endPacket, h]

@[simp] theorem State.memWf_logGroup (s : State) (gid q seq state : Nat) : (s.logGroup gid q seq state).memWf = s.memWf := by
  rfl

@[simp] theorem State.memWf_leaveGroup (s : State) (q : Nat) (p : Packet) : (s.leaveGroup q p).memWf = s.memWf := by
  unfold State.leaveGroup
  split
  · rfl
  · split
    · refine (State.memWf_foldl_eq _ (fun s m => ?_) _ _).trans ?_ <;> simp
    · rfl

@[simp] theorem State.memWf_halt (s : State) (q : Nat) (x : Queue) (seq : Nat) : (s.halt q x seq).memWf = s.memWf := by
  refine State.memWf_foldl_eq _ (fun s x => ?_) _ _
  simp

@[simp] theorem State.memWf_applyPolicies (core : Nat) : ∀ (fuel : Nat) (s : State), s.memWf = true →
    (State.applyPolicies core fuel s).memWf = true
  | 0, s, h => h
  | fuel + 1, s, h => by
    unfold State.applyPolicies
    split
    · exact h
    · refine State.memWf_applyPolicies core fuel _ ?_
      split <;> simp [h]

@[simp] theorem State.memWf_renumber (s : State) (old new : Nat) : (s.renumber old new).memWf = s.memWf := by
  rfl

@[simp] theorem State.memWf_reap (s : State) : (s.reap).memWf = s.memWf := by
  refine State.memWf_foldl_eq _ (fun s x => ?_) _ _
  simp

@[simp] theorem State.memWf_noteReady (s : State) : (s.noteReady).memWf = s.memWf := by
  refine State.memWf_foldl_eq _ (fun s x => ?_) _ _
  simp

@[simp] theorem State.memWf_followUp (s : State) (core : Nat) (h : s.memWf = true) : (s.followUp core).memWf = true := by
  simp [State.followUp, h]

@[simp] theorem State.memWf_notify (s : State) (q : Nat) (w : Word) : (s.notify q w).memWf = s.memWf := by
  unfold State.notify
  split <;> simp

@[simp] theorem State.memWf_takePacket (s : State) (q : Nat) (x : Queue) (stamp : Nat) (bs : List Byte)
    : (s.takePacket q x stamp bs).memWf = s.memWf := by
  rfl

@[simp] theorem State.memWf_fetchLoop (q stamp : Nat) : ∀ (n : Nat) (s : State), s.memWf = true →
    (State.fetchLoop q stamp n s).memWf = true
  | 0, s, h => h
  | n + 1, s, h => by
    unfold State.fetchLoop
    split
    · exact h
    · refine State.memWf_fetchLoop q stamp n _ ?_
      simp [State.memWf_fwMark, h]

@[simp] theorem State.memWf_writeRdidx (s : State) (q : Nat) (h : s.memWf = true) : (s.writeRdidx q).memWf = true := by
  unfold State.writeRdidx
  split <;> simp [h, State.memWf_fwWrite]

@[simp] theorem State.memWf_fetchQueue (s : State) (core q : Nat) (x : Queue) (h : s.memWf = true) : (s.fetchQueue core q x).memWf = true := by
  unfold State.fetchQueue
  have h1 := State.memWf_fetchLoop q s.nextLsn (x.notify.toNat - x.fetched) (s.logEntry .fetch core q x.fetched x.notify.toNat) (by simp [h])
  dsimp only
  split <;> simp [h, h1]

@[simp] theorem State.memWf_stopWith (s : State) (core : Nat) (e : InletEvent) (lock : Option Nat) : (s.stopWith core e lock).memWf = s.memWf := by
  rfl

@[simp] theorem State.memWf_waitvalRead (s : State) (q : Nat) (x : Queue) (p : Packet) (core : Nat)
    (h : s.memWf = true) : (s.waitvalRead q x p core).memWf = true := by
  unfold State.waitvalRead
  have h1 := s.memWf_fwSeen x.part x.asid (p.field 16 8) 8 h
  dsimp only
  split
  · simp [h1]
  · split <;> simp [h1]

@[simp] theorem State.memWf_sweepRegions (s : State) (core : Nat) : (s.sweepRegions core).memWf = s.memWf := by
  refine State.memWf_foldl_eq _ (fun s x => ?_) _ _
  simp

@[simp] theorem State.memWf_wsWrite (s : State) (place off : Nat) (bs : List Byte) (h : s.memWf = true) : (s.wsWrite place off bs).memWf = true := by
  unfold State.wsWrite
  split <;> simp [h, State.memWf_putBytes]

@[simp] theorem State.memWf_wsCopy (s : State) (q : Nat) (x : Queue) (p : Packet) (r : WsRegion) (slot : Fin 2)
    (h : s.memWf = true) : (s.wsCopy q x p r slot).memWf = true := by
  unfold State.wsCopy
  have h1 := s.memWf_fwSeen x.part x.asid (p.field 24 8) (64 + p.field 40 8) h
  simp [h1]

@[simp] theorem State.memWf_unpin (s : State) (core id : Nat) : (s.unpin core id).memWf = s.memWf := by
  simp [State.unpin]

@[simp] theorem State.memWf_memberEnded (s : State) (gid : Nat) (m : Nat × Nat) : (s.memberEnded gid m).memWf = s.memWf := by
  unfold State.memberEnded
  split <;> simp

@[simp] theorem State.memWf_taskEnded (s : State) (core queue seq key t : Nat) : (s.taskEnded core queue seq key t).memWf = s.memWf := by
  unfold State.taskEnded
  (repeat' split) <;> simp

@[simp] theorem State.memWf_joinGroup (s : State) (gid : Nat) (members : List (Nat × Nat)) : (s.joinGroup gid members).memWf = s.memWf := by
  refine State.memWf_foldl_eq _ (fun s x => ?_) _ _
  simp

@[simp] theorem State.memWf_refusePlan (s : State) (p : Seating) (reasons : List Nat)
    (h : s.memWf = true) : (s.refusePlan p reasons).memWf = true := by
  unfold State.refusePlan
  dsimp only
  split
  · split <;> split <;> simp [h]
  · refine (State.memWf_drawn _).trans ?_
    split
    all_goals
      refine State.memWf_foldl _ (fun s m h => ?_) p.members s h
      split <;> simp [h]
  · exact h

@[simp] theorem State.memWf_prepare (s : State) (cluster asid splice : Nat) (mode : BitVec 2)
    : (s.prepare cluster asid splice mode).memWf = s.memWf := by
  simp [State.prepare]

@[simp] theorem State.memWf_clearSlot (s : State) (slot : Nat) : (s.clearSlot slot).memWf = s.memWf := by
  refine State.memWf_foldl_eq _ (fun s x => ?_) _ _
  simp

@[simp] theorem State.memWf_seat (s : State) (slot : Nat) (st : Strand) : (s.seat slot st).memWf = s.memWf := by
  simp [State.seat]

@[simp] theorem State.memWf_placeOne (s : State) (p : Seating) (ids : List Nat) (a : Placement) : (s.placeOne p ids a).memWf = s.memWf := by
  unfold State.placeOne
  dsimp only
  split
  all_goals
    refine (State.memWf_foldl_eq _ (fun s k => ?_) _ _).trans ((State.memWf_foldl_eq _ (fun s id => ?_) _ _).trans (by simp))
    · split <;> simp
    · split <;> simp

@[simp] theorem State.memWf_elisions (s : State) (p : Seating) (after : Nat) : (s.elisions p after).memWf = s.memWf := by
  rfl

@[simp] theorem State.memWf_markStarted (s : State) (p : Seating) : (s.markStarted p).memWf = s.memWf := by
  unfold State.markStarted
  split
  · split <;> simp
  · exact State.memWf_foldl_eq _ (fun s m => by simp) _ _

@[simp] theorem State.memWf_pin (s : State) (l : Launch) : (s.pin l).memWf = s.memWf := by
  rfl

@[simp] theorem State.memWf_logPlaces (s : State) (core : Nat) (p : Seating) (new : List Placement) : (s.logPlaces core p new).memWf = s.memWf := by
  refine State.memWf_foldl_eq _ (fun s x => ?_) _ _
  simp

@[simp] theorem State.memWf_stopCore (s : State) (core : Nat) (p : Seating) (held : List (Nat × Nat × Nat))
    : (s.stopCore core p held).memWf = s.memWf := by
  rfl

@[simp] theorem State.memWf_serve (s : State) (p : Seating) : (s.serve p).memWf = s.memWf := by
  unfold State.serve
  split <;> simp

@[simp] theorem State.memWf_planSeen (s : State) (p : Seating) (h : s.memWf = true) : (s.planSeen p).memWf = true := by
  unfold State.planSeen
  split
  · exact h
  · next x _ =>
    split
    · exact h
    · split
      · next key t _ =>
        cases (((lookup s.graphs key).bind (fun g => g.tasks[t]?)).map (·.bytes)) <;> simp [h]
      · simp [h]
      · exact h

@[simp] theorem State.memWf_dispatchSpent (s : State) (core queue seq : Nat) : (s.dispatchSpent core queue seq).memWf = s.memWf := by
  unfold State.dispatchSpent
  split <;> simp

@[simp] theorem State.memWf_recoverCore (s : State) (n : Nat) : (s.recoverCore n).memWf = s.memWf := by
  unfold State.recoverCore
  dsimp only
  (repeat' split) <;> simp

@[simp] theorem State.memWf_run (s : State) (slot : Nat) : (s.run slot).memWf = s.memWf := by
  unfold State.run
  dsimp only
  (repeat' split) <;> simp

@[simp] theorem State.memWf_goOn (s : State) (slot : Nat) : (s.goOn slot).memWf = s.memWf := by
  unfold State.goOn
  repeat' split
  · rfl
  · rfl
  · exact State.memWf_foldl_eq _ (fun s k => by simp) _ _
  · rfl

@[simp] theorem State.memWf_preemptAll (s : State) (slots : List Nat) (reason : BitVec 8) : (s.preemptAll slots reason).memWf = s.memWf := by
  refine State.memWf_foldl_eq _ (fun s x => ?_) _ _
  simp

@[simp] theorem State.memWf_dropWalk (s : State) (k : Nat) : (s.dropWalk k).memWf = s.memWf := by
  rfl

@[simp] theorem State.memWf_faultFor (s : State) (who : List Requester) (page : Nat) (cause : Cause)
    : (s.faultFor who page cause).memWf = s.memWf := by
  rfl

@[simp] theorem State.memWf_walkFaults (s : State) (k : Nat) (w : Walk) (cause : Cause) : (s.walkFaults k w cause).memWf = s.memWf := by
  rfl

@[simp] theorem State.memWf_walkDenied (s : State) (k : Nat) (w : Walk) : (s.walkDenied k w).memWf = s.memWf := by
  rfl

@[simp] theorem State.memWf_requestPage (s : State) (w : Walk) (who : List Requester) : (s.requestPage w who).memWf = s.memWf := by
  unfold State.requestPage
  split <;> simp

@[simp] theorem State.memWf_askPage (s : State) (k : Nat) (w : Walk) : (s.askPage k w).memWf = s.memWf := by
  simp [State.askPage]

@[simp] theorem State.memWf_fillAll (s : State) (w : Walk) (e : TlbEntry) : (s.fillAll w e).memWf = s.memWf := by
  exact (State.memWf_foldl_eq _ (fun s k => s.memWf_fill _) _ _).trans (State.memWf_foldl_eq _ (fun s q => s.memWf_fill _) _ _)

@[simp] theorem State.memWf_fillPath (s : State) (w : Walk) : (s.fillPath w).memWf = s.memWf := by
  rfl

@[simp] theorem State.memWf_fillLeaf (s : State) (k : Nat) (w : Walk) (l : Leaf) (h : s.memWf = true) : (s.fillLeaf k w l).memWf = true := by
  simp [State.fillLeaf, h, State.memWf_markLeaf]

@[simp] theorem State.memWf_failRequest (s : State) (req : Nat) (r : PageReq) : (s.failRequest req r).memWf = s.memWf := by
  rfl

@[simp] theorem State.memWf_reportPage (s : State) (r : PageReq) : (s.reportPage r).memWf = s.memWf := by
  refine State.memWf_foldl_eq _ (fun s x => ?_) _ _
  simp

@[simp] theorem State.memWf_endCommand (s : State) (func status : Nat) (results : List Nat)
    (h : s.memWf = true) : (s.endCommand func status results).memWf = true := by
  have hs := s.memWf_iff.mp h
  refine (State.memWf_iff _).mpr ⟨hs.1, hs.2.1, Memory.wf_writeLE _ _ _ _ ?_, hs.2.2.2⟩
  exact List.foldlRecOn (motive := fun m => m.wf = true) _ _ hs.2.2.1 (fun m hm i _ => Memory.wf_writeLE m _ _ _ hm)

@[simp] theorem State.memWf_readRest (s : State) (q n : Nat) (h : s.memWf = true) : (s.readRest q n).memWf = true := by
  unfold State.readRest
  split <;> simp [h]

@[simp] theorem State.memWf_endRest (s : State) (q : Nat) (h : s.memWf = true) : (s.endRest q).memWf = true := by
  unfold State.endRest
  split
  · exact h
  · refine State.memWf_foldl _ (fun s p h => ?_) _ _ h
    (repeat' split) <;> simp [h]

@[simp] theorem State.memWf_endGraphs (s : State) (q : Nat) (h : s.memWf = true) : (s.endGraphs q).memWf = true := by
  unfold State.endGraphs
  split
  · exact h
  · next x _ =>
    lift_lets
    intro mine s1
    have h1 : s1.memWf = true := State.memWf_foldl _ (fun s g h => State.memWf_foldl _ (fun s t h => by split <;> simp [h]) _ _ h) _ _ h
    exact (State.memWf_foldl_eq _ (fun s g => by simp) mine s1).trans h1

@[simp] theorem State.memWf_abortLaunch (s : State) (id : Nat) (h : s.memWf = true) : (s.abortLaunch id).memWf = true := by
  unfold State.abortLaunch
  split
  · exact h
  · refine State.memWf_foldl _ (fun s i h => State.memWf_foldl _ (fun s st h => ?_) _ _ h) _ _ ?_ <;> simp [h]

@[simp] theorem State.memWf_destroyQueue (s : State) (core q : Nat) (x : Queue) (mode : Nat)
    (h : s.memWf = true) : (s.destroyQueue core q x mode).memWf = true := by
  unfold State.destroyQueue
  lift_lets
  intro w rest s1 s2 s3 s4
  have h1 : s1.memWf = true := by simp [s1, h]
  have h2 : s2.memWf = true := by
    simp only [s2]
    split <;> simp [h1]
  have h3 : s3.memWf = true := by simp [s3, h2]
  have h4 : s4.memWf = true := by
    simp only [s4]
    split
    · exact State.memWf_foldl _ (fun s id h => s.memWf_abortLaunch id h) _ _ h3
    · exact h3
  simp [h4]

@[simp] theorem State.memWf_applyPart (s : State) (r : PartRecord) : (s.applyPart r).memWf = s.memWf := by
  simp [State.applyPart]

@[simp] theorem State.memWf_retireCluster (s : State) (k : Nat) (h : s.memWf = true) : (s.retireCluster k).memWf = true := by
  refine (State.memWf_preemptAll _ _ _).trans (State.memWf_foldl _ (fun s id h => s.memWf_abortLaunch id h) _ _ ?_)
  simpa using h

@[simp] theorem State.memWf_haltQueues (s : State) (part : Nat) : (s.haltQueues part).memWf = s.memWf := by
  rfl

@[simp] theorem State.memWf_storeDevice (s : State) (at_ : List Nat) (bs : List Byte) (h : s.memWf = true) : (s.storeDevice at_ bs).memWf = true := by
  unfold State.storeDevice
  simpa using State.memWf_foldl _ (fun s p h => s.memWf_putBytes _ _ _ h) _ _ h

@[simp] theorem State.memWf_writeControl (s : State) (func : Nat) (x : Word) : (s.writeControl func x).memWf = s.memWf := by
  simp [State.writeControl]

@[simp] theorem State.memWf_failHostWaits (s : State) (hit : Nat → Bool) : (s.failHostWaits hit).memWf = s.memWf := by
  rfl

@[simp] theorem State.memWf_answer (s : State) (func : Nat) (bs : List Byte) : (s.answer func bs).memWf = s.memWf := by
  rfl

@[simp] theorem State.memWf_storeHome (s : State) (p : Place) (bs : List Byte) (h : s.memWf = true) : (s.storeHome p bs).memWf = true := by
  unfold State.storeHome
  split <;> simp [h]

@[simp] theorem State.memWf_updRefresh (s : State) (die : Nat) (f : Refresh → Refresh) : (s.updRefresh die f).memWf = s.memWf := by
  unfold State.updRefresh
  split <;> simp

@[simp] theorem State.memWf_broughtUp (s : State) (h : s.memWf = true) : (s.broughtUp).memWf = true := by
  obtain ⟨hd, hw, hh, hr⟩ := s.memWf_iff.mp h
  refine (State.memWf_iff _).mpr ⟨hd, hw, hh, fun r hm => ?_⟩
  obtain ⟨x, hx, rfl⟩ := List.mem_map.mp hm
  exact hr x hx

@[simp] theorem State.memWf_append (s : State) (q : Nat) (x : Queue) (bs : List Byte) (h : s.memWf = true) : (s.append q x bs).memWf = true := by
  simp [State.append, h, State.memWf_fwWrite]

end Sys2Proof.Machine

/-! # Results, acts and outcomes that lead only to canonical memories -/

namespace Sys2Proof.Machine
-- one proof at a time: the memory of proofs in flight together is more than the check has
set_option Elab.async false

/-- What a result gives, if it gives anything, has a property. -/
def Res.Gives {α : Type} (P : α → Prop) : Res α → Prop
  | .ok a => P a
  | _ => True

/-- The memories of every state that an act leads to are canonical. -/
def Act.MemWf : Act → Prop
  | .done s | .jump s _ | .trap _ _ s | .wait _ s | .park _ _ _ s | .instead s => s.memWf = true
  | .halt _ => True

/-- The memories of every state that a performance leads to are canonical. -/
def Perf.MemWf : Perf → Prop
  | .done s | .fault _ _ _ s | .hold s | .again s | .park _ _ _ s | .part _ s | .partner s => s.memWf = true
  | .halt _ => True

/-- The memories of the next state, if there is one, are canonical. -/
def NextMemWf : Out → Prop
  | .next s => s.memWf = true
  | .fault _ | .refused _ => True

/-- An optional step is judged by the step, if there is one. -/
theorem forall_mem_some {α : Type} {P : α → Prop} {a : α} (h : P a) : ∀ x ∈ some a, P x := by simpa using h

theorem forall_mem_none {α : Type} {P : α → Prop} : ∀ x ∈ (none : Option α), P x := nofun

section Constructors
variable {α : Type} (P : α → Prop) (a : α) (s : State)

@[simp] theorem Res.gives_ok : (Res.ok a).Gives P ↔ P a := Iff.rfl
@[simp] theorem Res.gives_fault (c : Cause) (va : Nat) : (Res.fault (α := α) c va).Gives P := trivial
@[simp] theorem Res.gives_miss (va : Nat) (i : Intent) : (Res.miss (α := α) va i).Gives P := trivial
@[simp] theorem Res.gives_gated : (Res.gated (α := α)).Gives P := trivial
@[simp] theorem Res.gives_partnerEnded : (Res.partnerEnded (α := α)).Gives P := trivial
@[simp] theorem Res.gives_stop (f : Fault) : (Res.stop (α := α) f).Gives P := trivial

@[simp] theorem Act.memWf_done : (Act.done s).MemWf ↔ s.memWf = true := Iff.rfl
@[simp] theorem Act.memWf_jump (pc : Word) : (Act.jump s pc).MemWf ↔ s.memWf = true := Iff.rfl
@[simp] theorem Act.memWf_trap (c : Cause) (x : Word) : (Act.trap c x s).MemWf ↔ s.memWf = true := Iff.rfl
@[simp] theorem Act.memWf_wait (w : Wait) : (Act.wait w s).MemWf ↔ s.memWf = true := Iff.rfl
@[simp] theorem Act.memWf_park (a : Agent) (va : Nat) (i : Intent) : (Act.park a va i s).MemWf ↔ s.memWf = true := Iff.rfl
@[simp] theorem Act.memWf_instead : (Act.instead s).MemWf ↔ s.memWf = true := Iff.rfl
@[simp] theorem Act.memWf_halt (f : Fault) : (Act.halt f).MemWf := trivial

@[simp] theorem Perf.memWf_done : (Perf.done s).MemWf ↔ s.memWf = true := Iff.rfl
@[simp] theorem Perf.memWf_fault (c : Cause) (x : Word) (k : Nat) : (Perf.fault c x k s).MemWf ↔ s.memWf = true := Iff.rfl
@[simp] theorem Perf.memWf_hold : (Perf.hold s).MemWf ↔ s.memWf = true := Iff.rfl
@[simp] theorem Perf.memWf_again : (Perf.again s).MemWf ↔ s.memWf = true := Iff.rfl
@[simp] theorem Perf.memWf_park (a : Agent) (va : Nat) (i : Intent) : (Perf.park a va i s).MemWf ↔ s.memWf = true := Iff.rfl
@[simp] theorem Perf.memWf_part (k : Nat) : (Perf.part k s).MemWf ↔ s.memWf = true := Iff.rfl
@[simp] theorem Perf.memWf_partner : (Perf.partner s).MemWf ↔ s.memWf = true := Iff.rfl
@[simp] theorem Perf.memWf_halt (f : Fault) : (Perf.halt f).MemWf := trivial

@[simp] theorem nextMemWf_next : NextMemWf (.next s) ↔ s.memWf = true := Iff.rfl
@[simp] theorem nextMemWf_fault (f : Fault) : NextMemWf (.fault f) := trivial
@[simp] theorem nextMemWf_refused (r : Refusal) : NextMemWf (.refused r) := trivial

end Constructors

theorem Res.gives_bind {α β : Type} {r : Res α} {f : α → Res β} {P : α → Prop} {Q : β → Prop} (hr : r.Gives P)
    (hf : ∀ a, P a → (f a).Gives Q) : (r.bind f).Gives Q := by
  cases r with
  | ok a => exact hf a hr
  | _ => trivial

theorem Res.gives_map {α β : Type} {r : Res α} {f : α → β} {P : α → Prop} {Q : β → Prop} (hr : r.Gives P)
    (hf : ∀ a, P a → Q (f a)) : (r.map f).Gives Q := Res.gives_bind hr hf

/-- A result of which nothing is known. -/
theorem Res.gives_any {α : Type} (r : Res α) : r.Gives (fun _ => True) := by cases r <;> trivial

theorem Res.gives_foldl {α β : Type} {P : β → Prop} (f : Res β → α → Res β) (hf : ∀ r x, r.Gives P → (f r x).Gives P) (l : List α)
    {r : Res β} (hr : r.Gives P) : (l.foldl f r).Gives P :=
  List.foldlRecOn (motive := Res.Gives P) l f hr (fun r hr x _ => hf r x hr)

end Sys2Proof.Machine

/-! ## Accesses, traps and requests -/

namespace Sys2Proof.Machine
-- one proof at a time: the memory of proofs in flight together is more than the check has
set_option Elab.async false

section Accesses
variable (s : State) (a : Agent) (st : Strand) (strip : Nat) (kind : AccessKind) (va n : Nat) (use : L1Line → Bool) (alloc : Bool)
  (bs : List Byte) (h : s.memWf = true)
include h

theorem State.loadMemory_memWf : (s.loadMemory a va n use alloc).Gives (fun p => p.2.memWf = true) := by
  unfold State.loadMemory
  (repeat' split) <;> simp [State.memWf_readPlace, h]

theorem State.storeMemory_memWf : (s.storeMemory a va bs).Gives (fun t => t.memWf = true) := by
  unfold State.storeMemory
  (repeat' split) <;> simp [State.memWf_putBytes, h]

theorem State.loadVA_memWf : (s.loadVA a st strip kind va n use alloc).Gives (fun p => p.2.memWf = true) := by
  have hm := s.loadMemory_memWf a va n use alloc h
  unfold State.loadVA
  (repeat' split) <;> simp [hm, h]

theorem State.storeVA_memWf : (s.storeVA a st strip kind va bs).Gives (fun t => t.memWf = true) := by
  have hm := s.storeMemory_memWf a va bs h
  unfold State.storeVA
  split
  · exact hm
  · trivial
  · trivial
  · trivial
  · dsimp only
    split
    · exact Res.gives_map hm (fun t ht => by simpa using ht)
    · simpa using h

theorem State.readDescriptor_memWf (at_ : Nat) : (s.readDescriptor a st at_).Gives (fun p => p.2.memWf = true) := by
  unfold State.readDescriptor
  split
  · trivial
  · refine Res.gives_foldl _ (fun r j hr => Res.gives_bind hr (fun p hp => ?_)) _ h
    exact Res.gives_map (State.loadVA_memWf p.2 a st st.strip .load _ 8 _ true hp) (fun q hq => hq)

theorem State.storeElem_memWf (w : Nat) (high : Bool) (x : Nat) : (s.storeElem a st strip va w high x).Gives (fun t => t.memWf = true) := by
  unfold State.storeElem
  (repeat' split) <;> simp [State.storeVA_memWf, h]

theorem State.loadElem_memWf (al : L1Alloc) (w : Nat) (high : Bool) :
    (s.loadElem a st strip use al va w high).Gives (fun p => p.2.memWf = true) := by
  unfold State.loadElem
  lift_lets
  intro bytes
  split
  · trivial
  · exact Res.gives_map (s.loadVA_memWf a st strip .load va bytes use _ h) (fun p hp => hp)

theorem State.loadFed_memWf (x : Stream) (pages : List HeldPage) : (s.loadFed a st x pages va n).Gives (fun p => p.2.memWf = true) := by
  unfold State.loadFed
  (repeat' split) <;> simp [State.loadMemory_memWf, h]

theorem State.fetchLine_memWf (p : Place) : (s.fetchLine a p).2.memWf = true := by
  unfold State.fetchLine
  dsimp only
  split <;> simp [State.memWf_farRead, h]

theorem State.fetchWord_memWf : (s.fetchWord a va).Gives (fun p => p.2.memWf = true) := by
  unfold State.fetchWord
  (repeat' split) <;> simp [State.fetchLine_memWf, h]

end Accesses

theorem State.storeBytes_memWf (a : Agent) (cluster : Nat) (bs : List Byte) : ∀ (s : State) (va : Nat), s.memWf = true →
    (s.storeBytes a cluster va bs).Gives (fun t => t.memWf = true) := by
  induction bs with
  | nil => exact fun s va h => h
  | cons b rest ih =>
    intro s va h
    unfold State.storeBytes
    split
    · trivial
    · trivial
    · trivial
    · split
      · trivial
      · exact ih _ _ (s.memWf_putBytes _ _ _ h)

theorem State.storeSpan_memWf (s : State) (a : Agent) (cluster va : Nat) (bs : List Byte) (h : s.memWf = true) :
    (s.storeSpan a cluster va bs).Gives (fun t => t.memWf = true) :=
  Res.gives_map (State.storeBytes_memWf a cluster bs s va h) (fun t ht => by split <;> simp [ht])

theorem State.shadowWrite_memWf (a : Agent) (owner : Nat × Nat × CtxId) (local_ : Bool) (bs : List Byte) :
    ∀ (s : State) (va : Nat), s.memWf = true → (s.shadowWrite a owner local_ va bs).Gives (fun t => t.memWf = true) := by
  induction bs with
  | nil => exact fun s va h => h
  | cons b rest ih =>
    intro s va h
    unfold State.shadowWrite
    lift_lets
    intro at_
    split
    · trivial
    · trivial
    · trivial
    · lift_lets
      intro far
      split
      · trivial
      · split
        · trivial
        · exact ih _ _ (by simp [h])

theorem State.takeRequest_memWf (s : State) (slot : Nat) (id : CtxId) (issuing : Bool) (h : s.memWf = true) :
    (s.takeRequest slot id issuing).all State.memWf = true := by
  unfold State.takeRequest
  split
  · rfl
  · dsimp only
    split
    · simp [h]
    · split <;> simp [h]

theorem State.takeRequest_getD_memWf (s : State) (slot : Nat) (id : CtxId) (issuing : Bool) (h : s.memWf = true) :
    ((s.takeRequest slot id issuing).getD s).memWf = true := by
  have ht := s.takeRequest_memWf slot id issuing h
  cases hr : s.takeRequest slot id issuing with
  | none => exact h
  | some t => simpa [hr] using ht

theorem State.boundary_memWf (s : State) (slot : Nat) (id : CtxId) (h : s.memWf = true) :
    (s.boundary slot id).all State.memWf = true := by
  have hr := s.takeRequest_memWf slot id false h
  unfold State.boundary
  dsimp only
  (repeat' split) <;> simp [h, hr]

theorem State.conclude_memWf (s : State) (slot : Nat) (id : CtxId) (i : Instr) (words : Nat) (vector : Bool) (act : Act)
    (h : s.memWf = true) (ha : act.MemWf) : NextMemWf (s.conclude slot id i words vector act) := by
  cases act with
  | done t | jump t pc | park a va i t => simpa [State.conclude] using ha
  | trap c x t =>
    simp only [State.conclude]
    split
    · exact h
    · exact t.memWf_preciseTrap _ _ _ _ _ ha
  | wait w t =>
    have h1 : (t.updCtx slot id (fun c => c.await w s.now (some i))).memWf = true := by simpa using ha
    simp only [State.conclude]
    split
    · exact State.takeRequest_getD_memWf _ _ _ _ h1
    · exact h1
  | instead t => exact ha
  | halt f => trivial

/-- An instruction that issues keeps the memories when its own part does. -/
theorem State.issue_memWf (s : State) (i : Instr) (f : Form) (regs : List Reg) (body : Env → Act) (h : s.memWf = true)
    (hb : ∀ e, (body e).MemWf) : NextMemWf (s.issue i f regs body) := by
  unfold State.issue
  split
  · exact h
  · refine State.conclude_memWf _ _ _ _ _ _ _ h ?_
    (repeat' split) <;> simp [h, hb]

theorem State.when_memWf (s t : State) (enabled : Bool) (h : s.memWf = true) (ht : t.memWf = true) : NextMemWf (s.when enabled t) := by
  unfold State.when
  split
  · exact ht
  · exact h

theorem Res.act_memWf {α : Type} {P : α → Prop} {r : Res α} (e : Env) (s : State) {ok : α → Act} (h : s.memWf = true) (hr : r.Gives P)
    (hok : ∀ a, P a → (ok a).MemWf) : (r.act e s ok).MemWf := by
  cases r with
  | ok a => exact hok a hr
  | partnerEnded => exact s.memWf_endStrand _ _ _ _ h
  | fault c va => exact h
  | miss va i => exact h
  | gated => exact h
  | stop f => trivial

theorem State.consumePoison_memWf (s : State) (e : Env) (d : Reg) (va : Nat) (h : s.memWf = true) : (s.consumePoison e d va).MemWf := by
  simpa [State.consumePoison] using h

theorem Res.sync_memWf {α : Type} {P : α → Prop} {r : Res α} (e : Env) (s : State) (d : Reg) {ok : α → Act} (h : s.memWf = true)
    (hr : r.Gives P) (hok : ∀ a, P a → (ok a).MemWf) : (r.sync e s d ok).MemWf := by
  unfold Res.sync
  split
  · exact s.consumePoison_memWf e d _ h
  · exact Res.act_memWf e s h hr hok

theorem refuse_memWf (s : State) (h : s.memWf = true) : (refuse s).MemWf := by simpa [refuse] using h

end Sys2Proof.Machine

/-! ## Vector instructions performed from the VQ -/

namespace Sys2Proof.Machine
-- one proof at a time: the memory of proofs in flight together is more than the check has
set_option Elab.async false

theorem Res.perf_memWf {α : Type} (r : Res α) (a : Agent) (before after : State) (k : Nat) (hb : before.memWf = true)
    (ha : after.memWf = true) : (r.perf a before after k).MemWf := by
  cases r with
  | ok _ | fault _ _ => exact ha
  | miss _ _ | gated | partnerEnded => exact hb
  | stop f => trivial

theorem Run.emitOne_memWf (r : Run) (s : State) (q : Emitted) (h : s.memWf = true) : (r.emitOne s q).Gives (fun t => t.memWf = true) := by
  unfold Run.emitOne
  split
  · exact h
  · exact Res.gives_map (s.storeElem_memWf _ _ _ _ h _ _ _) (fun t ht => by simpa using ht)

@[simp] theorem Run.emit_memWf (r : Run) : ∀ (l : List Emitted) (s : State), s.memWf = true → (r.emit s l).1.memWf = true
  | [], s, h => h
  | q :: rest, s, h => by
    have ho := r.emitOne_memWf s q h
    unfold Run.emit
    split
    · next s1 hs => exact r.emit_memWf rest s1 (by simpa [hs] using ho)
    · exact h

@[simp] theorem Run.emitEach_memWf (r : Run) : ∀ (l : List (Nat × List Emitted)) (s : State), s.memWf = true →
    (r.emitEach s l).1.memWf = true
  | [], s, h => h
  | (i, l) :: rest, s, h => by
    unfold Run.emitEach
    split
    · exact h
    · exact r.emitEach_memWf rest _ (r.emit_memWf l s h)

section Performed
variable (r : Run) (h : r.s.memWf = true)
include h

theorem Run.finish_memWf (upTo : (Nat → Bool) → Strand × Option (Nat × Flags)) (outs : List Emit) : (r.finish upTo outs).MemWf := by
  unfold Run.finish
  split
  · exact h
  · lift_lets
    intro all below x
    have hx : x.1.memWf = true := by simp [x, h]
    rcases x.2.2 with _ | ⟨j, res⟩
    · rcases all.2 with _ | ⟨k, f⟩ <;> simpa using hx
    · exact Res.perf_memWf _ _ _ _ _ h (by simpa using hx)

theorem Run.finishWhole_memWf (st : Strand) (outs : List Emit) (again : Nat) : (r.finishWhole st outs again).MemWf := by
  unfold Run.finishWhole
  split
  · exact h
  · lift_lets
    intro x
    have hx : x.1.memWf = true := by simp [x, h]
    split
    · exact Res.perf_memWf _ _ _ _ _ h (by simpa using hx)
    · simpa using hx

theorem Run.scalar_memWf (d : Reg) (x : Word) : (r.scalar d x).MemWf := by simpa [Run.scalar] using h

theorem Run.whole_memWf (sw : Sweep) (write : Strand → Strand) (outs : List Emit) : (r.whole sw write outs).MemWf := by
  unfold Run.whole
  split
  · simpa using h
  · exact r.finishWhole_memWf h _ _ _

theorem Run.reduceSum_memWf (f : VxC) : (r.reduceSum f).MemWf := by
  unfold Run.reduceSum
  dsimp only
  split <;> simpa using h

theorem Run.extreme_memWf (f : VxC) (hi : r.e.instr = .vredmax f ∨ r.e.instr = .vredmin f) : (r.reduce f).MemWf := by
  unfold Run.reduce
  rcases hi with hi | hi <;>
    (rw [hi]
     dsimp only
     split
     · exact r.scalar_memWf h _ _
     · simpa using h)

theorem Run.bitReduce_memWf (f : VxC) (hi : r.e.instr = .vredand f ∨ r.e.instr = .vredor f) : (r.reduce f).MemWf := by
  unfold Run.reduce
  rcases hi with hi | hi <;> (rw [hi]; exact r.scalar_memWf h _ _)

variable (f : VxC)

theorem Run.elementwise_memWf (w : Nat) (elems : List Nat) (draws : Bool) (op : Nat → Nat → Nat × Flags) :
    (r.elementwise f w elems draws op).MemWf := r.finish_memWf h _ _
theorem Run.arith_memWf : (r.arith f).MemWf := by unfold Run.arith; exact r.elementwise_memWf h f _ _ _ _
theorem Run.bitwise_memWf : (r.bitwise f).MemWf := by unfold Run.bitwise; exact r.elementwise_memWf h f _ _ _ _
theorem Run.compare_memWf : (r.compare f).MemWf := by unfold Run.compare; exact r.finish_memWf h _ _
theorem Run.select_memWf : (r.select f).MemWf := by unfold Run.select; exact r.elementwise_memWf h f _ _ _ _
theorem Run.classify_memWf : (r.classify f).MemWf := by unfold Run.classify; exact r.elementwise_memWf h f _ _ _ _
theorem Run.convert_memWf : (r.convert f).MemWf := by unfold Run.convert; exact r.elementwise_memWf h f _ _ _ _
theorem Run.quantise_memWf : (r.quantise f).MemWf := by unfold Run.quantise; exact r.whole_memWf h _ _ _
theorem Run.plain_memWf (base w : Nat) (out : List (Nat × Nat)) : (r.plain base w out).MemWf := r.finishWhole_memWf h _ _ _
theorem Run.scan_memWf : (r.scan f).MemWf := by unfold Run.scan; exact r.whole_memWf h _ _ _
theorem Run.compress_memWf : (r.compress f).MemWf := by unfold Run.compress; exact r.finishWhole_memWf h _ _ _
theorem Run.transpose_memWf : (r.transpose f).MemWf := by unfold Run.transpose; exact r.plain_memWf h _ _ _

omit f in
theorem Run.compute_memWf : ∀ p ∈ r.compute, p.MemWf := by
  unfold Run.compute
  generalize hi : r.e.instr = i
  cases i
  case vadd f | vsub f | vmul f | vmulh f | vfma f | vfms f | vfnma f | vdiv f | vsqrt f | vrcp f | vrsq f | vexp2 f | vlog2 f | vmin f |
      vmax f | vabs f | vneg f =>
    exact forall_mem_some (r.arith_memWf h f)
  case vand f | vor f | vxor f | vnot f | vshl f | vshr f | vsra f => exact forall_mem_some (r.bitwise_memWf h f)
  case vcmpeq f | vcmpne f | vcmplt f | vcmple f => exact forall_mem_some (r.compare_memWf h f)
  case vsel f => exact forall_mem_some (r.select_memWf h f)
  case vclass f => exact forall_mem_some (r.classify_memWf h f)
  case vcvt f | vnarrow f | vwiden f => exact forall_mem_some (r.convert_memWf h f)
  case vq4 f => exact forall_mem_some (r.quantise_memWf h f)
  case vslideup | vslidedn | vperm | vbcast | vmvs | vexpand | viota => exact forall_mem_some (r.plain_memWf h _ _ _)
  case vget | vfirst | vpopm => exact forall_mem_some (r.scalar_memWf h _ _)
  case vredsum f => exact forall_mem_some (r.reduceSum_memWf h f)
  case vredmax f => exact forall_mem_some (r.extreme_memWf h f (.inl hi))
  case vredmin f => exact forall_mem_some (r.extreme_memWf h f (.inr hi))
  case vredand f => exact forall_mem_some (r.bitReduce_memWf h f (.inl hi))
  case vredor f => exact forall_mem_some (r.bitReduce_memWf h f (.inr hi))
  case vscan f => exact forall_mem_some (r.scan_memWf h f)
  case vcompress f => exact forall_mem_some (r.compress_memWf h f)
  case vtrans8 f => exact forall_mem_some (r.transpose_memWf h f)
  all_goals exact forall_mem_none

end Performed

end Sys2Proof.Machine

/-! ## Vector memory instructions performed from the VQ -/

namespace Sys2Proof.Machine
-- one proof at a time: the memory of proofs in flight together is more than the check has
set_option Elab.async false

theorem Run.keepHigher_memWf (r : Run) (before after : State) (items : List Item) (places : List (Nat × Place)) (q : Item) (p : Place)
    (h : after.memWf = true) : (r.keepHigher before after items places q p).memWf = true := by
  refine State.memWf_foldl _ (fun s x h => ?_) _ _ h
  (repeat' split) <;> simp [State.memWf_putBytes, h]

theorem Run.performed_memWf (r : Run) (stores : Bool) (a : Agent) (items : List Item) (x : Pass) (q : Item) (v : Nat) (s1 : State)
    (h : s1.memWf = true) : (r.performed stores a items x q v s1).s.memWf = true := by
  unfold Run.performed
  dsimp only
  cases (if stores = true then r.storedAt x.s a q else none) with
  | none => exact h
  | some p => exact r.keepHigher_memWf _ _ _ _ _ _ h

/-- An access by which a pass performs an element keeps the memories. -/
def KeepsMemWf (access : Agent → Item → State → Res (Nat × State)) : Prop :=
  ∀ a q s, s.memWf = true → (access a q s).Gives (fun p => p.2.memWf = true)

theorem Run.pass_memWf (r : Run) (ordered stores : Bool) (agent : Item → Agent) (trim : Item → Res (Nat × State) → Bool)
    (access : Agent → Item → State → Res (Nat × State)) (s : State) (items : List Item) (h : s.memWf = true) (ha : KeepsMemWf access) :
    (r.pass ordered stores agent trim access s items).s.memWf = true := by
  refine List.foldlRecOn (motive := fun x : Pass => x.s.memWf = true) _ _ h (fun x hx q _ => ?_)
  split
  · exact hx
  · dsimp only
    split
    · exact hx
    · split
      · exact hx
      · have hr := ha { agent q with held := r.e.keeps x.held } q x.s hx
        split
        · next v s1 hs => exact r.performed_memWf _ _ _ _ _ _ _ (by simpa [hs] using hr)
        · simp [hx]
        · split <;> exact hx

section Performed
variable (r : Run) (h : r.s.memWf = true)

theorem Run.settled_memWf (items : List Item) (x : Pass) (write : List (Nat × Nat) → Strand → Strand) (outs : List Nat → List Emit)
    (last : State → State) (hx : x.s.memWf = true) (hl : ∀ s : State, s.memWf = true → (last s).memWf = true) :
    (r.settled items x write outs last).MemWf := by
  unfold Run.settled
  lift_lets
  intro s1 em keep
  have h1 : s1.memWf = true := by
    simp only [s1]
    split <;> simp [hx]
  have hem : em.1.memWf = true := r.emit_memWf _ _ h1
  have hk (s : State) : (keep s).memWf = s.memWf := by simp [keep]
  split
  · simp [hk, hem]
  · exact Res.perf_memWf _ _ _ _ _ hem (by simpa using hem)
  · split
    · exact Res.perf_memWf _ _ _ _ _ (by simpa using hem) (by simpa using hem)
    · simpa [hk] using hem
    · exact hl _ (by simpa using hem)

include h in
theorem Run.settledLate_memWf (items : List Item) (x : Pass) (write : List (Nat × Nat) → Strand → Strand) (outs : List Nat → List Emit)
    (last : State → State) (hx : x.s.memWf = true) (hl : ∀ s : State, s.memWf = true → (last s).memWf = true) :
    (r.settledLate items x write outs last).MemWf := by
  unfold Run.settledLate
  dsimp only
  split
  · simpa using hx
  · split
    · exact h
    · split
      · simp [hx]
      · exact Res.perf_memWf _ _ _ _ _ hx (by simp [hx])
      · split
        · exact Res.perf_memWf _ _ _ _ _ (by simp [hx]) (by simp [hx])
        · exact hl _ (by simp [hx])

include h

theorem Run.spliceHeld_memWf (s : State) (items : List Item) (hs : s.memWf = true) : ∀ p ∈ r.spliceHeld s items, p.MemWf := by
  unfold Run.spliceHeld
  dsimp only
  (repeat' split) <;> simp [h, hs]

theorem Run.gate_memWf (f : VxM) (items : List Item) (proceed : State → Perf) (hp : ∀ s, s.memWf = true → (proceed s).MemWf) :
    (r.gate f items proceed).MemWf := by
  unfold Run.gate
  split
  · exact hp _ h
  · dsimp only
    split
    · exact h
    · split
      · exact hp _ h
      · have hm := r.s.loadMemory_memWf r.agent ((r.st.watermarks[f.w.toNat]'(f.w.isLt)).word.toNat) 8 (fun _ => false) false h
        split
        · next bs s1 hs =>
          have h1 : s1.memWf = true := by simpa [hs] using hm
          split
          · exact hp _ (by simpa using h1)
          · exact h
        · simpa using h
        · exact Res.perf_memWf _ _ _ _ _ h h

theorem Run.unlessTooLong_memWf (outs : List Emit) (p : Perf) (hp : p.MemWf) : (r.unlessTooLong outs p).MemWf := by
  unfold Run.unlessTooLong
  cases (if r.fresh = true then r.st.tooLong outs else none) with
  | none => exact hp
  | some k => exact h

omit h in
theorem Run.gather_memWf (f : VxM) (w : Nat) (items : List Item) (x : Pass) (hx : x.s.memWf = true) :
    (r.gather f w items x).s.memWf = true := by
  unfold Run.gather
  split
  · split
    · exact hx
    · exact (State.memWf_foldl_eq _ (fun s q => by simp) _ _).trans hx
  · exact hx

omit h in
theorem Option.getD_memWf {o : Option Perf} {p : Perf} (ho : ∀ q ∈ o, q.MemWf) (hp : p.MemWf) : (o.getD p).MemWf := by
  cases o with
  | none => exact hp
  | some q => exact ho q rfl

omit h in
/-- Reading an element as a load does is an access of a pass. -/
theorem keepsMemWf_loadElem (st : Strand) (strip : Nat) (use : L1Line → Bool) (al : L1Alloc) :
    KeepsMemWf (fun a q s => s.loadElem a st strip use al q.va q.w q.high) := fun a q s hs => s.loadElem_memWf a st strip q.va use hs al q.w q.high

omit h in
theorem keepsMemWf_storeElem (st : Strand) (strip w : Nat) (x : Item → Nat) :
    KeepsMemWf (fun a q s => (s.storeElem a st strip q.va w q.high (x q)).map (fun s1 => (0, s1))) :=
  fun a q s hs => Res.gives_map (s.storeElem_memWf a st strip q.va hs w q.high (x q)) (fun _ ht => ht)

theorem Run.load_memWf (f : VxM) : (r.load f).MemWf := by
  unfold Run.load
  refine r.gate_memWf h f _ _ (fun s1 h1 => r.unlessTooLong_memWf h _ _ (Option.getD_memWf (r.spliceHeld_memWf h _ _ h1) ?_))
  refine r.settled_memWf _ _ _ _ _ (r.gather_memWf _ _ _ _ ?_) (fun _ hs => hs)
  exact r.pass_memWf _ _ _ _ _ _ _ h1 (keepsMemWf_loadElem _ _ _ _)

theorem Run.firstFault_memWf (f : VxM) : (r.firstFault f).MemWf := by
  unfold Run.firstFault
  refine r.gate_memWf h f _ _ (fun s1 h1 => Option.getD_memWf (r.spliceHeld_memWf h _ _ h1) ?_)
  have hx := fun agent trim items use al => r.pass_memWf true false agent trim _ s1 items h1 (keepsMemWf_loadElem r.st r.e.strip use al)
  dsimp only
  split
  · exact r.settled_memWf _ _ _ _ _ (hx _ _ _ _ _) (fun s hs => by simpa using hs)
  · exact r.settledLate_memWf h _ _ _ _ _ (hx _ _ _ _ _) (fun s hs => by simpa using hs)

theorem Run.store_memWf (f : VxM) : (r.store f).MemWf := by
  unfold Run.store
  have hx := r.pass_memWf f.ord true (fun _ => r.agent) noTrim _ r.s (r.items f (tagWidth (r.tag f.vc))) h
    (keepsMemWf_storeElem r.st r.e.strip (tagWidth (r.tag f.vc)) (fun q => r.src f.vc.toNat (tagWidth (r.tag f.vc)) q.i))
  refine r.settled_memWf _ _ _ _ _ ?_ (fun _ hs => hs)
  split
  · exact hx
  · simpa using hx

omit h in
theorem State.atomicElem_memWf (s : State) (a : Agent) (st : Strand) (strip : Nat) (fn : Reg) (t : Tag) (va x : Nat) (h : s.memWf = true) :
    (s.atomicElem a st strip fn t va x).Gives (fun p => p.2.2.memWf = true) := by
  unfold State.atomicElem
  dsimp only
  (repeat' split) <;> simp [State.memWf_putBytes, State.memWf_farRead, h]

omit h in
theorem Run.amoElem_memWf (f : VxM) (t : Tag) (q : Item) (s : State) (hs : s.memWf = true) :
    (r.amoElem f t q s).Gives (fun p => p.2.memWf = true) :=
  Res.gives_bind (Res.gives_any _) (fun _ _ => Res.gives_map (s.atomicElem_memWf _ _ _ _ _ _ _ hs) (fun p hp => by simp [hp]))

theorem Run.amo_memWf (f : VxM) : (r.amo f).MemWf := by
  unfold Run.amo
  refine r.unlessTooLong_memWf h _ _ ?_
  lift_lets
  intro x
  have hx : x.1.s.memWf = true := by
    refine List.foldlRecOn (motive := fun x : Pass × Option (Nat × Flags) => x.1.s.memWf = true) _ _ h (fun x hx q _ => ?_)
    dsimp only
    split
    · exact hx
    · split
      · exact hx
      · have hr := r.amoElem_memWf f (r.tag f.vc) q x.1.s hx
        split
        · next fl s1 hs => exact r.performed_memWf _ _ _ _ _ _ _ (by simpa [hs] using hr)
        · simpa using hx
        all_goals exact hx
  split
  · simpa using hx
  · exact r.settled_memWf _ _ _ _ _ hx (fun _ hs => hs)

theorem Run.xlatDescriptor_memWf (f : VxM) : (r.xlatDescriptor f).Gives (fun p => p.2.memWf = true) := by
  unfold Run.xlatDescriptor
  dsimp only
  split
  · exact h
  · refine Res.gives_foldl _ (fun x j hx => Res.gives_bind hx (fun p hp => ?_)) _ h
    exact Res.gives_map (p.2.loadElem_memWf _ _ _ _ _ hp _ _ _) (fun q hq => hq)

omit h in
theorem Run.keepsMemWf_xlatElem (f : VxM) (d : List Byte) (items : List Item) : KeepsMemWf (r.xlatElem f d items) := by
  intro a q s hs
  unfold Run.xlatElem
  split
  · exact hs
  · exact Res.gives_map (s.loadElem_memWf _ _ _ _ _ hs _ _ _) (fun p hp => hp)

theorem Run.xlat_memWf (f : VxM) : (r.xlat f).MemWf := by
  have hd := r.xlatDescriptor_memWf h f
  unfold Run.xlat
  split
  · next d s1 hs =>
    have h1 : s1.memWf = true := by simpa [hs] using hd
    split
    · exact h
    · refine Run.unlessTooLong_memWf _ h _ _ ?_
      have hx (r1 : Run) (items reads : List Item) := r1.pass_memWf (f.gstride == 1) false (fun _ => r.agent) (trimsXlat (f.gstride == 1))
        (r1.xlatElem f d reads) s1 items h1 (r1.keepsMemWf_xlatElem _ _ _)
      dsimp only
      generalize (if r.fresh = true then List.map (r.xlatItem f d) (r.actives f.m f.mi)
        else List.map (fun q => ({ i := q.1, va := q.2, w := 64, high := false } : Item)) r.e.touch) = items
      split
      · exact Run.settled_memWf _ _ _ _ _ _ (hx _ _ _) (fun s hs => by split <;> simp [hs])
      · exact Run.settledLate_memWf _ (by exact h) _ _ _ _ _ (hx _ _ _) (fun s hs => by split <;> simp [hs])
  · exact Res.perf_memWf _ _ _ _ _ h h

theorem Run.pref_memWf (f : VxM) : (r.pref f).MemWf := by simpa [Run.pref] using h

theorem Run.append_memWf (f : VxM) : (r.append f).MemWf := by
  unfold Run.append
  dsimp only
  split
  · simpa using h
  · split
    · exact h
    · split
      · exact h
      · split
        · split <;> exact h
        · next l moved _ =>
          split
          · next s1 hs =>
            have h1 := Res.gives_bind (Res.gives_any (r.s.writeCheck r.st (r.st.spillAddr.toNat + journalSum r.st.journal true)
              (moved.flatMap JournalRecord.image).length)) (fun _ _ => r.s.storeSpan_memWf r.agent r.agent.cluster
                (r.st.spillAddr.toNat + journalSum r.st.journal true) (moved.flatMap JournalRecord.image) h)
            rw [hs] at h1
            simpa using h1
          · exact Res.perf_memWf _ _ _ _ _ h h

theorem Run.memory_memWf : ∀ p ∈ r.memory, p.MemWf := by
  unfold Run.memory
  generalize r.e.instr = i
  cases i
  case vld f | vlds f | vldx f | vld2d f => exact forall_mem_some (r.load_memWf h f)
  case vldff f => exact forall_mem_some (r.firstFault_memWf h f)
  case vst f | vsts f | vstx f | vst2d f => exact forall_mem_some (r.store_memWf h f)
  case vamo f => exact forall_mem_some (r.amo_memWf h f)
  case vxlat f => exact forall_mem_some (r.xlat_memWf h f)
  case vpref f => exact forall_mem_some (r.pref_memWf h f)
  case kvapp f => exact forall_mem_some (r.append_memWf h f)
  all_goals exact forall_mem_none

end Performed

end Sys2Proof.Machine

/-! ## Matrix instructions -/

namespace Sys2Proof.Machine
-- one proof at a time: the memory of proofs in flight together is more than the check has
set_option Elab.async false

theorem Run.described_memWf (r : Run) (descs : List Reg) (n : Nat) (h : r.s.memWf = true) : (r.described descs n).s.memWf = true :=
  State.memWf_foldl _ (fun s _ h => s.memWf_noteRead _ _ _ h) _ _ h

theorem Run.parked_memWf (r : Run) (descs : List Reg) (reads : List (Res (List Byte))) (h : r.s.memWf = true) :
    (r.parked descs reads).memWf = true := by
  unfold Run.parked
  simpa using r.described_memWf descs _ h

theorem Run.fetched_memWf (r : Run) (spans : List (Nat × Nat)) (h : r.s.memWf = true) : (r.fetched spans).s.memWf = true := by
  unfold Run.fetched
  split
  · exact h
  · exact State.memWf_foldl _ (fun s _ h => s.memWf_noteRead _ _ _ h) _ _ h

/-- A matrix instruction keeps the memories when it does so with what its reads give. -/
theorem Run.mx_memWf {α : Type} (r : Run) (h : r.s.memWf = true) (descs : List Reg) (other : List (Res (List Byte))) {x : Res α}
    {f : Run → α → Perf} {P : α → Prop} (hx : x.Gives P) (hf : ∀ r : Run, r.s.memWf = true → ∀ y, P y → (f r y).MemWf) :
    (r.mx descs other x f).MemWf := by
  unfold Run.mx
  split
  · exact hf _ (r.described_memWf _ _ h) _ hx
  · simpa using r.described_memWf descs descs.length h
  · exact r.parked_memWf _ _ h
  · exact Res.perf_memWf _ _ _ _ _ h h

theorem Run.complete_memWf (r : Run) (s : State) (flags : List (Nat × Flags)) (h : s.memWf = true) : (r.complete s flags).MemWf := by
  unfold Run.complete
  dsimp only
  split <;> exact h

section Performed
variable (r : Run) (h : r.s.memWf = true) (f : MxF)
include h

theorem Run.tileDone_memWf (k : Nat) (t : Tile) (flags : List (Nat × Flags)) : (r.tileDone k t flags).MemWf :=
  r.complete_memWf _ _ (by simpa using h)

theorem Run.multiply_memWf (tagA tagB : Tag) (m n k : Nat) (a b : Nat → Nat → Nat × Nat) : (r.multiply f tagA tagB m n k a b).MemWf := by
  unfold Run.multiply
  split
  · exact h
  · exact r.tileDone_memWf h _ _ _

theorem Run.mma_memWf : (r.mma f).MemWf :=
  r.mx_memWf h _ _ (Res.gives_any _) (fun r h _ _ => Run.multiply_memWf _ (r.fetched_memWf _ h) f _ _ _ _ _ _ _)

theorem Run.fromRegisters_memWf (steps : TileDesc → Option (List Nat)) : (r.fromRegisters f steps).MemWf := by
  unfold Run.fromRegisters
  exact r.mx_memWf h _ _ (Res.gives_any _) (fun r h _ _ => Run.multiply_memWf _ (r.fetched_memWf _ h) f _ _ _ _ _ _ _)

theorem Run.mmav_memWf : (r.mmav f).MemWf := r.fromRegisters_memWf h f _

theorem Run.mmas_memWf : (r.mmas f).MemWf := r.fromRegisters_memWf h f _

theorem Run.mzero_memWf : (r.mzero f).MemWf := r.tileDone_memWf h _ _ _

theorem Run.mloadc_memWf : (r.mloadc f).MemWf :=
  r.mx_memWf h _ _ (Res.gives_any _) (fun r h _ _ => Run.tileDone_memWf _ (r.fetched_memWf _ h) _ _ _)

theorem Run.mstore_memWf : (r.mstore f).MemWf := by
  unfold Run.mstore
  refine r.mx_memWf h _ _ (P := fun p => p.1.memWf = true) ?_ (fun r _ p hp => r.complete_memWf _ _ (by simpa using hp))
  refine Res.gives_bind (Res.gives_any _) (fun d _ => Res.gives_foldl _ (fun x row hx => Res.gives_bind hx (fun p hp => ?_)) _
    (r.described_memWf _ _ h))
  exact Res.gives_bind (Res.gives_any _) (fun _ _ => Res.gives_map (State.shadowWrite_memWf _ _ _ _ _ _ hp) (fun s1 h1 => h1))

theorem Run.mreadv_memWf : (r.mreadv f).MemWf := by unfold Run.mreadv; exact r.finish_memWf h _ _

theorem Run.mwritev_memWf : (r.mwritev f).MemWf := by unfold Run.mwritev; exact r.finish_memWf h _ _

theorem Run.mcvt_memWf : (r.mcvt f).MemWf := by unfold Run.mcvt; exact r.finish_memWf h _ _

theorem Run.shoal_memWf {p : Perf} (hp : p.MemWf) : (r.shoal p).MemWf := by
  unfold Run.shoal
  split
  · exact hp
  · simpa using h

theorem Run.tload_memWf : (r.tload f).MemWf :=
  r.shoal_memWf h (r.mx_memWf h _ _ (Res.gives_any _) (fun r h x _ => by simpa using r.fetched_memWf _ h))

theorem Run.tclr_memWf : r.tclr.MemWf := r.shoal_memWf h (by simpa using h)

theorem Run.teval_memWf : (r.teval f).MemWf := by
  unfold Run.teval
  refine r.shoal_memWf h ?_
  split
  · exact h
  · exact r.finishWhole_memWf h _ _ _

theorem Run.tleaf_memWf : (r.tleaf f).MemWf := by
  unfold Run.tleaf
  refine r.shoal_memWf h (r.mx_memWf h _ _ (Res.gives_any _) (fun r h l _ => ?_))
  lift_lets
  intro x out flags
  have hw := r.finishWhole_memWf h (r.raised (x.1.setElems f.acc.toNat 32 out) flags)
    [{ base := f.acc.toNat, w := 32, elems := out.map (·.1) }] r.from_
  split
  · next s hs => exact r.complete_memWf _ _ (by rw [hs] at hw; exact hw)
  · exact hw

omit f in
theorem Run.matrix_memWf : ∀ p ∈ r.matrix, p.MemWf := by
  unfold Run.matrix
  generalize r.e.instr = i
  cases i
  case mzero f => exact forall_mem_some (r.mzero_memWf h f)
  case mma f => exact forall_mem_some (r.mma_memWf h f)
  case mmav f => exact forall_mem_some (r.mmav_memWf h f)
  case mmas f => exact forall_mem_some (r.mmas_memWf h f)
  case mloadc f => exact forall_mem_some (r.mloadc_memWf h f)
  case mstore f => exact forall_mem_some (r.mstore_memWf h f)
  case mreadv f => exact forall_mem_some (r.mreadv_memWf h f)
  case mwritev f => exact forall_mem_some (r.mwritev_memWf h f)
  case mcvt f => exact forall_mem_some (r.mcvt_memWf h f)
  case tload f => exact forall_mem_some (r.tload_memWf h f)
  case teval f => exact forall_mem_some (r.teval_memWf h f)
  case tleaf f => exact forall_mem_some (r.tleaf_memWf h f)
  case tclr => exact forall_mem_some (r.tclr_memWf h)
  all_goals exact forall_mem_none

end Performed

end Sys2Proof.Machine

/-! ## The events of the VQ, the matrix queue and the streams -/

namespace Sys2Proof.Machine
-- one proof at a time: the memory of proofs in flight together is more than the check has
set_option Elab.async false

theorem State.settleEntry_memWf (s : State) (slot : Nat) (st : Strand) (k : Nat) (e : VqEntry) (p : Perf) (h : s.memWf = true)
    (hp : p.MemWf) : NextMemWf (s.settleEntry slot st k e p) := by
  cases p with
  | halt f => trivial
  | fault c x k s1 =>
    simp only [State.settleEntry]
    split
    · exact State.memWf_finishEnd _ _ (by simpa using hp)
    · split
      · simpa using hp
      · exact h
  | done s1 => exact State.memWf_finishEnd _ _ (by simpa using hp)
  | hold s1 | again s1 | park _ _ _ s1 | part _ s1 => simpa [State.settleEntry] using hp
  | partner s1 => exact s1.memWf_endByPartner _ _ _ hp

theorem settleMatrix_memWf (slot : Nat) (st : Strand) (k : Nat) (e : VqEntry) (p : Perf) (hp : p.MemWf) :
    NextMemWf (settleMatrix slot st k e p) := by
  cases p with
  | halt f => trivial
  | fault c x k s1 =>
    simp only [settleMatrix]
    split
    · exact State.memWf_finishEnd _ _ (by simpa using hp)
    · simpa using hp
  | done s1 => exact State.memWf_finishEnd _ _ (by simpa using hp)
  | hold s1 | again s1 | park _ _ _ s1 | part _ s1 => simpa [settleMatrix] using hp
  | partner s1 => exact s1.memWf_endByPartner _ _ _ hp

/-- Performing keeps the memories when the instruction's own part does. -/
theorem State.perform_memWf (s : State) (slot : Nat) (st : Strand) (e : VqEntry) (put : VqEntry → Strand → Strand) (body : Run → Perf)
    (h : s.memWf = true) (hb : ∀ r : Run, r.s.memWf = true → (body r).MemWf) : (s.perform slot st e put body).MemWf := by
  unfold State.perform
  dsimp only
  split
  · exact h
  · split
    · simpa using h
    · split
      · exact h
      · split
        · exact h
        · exact hb _ (by simpa using h)

theorem State.bindStream_memWf (s : State) (slot : Nat) (st : Strand) (e : VqEntry) (f : VxM) (h : s.memWf = true) :
    (s.bindStream slot st e f).Gives (fun p => p.2.2.memWf = true) := by
  unfold State.bindStream
  split
  · exact h
  · exact h
  · exact Res.gives_map (s.readDescriptor_memWf _ _ h _) (fun p hp => hp)

theorem State.performBind_memWf (s : State) (slot : Nat) (st : Strand) (n : Nat) (e : VqEntry) (f : VxM) (h : s.memWf = true) :
    (s.performBind slot st n e f).MemWf := by
  have hb := s.bindStream_memWf slot st e f h
  unfold State.performBind
  dsimp only
  split
  · next x b s1 hs =>
    have h1 : s1.memWf = true := by
      rw [hs] at hb
      exact hb
    split
    · simpa using h1
    · split <;> simpa using h1
  · exact Res.perf_memWf _ _ _ _ _ h (by simpa using h)

theorem Option.or_memWf {o p : Option Perf} (ho : ∀ q ∈ o, q.MemWf) (hp : ∀ q ∈ p, q.MemWf) : ∀ q ∈ o.or p, q.MemWf := by
  cases o with
  | none => exact hp
  | some x => exact ho

theorem State.performEntry_memWf (s : State) (slot : Nat) (st : Strand) (k : Nat) (e : VqEntry) (h : s.memWf = true) :
    (s.performEntry slot st k e).MemWf := by
  have hperform := s.perform_memWf slot st e (fun e' st' => st'.updEntry k (fun _ => e'))
    (fun r => (((r.compute).or r.memory).or r.matrix).getD (.done r.s)) h (fun r hr => Option.getD_memWf
    (Option.or_memWf (Option.or_memWf (r.compute_memWf hr) (r.memory_memWf hr)) (r.matrix_memWf hr)) hr)
  unfold State.performEntry
  generalize e.instr = i
  cases i
  case vbind => exact s.performBind_memWf _ _ _ _ _ h
  case vunbind => simpa [State.performUnbind] using h
  all_goals exact hperform

theorem State.repartition_memWf (s : State) (slot : Nat) (st : Strand) (e : VqEntry) (h : s.memWf = true) :
    NextMemWf (s.repartition slot st e) := by
  unfold State.repartition
  dsimp only
  split
  · exact State.settleEntry_memWf _ _ _ _ _ _ (by simpa using h) (by simpa using h)
  · split
    · exact State.settleEntry_memWf _ _ _ _ _ _ (by simpa using h) (by simpa using h)
    · simpa using h

theorem execVqEntryStart_memWf (s : State) (h : s.memWf = true) : NextMemWf (execVqEntryStart s) := by
  unfold execVqEntryStart
  dsimp only
  split
  · exact h
  · split
    · exact h
    · split
      · exact h
      · split
        · split
          · exact s.repartition_memWf _ _ _ h
          · exact h
        · exact s.settleEntry_memWf _ _ _ _ _ h (s.performEntry_memWf _ _ _ _ h)

theorem execMatrixQueueStart_memWf (s : State) (h : s.memWf = true) : NextMemWf (execMatrixQueueStart s) := by
  unfold execMatrixQueueStart
  dsimp only
  split
  · exact h
  · exact settleMatrix_memWf _ _ _ _ _ (State.perform_memWf _ _ _ _ _ _ (by simpa using h) (fun r hr =>
      Option.getD_memWf (Run.matrix_memWf _ (by simpa using hr)) hr))

theorem State.streamRead_memWf (s : State) (x : Stream) (read : Nat → Nat → State → Res (List Byte × State)) (places : List (Nat × Bool))
    (h : s.memWf = true) (hr : ∀ va n (s : State), s.memWf = true → (read va n s).Gives (fun p => p.2.memWf = true)) :
    (s.streamRead x read places).Gives (fun p => p.2.memWf = true) := by
  unfold State.streamRead
  refine Res.gives_foldl _ (fun r q hq => Res.gives_bind hq (fun p hp => ?_)) _ h
  dsimp only
  generalize (if x.width = 4 then 1 else x.width / 8) = n
  split
  · trivial
  · exact Res.gives_map (hr _ _ p.2 hp) (fun y hy => hy)

theorem State.streamEnd_memWf (s : State) (slot : Nat) (a : Agent) (st : Strand) (x : Stream) (put : Stream → Strand → Strand)
    (got : List Word → Stream) (r : Res (List Word × State)) (h : s.memWf = true) (hr : r.Gives (fun p => p.2.memWf = true)) :
    NextMemWf (s.streamEnd slot a st x put got r) := by
  cases r with
  | ok p => simpa [State.streamEnd] using hr
  | partnerEnded =>
    simp only [State.streamEnd]
    split
    · exact s.memWf_endByPartner _ _ _ h
    · exact h
  | fault _ _ | miss _ _ | gated => simpa [State.streamEnd] using h
  | stop f => trivial

theorem execStreamPatternRead_memWf (s : State) (h : s.memWf = true) : NextMemWf (execStreamPatternRead s) := by
  unfold execStreamPatternRead
  dsimp only
  (repeat' split)
  · exact h
  · exact h
  · exact h
  · exact s.streamEnd_memWf _ _ _ _ _ _ _ h (s.streamRead_memWf _ _ _ h (fun va n s hs => s.loadVA_memWf _ _ _ _ _ _ _ _ hs))

theorem execStreamChunkArrival_memWf (s : State) (h : s.memWf = true) : NextMemWf (execStreamChunkArrival s) := by
  unfold execStreamChunkArrival
  dsimp only
  (repeat' split)
  · exact h
  · exact h
  · exact h
  · exact h
  · exact s.streamEnd_memWf _ _ _ _ _ _ _ h (s.streamRead_memWf _ _ _ h (fun va n s hs => s.loadFed_memWf _ _ _ _ hs _ _))

end Sys2Proof.Machine

/-! ## Engine commands at work -/

namespace Sys2Proof.Machine
-- one proof at a time: the memory of proofs in flight together is more than the check has
set_option Elab.async false

@[simp] theorem Job.fault_s (j : Job) (c : Cause) (va : Nat) : (j.fault c va).s = j.s := by unfold Job.fault; split <;> rfl

@[simp] theorem Job.raise_s (j : Job) (f : Flags) : (j.raise f).s = j.s := rfl

@[simp] theorem Job.check_s (j : Job) (w : Work) (ok : Bool) (c : Cause) : (j.check w ok c).s = j.s := by
  unfold Job.check
  split <;> simp

@[simp] theorem Job.take_s {α : Type} (j : Job) (r : Res α) (d : α) : (j.take r d).2.s = j.s := by
  unfold Job.take
  split
  · rfl
  · cases r <;> rfl

theorem Job.take_gives {α : Type} {P : α → Prop} (j : Job) {r : Res α} {d : α} (hr : r.Gives P) (hd : P d) : P (j.take r d).1 := by
  unfold Job.take
  split
  · exact hd
  · cases r with
    | ok a => exact hr
    | _ => exact hd

@[simp] theorem Job.devicePage_s (j : Job) (w : Work) (page : Nat) : (j.devicePage w page).2.s = j.s := j.take_s _ _

theorem Job.each_memWf {α : Type} (j : Job) (l : List α) (f : Job → α → Job) (h : j.s.memWf = true)
    (hf : ∀ j x, j.s.memWf = true → (f j x).s.memWf = true) : (j.each l f).s.memWf = true :=
  List.foldlRecOn (motive := fun j : Job => j.s.memWf = true) l _ h (fun j hj x _ => by
    split
    · exact hj
    · exact hf j x hj)

section Job
variable (j : Job) (w : Work) (va n : Nat) (h : j.s.memWf = true)
include h

@[simp] theorem Job.read_memWf : (j.read w va n).2.s.memWf = true := by
  unfold Job.read
  dsimp only
  split <;> simp [h]

@[simp] theorem Job.writeByte_memWf (b : Byte) : (j.writeByte w va b).s.memWf = true := by
  unfold Job.writeByte
  dsimp only
  split
  · refine Job.take_gives (P := fun p : State × Bool => p.1.memWf = true) j ?_ h
    exact Res.gives_bind (Res.gives_any _) (fun _ _ => Res.gives_map (State.shadowWrite_memWf _ _ _ _ _ _ h) (fun s1 h1 => h1))
  · simpa using h

@[simp] theorem Job.write_memWf (bs : List Byte) : (j.write w va bs).s.memWf = true :=
  j.each_memWf _ _ h (fun j _ hj => j.writeByte_memWf w _ hj _)

@[simp] theorem Job.readElem_memWf : (j.readElem w va n).2.s.memWf = true := by
  unfold Job.readElem
  split <;> simp [h]

@[simp] theorem Job.writeElem_memWf (x : Nat) : (j.writeElem w va n x).s.memWf = true := by
  unfold Job.writeElem
  split <;> simp [h]

omit va n in
theorem Job.migratePage_memWf (q : Nat × Nat) : (Job.migratePage w j q).s.memWf = true := by
  unfold Job.migratePage
  dsimp only
  split
  · simp [h]
  · split
    · simpa using h
    · split <;> simp [h]

/-- Reading elements or pages one after another keeps the memories, whatever is gathered. -/
theorem Job.gather_memWf {α β : Type} (l : List α) (f : List β × Job → α → List β × Job)
    (hf : ∀ acc x, acc.2.s.memWf = true → (f acc x).2.s.memWf = true) (bs : List β) : (l.foldl f (bs, j)).2.s.memWf = true :=
  List.foldlRecOn (motive := fun acc : List β × Job => acc.2.s.memWf = true) l f h (fun acc ha x _ => hf acc x ha)

variable (d : List Byte)

theorem Job.cpy_memWf : (j.cpy w d).2.s.memWf = true := by
  unfold Job.cpy
  lift_lets
  intro n runs arrive slot target j1 pages found j2
  have h1 : j1.s.memWf = true := by simpa [j1] using h
  have h2 : j2.s.memWf = true := Job.each_memWf _ _ _ h1 (fun j r hj => by simp [hj])
  split
  · exact h1
  · split
    · exact Job.gather_memWf _ h1 _ _ (fun acc _ ha => by simpa using ha) _
    · split
      · exact Job.each_memWf _ _ _ h1 (fun j q hj => j.migratePage_memWf w hj q)
      · generalize target = t, j2.stop = o
        rcases t with _ | ⟨x, put⟩ <;> rcases o with _ | y
        all_goals simpa using h2

theorem Job.pub_memWf : (j.pub w d).2.s.memWf = true := by
  unfold Job.pub
  lift_lets
  intro base size j1 mine bad partial_ good found s1 s2 ending
  have h1 : j1.s.memWf = true := by
    simp only [j1]
    split <;> simpa using h
  split
  · exact h1
  · split
    · exact Job.gather_memWf _ h1 _ _ (fun acc _ ha => by simpa using ha) _
    · refine (State.memWf_foldl_eq _ (fun s sh => s.memWf_discard sh) _ _).trans (State.memWf_foldl _ (fun s q hs => ?_) _ _ h1)
      split <;> simp [hs]

theorem Job.upd_memWf : (j.upd w d).2.s.memWf = true := by
  unfold Job.upd
  lift_lets
  intro gtag j1 skip
  have h1 : j1.s.memWf = true := by simpa [j1] using h
  have hs : skip.2.s.memWf = true := by
    simp only [skip]
    split <;> simp [h1]
  split
  · exact hs
  · split
    · exact hs
    · refine Job.each_memWf _ _ _ hs (fun j i hj => ?_)
      lift_lets
      intro at_ g x m v r j1 j2
      have hx : x.2.s.memWf = true := by simp [x, g, hj]
      have hv : v.2.s.memWf = true := by
        simp only [v]
        split <;> simp [m, hx]
      split
      · exact hv
      · have hj1 : j1.s.memWf = true := by simp [j1, hv]
        simp only [j2]
        split <;> simp [hj1]

theorem Job.rinv_memWf : (j.rinv w d).2.s.memWf = true := by
  unfold Job.rinv
  dsimp only
  split
  · exact Job.gather_memWf _ h _ _ (fun acc _ ha => by simpa using ha) _
  · simpa using h

theorem Job.fileRecord_memWf (table : List Byte) (r : JournalRecord) : (Job.fileRecord w d table j r).s.memWf = true := by
  unfold Job.fileRecord
  dsimp only
  split
  · simpa using h
  · split
    · simp [h]
    · split
      · simp [h]
      · split <;> simp [h]

theorem Job.kvfile_memWf : (j.kvfile w d).2.s.memWf = true := by
  unfold Job.kvfile
  refine Job.each_memWf _ _ _ ?_ (fun j r hj => j.fileRecord_memWf w hj d _ r)
  split
  · split <;> simpa using h
  · split
    · split <;> simpa using h
    · split <;> simpa using h

theorem Job.rqnt_memWf : (j.rqnt w d).2.s.memWf = true := by
  unfold Job.rqnt
  dsimp only
  split
  · simpa using h
  · refine Job.each_memWf _ _ _ (by split <;> simpa using h) (fun j k hj => ?_)
    refine List.foldlRecOn (motive := fun j : Job => j.s.memWf = true) _ _ ?_ (fun j hj c _ => hj)
    exact Job.write_memWf _ _ _ (Job.write_memWf _ _ _ (Job.gather_memWf j hj _ _ (fun acc i ha => by simp [ha]) _) _) _

theorem Job.cred_memWf : (j.cred w d).2.s.memWf = true := by
  unfold Job.cred
  lift_lets
  intro n self chunk group record size j1 src0 src mods j2 s1 data lost whole s2 total missing chunks bitmap dst j3 bs x j4
  have h1 : j1.s.memWf = true := by
    simp only [j1]
    split <;> simpa using h
  have hsrc : src.2.s.memWf = true := by
    simp only [src]
    split <;> simp [src0, h1]
  have h2 : j2.s.memWf = true := by
    simp only [j2]
    split <;> simp [mods, hsrc]
  have hs1 : s1.memWf = true := by
    simp only [s1]
    split <;> simpa using h2
  have h3 : j3.s.memWf = true := by
    refine Job.each_memWf _ _ _ (by simpa [s2] using hs1) (fun j k hj => ?_)
    lift_lets
    intro first len j' pages _
    split
    · exact j.each_memWf _ _ hj (fun j i hj => by simp [hj])
    · simpa using j.each_memWf _ _ hj (fun j i hj => by simp [hj])
  have hx : x.1.memWf = true := Job.take_gives (P := fun s : State => s.memWf = true) j3
    (Res.gives_bind (Res.gives_any _) (fun _ _ => j3.s.storeSpan_memWf _ _ _ _ h3)) h3
  split
  · exact h1
  · split
    · exact h2
    · split
      · exact h
      · split
        · exact hs1
        · split
          · exact h3
          · split
            · simpa using h3
            · dsimp only
              split
              · simpa [x] using h3
              · simpa using hx

theorem Job.structure_memWf (i : Instr) : (j.structure w i d).2.s.memWf = true := by
  unfold Job.structure
  cases i
  case kvfile => dsimp only; split <;> simp [h]
  all_goals exact h

end Job

theorem State.startCommand_memWf (s : State) (c : EngineCmd) (h : s.memWf = true) : (s.startCommand c).2.s.memWf = true := by
  unfold State.startCommand
  lift_lets
  intro w size j j1 d x skip more c1
  have hj1 : j1.s.memWf = true := by
    simp only [j1]
    split <;> simpa using h
  have hd : d.2.s.memWf = true := by simp [d, hj1]
  have hs : skip.2.s.memWf = true := by
    have hx : x.2.s.memWf = true := by simp [x, hd]
    dsimp only [skip]
    generalize c.instr = i
    cases i
    case upd => exact hx
    all_goals exact hd
  have hm : more.2.s.memWf = true := skip.2.structure_memWf w hs _ _
  split
  · exact h
  · split <;> simpa using hm

theorem State.work_memWf (s : State) (c : EngineCmd) (h : s.memWf = true) : (s.work c).2.s.memWf = true := by
  have hj := s.startCommand_memWf c h
  unfold State.work
  dsimp only
  split
  · exact h
  · generalize c.instr = i
    cases i
    case cpy => exact Job.cpy_memWf _ _ hj _
    case pub => exact Job.pub_memWf _ _ hj _
    case cred => exact Job.cred_memWf _ _ hj _
    case upd => exact Job.upd_memWf _ _ hj _
    case rinv => exact Job.rinv_memWf _ _ hj _
    case kvfile => exact Job.kvfile_memWf _ _ hj _
    case rqnt => exact Job.rqnt_memWf _ _ hj _
    all_goals exact hj

theorem commandFails_memWf (c : EngineCmd) (j : Job) (object : Option Place) (cause : Cause) (va : Nat) (h : j.s.memWf = true) :
    (commandFails c j object cause va).memWf = true := by
  unfold commandFails
  dsimp only
  split <;> simp [h]

theorem execEngineComplete_memWf (cmd : Nat) (s : State) (h : s.memWf = true) : NextMemWf (execEngineComplete cmd s) := by
  have hw (c : EngineCmd) := s.work_memWf c h
  have hs (c : EngineCmd) : (if (s.startCommand c).2.stop.isSome = true then s else (s.startCommand c).2.s).memWf = true := by
    split
    · exact h
    · exact s.startCommand_memWf c h
  unfold execEngineComplete
  split
  · exact h
  · next c _ =>
    lift_lets
    intro idle
    split
    · split <;> simp [h]
    · split
      · exact h
      · split
        · simpa using h
        · trivial
        · exact commandFails_memWf _ _ _ _ _ h
        · exact h
        · exact h
        · have hc := hw c
          have hst := hs c
          dsimp only
          split <;> rename_i he <;> rw [he] at hc
          · simpa using hst
          · trivial
          · exact commandFails_memWf _ _ _ _ _ hc
          · exact hc
          · exact State.memWf_commandEnds _ _ _ _ _ hc

theorem execEngineErrorDelivery_memWf (s : State) (h : s.memWf = true) : NextMemWf (execEngineErrorDelivery s) := by
  have hb := s.boundary_memWf s.cur.slot s.cur.ctx h
  unfold execEngineErrorDelivery
  (repeat' split)
  · exact h
  · exact h
  · exact h
  · rcases ho : s.boundary s.cur.slot s.cur.ctx with _ | t
    · exact h
    · simpa [ho] using hb

end Sys2Proof.Machine

/-! ## Instructions that issue -/

namespace Sys2Proof.Machine
-- one proof at a time: the memory of proofs in flight together is more than the check has
set_option Elab.async false

section Instructions
variable (s : State) (h : s.memWf = true)
include h

/-! ### The shapes that instructions share -/

theorem State.intOp_memWf (i : Instr) (d a b : Reg) (f : Word → Word → Word) : NextMemWf (s.intOp i d a b f) :=
  s.issue_memWf _ _ _ _ h (fun e => by simpa using h)

theorem State.intOp1_memWf (i : Instr) (d a : Reg) (f : Word → Word) : NextMemWf (s.intOp1 i d a f) :=
  s.issue_memWf _ _ _ _ h (fun e => by simpa using h)

theorem State.immOp_memWf (i : Instr) (d a : Reg) (imm : BitVec 13) (f : Word → Word → Word) : NextMemWf (s.immOp i d a imm f) :=
  s.issue_memWf _ _ _ _ h (fun e => by simpa using h)

theorem State.branch_memWf (i : Instr) (a b : Reg) (off : BitVec 13) (holds : Word → Word → Bool) : NextMemWf (s.branch i a b off holds) :=
  s.issue_memWf _ _ _ _ h (fun e => by split <;> exact h)

theorem State.readPrefix_memWf (i : Instr) (second : Prefixes → Bool) (f : Prefixes → Prefixes) : NextMemWf (s.readPrefix i second f) := by
  unfold State.readPrefix
  split
  · exact h
  · dsimp only
    split <;> simp [h]

theorem State.commitChecked_memWf (i : Instr) (body : Env → Plan → Act) (hb : ∀ e p, (body e p).MemWf) :
    NextMemWf (s.commitChecked i body) := by
  refine s.issue_memWf _ _ _ _ h (fun e => ?_)
  dsimp only
  (repeat' split) <;> simp [h, hb]

theorem State.commit_memWf (i : Instr) : NextMemWf (s.commit i) := s.commitChecked_memWf h i _ (fun e p => by simpa using h)

theorem State.commitAtOnce_memWf (i : Instr) (f : Env → State → State) (hf : ∀ e (s : State), s.memWf = true → (f e s).memWf = true) :
    NextMemWf (s.commitAtOnce i f) := s.commitChecked_memWf h i _ (fun e p => hf e _ (by simpa using h))

theorem State.scalarRounding_memWf (e : Env) (rm : BitVec 3) : (s.scalarRounding e rm).2.2.memWf = true := by
  unfold State.scalarRounding
  dsimp only
  split <;> simpa using h

theorem State.fpResult_memWf (e : Env) (d : Reg) (x : Word) (flags : Flags) : (s.fpResult e d x flags).MemWf := by
  unfold State.fpResult
  dsimp only
  split <;> simpa using h

theorem State.fpOp_memWf (i : Instr) (regs : List Reg) (d : Reg) (rm : BitVec 3) (inputs : Env → List FVal) (f : Env → BitVec 3 → Exact) :
    NextMemWf (s.fpOp i regs d rm inputs f) :=
  s.issue_memWf _ _ _ _ h (fun e => State.fpResult_memWf _ (s.scalarRounding_memWf h e rm) _ _ _ _)

theorem State.scalarLoad_memWf (i : Instr) (d a : Reg) (plain : Bool) (n : Nat) (offset : Env → Word) (own : Attr) (ext : Nat → Word) :
    NextMemWf (s.scalarLoad i d a plain n offset own ext) := by
  refine s.issue_memWf _ _ _ _ h (fun e => ?_)
  have hl := s.loadVA_memWf e.agent e.st e.st.strip (e.accessKind .load) (e.reg a + offset e).toNat n (fun _ => !(e.attr own).acquire)
    ((e.attr own).cache != 1) h
  dsimp only
  split
  · exact h
  · split
    · exact h
    · split
      · next bs s1 hs =>
        rw [hs] at hl
        split <;> simpa using hl
      · split <;> simp [State.consumePoison, h]
      · exact Res.act_memWf e s h (Res.gives_any _) (fun _ _ => h)

theorem State.scalarStore_memWf (i : Instr) (d a : Reg) (plain : Bool) (n : Nat) (offset : Env → Word) (own : Attr) :
    NextMemWf (s.scalarStore i d a plain n offset own) := by
  refine s.issue_memWf _ _ _ _ h (fun e => ?_)
  dsimp only
  split
  · exact h
  · split
    · exact h
    · exact Res.act_memWf e s h (s.storeVA_memWf _ _ _ _ _ _ h) (fun t ht => ht)

theorem State.atomic_memWf (i : Instr) (d a : Reg) (regs : List Reg) (scope : BitVec 3) (order : BitVec 2) (host : Bool)
    (f : Env → Word → Option Word) : NextMemWf (s.atomic i d a regs scope order host f) := by
  refine s.issue_memWf _ _ _ _ h (fun e => ?_)
  dsimp only
  (repeat' split) <;> simp [State.consumePoison, State.memWf_putBytes, State.memWf_farRead, h]

theorem State.atomicOp_memWf (i : Instr) (d a : Reg) (scope : BitVec 3) (order : BitVec 2) (src : Reg) (host : Bool)
    (f : Word → Word → Word) : NextMemWf (s.atomicOp i d a scope order src host f) := s.atomic_memWf h _ _ _ _ _ _ _ _

theorem State.popQueue_memWf (e : Env) (q : BitVec 2) (got : Word → State → Act) (hg : ∀ x (s : State), s.memWf = true → (got x s).MemWf) :
    (s.popQueue e q got).MemWf := by
  unfold State.popQueue
  split
  · exact h
  · split
    · split <;> exact h
    · exact hg _ _ (by simpa using h)

theorem State.issueCommand_memWf (i : Instr) (f : YsF) : NextMemWf (s.issueCommand i f) :=
  s.issue_memWf _ _ _ _ h (fun e => by split <;> exact h)

theorem State.spaceWrite_memWf (e : Env) (refused : Bool) (f : Strand → Strand) : (s.spaceWrite e refused f).MemWf := by
  unfold State.spaceWrite
  split
  · exact refuse_memWf s h
  · split <;> simpa using h

/-! ### Scalar instructions -/

theorem execQpush_memWf (a : Reg) (q : BitVec 2) : NextMemWf (execQpush a q s) := by
  refine s.issue_memWf _ _ _ _ h (fun e => ?_)
  (repeat' split) <;> simp [h]

theorem execQpop_memWf (d : Reg) (q : BitVec 2) : NextMemWf (execQpop d q s) :=
  s.issue_memWf _ _ _ _ h (fun e => s.popQueue_memWf h _ _ _ (fun x s1 h1 => by simpa using h1))

theorem execBq_memWf (q : BitVec 2) (off : BitVec 13) : NextMemWf (execBq q off s) :=
  s.issue_memWf _ _ _ _ h (fun e => s.popQueue_memWf h _ _ _ (fun x s1 h1 => by split <;> exact h1))

theorem execBsend_memWf (slot : BitVec 3) (off : BitVec 13) : NextMemWf (execBsend slot off s) := by
  refine s.issue_memWf _ _ _ _ h (fun e => ?_)
  (repeat' split) <;> exact h

theorem execJalr_memWf (d a : Reg) (off : BitVec 13) : NextMemWf (execJalr d a off s) := by
  refine s.issue_memWf _ _ _ _ h (fun e => ?_)
  dsimp only
  split <;> simp [h]

theorem execUnassignedEncoding_memWf (w : BitVec 32) : NextMemWf (execUnassignedEncoding w s) := by
  unfold execUnassignedEncoding
  split
  · exact h
  · dsimp only
    (repeat' split) <;> simp [h]

theorem execFence_memWf (scope : BitVec 3) (kinds : BitVec 6) : NextMemWf (execFence scope kinds s) := by
  refine s.issue_memWf _ _ _ _ h (fun e => ?_)
  dsimp only
  (repeat' split) <;> exact h

theorem execSvfence_memWf (f : YsF) : NextMemWf (execSvfence f s) :=
  s.issue_memWf _ _ _ _ h (fun e => by split <;> exact h)

theorem execWsinfo_memWf (f : YsF) : NextMemWf (execWsinfo f s) := s.issue_memWf _ _ _ _ h (fun e => by simpa using h)

/-! ### Vector instructions with a commit of their own -/

theorem execVbind_memWf (f : VxM) : NextMemWf (execVbind f s) := by
  refine s.commitChecked_memWf h _ _ (fun e p => ?_)
  have hd := s.readDescriptor_memWf e.agent e.st h (e.reg f.gbase).toNat
  split
  · exact h
  · dsimp only
    split
    · next bs s1 hs =>
      rw [hs] at hd
      simpa using hd
    · simpa using h
    · exact Res.act_memWf e s h (Res.gives_any _) (fun _ _ => h)

theorem State.feed_memWf (e : Env) (f : VxM) : (s.feed e f).MemWf := by
  unfold State.feed
  dsimp only
  split
  · exact h
  · split
    · exact h
    · split
      · exact h
      · split
        · simpa using h
        · split
          · exact h
          · exact Res.act_memWf e s h (Res.gives_any _) (fun _ _ => by simpa using h)

theorem execSfeed_memWf (f : VxM) : NextMemWf (execSfeed f s) := by
  refine s.issue_memWf _ _ _ _ h (fun e => ?_)
  (repeat' split) <;> first | exact h | exact s.feed_memWf h e f

theorem execVpref_memWf (f : VxM) : NextMemWf (execVpref f s) := by
  unfold execVpref
  split
  · exact s.issue_memWf _ _ _ _ h (fun e => by simpa using h)
  · exact s.commit_memWf h _

/-! ### Synchronisation -/

theorem execKend_memWf (f : YsF) : NextMemWf (execKend f s) := by
  refine s.issue_memWf _ _ _ _ h (fun e => ?_)
  have ht := s.takeRequest_memWf e.slot .execute true h
  split
  · simp [h]
  · have ho : (if e.c.inKend = true then none else s.takeRequest e.slot .execute true).all State.memWf = true := by
      split
      · rfl
      · exact ht
    generalize (if e.c.inKend = true then none else s.takeRequest e.slot .execute true) = o at ho ⊢
    cases o with
    | some t => simpa using ho
    | none => dsimp only; split <;> simp [h]

theorem execCanpt_memWf (f : YsF) : NextMemWf (execCanpt f s) := by
  refine s.issue_memWf _ _ _ _ h (fun e => ?_)
  have ht := s.takeRequest_memWf e.slot e.ctx true h
  split
  · next t hs => simpa [hs] using ht
  · exact h

theorem State.stripBoundary_memWf (e : Env) (gid place : Nat) : (s.stripBoundary e gid place).MemWf := by
  unfold State.stripBoundary
  dsimp only
  (repeat' split) <;> simp [State.splptDone, h]

theorem execSplpt_memWf (f : YsF) : NextMemWf (execSplpt f s) := by
  refine s.issue_memWf _ _ _ _ h (fun e => ?_)
  have ht := s.takeRequest_memWf e.slot e.ctx true h
  split
  · next t hs => simpa [hs] using ht
  · split
    · exact h
    · split
      · exact s.stripBoundary_memWf h e _ _
      · simpa [State.splptDone] using h

theorem execWmpub_memWf (f : YsF) : NextMemWf (execWmpub f s) := by
  refine s.issue_memWf _ _ _ _ h (fun e => ?_)
  dsimp only
  split
  · exact refuse_memWf s h
  · split
    · exact h
    · refine Res.sync_memWf e s _ h (Res.gives_any _) (fun p _ => ?_)
      split <;> simp [State.memWf_putBytes, h]

theorem execWmwait_memWf (f : YsF) : NextMemWf (execWmwait f s) := by
  refine s.issue_memWf _ _ _ _ h (fun e => ?_)
  dsimp only
  split
  · exact refuse_memWf s h
  · split
    · exact h
    · refine Res.sync_memWf e s _ h (s.loadVA_memWf _ _ _ _ _ _ _ _ h) (fun r hr => ?_)
      (repeat' split) <;> simp [h, hr]

theorem execBarrive_memWf (f : YsF) : NextMemWf (execBarrive f s) := by
  refine s.issue_memWf _ _ _ _ h (fun e => ?_)
  dsimp only
  split
  · exact h
  · split
    · exact h
    · refine Res.sync_memWf e s _ h (Res.gives_any _) (fun p _ => ?_)
      split <;> simp [State.memWf_putBytes, h]

theorem execBarwait_memWf (f : YsF) : NextMemWf (execBarwait f s) := by
  refine s.issue_memWf _ _ _ _ h (fun e => ?_)
  dsimp only
  split
  · exact h
  · split
    · exact h
    · refine Res.sync_memWf e s _ h (Res.gives_any _) (fun p _ => ?_)
      (repeat' split) <;> simp [h]

theorem execDepinit_memWf (f : YsF) : NextMemWf (execDepinit f s) := by
  refine s.issue_memWf _ _ _ _ h (fun e => ?_)
  (repeat' split) <;> simp [refuse_memWf, h]

theorem execDepdec_memWf (f : YsF) : NextMemWf (execDepdec f s) := by
  refine s.issue_memWf _ _ _ _ h (fun e => ?_)
  (repeat' split) <;> simp [refuse_memWf, h]

theorem execTspawn_memWf (f : YsF) : NextMemWf (execTspawn f s) := by
  refine s.issue_memWf _ _ _ _ h (fun e => ?_)
  dsimp only
  split
  · exact h
  · split
    · exact refuse_memWf s h
    · split
      · exact h
      · refine Res.sync_memWf e s _ h (Res.gives_any _) (fun bs _ => ?_)
        split <;> simp [h]

omit h in
@[simp] theorem State.memWf_handlePost (index gid : Nat) (g : SibGroup) (x : Sibling) (hash : Word) :
    (s.handlePost index gid g x hash).2.memWf = s.memWf := by
  unfold State.handlePost
  dsimp only
  (repeat' split) <;> simp

theorem execSbpost_memWf (f : YsF) : NextMemWf (execSbpost f s) := by
  refine s.issue_memWf _ _ _ _ h (fun e => ?_)
  (repeat' split) <;> simp [refuse_memWf, h]

theorem execSbstat_memWf (f : YsF) : NextMemWf (execSbstat f s) := by
  refine s.issue_memWf _ _ _ _ h (fun e => ?_)
  split
  · exact refuse_memWf s h
  · simpa using h

theorem execSbleave_memWf (f : YsF) : NextMemWf (execSbleave f s) := by
  refine s.issue_memWf _ _ _ _ h (fun e => ?_)
  (repeat' split) <;> simp [refuse_memWf, h]

/-! ### Control registers and privileged instructions -/

theorem execCrrd_memWf (f : YsF) : NextMemWf (execCrrd f s) :=
  s.issue_memWf _ _ _ _ h (fun e => by split <;> simp [Env.illegal, h])

theorem execCrwr_memWf (f : YsF) : NextMemWf (execCrwr f s) := by
  refine s.issue_memWf _ _ _ _ h (fun e => ?_)
  dsimp only
  (repeat' split) <;> simp [Env.illegal, h]

theorem execXflagsRead_memWf (gd : Reg) : NextMemWf (execXflagsRead gd s) := by
  refine s.issue_memWf _ _ _ _ h (fun e => ?_)
  dsimp only
  split <;> simp [h]

theorem execXflagsWrite_memWf (ga : Reg) : NextMemWf (execXflagsWrite ga s) :=
  s.issue_memWf _ _ _ _ h (fun e => by split <;> simp [h])

theorem execXseedWrite_memWf (ga : Reg) : NextMemWf (execXseedWrite ga s) :=
  s.issue_memWf _ _ _ _ h (fun e => by split <;> simp [h])

theorem execVstartAccess_memWf (write : Bool) (r : Reg) : NextMemWf (execVstartAccess write r s) := by
  refine s.issue_memWf _ _ _ _ h (fun e => ?_)
  (repeat' split) <;> simp [h]

theorem execAsidWrite_memWf (ga : Reg) : NextMemWf (execAsidWrite ga s) :=
  s.issue_memWf _ _ _ _ h (fun e => s.spaceWrite_memWf h e _ _)

theorem execPtrootWrite_memWf (ga : Reg) : NextMemWf (execPtrootWrite ga s) :=
  s.issue_memWf _ _ _ _ h (fun e => s.spaceWrite_memWf h e _ _)

theorem execYield_memWf (ga : Reg) : NextMemWf (execYield ga s) :=
  s.issue_memWf _ _ _ _ h (fun e => by split <;> simp [h])

theorem execTrapret_memWf (f : YsF) : NextMemWf (execTrapret f s) :=
  s.issue_memWf _ _ _ _ h (fun e => by simp [h])

theorem execVfsave_memWf (f : YsF) : NextMemWf (execVfsave f s) := by
  refine s.issue_memWf _ _ _ _ h (fun e => ?_)
  dsimp only
  split
  · exact h
  · split
    · exact h
    · split
      · exact h
      · split
        · exact h
        · exact Res.sync_memWf e s _ h (Res.gives_bind (Res.gives_any _) (fun _ _ => s.storeSpan_memWf _ _ _ _ h)) (fun s1 h1 => by simpa using h1)

theorem State.loadFrame_memWf (e : Env) (va : Nat) : (s.loadFrame e va).Gives (fun t => t.memWf = true) := by
  refine Res.gives_bind (Res.gives_any _) (fun hd _ => ?_)
  split
  · simp [h]
  · dsimp only
    split
    · trivial
    · refine Res.gives_bind (Res.gives_any _) (fun b _ => ?_)
      (repeat' split) <;> simp [h]

theorem execVfload_memWf (f : YsF) : NextMemWf (execVfload f s) := by
  refine s.issue_memWf _ _ _ _ h (fun e => ?_)
  dsimp only
  split
  · exact h
  · split
    · exact h
    · split
      · exact h
      · exact Res.sync_memWf e s _ h (s.loadFrame_memWf h e _) (fun t ht => ht)

theorem execTlbinv_memWf (f : YsF) : NextMemWf (execTlbinv f s) := by
  refine s.issue_memWf _ _ _ _ h (fun e => ?_)
  dsimp only
  (repeat' split) <;> simp [refuse_memWf, h]

theorem execWfe_memWf (f : YsF) : NextMemWf (execWfe f s) := by
  refine s.issue_memWf _ _ _ _ h (fun e => ?_)
  dsimp only
  (repeat' split) <;> simp [h]

end Instructions

end Sys2Proof.Machine

/-! ## Events of the hardware, the firmware, the host and the fabric -/

namespace Sys2Proof.Machine
-- one proof at a time: the memory of proofs in flight together is more than the check has
set_option Elab.async false

section Events
variable (s : State) (h : s.memWf = true)
include h

/-! ### Waits and traps -/

theorem gatedScalar_memWf (i : Instr) : ∀ f ∈ gatedScalar i, NextMemWf (f s) := by
  unfold gatedScalar
  cases i
  case ldb | ldh | ldw | ldd | ldbu | ldhu | ldwu | lda => exact forall_mem_some (s.scalarLoad_memWf h _ _ _ _ _ _ _ _)
  all_goals exact forall_mem_none

theorem State.wake_memWf (kind : Wait → Bool) (run : Instr → Option (State → Out)) (hr : ∀ i, ∀ f ∈ run i, NextMemWf (f s)) :
    NextMemWf (s.wake kind run) := by
  have hb := s.boundary_memWf s.cur.slot s.cur.ctx h
  unfold State.wake
  split
  · exact h
  · split
    · exact h
    · next w _ =>
      split
      · exact h
      · split
        · next t ht => simpa [ht] using hb
        · split
          · next f hf =>
            obtain ⟨i, _, hi⟩ := Option.bind_eq_some_iff.mp hf
            exact hr i f hi
          · exact h

theorem State.wakeWatermark_memWf (limited : Bool) : NextMemWf (s.wakeWatermark limited) :=
  s.wake_memWf h _ _ (fun i => by
    cases i
    case wmwait f => exact forall_mem_some (execWmwait_memWf s h f)
    all_goals exact forall_mem_none)

theorem execQueueWaitEnd_memWf : NextMemWf (execQueueWaitEnd s) :=
  s.wake_memWf h _ _ (fun i => by
    cases i
    case qpush a q => exact forall_mem_some (execQpush_memWf s h a q)
    case qpop d q => exact forall_mem_some (execQpop_memWf s h d q)
    case bq q off => exact forall_mem_some (execBq_memWf s h q off)
    all_goals exact forall_mem_none)

theorem execSpliceGateProceed_memWf : NextMemWf (execSpliceGateProceed s) := s.wake_memWf h _ _ (gatedScalar_memWf s h)

theorem execBarwaitWake_memWf : NextMemWf (execBarwaitWake s) :=
  s.wake_memWf h _ _ (fun i => by
    cases i
    case barwait f => exact forall_mem_some (execBarwait_memWf s h f)
    all_goals exact forall_mem_none)

theorem execWfeTimeout_memWf : NextMemWf (execWfeTimeout s) :=
  s.wake_memWf h _ _ (fun i => by
    cases i
    case wfe f => exact forall_mem_some (execWfe_memWf s h f)
    all_goals exact forall_mem_none)

theorem execKendRetire_memWf : NextMemWf (execKendRetire s) :=
  State.wake_memWf _ (by exact h) _ _ (fun i => by
    cases i
    case kend f => exact forall_mem_some (execKend_memWf _ (by exact h) f)
    all_goals exact forall_mem_none)

theorem execSpliceRegionFree_memWf : NextMemWf (execSpliceRegionFree s) :=
  State.wake_memWf _ (by exact h) _ _ (fun i => by
    cases i
    case splpt f => exact forall_mem_some (execSplpt_memWf _ (by exact h) f)
    all_goals exact forall_mem_none)

theorem execWatermarkTimeout_memWf : NextMemWf (execWatermarkTimeout s) := by
  unfold execWatermarkTimeout
  dsimp only
  split
  · exact h
  · next st _ =>
    split
    · exact s.wakeWatermark_memWf h true
    · next k e w _ =>
      have hp := s.performEntry_memWf s.cur.slot st k e h
      split
      · exact h
      · split
        · next s1 hs =>
          rw [hs] at hp
          exact s.settleEntry_memWf _ _ _ _ _ h (by split <;> exact hp)
        · exact s.settleEntry_memWf _ _ _ _ _ h hp

theorem execVqEntryComplete_memWf : NextMemWf (execVqEntryComplete s) := by
  unfold execVqEntryComplete
  (repeat' split)
  · exact h
  · exact h
  · exact s.when_memWf _ _ h (by simpa using h)

theorem execSyncReadArrival_memWf : NextMemWf (execSyncReadArrival s) := by
  unfold execSyncReadArrival
  (repeat' split) <;> simp [h]

theorem execMatrixQueueMove_memWf : NextMemWf (execMatrixQueueMove s) := by
  unfold execMatrixQueueMove
  dsimp only
  (repeat' split)
  · exact h
  · exact h
  · exact s.when_memWf _ _ h (by simpa using h)

theorem execMatrixQueueComplete_memWf : NextMemWf (execMatrixQueueComplete s) := by
  unfold execMatrixQueueComplete
  dsimp only
  split <;> simp [h]

theorem execCancelLimitStop_memWf : NextMemWf (execCancelLimitStop s) := by
  unfold execCancelLimitStop
  dsimp only
  (repeat' split) <;> simp [h]

theorem execImpreciseTrap_memWf : NextMemWf (execImpreciseTrap s) := by
  unfold execImpreciseTrap
  split
  · exact h
  · exact s.when_memWf _ _ h (by simp [h])

/-! ### Queues and packets -/

theorem execScannerFind_memWf : NextMemWf (execScannerFind s) := by
  unfold execScannerFind
  dsimp only
  (repeat' split) <;> simp [h]

omit h in
theorem all_findSome? {α β : Type} (p : β → Bool) (f : α → Option β) (hf : ∀ x, (f x).all p = true) (l : List α) :
    (l.findSome? f).all p = true := by
  cases hl : l.findSome? f with
  | none => rfl
  | some b =>
    obtain ⟨x, _, hx⟩ := List.exists_of_findSome?_eq_some hl
    simpa [hx] using hf x

theorem State.replayIngress_memWf (core : Nat) : (s.replayIngress core).all State.memWf = true := by
  refine all_findSome? _ _ (fun e => ?_) _
  split
  · rfl
  · split
    · split
      · rfl
      · dsimp only
        split
        · rfl
        · simp [h]
    · rfl

theorem execQueueFetch_memWf : NextMemWf (execQueueFetch s) := by
  have hr := s.replayIngress_memWf h s.cur.unit
  unfold execQueueFetch
  dsimp only
  split
  · next t ht => simpa [ht] using hr
  · split
    · exact h
    · split
      · simpa using h
      · split <;> simp [h]

theorem execNop_memWf (queue seq : Nat) : NextMemWf (execNop queue seq s) := by
  unfold execNop
  split
  · exact s.when_memWf _ _ h (by simp [h])
  · exact h

theorem execBarrier_memWf (queue seq : Nat) : NextMemWf (execBarrier queue seq s) := by
  unfold execBarrier
  split
  · exact s.when_memWf _ _ h (by simp [h])
  · exact h

theorem execWaitval_memWf (queue seq : Nat) : NextMemWf (execWaitval queue seq s) := by
  unfold execWaitval
  split
  · exact s.when_memWf _ _ h (by simp [h])
  · exact h

theorem execWaitvalPoll_memWf (queue seq : Nat) : NextMemWf (execWaitvalPoll queue seq s) := by
  unfold execWaitvalPoll
  split
  · exact s.when_memWf _ _ h (by simp [h])
  · exact h

theorem execWsload_memWf (queue seq : Nat) : NextMemWf (execWsload queue seq s) := by
  unfold execWsload
  dsimp only
  (repeat' split) <;> simp [h]

theorem execWsrel_memWf (queue seq : Nat) : NextMemWf (execWsrel queue seq s) := by
  unfold execWsrel
  dsimp only
  (repeat' split) <;> simp [h]

theorem execDepgraph_memWf (queue seq : Nat) : NextMemWf (execDepgraph queue seq s) := by
  unfold execDepgraph
  split
  · next x p core _ =>
    have hs := s.memWf_fwSeen x.part x.asid (p.field 24 8) (128 * p.field 20 4) h
    dsimp only
    (repeat' split)
    · exact h
    · simp [hs]
    · simp [hs]
  · exact h

theorem execLaunch_memWf (queue seq : Nat) : NextMemWf (execLaunch queue seq s) := by
  unfold execLaunch
  (repeat' split)
  · exact h
  · exact s.when_memWf _ _ h (by simp [h])
  · exact h

theorem execSiblaunch_memWf (queue seq : Nat) : NextMemWf (execSiblaunch queue seq s) := by
  unfold execSiblaunch
  (repeat' split)
  · exact h
  · exact s.when_memWf _ _ h (by simp [h])
  · exact h

theorem execLaunchComplete_memWf (launch : Nat) : NextMemWf (execLaunchComplete launch s) := by
  have h0 := s.memWf_abortGroup launch h
  unfold execLaunchComplete
  split
  · exact h
  · split
    · exact h
    · lift_lets
      intro s0 l nfault status flags s1 s2 s3 s4
      have h2 : s2.memWf = true := by simp [s2, s1, h0, s0]
      have h3 : s3.memWf = true := by
        simp only [s3]
        cases l.task <;> simp [h2]
      have h4 : s4.memWf = true := by
        simp only [s4]
        cases l.group <;> simp [h3]
      exact s.when_memWf _ _ h (by simp [h4])

theorem execSpliceDecision_memWf (queue seq : Nat) : NextMemWf (execSpliceDecision queue seq s) := by
  unfold execSpliceDecision
  split
  · exact h
  · simpa using h
  · exact s.when_memWf _ _ h (by simp [h])

theorem State.startPlan_memWf (p : Seating) : (s.startPlan p).all (fun x => x.2.memWf) = true := by
  unfold State.startPlan
  lift_lets
  intro first gid settings ls s1
  split
  · rfl
  · have hl := State.memWf_foldl_eq (fun (s : State) l => s.pin l) (fun s l => s.memWf_pin l) ls s1
    simpa [hl, s1] using h

theorem State.commitPlan_memWf (core : Nat) (p : Seating) (new : List Placement) : (s.commitPlan core p new).all State.memWf = true := by
  have hp : (if p.placed.isEmpty then s.startPlan p else some (s.plannedLaunches p, s)).all (fun x => x.2.memWf) = true := by
    split
    · exact s.startPlan_memWf h p
    · exact h
  unfold State.commitPlan
  split
  · rfl
  · next ids s1 hs =>
    rw [hs] at hp
    have hl := State.memWf_foldl_eq (fun (s : State) a => s.placeOne p ids a) (fun s a => s.memWf_placeOne p ids a) new
    simpa [hl] using hp

theorem execDispatch_memWf (core queue seq : Nat) (place : List (Nat × Nat × Nat)) : NextMemWf (execDispatch core queue seq place s) := by
  unfold execDispatch
  lift_lets
  intro new given done
  have hg : given.memWf = true := h
  split
  · simpa using h
  · next p _ =>
    have hp := given.memWf_planSeen p hg
    have hc := State.commitPlan_memWf _ (State.memWf_planSeen _ p (given.memWf_decided p.part (p.decisions new) hg)) core p new
    split
    · exact h
    · split
      · simp [hp]
      · split
        · exact h
        · split
          · simpa using hg
          · generalize State.commitPlan _ core p new = o at hc ⊢
            cases o with
            | none => exact h
            | some t =>
              have h1 : t.memWf = true := by simpa using hc
              dsimp only
              split <;> simp [h1]

/-! ### Strands -/

theorem execStrandStart_memWf : NextMemWf (execStrandStart s) := by
  unfold execStrandStart
  (repeat' split)
  · exact h
  · exact h
  · exact s.when_memWf _ _ h (by simpa using h)
  · simpa using h

theorem execStrandResume_memWf (launch index slot : Nat) : NextMemWf (execStrandResume launch index slot s) := by
  unfold execStrandResume
  split
  · exact h
  · next l _ =>
    split
    · exact h
    · split
      · exact h
      · lift_lets
        intro mates s0 s1 s2 s3
        have h1 : s1.memWf = true := by
          simp only [s1]
          split <;> exact h
        have hp : ((((s.launchPlan l).map s1.serve).getD s1)).memWf = true := by cases s.launchPlan l <;> simp [h1]
        simp [s2, s3, hp]

theorem execPreemptRequest_memWf (slot : Nat) (reason : BitVec 8) : NextMemWf (execPreemptRequest slot reason s) :=
  s.when_memWf _ _ h (by simpa using h)

/-! ### Translation -/

theorem execPageWalkFill_memWf (walk : Nat) : NextMemWf (execPageWalkFill walk s) := by
  unfold execPageWalkFill
  split
  · exact h
  · refine s.when_memWf _ _ h ?_
    (repeat' split) <;> simp [h]

theorem execAtsCompletion_memWf (walk pa log2 : Nat) (read write : Bool) : NextMemWf (execAtsCompletion walk pa log2 read write s) := by
  unfold execAtsCompletion
  split
  · exact h
  · next w _ =>
    refine s.when_memWf _ _ h ?_
    have hm := fun marked => State.memWf_foldl _ (fun s a hs => s.memWf_setAD a w.intent hs) marked s h
    split
    · split
      · exact h
      · dsimp only
        split <;> simp [hm]
    · exact h

theorem execAtsInvalidation_memWf (pasid func : Nat) (va : Word) (pages : Nat) : NextMemWf (execAtsInvalidation pasid func va pages s) := by
  unfold execAtsInvalidation
  simpa using (State.memWf_foldl_eq _ (fun s i => s.memWf_invalidate i) _ _).trans h

theorem execPriResponse_memWf (req : Nat) (answer : PriAnswer) : NextMemWf (execPriResponse req answer s) := by
  unfold execPriResponse
  (repeat' split) <;> simp [h]

theorem execPriTimeout_memWf (req : Nat) : NextMemWf (execPriTimeout req s) := by
  unfold execPriTimeout
  split
  · exact h
  · exact s.when_memWf _ _ h (by simpa using h)

/-! ### The mailbox -/

theorem State.command_memWf (cmd : Nat) (body : Nat → Mailbox → Nat → Option (Nat × List Nat × State))
    (hb : ∀ func m core, (body func m core).all (fun x => x.2.2.memWf) = true) : NextMemWf (s.command cmd body) := by
  unfold State.command
  dsimp only
  split
  · exact h
  · next core _ =>
    split
    · exact h
    · split
      · simpa using h
      · split
        · simp [h]
        · have hc := hb s.cur.unit (s.mailbox s.cur.unit) core
          split
          · exact h
          · next status results t ht =>
            have h1 : t.memWf = true := by simpa [ht] using hc
            split <;> simp [h1]

theorem execInvalidMailboxCommand_memWf : NextMemWf (execInvalidMailboxCommand s) := by
  unfold execInvalidMailboxCommand
  dsimp only
  split
  · exact h
  · exact s.when_memWf _ _ h (by simp [h])

theorem execCreateq_memWf : NextMemWf (execCreateq s) := by
  refine s.command_memWf h _ _ (fun func m core => ?_)
  split
  · simpa using h
  · dsimp only
    split <;> simp [h]

theorem execDestroyq_memWf : NextMemWf (execDestroyq s) := by
  refine s.command_memWf h _ _ (fun func m core => ?_)
  dsimp only
  (repeat' split) <;> simp [h]

theorem execBindas_memWf : NextMemWf (execBindas s) := by
  refine s.command_memWf h _ _ (fun func m core => ?_)
  split
  · simpa using h
  · split
    · simpa using h
    · split <;> simp [h]

theorem execUnbindas_memWf : NextMemWf (execUnbindas s) := by
  refine s.command_memWf h _ _ (fun func m core => ?_)
  dsimp only
  (repeat' split) <;> simp [h]

theorem execPartcfg_memWf : NextMemWf (execPartcfg s) := by
  refine s.command_memWf h _ _ (fun func m core => ?_)
  (repeat' split) <;> simp [h]

theorem execRetirecl_memWf : NextMemWf (execRetirecl s) := by
  refine s.command_memWf h _ _ (fun func m core => ?_)
  split <;> simp [h]

theorem execKeyinstall_memWf : NextMemWf (execKeyinstall s) := by
  refine s.command_memWf h _ _ (fun func m core => ?_)
  dsimp only
  (repeat' split) <;> simp [h]

theorem execFwload_memWf : NextMemWf (execFwload s) := by
  refine s.command_memWf h _ _ (fun func m core => ?_)
  have hr := fun l (t : State) (ht : t.memWf = true) => (State.memWf_foldl_eq _ (fun s n => s.memWf_recoverCore n) l t).trans ht
  dsimp only
  (repeat' split) <;> simp [h, hr]

theorem execReccfg_memWf : NextMemWf (execReccfg s) := by
  refine s.command_memWf h _ _ (fun func m core => ?_)
  dsimp only
  split <;> simp [h]

theorem execReplay_memWf : NextMemWf (execReplay s) := by
  refine s.command_memWf h _ _ (fun func m core => ?_)
  dsimp only
  (repeat' split) <;> simp [h]

/-! ### The host, the fabric and service -/

theorem execHostApertureAccess_memWf (func offset : Nat) (op : ApertureOp) : NextMemWf (execHostApertureAccess func offset op s) := by
  unfold execHostApertureAccess
  (repeat' split) <;> simp [h]

/-- A remote module's record replaced by one with canonical memory. -/
theorem State.memWf_setRemote (module : Nat) (r : RemoteModule) (hr : r.mem.wf = true) :
    ({ s with remotes := insertKey s.remotes module r } : State).memWf = true := by
  obtain ⟨hd, hw, hh, hm⟩ := s.memWf_iff.mp h
  refine (State.memWf_iff _).mpr ⟨hd, hw, hh, fun x hx => ?_⟩
  rcases mem_insertKey hx with rfl | hx
  · exact hr
  · exact hm x hx

theorem execModuleUnreachable_memWf (module : Nat) : NextMemWf (execModuleUnreachable module s) := by
  refine s.when_memWf _ _ h ?_
  exact s.memWf_setRemote h module { s.remote module with reachable := false } (State.remote_wf h module)

theorem execRemoteModuleAccess_memWf (module addr : Nat) (op : RemoteOp) : NextMemWf (execRemoteModuleAccess module addr op s) := by
  unfold execRemoteModuleAccess
  lift_lets
  intro s1 store
  have h1 : s1.memWf = true := by
    simp only [s1]
    split
    · next r hr => exact s.memWf_setRemote h module { r with owedSince := none, askedSince := none } ((s.memWf_iff.mp h).2.2.2 _ (lookup_mem hr))
    · exact h
  have hstore (bs : List Byte) (f : Place → State) (hf : ∀ p, (f p).memWf = true) : NextMemWf (store bs f) := by
    simp only [store]
    split
    · split
      · exact h1
      · exact hf _
    · trivial
    · exact h1
  split
  · split
    · trivial
    · exact h1
  · exact hstore _ _ (fun p => by simp [h1])
  · refine hstore _ _ (fun p => ?_)
    split <;> simp [h1]
  · exact hstore _ _ (fun p => by simp [h1])
  · simpa using h1
  · simpa using h1

theorem execIdeIntegrityFailure_memWf (stream : Nat) : NextMemWf (execIdeIntegrityFailure stream s) := by
  simpa [execIdeIntegrityFailure] using h

end Events

end Sys2Proof.Machine

/-! ## A step keeps memories canonical -/

namespace Sys2Proof.Machine
-- one proof at a time: the memory of proofs in flight together is more than the check has
set_option Elab.async false

/-- Each instruction and each event keeps the memories canonical. -/
theorem exec_memWf (i : Instr) (s : State) (h : s.memWf = true) : NextMemWf (exec i s) := by
  cases i
  case add d a b => exact (s.intOp_memWf h _ _ _ _ _ : NextMemWf (execAdd d a b s))
  case sub d a b => exact (s.intOp_memWf h _ _ _ _ _ : NextMemWf (execSub d a b s))
  case mul d a b => exact (s.intOp_memWf h _ _ _ _ _ : NextMemWf (execMul d a b s))
  case mulh d a b => exact (s.intOp_memWf h _ _ _ _ _ : NextMemWf (execMulh d a b s))
  case mulhu d a b => exact (s.intOp_memWf h _ _ _ _ _ : NextMemWf (execMulhu d a b s))
  case div d a b => exact (s.intOp_memWf h _ _ _ _ _ : NextMemWf (execDiv d a b s))
  case divu d a b => exact (s.intOp_memWf h _ _ _ _ _ : NextMemWf (execDivu d a b s))
  case rem d a b => exact (s.intOp_memWf h _ _ _ _ _ : NextMemWf (execRem d a b s))
  case remu d a b => exact (s.intOp_memWf h _ _ _ _ _ : NextMemWf (execRemu d a b s))
  case min d a b => exact (s.intOp_memWf h _ _ _ _ _ : NextMemWf (execMin d a b s))
  case max d a b => exact (s.intOp_memWf h _ _ _ _ _ : NextMemWf (execMax d a b s))
  case minu d a b => exact (s.intOp_memWf h _ _ _ _ _ : NextMemWf (execMinu d a b s))
  case maxu d a b => exact (s.intOp_memWf h _ _ _ _ _ : NextMemWf (execMaxu d a b s))
  case and d a b => exact (s.intOp_memWf h _ _ _ _ _ : NextMemWf (execAnd d a b s))
  case or d a b => exact (s.intOp_memWf h _ _ _ _ _ : NextMemWf (execOr d a b s))
  case xor d a b => exact (s.intOp_memWf h _ _ _ _ _ : NextMemWf (execXor d a b s))
  case andn d a b => exact (s.intOp_memWf h _ _ _ _ _ : NextMemWf (execAndn d a b s))
  case shl d a b => exact (s.intOp_memWf h _ _ _ _ _ : NextMemWf (execShl d a b s))
  case shr d a b => exact (s.intOp_memWf h _ _ _ _ _ : NextMemWf (execShr d a b s))
  case sra d a b => exact (s.intOp_memWf h _ _ _ _ _ : NextMemWf (execSra d a b s))
  case rol d a b => exact (s.intOp_memWf h _ _ _ _ _ : NextMemWf (execRol d a b s))
  case slt d a b => exact (s.intOp_memWf h _ _ _ _ _ : NextMemWf (execSlt d a b s))
  case sltu d a b => exact (s.intOp_memWf h _ _ _ _ _ : NextMemWf (execSltu d a b s))
  case clz d a => exact (s.intOp1_memWf h _ _ _ _ : NextMemWf (execClz d a s))
  case ctz d a => exact (s.intOp1_memWf h _ _ _ _ : NextMemWf (execCtz d a s))
  case popc d a => exact (s.intOp1_memWf h _ _ _ _ : NextMemWf (execPopc d a s))
  case shli d a amount => exact (s.intOp1_memWf h _ _ _ _ : NextMemWf (execShli d a amount s))
  case shri d a amount => exact (s.intOp1_memWf h _ _ _ _ : NextMemWf (execShri d a amount s))
  case srai d a amount => exact (s.intOp1_memWf h _ _ _ _ : NextMemWf (execSrai d a amount s))
  case bfx d a width offset => exact (s.intOp1_memWf h _ _ _ _ : NextMemWf (execBfx d a width offset s))
  case bfxu d a width offset => exact (s.intOp1_memWf h _ _ _ _ : NextMemWf (execBfxu d a width offset s))
  case addi d a imm => exact (s.immOp_memWf h _ _ _ _ _ : NextMemWf (execAddi d a imm s))
  case andi d a imm => exact (s.immOp_memWf h _ _ _ _ _ : NextMemWf (execAndi d a imm s))
  case ori d a imm => exact (s.immOp_memWf h _ _ _ _ _ : NextMemWf (execOri d a imm s))
  case xori d a imm => exact (s.immOp_memWf h _ _ _ _ _ : NextMemWf (execXori d a imm s))
  case slti d a imm => exact (s.immOp_memWf h _ _ _ _ _ : NextMemWf (execSlti d a imm s))
  case sltui d a imm => exact (s.immOp_memWf h _ _ _ _ _ : NextMemWf (execSltui d a imm s))
  case fadd d a b rm => exact (s.fpOp_memWf h _ _ _ _ _ _ : NextMemWf (execFadd d a b rm s))
  case fsub d a b rm => exact (s.fpOp_memWf h _ _ _ _ _ _ : NextMemWf (execFsub d a b rm s))
  case fmul d a b rm => exact (s.fpOp_memWf h _ _ _ _ _ _ : NextMemWf (execFmul d a b rm s))
  case fma d a b c rm => exact (s.fpOp_memWf h _ _ _ _ _ _ : NextMemWf (execFma d a b c rm s))
  case ldb d a off => exact (s.scalarLoad_memWf h _ _ _ _ _ _ _ _ : NextMemWf (execLdb d a off s))
  case ldh d a off => exact (s.scalarLoad_memWf h _ _ _ _ _ _ _ _ : NextMemWf (execLdh d a off s))
  case ldw d a off => exact (s.scalarLoad_memWf h _ _ _ _ _ _ _ _ : NextMemWf (execLdw d a off s))
  case ldd d a off => exact (s.scalarLoad_memWf h _ _ _ _ _ _ _ _ : NextMemWf (execLdd d a off s))
  case ldbu d a off => exact (s.scalarLoad_memWf h _ _ _ _ _ _ _ _ : NextMemWf (execLdbu d a off s))
  case ldhu d a off => exact (s.scalarLoad_memWf h _ _ _ _ _ _ _ _ : NextMemWf (execLdhu d a off s))
  case ldwu d a off => exact (s.scalarLoad_memWf h _ _ _ _ _ _ _ _ : NextMemWf (execLdwu d a off s))
  case lda d a scope off => exact (s.scalarLoad_memWf h _ _ _ _ _ _ _ _ : NextMemWf (execLda d a scope off s))
  case stb d a off => exact (s.scalarStore_memWf h _ _ _ _ _ _ _ : NextMemWf (execStb d a off s))
  case sth d a off => exact (s.scalarStore_memWf h _ _ _ _ _ _ _ : NextMemWf (execSth d a off s))
  case stw d a off => exact (s.scalarStore_memWf h _ _ _ _ _ _ _ : NextMemWf (execStw d a off s))
  case std d a off => exact (s.scalarStore_memWf h _ _ _ _ _ _ _ : NextMemWf (execStd d a off s))
  case stl d a scope off => exact (s.scalarStore_memWf h _ _ _ _ _ _ _ : NextMemWf (execStl d a scope off s))
  case amoswap d a scope order src => exact (s.atomicOp_memWf h _ _ _ _ _ _ _ _ : NextMemWf (execAmoswap d a scope order src s))
  case amoadd d a scope order src => exact (s.atomicOp_memWf h _ _ _ _ _ _ _ _ : NextMemWf (execAmoadd d a scope order src s))
  case amoand d a scope order src => exact (s.atomicOp_memWf h _ _ _ _ _ _ _ _ : NextMemWf (execAmoand d a scope order src s))
  case amoor d a scope order src => exact (s.atomicOp_memWf h _ _ _ _ _ _ _ _ : NextMemWf (execAmoor d a scope order src s))
  case amoxor d a scope order src => exact (s.atomicOp_memWf h _ _ _ _ _ _ _ _ : NextMemWf (execAmoxor d a scope order src s))
  case amomin d a scope order src => exact (s.atomicOp_memWf h _ _ _ _ _ _ _ _ : NextMemWf (execAmomin d a scope order src s))
  case amomax d a scope order src => exact (s.atomicOp_memWf h _ _ _ _ _ _ _ _ : NextMemWf (execAmomax d a scope order src s))
  case amocas d a scope order => exact (s.atomic_memWf h _ _ _ _ _ _ _ _ : NextMemWf (execAmocas d a scope order s))
  case beq a b off => exact (s.branch_memWf h _ _ _ _ _ : NextMemWf (execBeq a b off s))
  case bne a b off => exact (s.branch_memWf h _ _ _ _ _ : NextMemWf (execBne a b off s))
  case blt a b off => exact (s.branch_memWf h _ _ _ _ _ : NextMemWf (execBlt a b off s))
  case bge a b off => exact (s.branch_memWf h _ _ _ _ _ : NextMemWf (execBge a b off s))
  case bltu a b off => exact (s.branch_memWf h _ _ _ _ _ : NextMemWf (execBltu a b off s))
  case bgeu a b off => exact (s.branch_memWf h _ _ _ _ _ : NextMemWf (execBgeu a b off s))
  case imx payload => exact (s.readPrefix_memWf h _ _ _ : NextMemWf (execImx payload s))
  case mattr scope cache order => exact (s.readPrefix_memWf h _ _ _ : NextMemWf (execMattr scope cache order s))
  case vcfg f => exact (s.commitAtOnce_memWf h _ _ (fun e s1 h1 => by simpa using h1) : NextMemWf (execVcfg f s))
  case vsetl f => exact (s.commitAtOnce_memWf h _ _ (fun e s1 h1 => by simpa using h1) : NextMemWf (execVsetl f s))
  case vsetrc f => exact (s.commitAtOnce_memWf h _ _ (fun e s1 h1 => by simpa using h1) : NextMemWf (execVsetrc f s))
  case cpy f => exact (s.issueCommand_memWf h _ _ : NextMemWf (execCpy f s))
  case pub f => exact (s.issueCommand_memWf h _ _ : NextMemWf (execPub f s))
  case cred f => exact (s.issueCommand_memWf h _ _ : NextMemWf (execCred f s))
  case upd f => exact (s.issueCommand_memWf h _ _ : NextMemWf (execUpd f s))
  case rinv f => exact (s.issueCommand_memWf h _ _ : NextMemWf (execRinv f s))
  case kvfile f => exact (s.issueCommand_memWf h _ _ : NextMemWf (execKvfile f s))
  case rqnt f => exact (s.issueCommand_memWf h _ _ : NextMemWf (execRqnt f s))
  case watermarkWake => exact (s.wakeWatermark_memWf h _ : NextMemWf (execWatermarkWake s))
  case vpart | vjoin | vadd | vsub | vmul | vmulh | vfma | vfms | vfnma | vdiv | vsqrt | vrcp | vrsq | vexp2 | vlog2 | vmin |
    vmax | vabs | vneg | vand | vor | vxor | vnot | vshl | vshr | vsra | vcmpeq | vcmpne | vcmplt | vcmple | vsel | vclass |
    vcvt | vnarrow | vwiden | vq4 | vslideup | vslidedn | vperm | vbcast | vmvs | vget | vredsum | vredmax | vredmin | vredand
    | vredor | vscan | vcompress | vexpand | viota | vtrans8 | vfirst | vpopm | vld | vlds | vldx | vldff | vld2d | vst | vsts
    | vstx | vst2d | vamo | vxlat | kvapp | vunbind | mzero | mma | mmav | mmas | mloadc | mstore | mreadv | mwritev | mcvt |
    tload | teval | tleaf | tclr =>
    exact s.commit_memWf h _
  case fence => exact execFence_memWf s h _ _
  case bq => exact execBq_memWf s h _ _
  case bsend => exact execBsend_memWf s h _ _
  case jalr => exact execJalr_memWf s h _ _ _
  case qpush => exact execQpush_memWf s h _ _
  case qpop => exact execQpop_memWf s h _ _
  case vpref => exact execVpref_memWf s h _
  case vbind => exact execVbind_memWf s h _
  case sfeed => exact execSfeed_memWf s h _
  case kend => exact execKend_memWf s h _
  case splpt => exact execSplpt_memWf s h _
  case canpt => exact execCanpt_memWf s h _
  case wmpub => exact execWmpub_memWf s h _
  case wmwait => exact execWmwait_memWf s h _
  case barrive => exact execBarrive_memWf s h _
  case barwait => exact execBarwait_memWf s h _
  case depinit => exact execDepinit_memWf s h _
  case depdec => exact execDepdec_memWf s h _
  case tspawn => exact execTspawn_memWf s h _
  case sbpost => exact execSbpost_memWf s h _
  case sbstat => exact execSbstat_memWf s h _
  case sbleave => exact execSbleave_memWf s h _
  case wsinfo => exact execWsinfo_memWf s h _
  case svfence => exact execSvfence_memWf s h _
  case crrd => exact execCrrd_memWf s h _
  case crwr => exact execCrwr_memWf s h _
  case trapret => exact execTrapret_memWf s h _
  case vfsave => exact execVfsave_memWf s h _
  case vfload => exact execVfload_memWf s h _
  case tlbinv => exact execTlbinv_memWf s h _
  case wfe => exact execWfe_memWf s h _
  case xflagsRead => exact execXflagsRead_memWf s h _
  case xflagsWrite => exact execXflagsWrite_memWf s h _
  case xseedWrite => exact execXseedWrite_memWf s h _
  case vstartAccess => exact execVstartAccess_memWf s h _ _
  case asidWrite => exact execAsidWrite_memWf s h _
  case ptrootWrite => exact execPtrootWrite_memWf s h _
  case yield => exact execYield_memWf s h _
  case engineComplete => exact execEngineComplete_memWf _ s h
  case preemptRequest => exact execPreemptRequest_memWf s h _ _
  case strandResume => exact execStrandResume_memWf s h _ _ _
  case pageWalkFill => exact execPageWalkFill_memWf s h _
  case priResponse => exact execPriResponse_memWf s h _ _
  case priTimeout => exact execPriTimeout_memWf s h _
  case atsCompletion => exact execAtsCompletion_memWf s h _ _ _ _ _
  case atsInvalidation => exact execAtsInvalidation_memWf s h _ _ _ _
  case nop => exact execNop_memWf s h _ _
  case launch => exact execLaunch_memWf s h _ _
  case siblaunch => exact execSiblaunch_memWf s h _ _
  case barrier => exact execBarrier_memWf s h _ _
  case waitval => exact execWaitval_memWf s h _ _
  case waitvalPoll => exact execWaitvalPoll_memWf s h _ _
  case wsload => exact execWsload_memWf s h _ _
  case wsrel => exact execWsrel_memWf s h _ _
  case depgraph => exact execDepgraph_memWf s h _ _
  case spliceDecision => exact execSpliceDecision_memWf s h _ _
  case dispatch => exact execDispatch_memWf s h _ _ _ _
  case launchComplete => exact execLaunchComplete_memWf s h _
  case hostApertureAccess => exact execHostApertureAccess_memWf s h _ _ _
  case ideIntegrityFailure => exact execIdeIntegrityFailure_memWf s h _
  case moduleUnreachable => exact execModuleUnreachable_memWf s h _
  case remoteModuleAccess => exact execRemoteModuleAccess_memWf s h _ _ _
  case unassignedEncoding => exact execUnassignedEncoding_memWf s h _
  case queueWaitEnd => exact execQueueWaitEnd_memWf s h
  case watermarkTimeout => exact execWatermarkTimeout_memWf s h
  case barwaitWake => exact execBarwaitWake_memWf s h
  case wfeTimeout => exact execWfeTimeout_memWf s h
  case engineErrorDelivery => exact execEngineErrorDelivery_memWf s h
  case cancelLimitStop => exact execCancelLimitStop_memWf s h
  case vqEntryStart => exact execVqEntryStart_memWf s h
  case matrixQueueMove => exact execMatrixQueueMove_memWf s h
  case syncReadArrival => exact execSyncReadArrival_memWf s h
  case spliceGateProceed => exact execSpliceGateProceed_memWf s h
  case spliceRegionFree => exact execSpliceRegionFree_memWf s h
  case kendRetire => exact execKendRetire_memWf s h
  case impreciseTrap => exact execImpreciseTrap_memWf s h
  case strandStart => exact execStrandStart_memWf s h
  case vqEntryComplete => exact execVqEntryComplete_memWf s h
  case matrixQueueStart => exact execMatrixQueueStart_memWf s h
  case matrixQueueComplete => exact execMatrixQueueComplete_memWf s h
  case streamChunkArrival => exact execStreamChunkArrival_memWf s h
  case streamPatternRead => exact execStreamPatternRead_memWf s h
  case createq => exact execCreateq_memWf s h
  case destroyq => exact execDestroyq_memWf s h
  case bindas => exact execBindas_memWf s h
  case unbindas => exact execUnbindas_memWf s h
  case partcfg => exact execPartcfg_memWf s h
  case retirecl => exact execRetirecl_memWf s h
  case keyinstall => exact execKeyinstall_memWf s h
  case fwload => exact execFwload_memWf s h
  case reccfg => exact execReccfg_memWf s h
  case replay => exact execReplay_memWf s h
  case invalidMailboxCommand => exact execInvalidMailboxCommand_memWf s h
  case scannerFind => exact execScannerFind_memWf s h
  case queueFetch => exact execQueueFetch_memWf s h
  case fmin d a b rm => exact (s.issue_memWf _ _ _ _ h (fun e => s.fpResult_memWf h e _ _ _) : NextMemWf (execFmin d a b rm s))
  case fmax d a b rm => exact (s.issue_memWf _ _ _ _ h (fun e => s.fpResult_memWf h e _ _ _) : NextMemWf (execFmax d a b rm s))
  case fcmp d a b rel => exact (s.issue_memWf _ _ _ _ h (fun e => s.fpResult_memWf h e _ _ _) : NextMemWf (execFcmp d a b rel s))
  case fcvt d a sat dir rm => exact (s.issue_memWf _ _ _ _ h (fun e => State.fpResult_memWf _ (s.scalarRounding_memWf h e _) _ _ _ _) : NextMemWf (execFcvt d a sat dir rm s))
  case lui d imm => exact (s.issue_memWf _ _ _ _ h (fun e => by simpa using h) : NextMemWf (execLui d imm s))
  case auipc d imm => exact (s.issue_memWf _ _ _ _ h (fun e => by simpa using h) : NextMemWf (execAuipc d imm s))
  case bfi d a width offset => exact (s.issue_memWf _ _ _ _ h (fun e => by simpa using h) : NextMemWf (execBfi d a width offset s))
  case j off => exact (s.issue_memWf _ _ _ _ h (fun e => by simpa using h) : NextMemWf (execJ off s))
  case jal d off => exact (s.issue_memWf _ _ _ _ h (fun e => by simpa using h) : NextMemWf (execJal d off s))
  case syscall f => exact (s.issue_memWf _ _ _ _ h (fun e => by simpa using h) : NextMemWf (execSyscall f s))
  case brk f => exact (s.issue_memWf _ _ _ _ h (fun e => by simpa using h) : NextMemWf (execBrk f s))
  case notifyWrite queue value => exact (by simpa [NextMemWf, execNotifyWrite] using h : NextMemWf (execNotifyWrite queue value s))
  case spdmChallenge func nonce => exact (by simpa [NextMemWf, execSpdmChallenge] using h : NextMemWf (execSpdmChallenge func nonce s))
  case spdmKeyExchange func share => exact (by simpa [NextMemWf, execSpdmKeyExchange] using h : NextMemWf (execSpdmKeyExchange func share s))
  case hbmRowRepair row => exact (by simpa [NextMemWf, execHbmRowRepair] using h : NextMemWf (execHbmRowRepair row s))
  case wsBankSpare die bank => exact (s.when_memWf _ _ h (by simpa using h) : NextMemWf (execWsBankSpare die bank s))
  case powerCap steps => exact (by simpa [NextMemWf, execPowerCap] using h : NextMemWf (execPowerCap steps s))
  case thermalTrip celsius => exact (s.when_memWf _ _ h (by simpa using h) : NextMemWf (execThermalTrip celsius s))
  case repartitionEffect => exact (by simpa [NextMemWf, execRepartitionEffect] using h : NextMemWf (execRepartitionEffect s))
  case spdmGetMeasurements => exact (by simpa [NextMemWf, execSpdmGetMeasurements] using h : NextMemWf (execSpdmGetMeasurements s))
  case wsRefreshStart => exact (s.when_memWf _ _ h (by simpa using h) : NextMemWf (execWsRefreshStart s))
  case wsRefreshEnd => exact (s.when_memWf _ _ h (by simpa using h) : NextMemWf (execWsRefreshEnd s))
  case flitCrcFail => exact (s.when_memWf _ _ h (by simpa using h) : NextMemWf (execFlitCrcFail s))
  case linkRetrain => exact (s.when_memWf _ _ h (by simpa using h) : NextMemWf (execLinkRetrain s))
  case coreHeartbeatTimeout => exact (s.when_memWf _ _ h (by simpa using h) : NextMemWf (execCoreHeartbeatTimeout s))
  case hostLinkDrop => exact (by simpa [NextMemWf, execHostLinkDrop] using h : NextMemWf (execHostLinkDrop s))
  case bringUp => exact (s.memWf_broughtUp h : NextMemWf (execBringUp s))
  case uncorrectableError site =>
    change NextMemWf (execUncorrectableError site s)
    unfold execUncorrectableError
    split <;> exact h

/-- What a turn of a context comes to leaves canonical memories. -/
def Fetched.MemWf : Fetched → Prop
  | .instr _ _ s | .other s => s.memWf = true
  | .stop _ => True

section Turn
variable (s : State) (slot : Nat) (id : CtxId) (h : s.memWf = true)
include h

theorem State.fetchFailed_memWf (a : Agent) (r : Res (BitVec 32 × State)) : (s.fetchFailed slot id a r).MemWf := by
  unfold State.fetchFailed
  split <;> simp [Fetched.MemWf, h]

theorem State.fetchInstr_memWf (st : Strand) : (s.fetchInstr slot id st).MemWf := by
  have hready (s1 : State) (h1 : s1.memWf = true) :
      (if (st.ctx id).wait.isNone then s1 else s1.updCtx slot id (fun c => { c with wait := none })).memWf = true := by
    split <;> simp [h1]
  have hw := fun (s1 : State) (h1 : s1.memWf = true) a va => s1.fetchWord_memWf a va h1
  unfold State.fetchInstr
  dsimp only
  split
  · next w0 s1 h0 =>
    have h1 : s1.memWf = true := by simpa only [h0, Res.gives_ok] using hw s h (st.agent slot id) (st.ctx id).pc.toNat
    split
    · split <;> exact hready s1 h1
    · split
      · next w1 s2 h2 =>
        have h2 : s2.memWf = true := by simpa only [h2, Res.gives_ok] using hw s1 h1 (st.agent slot id) ((st.ctx id).pc + 4).toNat
        split <;> exact hready s2 h2
      · exact s1.fetchFailed_memWf slot id h1 _ _
  · exact s.fetchFailed_memWf slot id h _ _

theorem State.contextTurn_memWf : (s.contextTurn slot id).MemWf := by
  have h0 : { s with cur := { slot, ctx := id, unit := 0 } }.memWf = true := h
  have hb := State.boundary_memWf { s with cur := { slot, ctx := id, unit := 0 } } slot id h0
  unfold State.contextTurn
  dsimp only
  split
  · exact h0
  · split
    · exact h0
    · split
      · next t ht => simpa [ht, Fetched.MemWf] using hb
      · split
        · (repeat' split) <;> exact h0
        · split
          · exact State.fetchInstr_memWf _ slot id h0 _
          · exact h0

theorem State.takeTurn_memWf : s.takeTurn.2.memWf = true := by
  unfold State.takeTurn
  split
  · exact h
  · simpa using h

theorem State.noteIssue_memWf : (s.noteIssue slot id).memWf = true := by
  unfold State.noteIssue
  lift_lets
  intro issued k
  split
  · exact (by simpa using h : (s.setCluster k ((s.cluster k).noteStage id (slot % 4) s.now)).memWf = true)
  · exact h

end Turn

theorem noted_memWf (o : Out) (slot : Nat) (id : CtxId) (h : NextMemWf o) : NextMemWf (noted o slot id) := by
  unfold noted
  split
  · next s => exact s.noteIssue_memWf slot id h
  · exact h

theorem step_memWf (s : State) (h : s.memWf = true) : NextMemWf (step s) := by
  have h1 : (s.takeTurn.2.pass s.takeTurn.1.cycles).memWf = true := by
    exact State.memWf_pass _ _ (s.takeTurn_memWf h)
  unfold step
  dsimp only
  split
  · trivial
  · split
    · next slot id _ =>
      have hc := State.contextTurn_memWf _ slot id h1
      split
      · next fresh i s2 hi =>
        have he : NextMemWf (exec i s2) := exec_memWf i s2 (by simpa [hi, Fetched.MemWf] using hc)
        split
        · exact noted_memWf _ slot id he
        · exact he
      · next s2 hi => simpa [hi, Fetched.MemWf] using hc
      · trivial
    · next i slot id unit _ =>
      split
      · exact exec_memWf i _ h1
      · exact h1

end Sys2Proof.Machine

namespace Sys2Proof
-- one proof at a time: the memory of proofs in flight together is more than the check has
set_option Elab.async false

/-- Settles O59: `memWf` is kept by every instruction and every event, so by every step. -/
theorem memoriesStayCanonical : Obligations.MemoriesStayCanonical := by
  unfold Obligations.MemoriesStayCanonical
  intro s t hs ht
  simpa [ht] using Machine.step_memWf s hs

end Sys2Proof

/-! ## Words, steps and reset -/

namespace Sys2Proof.Machine
-- one proof at a time: the memory of proofs in flight together is more than the check has
set_option Elab.async false

theorem noted_next (s : State) (slot : Nat) (id : CtxId) : noted (.next s) slot id = .next (s.noteIssue slot id) := rfl

/-- Noting an issue changes the issue stages alone. -/
theorem State.noteIssue_frame (s : State) (slot : Nat) (id : CtxId) :
    { s.noteIssue slot id with clusters := s.clusters, issued := s.issued } = s := by
  unfold State.noteIssue State.setCluster
  lift_lets
  intro issued k
  split <;> rfl

/-- A step at the turn of a context, by what the turn comes to. -/
theorem step_context (s : State) (rest : List Turn) (cycles slot : Nat) (id : CtxId) (hc : s.clocksStopped = false)
    (ha : s.agenda = { cycles, who := .context slot id } :: rest) :
    step s = match (({ s with agenda := rest } : State).pass cycles).contextTurn slot id with
      | .instr fresh i s2 => if fresh then noted (exec i s2) slot id else exec i s2
      | .other s2 => .next s2
      | .stop f => .fault f := by
  simp only [step, State.takeTurn, hc, ha, Bool.false_eq_true, if_false] <;> rfl

/-- The turn of a context that may run, with nothing due at its boundary, by what waits in it. -/
theorem State.contextTurn_runs (s s0 : State) (slot : Nat) (id : CtxId) (st : Strand)
    (h0 : ({ s with cur := { slot, ctx := id, unit := 0 } } : State) = s0)
    (hst : s0.strand? slot = some st) (hi : st.issues id = true) (hb : s0.boundary slot id = none) :
    s.contextTurn slot id =
      match (st.ctx id).wait.bind (fun w => w.instr.map (fun i => (w, i))) with
      | some (w, i) => if w.issued then .instr false i s0 else if s0.mayIssue slot id then .instr true i s0 else .other s0
      | none => if s0.mayIssue slot id then s0.fetchInstr slot id st else .other s0 := by
  simp only [State.contextTurn, h0, hst, hi, hb, Bool.not_true, Bool.false_eq_true, if_false] <;> rfl

/-! ### A fetch from a device line of one version (R89, R136) -/

/-- Four bytes of a line that starts a multiple of four into it. -/
theorem Memory.readBytes_line_word (m : Memory) (pa : Nat) (h : pa % 4 = 0) :
    ((m.readBytes (pa - pa % 64) 64).drop (pa % 64)).take 4 = (List.range 4).map (fun i => m.read (pa + i)) := by
  apply List.ext_getElem
  · simp [Memory.readBytes]; omega
  · intro i hi hj
    have hpa : pa - pa % 64 + (pa % 64 + i) = pa + i := by have := Nat.mod_le pa 64; omega
    simp [Memory.readBytes, hpa]

/-- A translation that is filled in changes the TLBs, and draws what it displaces. -/
theorem State.fill_frame (s : State) (e : TlbEntry) : ∃ l n, s.fill e = { s with tlb := l, draws := n } :=
  ⟨(s.fill e).tlb, (s.fill e).draws, rfl⟩

theorem State.cacheTranslation_frame (s : State) (a : Agent) (va : Nat) :
    ∃ l n, s.cacheTranslation a va = { s with tlb := l, draws := n } := by
  unfold State.cacheTranslation
  split
  · split
    · exact ⟨s.tlb, s.draws, rfl⟩
    · exact s.fill_frame _
  · exact ⟨s.tlb, s.draws, rfl⟩

/-- A line that a cluster keeps changes that cluster alone. -/
theorem State.keepLine_frame (s : State) (k : Nat) (p : Place) (v : Nat × List Byte) : ∃ cs, s.keepLine k p v = { s with clusters := cs } := by
  unfold State.keepLine
  split
  · dsimp only
    split
    · exact ⟨s.clusters, rfl⟩
    · exact ⟨_, rfl⟩
  · exact ⟨s.clusters, rfl⟩

/-- Where no old version of the line differs, a fetch gives the bytes in device memory. -/
theorem State.fetchLine_dev (s : State) (a : Agent) (pa : Nat) (h4 : pa % 4 = 0)
    (hold : ∀ old ∈ s.oldLines a (.dev (pa - pa % 64)), old.2 = s.dev.readBytes (pa - pa % 64) 64) :
    ∃ cs, s.fetchLine a (.dev pa) = ((List.range 4).map (fun i => s.dev.read (pa + i)), { s with clusters := cs }) := by
  have hq : (Place.dev pa).back (Place.dev pa).inLine = .dev (pa - pa % 64) := rfl
  have hnone : (s.oldLines a (.dev (pa - pa % 64))).filter (fun v => v.2 != s.homeBytes (.dev (pa - pa % 64)) 64) = [] := by
    simpa [State.homeBytes] using hold
  obtain ⟨cs, hcs⟩ := s.keepLine_frame a.cluster (.dev (pa - pa % 64)) (s.nextLaunch, s.homeBytes (.dev (pa - pa % 64)) 64)
  refine ⟨cs, ?_⟩
  simp only [State.fetchLine, hq, hnone, hcs, State.farRead]
  rw [← s.dev.readBytes_line_word pa h4]
  rfl

theorem State.fetchWord_dev (s : State) (a : Agent) (va pa : Nat) (hva : va % 4 = 0) (hr : s.resolve a va .fetch = .ok (.dev pa))
    (h4 : pa % 4 = 0) (hp : s.poisoned (.dev pa) = false)
    (hold : ∀ old ∈ s.oldLines a (.dev (pa - pa % 64)), old.2 = s.dev.readBytes (pa - pa % 64) 64) :
    ∃ l n cs, s.fetchWord a va =
      .ok (BitVec.ofNat 32 (leNat ((List.range 4).map (fun i => s.dev.read (pa + i)))), { s with tlb := l, draws := n, clusters := cs }) := by
  obtain ⟨l, n, hl⟩ := s.cacheTranslation_frame a va
  obtain ⟨cs, hcs⟩ := State.fetchLine_dev { s with tlb := l, draws := n } a pa h4 hold
  exact ⟨l, n, cs, by simp [State.fetchWord, hva, hr, hp, State.unreachable, hl, hcs]⟩

/-! ### What is fetched executes (R117 to R119) -/

/-- A word of a class with two words spoils no sequence. -/
theorem Context.spoils_of_wordCount (c : Context) (w : BitVec 32) (h : wordCount w = 2) : c.spoils w = false := by
  have h7 : ¬ classOf w = 7#3 := fun h7 => by simp [wordCount, h7] at h
  simp [Context.spoils, h7]

section Fetch
variable (s s1 s2 : State) (slot : Nat) (id : CtxId) (st : Strand) (w0 w1 : BitVec 32)
variable (h0 : s.fetchWord (st.agent slot id) (st.ctx id).pc.toNat = .ok (w0, s1))
include h0

theorem State.fetchInstr_one (hc : wordCount w0 = 1) :
    s.fetchInstr slot id st = .instr true (match decodeWords w0 0 with | .ok i => i | .error _ => .unassignedEncoding w0)
      (Claim.fetched slot id (st.ctx id) s1) := by
  have hb : ((st.ctx id).spoils w0 || decide (wordCount w0 = 1)) = true := by simp [hc]
  simp only [State.fetchInstr, h0, hb, Claim.fetched, Option.isNone_iff_eq_none, if_true]
  cases decodeWords w0 0 <;> rfl

theorem State.fetchInstr_two (hc : wordCount w0 = 2)
    (h1 : s1.fetchWord (st.agent slot id) ((st.ctx id).pc + 4).toNat = .ok (w1, s2)) :
    s.fetchInstr slot id st = .instr true (match decodeWords w0 w1 with | .ok i => i | .error _ => .unassignedEncoding w0)
      (Claim.fetched slot id (st.ctx id) s2) := by
  have hb : ((st.ctx id).spoils w0 || decide (wordCount w0 = 1)) = false := by simp [Context.spoils_of_wordCount _ _ hc, hc]
  simp only [State.fetchInstr, h0, h1, hb, Claim.fetched, Option.isNone_iff_eq_none, Bool.false_eq_true, if_false]
  cases decodeWords w0 w1 <;> rfl

end Fetch

end Sys2Proof.Machine

namespace Sys2Proof
-- one proof at a time: the memory of proofs in flight together is more than the check has
set_option Elab.async false
open Machine Claim

theorem stepRunsFetchedInstruction : Claim.StepRunsFetchedInstruction := by
  intro s rest cycles slot id st hclk hag s0 c a runs hst hi hb
  have hstep := step_context s rest cycles slot id hclk hag
  rw [State.contextTurn_runs _ s0 slot id st rfl hst hi hb] at hstep
  refine ⟨fun w i hw hwi hiss => ?_, fun w i hw hwi hiss hm => ?_, fun o t u ho hu => ?_, fun hnone hm => ?_,
    fun t va pa hva hr h4 hp hold => ?_⟩
  · simpa [c, hw, hwi, hiss] using hstep
  · have hm : State.mayIssue s0 slot id = true := hm
    simpa [c, hw, hwi, hiss, hm] using hstep
  · subst ho
    rw [noted_next, Host.Outcome.next.injEq] at hu
    exact hu ▸ t.noteIssue_frame slot id
  · have hbind : ((st.ctx id).wait.bind fun w => w.instr.map fun i => (w, i)) = none := by
      simpa [Option.bind_eq_none_iff] using hnone
    have hrun (i : Instr) (u : State) (hf : State.fetchInstr s0 slot id st = .instr true i (fetched slot id c u)) : runs i u := by
      simp only [hbind] at hstep
      simpa [runs, hm, hf] using hstep
    refine ⟨fun w0 s1 i h0 hc hd => hrun i s1 ?_, fun w0 w1 s1 s2 i h0 hc h1 hd => hrun i s2 ?_,
      fun w0 w1 s1 s2 e h0 hc h1 hd => hrun _ s2 ?_, fun w0 s1 e h0 hc hd => hrun _ s1 ?_⟩
    · rw [State.fetchInstr_one s0 s1 slot id st w0 h0 hc, hd]
    · rw [State.fetchInstr_two s0 s1 s2 slot id st w0 w1 h0 hc h1, hd]
    · rw [State.fetchInstr_two s0 s1 s2 slot id st w0 w1 h0 hc h1, hd]
    · rw [State.fetchInstr_one s0 s1 slot id st w0 h0 hc, hd]
  · have hline : 64 * (pa / 64) = pa - pa % 64 := by omega
    obtain ⟨l, n, cs, hf⟩ := t.fetchWord_dev a va pa hva hr h4 hp (hline ▸ hold)
    exact ⟨_, hf, rfl, rfl, rfl⟩

/-- Settles O58: the turn of a context by what waits in it, and else by what its fetch gives. -/
theorem stepRunsDecodedInstruction : Obligations.StepRunsDecodedInstruction := by
  refine ⟨stepRunsFetchedInstruction, fun s rest cycles slot unit id i hclk he hag => ?_⟩
  simp only [step, State.takeTurn, hclk, hag, isEvent, he]
  rfl

/-- Settles O57, entry by entry. -/
theorem knownWordsDecode : Obligations.KnownWordsDecode := by
  unfold Obligations.KnownWordsDecode
  decide

/-- Settles O60: the state after reset lists nothing. -/
theorem resetState : Obligations.ResetState := by
  unfold Obligations.ResetState
  decide

end Sys2Proof

/-! # Chapter 8: scalar FP32 instructions -/

namespace Sys2Proof.Machine
-- one proof at a time: the memory of proofs in flight together is more than the check has
set_option Elab.async false
open Sys2Proof.Claim

/-! ## How an FP32 instruction ends (R68, R83, R84, R141) -/

/-- Two updates of one context are one. -/
theorem State.updCtx_comp (s : State) (k : Nat) (id : CtxId) (f g : Context → Context) :
    (s.updCtx k id f).updCtx k id g = s.updCtx k id (fun c => g (f c)) := by
  cases h : s.strand? k with
  | none => simp only [State.updCtx_none _ _ _ h]
  | some st => exact s.updCtx_updCtx id f g h

@[simp] theorem arithmeticTval_zero (f : Flags) : arithmeticTval f 0 = zext f := by
  apply BitVec.eq_of_toNat_eq
  simp [arithmeticTval, zext]

/-- A result is written or traps as the claims say, from a state whose stochastic word has been stepped. -/
theorem State.fpResult_concludes {s s1 : State} {st : Strand} (i : Instr) (d : Reg) (m : BitVec 3) (x : Word) (fl : Flags)
    (h1 : ∀ f, s1.updCtx s.cur.slot s.cur.ctx f = s.updCtx s.cur.slot s.cur.ctx (fun c => f { c with sr := wordAfter c m })) :
    s.conclude s.cur.slot s.cur.ctx i 1 false (s1.fpResult (Env.here s st) d x fl) = floatOutcome s st d m x fl := by
  simp only [State.fpResult, floatOutcome, trapping, Env.slot_here, Env.ctx_here, Env.st_here, arithmeticTval_zero, State.setReg]
  split
  · simp only [State.conclude_done, State.updCtx_comp, h1, complete]
    simp
  · simp only [State.conclude, h1, trapsIn]

theorem srNumber_eq (x : Half) : srNumber x = x.toNat / 65536 := by
  have := x.isLt
  simp [srNumber, bits, BitVec.extractLsb'_toNat, Nat.shiftRight_eq_div_pow]
  omega

/-- Under SR the context's word takes a step, and its upper half is the number; under another mode nothing is drawn (R141). -/
theorem State.scalarRounding_here {s : State} {st : Strand} (rm : BitVec 3) (h : s.strand? s.cur.slot = some st) :
    ∃ s1, s.scalarRounding (Env.here s st) rm = (mode st rm, numberOf (running s st) (mode st rm), s1) ∧
      ∀ f, s1.updCtx s.cur.slot s.cur.ctx f =
        s.updCtx s.cur.slot s.cur.ctx (fun c => f { c with sr := wordAfter c (mode st rm) }) := by
  have hmode : resolveRm rm (Env.here s st).st.xrm = mode st rm := rfl
  by_cases hm : mode st rm = 5
  · refine ⟨s.updCtx s.cur.slot s.cur.ctx (fun c => { c with sr := srStep (running s st).sr }), ?_, fun f => ?_⟩
    · simp only [State.scalarRounding, hmode, hm, if_true, numberOf, srNumber_eq]
      rfl
    · rw [State.updCtx_comp]
      simp only [State.updCtx_of _ _ _ h, wordAfter, hm, if_true]
      rfl
  · exact ⟨s, by simp only [State.scalarRounding, hmode, hm, if_false, numberOf], fun f => by simp only [wordAfter, hm, if_false]⟩

/-- An instruction that rounds under a mode, on the values of its registers (R140, R141). -/
theorem State.fpOp_outcome {s : State} {st : Strand} (i : Instr) {regs : List Reg} {d : Reg} (rm : BitVec 3)
    (inputs : Env → List FVal) (f : Env → BitVec 3 → Exact) (h : Stands s st regs) (hb : Bare (running s st)) :
    s.fpOp i regs d rm inputs f =
      let m := mode st rm
      let p := (f (Env.here s st) m).deliver 14 m false (numberOf (running s st) m)
      floatOutcome s st d m (BitVec.ofNat 64 p.1) (p.2 ||| flagWhen ((inputs (Env.here s st)).any FVal.nonFinite) 0x20) := by
  obtain ⟨s1, hr, h1⟩ := State.scalarRounding_here rm h.1
  rw [State.fpOp, State.issue_ready i _ _ h (Context.admits_of_bare _ hb) (by decide) rfl]
  simp only [hr]
  exact State.fpResult_concludes i d _ _ _ h1

@[simp] theorem Env.fv_here (s : State) (st : Strand) (r : Reg) : (Env.here s st).fv r = fp32 (running s st) r := rfl
@[simp] theorem Env.fp_here (s : State) (st : Strand) (r : Reg) : (Env.here s st).fp r = low32 (running s st) r := rfl

/-- R140, R141: FADD, FSUB, FMUL and FMA. -/
theorem scalarFloatArithmetic_claim : Claim.ScalarFloatArithmetic := by
  intro d a b g rm s st hb c m out
  refine ⟨fun h => ⟨?_, ?_, ?_⟩, fun h => ?_⟩
  · exact State.fpOp_outcome (.fadd d a b rm) rm (fun e => [e.fv a, e.fv b]) (fun e m => fAdd m (e.fv a) (e.fv b)) h hb
  · exact State.fpOp_outcome (.fsub d a b rm) rm (fun e => [e.fv a, e.fv b]) (fun e m => fAdd m (e.fv a) (e.fv b).negate) h hb
  · exact State.fpOp_outcome (.fmul d a b rm) rm (fun e => [e.fv a, e.fv b]) (fun e _ => fMul (e.fv a) (e.fv b)) h hb
  · exact State.fpOp_outcome (.fma d a b g rm) rm (fun e => [e.fv a, e.fv b, e.fv g])
      (fun e m => fFma m (e.fv a) (e.fv b) (e.fv g)) h hb

/-! ## FP32 encodings and their values (R43) -/

/-- The sign of an encoding. -/
def neg32 (x : Nat) : Bool := decide (2 ^ 31 ≤ x)

/-- The significand of a finite encoding, an integer. -/
def significand32 (x : Nat) : Nat := if x / 2 ^ 23 % 256 = 0 then x % 2 ^ 23 else x % 2 ^ 23 + 2 ^ 23

/-- The place of its lowest bit above 2^-149. -/
def place32 (x : Nat) : Nat := x / 2 ^ 23 % 256 - 1

theorem decodeF_nan {x : Nat} (h : isNaN32 x = true) : decodeF 14 x = .nan := by
  have h : 0x7F800000 < x % 2 ^ 31 := by simpa [isNaN32] using h
  have he : x / 8388608 % 256 = 255 := by omega
  have hf : x % 8388608 ≠ 0 := by omega
  simp [decodeF, fmtOf, he, hf]

theorem decodeF_inf {x : Nat} (hx : x < 2 ^ 32) (hn : isNaN32 x = false) (h : special32 x = true) : decodeF 14 x = .inf (neg32 x) := by
  have hn : ¬ 0x7F800000 < x % 2 ^ 31 := by simpa [isNaN32] using hn
  have h : 0x7F800000 ≤ x % 2 ^ 31 := by simpa [special32] using h
  have he : x / 8388608 % 256 = 255 := by omega
  have hf : x % 8388608 = 0 := by omega
  have hs : (x / 2147483648 % 2 == 1) = neg32 x := by
    simp only [neg32, beq_eq_decide]
    congr 1
    simp only [eq_iff_iff]
    omega
  simp [decodeF, fmtOf, he, hf, Fmt.signBit, hs]

theorem decodeF_finite {x : Nat} (hx : x < 2 ^ 32) (h : special32 x = false) :
    decodeF 14 x = .fin (neg32 x) (significand32 x) (place32 x - 149) := by
  have h : ¬ 0x7F800000 ≤ x % 2 ^ 31 := by simpa [special32] using h
  have he : x / 8388608 % 256 ≠ 255 := by omega
  have hs : (x / 2147483648 % 2 == 1) = neg32 x := by
    simp only [neg32, beq_eq_decide]
    congr 1
    simp only [eq_iff_iff]
    omega
  by_cases h0 : x / 8388608 % 256 = 0
  · simp [decodeF, fmtOf, Fmt.signBit, hs, h0, significand32, place32]
  · have hp : ((x / 8388608 % 256 : Nat) : Int) - 127 - 23 = ((x / 8388608 % 256 - 1 : Nat) : Int) - 149 := by omega
    simp [decodeF, fmtOf, Fmt.signBit, hs, h0, he, significand32, place32]
    omega

/-- A register list is no harder to stand for when it names fewer. -/
theorem stands_of_subset {s : State} {st : Strand} {regs regs' : List Reg} (h : Stands s st regs) (hs : regs' ⊆ regs) : Stands s st regs' :=
  ⟨h.1, fun he r hr => h.2 he r (hs hr)⟩

/-! ## R44: a NaN operand -/

@[simp] theorem fAdd_nan_left (m : BitVec 3) (y : FVal) : fAdd m .nan y = .nan 0 := by cases y <;> rfl
@[simp] theorem fAdd_nan_right (m : BitVec 3) (x : FVal) : fAdd m x .nan = .nan 0 := by cases x <;> rfl
@[simp] theorem fMul_nan_left (y : FVal) : fMul .nan y = .nan 0 := by cases y <;> rfl
@[simp] theorem fMul_nan_right (x : FVal) : fMul x .nan = .nan 0 := by cases x <;> rfl

theorem fFma_nan_addend (m : BitVec 3) (x y : FVal) : ∃ fl, fFma m x y .nan = .nan fl := by
  unfold fFma
  cases fMul x y <;> simp

/-- An exact NaN is delivered as the canonical one. -/
theorem deliver_nan (fl : Flags) (m : BitVec 3) (r : Nat) : (Exact.nan fl).deliver 14 m false r = (0x7FC00000, fl ||| fNF) := rfl

theorem floatOutcome_untrapped {s : State} {st : Strand} (d : Reg) (m : BitVec 3) (x : Word) (fl : Flags)
    (h : fl &&& st.xtrapen &&& 0x5C = 0) :
    floatOutcome s st d m x fl =
      .next (complete s 1 (fun c => { c with sr := wordAfter c m, flags := c.flags ||| fl }.setReg d x)) := by
  simp only [floatOutcome, h, if_true]

/-- The outcome of an exact NaN where nothing traps. -/
theorem floatOutcome_nan {s : State} {st : Strand} {d : Reg} {m : BitVec 3} {r : Nat} {e : Exact} (nf : Flags)
    (hx : st.xtrapen = 0) (he : ∃ fl, e = .nan fl) :
    ∃ fl : Flags, fl.getLsbD 5 = true ∧
      floatOutcome s st d m (BitVec.ofNat 64 (e.deliver 14 m false r).1) ((e.deliver 14 m false r).2 ||| nf) =
        .next (complete s 1 (fun c => { c with sr := wordAfter c m, flags := c.flags ||| fl }.setReg d 0x7FC00000)) := by
  obtain ⟨fl, rfl⟩ := he
  refine ⟨fl ||| fNF ||| nf, by simp [fNF], ?_⟩
  rw [floatOutcome_untrapped _ _ _ _ (by simp [hx]), deliver_nan]
  rfl

theorem scalarFloatNaNIsCanonical_claim : Claim.ScalarFloatNaNIsCanonical := by
  intro d a b g rm s st hb h hx c canonical
  have h3 : Stands s st [d, a, b] := stands_of_subset h (by simp)
  obtain ⟨hbin, hfma⟩ := scalarFloatArithmetic_claim d a b g rm s st hb
  obtain ⟨hadd, hsub, hmul⟩ := hbin h3
  have nan (r : Reg) (hr : isNaN32 (low32 c r) = true) : fp32 c r = .nan := decodeF_nan hr
  simp only [canonical]
  refine ⟨fun hab => ⟨?_, ?_, ?_, ?_⟩, fun hg => ?_⟩
  · rw [hadd]
    refine floatOutcome_nan _ hx ⟨0, ?_⟩
    rcases hab with h | h <;> simp [c, nan _ h]
  · rw [hsub]
    refine floatOutcome_nan _ hx ⟨0, ?_⟩
    rcases hab with h | h <;> simp [c, nan _ h, FVal.negate]
  · rw [hmul]
    refine floatOutcome_nan _ hx ⟨0, ?_⟩
    rcases hab with h | h <;> simp [c, nan _ h]
  · rw [hfma h]
    refine floatOutcome_nan _ hx ⟨0, ?_⟩
    rcases hab with h | h <;> simp [c, nan _ h, fFma]
  · rw [hfma h]
    refine floatOutcome_nan _ hx ?_
    rw [nan _ hg]
    exact fFma_nan_addend _ _ _

/-! ## R46: a sum that is exact is not rounded -/

/-- A finite magnitude of FP32 in units of 2^-149. -/
theorem units32_eq (x : Nat) : units32 x = significand32 x * 2 ^ place32 x := by
  unfold units32 significand32 place32
  split
  · next h => rw [h, Nat.zero_sub, Nat.pow_zero, Nat.mul_one]
  · rw [Nat.add_comm]

/-- The bits below the sign are the significand and the place, added up. -/
theorem significand32_add_place32 {x : Nat} (h : special32 x = false) :
    significand32 x + place32 x * 2 ^ 23 = x % 2 ^ 31 := by
  have h : ¬ 0x7F800000 ≤ x % 2 ^ 31 := by simpa [special32] using h
  unfold significand32 place32
  split <;> omega

theorem significand32_lt (x : Nat) : significand32 x < 2 ^ 24 := by
  unfold significand32
  split <;> omega

/-- A normal number has its leading bit at 23, and a denormal lies at place 0. -/
theorem significand32_normal (x : Nat) : 2 ^ 23 ≤ significand32 x ∨ place32 x = 0 := by
  unfold significand32 place32
  split <;> omega

/-- The last place that FP32 keeps of a finite magnitude is the one its own encoding has. -/
theorem lastPlace32 {x : Nat} (h0 : significand32 x ≠ 0) :
    max (-149 + (Nat.log2 (units32 x) : Int) - 23) (-149) = (place32 x : Int) - 149 := by
  have hlt := significand32_lt x
  rw [units32_eq]
  rcases significand32_normal x with hn | hp
  · have hlog : Nat.log2 (significand32 x * 2 ^ place32 x) = 23 + place32 x := by
      rw [Nat.log2_eq_iff (by positivity), pow_add, add_right_comm, pow_add]
      exact ⟨Nat.mul_le_mul_right _ hn, Nat.mul_lt_mul_of_pos_right hlt (by positivity)⟩
    omega
  · have hlog : Nat.log2 (significand32 x * 2 ^ place32 x) < 24 := by
      rw [hp, Nat.log2_lt (by simpa using h0)]
      simpa using hlt
    omega

/-- A multiple of the place that is kept is not rounded. -/
theorem choose_multiple (neg : Bool) (n k : Nat) (e : Int) (m : BitVec 3) (r : Nat) :
    choose neg (n * 2 ^ k) e (e + k) m r = (n, false, false) := by
  cases k with
  | zero => simp [choose]
  | succ k =>
    have hq : ¬ e + ((k + 1 : Nat) : Int) ≤ e := by omega
    have hd : (e + ((k + 1 : Nat) : Int) - e).toNat = k + 1 := by omega
    simp only [choose, hq, hd, if_false, Nat.mul_mod_left, if_true]
    rw [Nat.mul_div_cancel _ (by positivity)]

/-- A magnitude that FP32 holds rounds to itself, without a flag, under every mode. -/
theorem roundF_units32 {x : Nat} (neg : Bool) (m : BitVec 3) (sat : Bool) (r : Nat) (h : special32 x = false) (h0 : x % 2 ^ 31 ≠ 0) :
    roundF 14 neg (units32 x) (-149) m sat r = ((if neg then 2 ^ 31 else 0) + x % 2 ^ 31, 0) := by
  have hsum := significand32_add_place32 h
  have hsig : significand32 x ≠ 0 := by have := significand32_normal x; omega
  have hfit : ¬ 0x7F7FFFFF < x % 2 ^ 31 := by
    have : ¬ 0x7F800000 ≤ x % 2 ^ 31 := by simpa [special32] using h
    omega
  have hq : max (-149 + (Nat.log2 (units32 x) : Int) - (23 : Nat)) (1 - (127 : Nat) - (23 : Nat)) = -149 + (place32 x : Int) := by
    have := lastPlace32 hsig
    omega
  have hc := choose_multiple neg (significand32 x) (place32 x) (-149) m r
  rw [← units32_eq] at hc
  have hk : (-149 + (place32 x : Int) - (1 - (127 : Nat) - (23 : Nat))).toNat = place32 x := by omega
  simp only [roundF, fmtOf, BitVec.reduceToNat, hq, hc, hk, hsum, if_neg hfit, Fmt.signed, Fmt.signBit]
  cases neg <;> simp [flagIf]

theorem units32_ne_zero {x : Nat} (h : special32 x = false) (h0 : x % 2 ^ 31 ≠ 0) : units32 x ≠ 0 := by
  have hsum := significand32_add_place32 h
  have hsig : significand32 x ≠ 0 := by have := significand32_normal x; omega
  rw [units32_eq]
  positivity

/-- The value of a finite encoding as an integer number of units. -/
theorem alignTo_units32 (neg : Bool) (x : Nat) :
    alignTo neg (significand32 x) (place32 x - 149) (-149) = if neg then -(units32 x : Int) else units32 x := by
  have hk : ((place32 x : Int) - 149 - -149).toNat = place32 x := by omega
  simp only [alignTo, hk, units32_eq]
  push_cast
  rfl

/-- A finite value plus +0 is its own magnitude in units of 2^-149. -/
theorem fAdd_zero {x : Nat} (m : BitVec 3) (hx : x < 2 ^ 32) (h : special32 x = false) (h0 : x % 2 ^ 31 ≠ 0) :
    fAdd m (decodeF 14 x) (decodeF 14 0) = .val (neg32 x) (units32 x) (-149) := by
  have hzero : decodeF 14 0 = .fin false 0 (-149) := by decide
  have hmin : min ((place32 x : Int) - 149) (-149) = -149 := by omega
  have hu := units32_ne_zero h h0
  rw [decodeF_finite hx h, hzero]
  simp only [fAdd, hmin, alignTo_units32]
  cases neg32 x <;> simp [exactOf, alignTo, hu]
  omega

theorem scalarFloatAddZeroIsExact_claim : Claim.ScalarFloatAddZeroIsExact := by
  intro d a b rm s st hb h c hfin h0 hzero
  have hx : low32 c a < 2 ^ 32 := Nat.mod_lt _ (by positivity)
  have hunits := units32_ne_zero hfin h0
  obtain ⟨hadd, -, -⟩ := (scalarFloatArithmetic_claim d a b 0 rm s st hb).1 h
  have hexact : fAdd (mode st rm) (fp32 c a) (fp32 c b) = .val (neg32 (low32 c a)) (units32 (low32 c a)) (-149) := by
    have := fAdd_zero (mode st rm) hx hfin h0
    rwa [← hzero] at this
  have hbits : (if neg32 (low32 c a) = true then 2 ^ 31 else 0) + low32 c a % 2 ^ 31 = low32 c a := by
    unfold neg32
    split <;> simp_all
    omega
  rw [hadd, hexact]
  simp only [Exact.deliver, hunits, if_false, roundF_units32 _ _ _ _ hfin h0, hbits]
  have hquiet : [fp32 c a, fp32 c b].any FVal.nonFinite = false := by
    have hb0 : fp32 c b = .fin false 0 (-149) := by
      have : fp32 c b = decodeF 14 (low32 c b) := rfl
      rw [this, hzero]
      decide
    have ha : fp32 c a = .fin _ _ _ := decodeF_finite hx hfin
    simp [ha, hb0, FVal.nonFinite]
  rw [hquiet, floatOutcome_untrapped _ _ _ _ (by simp [flagWhen])]
  simp [flagWhen]

/-- Settles O3: each instruction is one rounded operation on values; a NaN operand and an exact sum are cases of it. -/
theorem scalarFloatArithmetic : Obligations.ScalarFloatArithmetic :=
  ⟨scalarFloatArithmetic_claim, scalarFloatNaNIsCanonical_claim, scalarFloatAddZeroIsExact_claim⟩

end Sys2Proof.Machine

/-! ## R142, R143: the order of FP32 values -/

namespace Sys2Proof.Machine
-- one proof at a time: the memory of proofs in flight together is more than the check has
set_option Elab.async false
open Sys2Proof.Claim

/-- Two pairs that are ordered alike compare alike. -/
theorem compare_congr {a b c d : Int} (hlt : a < b ↔ c < d) (heq : a = b ↔ c = d) : compare a b = compare c d := by
  rcases lt_trichotomy c d with h | h | h
  · rw [compare_lt_iff_lt.2 h, compare_lt_iff_lt.2 (hlt.2 h)]
  · rw [compare_eq_iff_eq.2 h, compare_eq_iff_eq.2 (heq.2 h)]
  · rw [compare_gt_iff_gt.2 h, compare_gt_iff_gt.2 (by omega)]

/-- The value of a finite encoding with its sign, in units of 2^-149. -/
def signedUnits32 (x : Nat) : Int := if neg32 x then -(units32 x : Int) else units32 x

theorem alignTo_scale (neg : Bool) (m : Nat) {e q p : Int} (h1 : q ≤ p) (h2 : p ≤ e) :
    alignTo neg m e q = alignTo neg m e p * 2 ^ (p - q).toNat := by
  have hk : (e - q).toNat = (e - p).toNat + (p - q).toNat := by omega
  simp only [alignTo, hk, pow_add]
  cases neg <;> simp <;> ring

/-- Aligned to a common place, two finite encodings compare as their units do. -/
theorem compare_alignTo (x y : Nat) :
    let q := min ((place32 x : Int) - 149) ((place32 y : Int) - 149)
    compare (alignTo (neg32 x) (significand32 x) (place32 x - 149) q) (alignTo (neg32 y) (significand32 y) (place32 y - 149) q) =
      compare (signedUnits32 x) (signedUnits32 y) := by
  intro q
  have hx := alignTo_scale (neg32 x) (significand32 x) (e := place32 x - 149) (q := -149) (p := q) (by omega) (by omega)
  have hy := alignTo_scale (neg32 y) (significand32 y) (e := place32 y - 149) (q := -149) (p := q) (by omega) (by omega)
  rw [alignTo_units32] at hx hy
  have hpos : (0 : Int) < 2 ^ (q - -149).toNat := by positivity
  simp only [signedUnits32, hx, hy]
  exact compare_congr (mul_lt_mul_iff_left₀ hpos).symm (mul_left_inj' hpos.ne').symm

/-- Units grow with the bits below the sign. -/
theorem units32_lt {x y : Nat} (hx : special32 x = false) (hy : special32 y = false) (h : x % 2 ^ 31 < y % 2 ^ 31) :
    units32 x < units32 y := by
  have hsx := significand32_add_place32 hx
  have hsy := significand32_add_place32 hy
  have hlx := significand32_lt x
  have hly := significand32_lt y
  rw [units32_eq, units32_eq]
  rcases lt_trichotomy (place32 x) (place32 y) with hp | hp | hp
  · have hn : 2 ^ 23 ≤ significand32 y := (significand32_normal y).resolve_right (by omega)
    calc significand32 x * 2 ^ place32 x < 2 ^ 24 * 2 ^ place32 x := Nat.mul_lt_mul_of_pos_right hlx (by positivity)
      _ = 2 ^ 23 * 2 ^ (place32 x + 1) := by ring
      _ ≤ significand32 y * 2 ^ place32 y := Nat.mul_le_mul hn (Nat.pow_le_pow_right (by omega) hp)
  · rw [hp]
    exact Nat.mul_lt_mul_of_pos_right (by omega) (by positivity)
  · have := significand32_normal x
    omega

theorem units32_lt_iff {x y : Nat} (hx : special32 x = false) (hy : special32 y = false) :
    units32 x < units32 y ↔ x % 2 ^ 31 < y % 2 ^ 31 := by
  refine ⟨fun h => ?_, units32_lt hx hy⟩
  rcases lt_trichotomy (x % 2 ^ 31) (y % 2 ^ 31) with h1 | h1 | h1
  · exact h1
  · have h2 := significand32_add_place32 hx
    have h3 := significand32_add_place32 hy
    have : units32 x = units32 y := by
      have hxy : x / 2 ^ 23 % 256 = y / 2 ^ 23 % 256 ∧ x % 2 ^ 23 = y % 2 ^ 23 := by omega
      simp only [units32, hxy]
    omega
  · have := units32_lt hy hx h1
    omega

theorem units32_eq_iff {x y : Nat} (hx : special32 x = false) (hy : special32 y = false) :
    units32 x = units32 y ↔ x % 2 ^ 31 = y % 2 ^ 31 := by
  have h1 := units32_lt_iff hx hy
  have h2 := units32_lt_iff hy hx
  omega

theorem units32_eq_zero_iff {x : Nat} (hx : special32 x = false) : units32 x = 0 ↔ x % 2 ^ 31 = 0 :=
  units32_eq_iff hx (y := 0) rfl

/-- The number that orders encodings is their sign and the bits below it. -/
theorem value32_eq {x : Nat} (hx : x < 2 ^ 32) :
    value32 x = if neg32 x then -((x % 2 ^ 31 : Nat) : Int) else ((x % 2 ^ 31 : Nat) : Int) := by
  unfold value32 neg32
  by_cases h : x < 2 ^ 31
  · rw [if_pos h, if_neg (by simp only [decide_eq_true_eq]; omega), Nat.mod_eq_of_lt h]
  · rw [if_neg h, if_pos (by simp only [decide_eq_true_eq]; omega)]
    omega

theorem compare_signedUnits32 {x y : Nat} (hx : x < 2 ^ 32) (hy : y < 2 ^ 32) (hfx : special32 x = false) (hfy : special32 y = false) :
    compare (signedUnits32 x) (signedUnits32 y) = compare (value32 x) (value32 y) := by
  have hlt := units32_lt_iff hfx hfy
  have hgt := units32_lt_iff hfy hfx
  have h0x := units32_eq_zero_iff hfx
  have h0y := units32_eq_zero_iff hfy
  rw [value32_eq hx, value32_eq hy]
  unfold signedUnits32
  clear hx hy hfx hfy
  generalize units32 x = a at *
  generalize units32 y = b at *
  generalize x % 2 ^ 31 = c at *
  generalize y % 2 ^ 31 = d at *
  cases neg32 x <;> cases neg32 y <;> simp only [Bool.false_eq_true, if_true, if_false]
  · exact compare_congr (by omega) (by omega)
  · clear hlt hgt
    exact compare_congr (by omega) (by omega)
  · clear hlt hgt
    exact compare_congr (by omega) (by omega)
  · clear h0x h0y
    exact compare_congr (by omega) (by omega)

/-- What an encoding that is no NaN has for its value. -/
theorem decodeF_number {x : Nat} (hx : x < 2 ^ 32) (hn : isNaN32 x = false) :
    (special32 x = true ∧ x % 2 ^ 31 = 0x7F800000 ∧ decodeF 14 x = .inf (neg32 x)) ∨
      (special32 x = false ∧ x % 2 ^ 31 < 0x7F800000 ∧ decodeF 14 x = .fin (neg32 x) (significand32 x) (place32 x - 149)) := by
  have h1 : ¬ 0x7F800000 < x % 2 ^ 31 := by simpa [isNaN32] using hn
  cases hs : special32 x with
  | true =>
    have h2 : 0x7F800000 ≤ x % 2 ^ 31 := by simpa [special32] using hs
    exact .inl ⟨rfl, by omega, decodeF_inf hx hn hs⟩
  | false =>
    have h2 : ¬ 0x7F800000 ≤ x % 2 ^ 31 := by simpa [special32] using hs
    exact .inr ⟨rfl, by omega, decodeF_finite hx hs⟩

/-- R142, R143: encodings that are no NaN are ordered by their sign and the bits below it. -/
theorem fCompare_decodeF {x y : Nat} (hx : x < 2 ^ 32) (hy : y < 2 ^ 32) (hnx : isNaN32 x = false) (hny : isNaN32 y = false) :
    fCompare (decodeF 14 x) (decodeF 14 y) = some (compare (value32 x) (value32 y)) := by
  rcases decodeF_number hx hnx with ⟨-, hmx, hdx⟩ | ⟨hfx, hmx, hdx⟩ <;> rcases decodeF_number hy hny with ⟨-, hmy, hdy⟩ | ⟨hfy, hmy, hdy⟩
  · rw [hdx, hdy, value32_eq hx, value32_eq hy, hmx, hmy]
    cases neg32 x <;> cases neg32 y <;> rfl
  · rw [hdx, hdy, value32_eq hx, value32_eq hy, hmx]
    cases neg32 x
    · exact congrArg some (compare_gt_iff_gt.2 (by simp only [Bool.false_eq_true, if_false]; split <;> omega)).symm
    · exact congrArg some (compare_lt_iff_lt.2 (by simp only [if_true]; split <;> omega)).symm
  · rw [hdx, hdy, value32_eq hx, value32_eq hy, hmy]
    cases neg32 y
    · exact congrArg some (compare_lt_iff_lt.2 (by simp only [Bool.false_eq_true, if_false]; split <;> omega)).symm
    · exact congrArg some (compare_gt_iff_gt.2 (by simp only [if_true]; split <;> omega)).symm
  · rw [hdx, hdy, ← compare_signedUnits32 hx hy hfx hfy, ← compare_alignTo]
    rfl

theorem nonFinite_decodeF {x : Nat} (hx : x < 2 ^ 32) : (decodeF 14 x).nonFinite = special32 x := by
  cases hn : isNaN32 x with
  | true =>
    have h1 : 0x7F800000 < x % 2 ^ 31 := by simpa [isNaN32] using hn
    have h2 : special32 x = true := by simp only [special32, decide_eq_true_eq]; omega
    rw [decodeF_nan hn, h2]
    rfl
  | false =>
    rcases decodeF_number hx hn with ⟨hs, -, hd⟩ | ⟨hs, -, hd⟩ <;> rw [hd, hs] <;> rfl

theorem sign_decodeF {x : Nat} (hx : x < 2 ^ 32) (hn : isNaN32 x = false) : (decodeF 14 x).sign = neg32 x := by
  rcases decodeF_number hx hn with ⟨-, -, hd⟩ | ⟨-, -, hd⟩ <;> rw [hd] <;> rfl

/-- R142's order is the order of the values with −0 below +0. -/
theorem order32_lt_iff (x y : Nat) : order32 x < order32 y ↔ value32 x < value32 y ∨ value32 x = value32 y ∧ 2 ^ 31 ≤ x ∧ ¬ 2 ^ 31 ≤ y := by
  unfold order32 value32
  split <;> split <;> omega

theorem fBelow_decodeF {x y : Nat} (hx : x < 2 ^ 32) (hy : y < 2 ^ 32) (hnx : isNaN32 x = false) (hny : isNaN32 y = false) :
    fBelow (decodeF 14 x) (decodeF 14 y) = decide (order32 x < order32 y) := by
  simp only [fBelow, fCompare_decodeF hx hy hnx hny, sign_decodeF hx hnx, sign_decodeF hy hny, order32_lt_iff]
  rcases lt_trichotomy (value32 x) (value32 y) with h | h | h
  · simp [compare_lt_iff_lt.2 h, h]
  · rw [compare_eq_iff_eq.2 h]
    simp only [h, neg32, lt_irrefl, false_or, true_and, ← decide_not, ← Bool.decide_and]
  · simp [compare_gt_iff_gt.2 h, h.not_gt, h.ne']

theorem order32_inj {x y : Nat} (hx : x < 2 ^ 32) (hy : y < 2 ^ 32) (h : order32 x = order32 y) : x = y := by
  unfold order32 at h
  split at h <;> split at h <;> omega

theorem decodeF_ne_nan {x : Nat} (hx : x < 2 ^ 32) (hn : isNaN32 x = false) : decodeF 14 x ≠ .nan := by
  rcases decodeF_number hx hn with ⟨-, -, hd⟩ | ⟨-, -, hd⟩ <;> rw [hd] <;> nofun

theorem fMinMax_numbers {t : Tag} {x y : Nat} (larger : Bool) (hx : decodeF t x ≠ .nan) (hy : decodeF t y ≠ .nan) :
    (fMinMax t larger x y).1 = if fBelow (decodeF t x) (decodeF t y) != larger then x else y := by
  unfold fMinMax
  dsimp only
  split
  · exact absurd ‹decodeF t x = .nan› hx
  · exact absurd ‹decodeF t x = .nan› hx
  · exact absurd ‹decodeF t y = .nan› hy
  · rfl

/-- R142: which operand FMIN and FMAX give. -/
theorem fMinMax_fst {x y : Nat} (larger : Bool) (hx : x < 2 ^ 32) (hy : y < 2 ^ 32) :
    (fMinMax 14 larger x y).1 = minMax32 larger x y := by
  cases hnx : isNaN32 x <;> cases hny : isNaN32 y
  · rw [fMinMax_numbers larger (decodeF_ne_nan hx hnx) (decodeF_ne_nan hy hny), fBelow_decodeF hx hy hnx hny]
    simp only [minMax32, hnx, hny, Bool.and_self, Bool.false_eq_true, if_false]
    rcases lt_trichotomy (order32 x) (order32 y) with h | h | h
    · cases larger <;> simp [h, h.le]
    · cases larger <;> simp [order32_inj hx hy h]
    · cases larger <;> simp [h.not_gt, h.not_ge]
  · have := decodeF_ne_nan hx hnx
    simp only [minMax32, hnx, hny, fMinMax, decodeF_nan hny]
    split <;> simp_all
  · have := decodeF_ne_nan hy hny
    simp only [minMax32, hnx, hny, fMinMax, decodeF_nan hnx]
    split <;> simp_all
  · simp only [minMax32, hnx, hny, fMinMax, decodeF_nan hnx, decodeF_nan hny]
    rfl

theorem fMinMax_snd {x y : Nat} (larger : Bool) (hx : x < 2 ^ 32) (hy : y < 2 ^ 32) :
    (fMinMax 14 larger x y).2 = flagWhen (special32 x || special32 y) 0x20 := by
  rw [← nonFinite_decodeF hx, ← nonFinite_decodeF hy]
  unfold fMinMax
  dsimp only
  split <;> rfl

/-- R143: no relation holds of a NaN. -/
theorem fCompare_nan {x y : Nat} (h : (isNaN32 x || isNaN32 y) = true) : fCompare (decodeF 14 x) (decodeF 14 y) = none := by
  rcases Bool.or_eq_true_iff.mp h with h | h <;> rw [decodeF_nan h]
  · cases decodeF 14 y <;> rfl
  · cases decodeF 14 x <;> rfl

theorem fRelation_fst {x y : Nat} (rel : BitVec 2) (hx : x < 2 ^ 32) (hy : y < 2 ^ 32) :
    (fRelation rel (decodeF 14 x) (decodeF 14 y)).1 = relation32 rel x y := by
  cases hn : isNaN32 x || isNaN32 y with
  | true =>
    simp only [fRelation, fCompare_nan hn, relation32]
    rcases Bool.or_eq_true_iff.mp hn with h | h <;> simp only [h] <;> split <;> simp
  | false =>
    obtain ⟨hnx, hny⟩ := Bool.or_eq_false_iff.mp hn
    have hrel : rel = 0 ∨ rel = 1 ∨ rel = 2 ∨ rel = 3 := by revert rel; decide
    simp only [fRelation, fCompare_decodeF hx hy hnx hny, relation32, hnx, hny, Bool.not_false, Bool.true_and]
    rcases lt_trichotomy (value32 x) (value32 y) with h | h | h
    · rw [compare_lt_iff_lt.2 h]
      rcases hrel with rfl | rfl | rfl | rfl <;> simp [h, h.le, h.ne]
    · rw [compare_eq_iff_eq.2 h]
      rcases hrel with rfl | rfl | rfl | rfl <;> simp [h]
    · rw [compare_gt_iff_gt.2 h]
      rcases hrel with rfl | rfl | rfl | rfl <;> simp [h.not_gt, h.not_ge, h.ne']

theorem fRelation_snd {x y : Nat} (rel : BitVec 2) (hx : x < 2 ^ 32) (hy : y < 2 ^ 32) :
    (fRelation rel (decodeF 14 x) (decodeF 14 y)).2 =
      flagWhen (special32 x || special32 y) 0x20 ||| flagWhen ((isNaN32 x || isNaN32 y) && rel != 0) 0x10 := by
  have hnone : (fCompare (decodeF 14 x) (decodeF 14 y)).isNone = (isNaN32 x || isNaN32 y) := by
    cases hn : isNaN32 x || isNaN32 y with
    | true => rw [fCompare_nan hn]; rfl
    | false =>
      obtain ⟨hnx, hny⟩ := Bool.or_eq_false_iff.mp hn
      rw [fCompare_decodeF hx hy hnx hny]
      rfl
  simp only [fRelation, hnone, nfOf, List.any_cons, List.any_nil, Bool.or_false, nonFinite_decodeF hx, nonFinite_decodeF hy]
  rfl

/-- An instruction that rounds nothing, on the values of its registers (R142, R143). -/
theorem State.issue_fpResult {s : State} {st : Strand} (i : Instr) {regs : List Reg} {d : Reg} {v : Env → Word} {fl : Env → Flags}
    (h : Stands s st regs) (hb : Bare (running s st)) :
    s.issue i plainForm regs (fun e => s.fpResult e d (v e) (fl e)) =
      floatOutcome s st d 0 (v (Env.here s st)) (fl (Env.here s st)) := by
  rw [State.issue_ready i _ _ h (Context.admits_of_bare _ hb) (by decide) rfl]
  exact State.fpResult_concludes i d 0 _ _ (fun f => rfl)

theorem low32_lt (c : Context) (r : Reg) : low32 c r < 2 ^ 32 := Nat.mod_lt _ (by positivity)

theorem scalarFloatMinMaxCompare_claim : Claim.ScalarFloatMinMaxCompare := by
  intro d a b rm rel s st hb h c x y nf
  have hx : x < 2 ^ 32 := low32_lt c a
  have hy : y < 2 ^ 32 := low32_lt c b
  have hminmax (larger : Bool) (i : Instr) : s.issue i plainForm [d, a, b] (fun e =>
      s.fpResult e d (BitVec.ofNat 64 (fMinMax tagFP32 larger (e.fp a) (e.fp b)).1) (fMinMax tagFP32 larger (e.fp a) (e.fp b)).2) =
        floatOutcome s st d 0 (BitVec.ofNat 64 (minMax32 larger x y)) nf := by
    rw [State.issue_fpResult i h hb, Env.fp_here, Env.fp_here]
    simp only [tagFP32, ← fMinMax_fst larger hx hy, ← fMinMax_snd larger hx hy, nf]
    rfl
  refine ⟨hminmax false _, hminmax true _, ?_⟩
  have hrel := State.issue_fpResult (.fcmp d a b rel) (d := d) (v := fun e => flagWord (fRelation rel (e.fv a) (e.fv b)).1)
    (fl := fun e => (fRelation rel (e.fv a) (e.fv b)).2) h hb
  exact hrel.trans (by
    simp only [Env.fv_here]
    have h1 := fRelation_fst rel hx hy
    have h2 := fRelation_snd rel hx hy
    have hfa : fp32 (running s st) a = decodeF 14 x := rfl
    have hfb : fp32 (running s st) b = decodeF 14 y := rfl
    simp only [hfa, hfb, h1, h2, flagWord, nf])

/-! ## R53, R54: conversions round once -/

/-- Rounding is of a ratio: a common factor changes nothing. -/
theorem roundTo_scale (neg : Bool) (m : BitVec 3) (r n d : Nat) {c : Nat} (hc : 0 < c) : roundTo neg m r (n * c) (d * c) = roundTo neg m r n d := by
  have h1 (a b : Nat) : a * c ≤ b * c ↔ a ≤ b := Nat.mul_le_mul_right_iff hc
  have h2 (a b : Nat) : a * c < b * c ↔ a < b := Nat.mul_lt_mul_right hc
  have h3 (a b : Nat) : a * c = b * c ↔ a = b := Nat.mul_left_inj hc.ne'
  have hz : n % d * c = 0 ↔ n % d = 0 := by simp [hc.ne']
  simp only [roundTo, Nat.mul_div_mul_right _ _ hc, Nat.mul_mod_mul_right, ← Nat.mul_assoc, ← Nat.add_mul, h1, h2, h3, hz]

theorem roundTo_one (neg : Bool) (m : BitVec 3) (r n : Nat) : roundTo neg m r n 1 = (n, false) := by
  simp [roundTo, Nat.mod_one]

/-- Above the place that is kept the choice is `roundTo`'s. -/
theorem choose_eq_roundTo (neg : Bool) (m : Nat) {e q : Int} (rm : BitVec 3) (r : Nat) (h : e < q) :
    (choose neg m e q rm r).1 = (roundTo neg rm r m (2 ^ (q - e).toNat)).1 ∧
      (choose neg m e q rm r).2.1 = (roundTo neg rm r m (2 ^ (q - e).toNat)).2 := by
  have hq : ¬ q ≤ e := by omega
  by_cases hrest : m % 2 ^ (q - e).toNat = 0
  · simp [choose, roundTo, hq, hrest]
  · have hrm : rm = 0 ∨ rm = 1 ∨ rm = 2 ∨ rm = 3 ∨ rm = 4 ∨ rm = 5 ∨ rm = 6 ∨ rm = 7 := by revert rm; decide
    simp only [choose, roundTo, hq, hrest, if_false, and_true]
    rcases hrm with rfl | rfl | rfl | rfl | rfl | rfl | rfl | rfl <;> simp [Nat.mul_comm 65536]

/-- At or below it nothing is rounded. -/
theorem choose_exact (neg : Bool) (m : Nat) {e q : Int} (rm : BitVec 3) (r : Nat) (h : q ≤ e) :
    choose neg m e q rm r = (m * 2 ^ (e - q).toNat, false, false) := by
  simp [choose, h]

/-- A finite encoding rounded to an integer (R53). -/
theorem choose_units32 (neg : Bool) (x : Nat) (rm : BitVec 3) (r : Nat) :
    (choose neg (significand32 x) (place32 x - 149) 0 rm r).1 = (roundTo neg rm r (units32 x) (2 ^ 149)).1 ∧
      (choose neg (significand32 x) (place32 x - 149) 0 rm r).2.1 = (roundTo neg rm r (units32 x) (2 ^ 149)).2 := by
  rw [units32_eq]
  by_cases h : place32 x < 149
  · have hk : (0 - ((place32 x : Int) - 149)).toNat = 149 - place32 x := by omega
    have hd : 2 ^ 149 = 2 ^ (149 - place32 x) * 2 ^ place32 x := by rw [← pow_add]; congr 1; omega
    rw [hd, roundTo_scale _ _ _ _ _ (by positivity), ← hk]
    exact choose_eq_roundTo neg _ rm r (by omega)
  · have hk : ((place32 x : Int) - 149 - 0).toNat = place32 x - 149 := by omega
    have hu : significand32 x * 2 ^ place32 x = significand32 x * 2 ^ (place32 x - 149) * 2 ^ 149 := by
      rw [mul_assoc, ← pow_add]; congr 2; omega
    have hone := roundTo_scale neg rm r (significand32 x * 2 ^ (place32 x - 149)) 1 (c := 2 ^ 149) (by positivity)
    rw [one_mul, roundTo_one] at hone
    rw [hu, hone, choose_exact _ _ _ _ (by omega), hk]
    exact ⟨rfl, rfl⟩

/-- R53's table by the row an integer falls into: in range, or outside it. -/
theorem integerOf32_finite {x : Nat} (w : Nat) (m : BitVec 3) (sat : Bool) (r : Nat) (lower upper : Int) (hn : isNaN32 x = false)
    (hs : special32 x = false) {k : Nat} {inexact : Bool} (h : roundTo (neg32 x) m r (units32 x) (2 ^ 149) = (k, inexact)) {n : Int}
    (hv : (if neg32 x then -(k : Int) else k) = n) :
    integerOf32 m r sat w lower upper x = if lower ≤ n ∧ n ≤ upper then (n, flagWhen inexact 0x01)
      else if sat then (if n < lower then lower else upper, 0x10) else (n % 2 ^ w, 0x10) := by
  unfold neg32 at h hv
  simp only [integerOf32, hn, hs, h, hv, Bool.false_eq_true, if_false]

/-- R53's table, as an integer and its flags. -/
theorem toInteger_eq {x : Nat} (signed : Bool) {w : Nat} (m : BitVec 3) (sat : Bool) (r : Nat) (hx : x < 2 ^ 32) :
    let p := integerOf32 m r sat w (intBounds signed w).1 (intBounds signed w).2 x
    toInteger (decodeF 14 x) signed w m sat r = (wrapOf w p.1, p.2) := by
  intro p
  cases hn : isNaN32 x with
  | true =>
    rw [decodeF_nan hn]
    simp [p, toInteger, integerOf32, hn, wrapOf, fNV, fNF]
  | false =>
    rcases decodeF_number hx hn with ⟨hs, -, hd⟩ | ⟨hs, -, hd⟩
    · rw [hd]
      cases sat <;> simp [p, toInteger, integerOf32, hn, hs, wrapOf, fNV, fNF, neg32]
    · obtain ⟨h1, h2⟩ := choose_units32 (neg32 x) x m r
      rcases hc : choose (neg32 x) (significand32 x) (place32 x - 149) 0 m r with ⟨k, inexact, up⟩
      rw [hc] at h1 h2
      obtain ⟨n, hv⟩ : ∃ n : Int, (if neg32 x then -(k : Int) else k) = n := ⟨_, rfl⟩
      simp only [p, integerOf32_finite w m sat r _ _ hn hs (Prod.ext h1.symm h2.symm) hv, hd, toInteger, hc, hv]
      split
      · rfl
      · cases sat
        · simp [wrapOf, fNV]
        · rfl

/-- What an integer's magnitude is rounded to, with 24 bits kept (R54). -/
theorem choose_integer (neg : Bool) (n : Nat) (m : BitVec 3) (r : Nat) :
    let p := if Nat.log2 n ≤ 23 then (n * 2 ^ (23 - Nat.log2 n), false) else roundTo neg m r n (2 ^ (Nat.log2 n - 23))
    (choose neg n 0 ((Nat.log2 n : Int) - 23) m r).1 = p.1 ∧ (choose neg n 0 ((Nat.log2 n : Int) - 23) m r).2.1 = p.2 := by
  intro p
  by_cases h : Nat.log2 n ≤ 23
  · have hk : ((0 : Int) - ((Nat.log2 n : Int) - 23)).toNat = 23 - Nat.log2 n := by omega
    simp only [p, if_pos h, choose_exact neg n m r (show (Nat.log2 n : Int) - 23 ≤ 0 by omega), hk, and_self]
  · have hk : ((Nat.log2 n : Int) - 23 - 0).toNat = Nat.log2 n - 23 := by omega
    simp only [p, if_neg h, ← hk]
    exact choose_eq_roundTo neg n m r (by omega)

/-- A choice of 24 bits is at most their number. -/
theorem roundTo_le {neg : Bool} {m : BitVec 3} {r n d b : Nat} (h : n / d < b) : (roundTo neg m r n d).1 ≤ b := by
  unfold roundTo
  dsimp only
  (repeat' split) <;> dsimp only <;> omega

/-- R54: an integer rounded once to FP32. -/
theorem ofInteger_eq (n : Int) (m : BitVec 3) (sat : Bool) (r : Nat) (h : n.natAbs < 2 ^ 64) :
    ofInteger 14 n m sat r = fp32OfInteger m r n := by
  by_cases h0 : n = 0
  · simp [ofInteger, exactOf, h0, Exact.deliver, fp32OfInteger, Fmt.signed]
  · have habs : n.natAbs ≠ 0 := by omega
    have hlog : Nat.log2 n.natAbs < 64 := (Nat.log2_lt habs).2 h
    obtain ⟨h1, h2⟩ := choose_integer (decide (n < 0)) n.natAbs m r
    have hq : max ((0 : Int) + (Nat.log2 n.natAbs : Int) - (23 : Nat)) (1 - (127 : Nat) - (23 : Nat)) = (Nat.log2 n.natAbs : Int) - 23 := by omega
    have hk : ((Nat.log2 n.natAbs : Int) - 23 - (1 - (127 : Nat) - (23 : Nat))).toNat = Nat.log2 n.natAbs + 126 := by omega
    rcases hc : choose (decide (n < 0)) n.natAbs 0 ((Nat.log2 n.natAbs : Int) - 23) m r with ⟨k, inexact, up⟩
    rw [hc] at h1 h2
    have hpow : n.natAbs < 2 ^ (Nat.log2 n.natAbs + 1) := Nat.lt_log2_self
    have hk24 : k ≤ 2 ^ 24 := by
      have hk : k = _ := h1
      rw [hk]
      split
      · calc n.natAbs * 2 ^ (23 - n.natAbs.log2) ≤ 2 ^ (Nat.log2 n.natAbs + 1) * 2 ^ (23 - n.natAbs.log2) := Nat.mul_le_mul_right _ hpow.le
          _ = 2 ^ 24 := by rw [← pow_add]; congr 1; omega
      · refine roundTo_le (Nat.div_lt_of_lt_mul ?_)
        rw [← pow_add]
        convert hpow using 2
        omega
    have hfit : ¬ 0x7F7FFFFF < k + (Nat.log2 n.natAbs + 126) * 2 ^ 23 := by omega
    have hnormal : ¬ (0 : Int) + (Nat.log2 n.natAbs : Int) < 1 - (127 : Nat) := by omega
    simp only [ofInteger, exactOf, h0, if_false, Exact.deliver, habs, roundF, fmtOf, BitVec.reduceToNat, hq, hc, hk, hfit, hnormal,
      fp32OfInteger, ← h1, ← h2, Fmt.signed, Fmt.signBit]
    refine Prod.ext ?_ ?_
    · by_cases hneg : n < 0
      · simp only [hneg, decide_true, if_true]
        omega
      · simp only [hneg, decide_false, Bool.false_eq_true, if_false]
        omega
    · simp [flagIf, flagWhen, fNX]

theorem wrapOf_eq_toNat (w : Nat) (n : Int) : wrapOf w n = (BitVec.ofInt w n).toNat := by
  rw [BitVec.toNat_ofInt, wrapOf]

theorem ofInt_signedOf_wrapOf (w : Nat) (n : Int) : BitVec.ofInt 64 (signedOf w (wrapOf w n)) = (BitVec.ofInt w n).signExtend 64 := by
  rw [signedOf_eq_toInt, wrapOf_eq_toNat, BitVec.ofNat_toNat, BitVec.setWidth_eq, BitVec.signExtend]

theorem ofNat_wrapOf (w : Nat) (n : Int) : BitVec.ofNat 64 (wrapOf w n) = (BitVec.ofInt w n).zeroExtend 64 := by
  rw [wrapOf_eq_toNat, BitVec.ofNat_toNat]

/-- R144: what each direction writes. -/
theorem fcvtResult_eq (dir : BitVec 4) (x : Word) (m : BitVec 3) (sat : Bool) (r : Nat) (h : dir.toNat < 8) :
    fcvtResult dir x m sat r = fcvtGives dir m r sat x := by
  have hlow : x.toNat % 2 ^ 32 < 2 ^ 32 := Nat.mod_lt _ (by positivity)
  have hdir : dir = 0 ∨ dir = 1 ∨ dir = 2 ∨ dir = 3 ∨ dir = 4 ∨ dir = 5 ∨ dir = 6 ∨ dir = 7 := by revert dir; decide
  rcases hdir with rfl | rfl | rfl | rfl | rfl | rfl | rfl | rfl
  · simp only [fcvtResult, tagFP32, BitVec.reduceToNat, toInteger_eq _ _ _ _ hlow, ofInt_signedOf_wrapOf]
    rfl
  · simp only [fcvtResult, tagFP32, BitVec.reduceToNat, toInteger_eq _ _ _ _ hlow, ofNat_wrapOf]
    rfl
  · simp only [fcvtResult, tagFP32, BitVec.reduceToNat, toInteger_eq _ _ _ _ hlow, ofNat_wrapOf, BitVec.truncate_eq_setWidth, BitVec.setWidth_eq]
    rfl
  · simp only [fcvtResult, tagFP32, BitVec.reduceToNat, toInteger_eq _ _ _ _ hlow, ofNat_wrapOf, BitVec.truncate_eq_setWidth, BitVec.setWidth_eq]
    rfl
  · have hint : signedOf 32 x.toNat = (BitVec.ofNat 32 (x.toNat % 2 ^ 32)).toInt := by
      rw [signedOf_eq_toInt, show BitVec.ofNat 32 (x.toNat % 2 ^ 32) = BitVec.ofNat 32 x.toNat from BitVec.eq_of_toNat_eq (by simp)]
    have hlo := (BitVec.ofNat 32 (x.toNat % 2 ^ 32)).le_toInt
    have hhi := (BitVec.ofNat 32 (x.toNat % 2 ^ 32)).toInt_lt
    simp only [fcvtResult, tagFP32, BitVec.reduceToNat, hint]
    rw [ofInteger_eq _ _ _ _ (by omega)]
    rfl
  · simp only [fcvtResult, tagFP32, BitVec.reduceToNat]
    rw [ofInteger_eq _ _ _ _ (by omega)]
    rfl
  · simp only [fcvtResult, tagFP32, BitVec.reduceToNat]
    rw [ofInteger_eq _ _ _ _ (by have := x.toInt_lt; have := x.le_toInt; omega)]
    rfl
  · simp only [fcvtResult, tagFP32, BitVec.reduceToNat]
    rw [ofInteger_eq _ _ _ _ (by have := x.isLt; omega)]
    rfl

theorem scalarConversions_claim : Claim.ScalarConversions := by
  intro d a sat dir rm s st hb h hdir c m p
  obtain ⟨s1, hr, h1⟩ := State.scalarRounding_here rm h.1
  have hexec : exec (.fcvt d a sat dir rm) s = s.issue (.fcvt d a sat dir rm) plainForm [d, a] (fun e =>
      let (m, r, s1) := s.scalarRounding e rm
      let p := fcvtResult dir (e.reg a) m sat r
      s1.fpResult e d p.1 p.2) := rfl
  rw [hexec, State.issue_ready _ _ _ h (Context.admits_of_bare _ hb) (by decide) rfl]
  simp only [hr, fcvtResult_eq dir _ _ _ _ hdir]
  exact State.fpResult_concludes _ d _ _ _ h1

/-- Settles O4: comparison orders encodings as integers; a conversion is one choice between neighbours of a ratio. -/
theorem scalarFloatComparisonsAndConversions : Obligations.ScalarFloatComparisonsAndConversions :=
  ⟨scalarFloatMinMaxCompare_claim, scalarConversions_claim⟩

end Sys2Proof.Machine

/-! # Chapter 8: branches and jumps, R155, R156 and R158 -/

namespace Sys2Proof.Machine
-- one proof at a time: the memory of proofs in flight together is more than the check has
set_option Elab.async false
open Sys2Proof.Claim

@[simp] theorem Env.target_here (s : State) (st : Strand) {n : Nat} (off : BitVec n) :
    (Env.here s st).target off = Claim.target (running s st) off :=
  congrArg (fun x => (running s st).pc + 4 * x) (Env.imm_here s st off)

/-- A branch goes to its target or past its one word, as it decides. -/
theorem conclude_branch (s : State) (i : Instr) (vector taken : Bool) (pc : Word) :
    s.conclude s.cur.slot s.cur.ctx i 1 vector (if taken then .jump s pc else .done s) =
      .next (if taken then completeAt s pc (fun c => c) else complete s 1 (fun c => c)) := by
  cases taken <;> rfl

/-- R155: a conditional branch that decides as the claims say. -/
theorem branch_goes {mk : Reg → Reg → BitVec 13 → Instr} {f g : Word → Word → Bool} (hfg : ∀ x y, f x y = g x y)
    (hexec : ∀ a b off s, exec (mk a b off) s = s.branch (mk a b off) a b off f) (a b : Reg) (off : BitVec 13) (s : State) (st : Strand)
    (h : Stands s st [a, b]) (hp : AtMostImx (running s st)) :
    exec (mk a b off) s = .next (if g ((running s st).reg a) ((running s st).reg b)
      then completeAt s (Claim.target (running s st) off) (fun c => c) else complete s 1 (fun c => c)) := by
  rw [hexec, State.branch, State.issue_ready _ _ _ h (Context.admits_wideForm hp) (by decide) rfl]
  simp only [Env.reg_here, Env.target_here, hfg]
  exact conclude_branch s _ _ _ _

/-- R120, R155: the six conditions. -/
theorem conditionalBranches_claim : Claim.ConditionalBranches := by
  simp only [Claim.ConditionalBranches, branchOps, List.forall_mem_cons]
  have hle (x y : Word) : decide (y.toInt ≤ x.toInt) = !x.slt y := by simp [BitVec.slt_eq_decide, ← decide_not]
  have hleu (x y : Word) : decide (y.toNat ≤ x.toNat) = !x.ult y := by simp [BitVec.ult, ← decide_not]
  exact
    ⟨branch_goes (fun _ _ => rfl) (fun _ _ _ _ => rfl),
     branch_goes (fun _ _ => rfl) (fun _ _ _ _ => rfl),
     branch_goes (fun _ _ => BitVec.slt_eq_decide.symm) (fun _ _ _ _ => rfl),
     branch_goes hle (fun _ _ _ _ => rfl),
     branch_goes (fun _ _ => rfl) (fun _ _ _ _ => rfl),
     branch_goes hleu (fun _ _ _ _ => rfl),
     nofun⟩

/-- An instruction that writes its link and goes to an address. -/
theorem conclude_link {s : State} {st : Strand} (i : Instr) (vector : Bool) (d : Reg) (t : Word) (h : s.strand? s.cur.slot = some st) :
    s.conclude s.cur.slot s.cur.ctx i 1 vector (.jump (s.setReg (Env.here s st) d ((running s st).pc + 4)) t) =
      .next (completeAt s t (fun c => c.setReg d (c.pc + 4))) := by
  rw [State.conclude_jump]
  refine congrArg Host.Outcome.next ?_
  exact s.updCtx_updCtx _ _ _ h |>.trans (by simp only [completeAt, State.updCtx_of _ _ _ h]; rfl)

/-- R120, R156: J, JAL and JALR. -/
theorem jumps_claim : Claim.Jumps := by
  intro d a s st hp
  refine ⟨fun off h => ?_, fun off h => ?_, fun off h => ⟨fun ht => ?_, fun ht => ?_⟩⟩
  · change execJ off s = _
    rw [execJ, State.issue_ready _ _ _ h (Context.admits_wideForm hp) (by decide) rfl, Env.target_here]
    rfl
  · change execJal d off s = _
    rw [execJal, State.issue_ready _ _ _ h (Context.admits_wideForm hp) (by decide) rfl, Env.target_here]
    exact conclude_link _ _ d _ h.1
  · change execJalr d a off s = _
    rw [execJalr, State.issue_ready _ _ _ h (Context.admits_wideForm hp) (by decide) rfl]
    simp only [Env.reg_here, Env.imm_here, if_neg (not_not.2 ht)]
    exact conclude_link _ _ d _ h.1
  · change execJalr d a off s = _
    rw [execJalr, State.issue_ready _ _ _ h (Context.admits_wideForm hp) (by decide) rfl]
    simp only [Env.reg_here, Env.imm_here, if_pos ht, State.conclude_trap]
    exact (trapsIn_self s .misaligned false _).symm

/-- R9, R158: BSEND by the stream that the commits leave in its slot. -/
theorem streamEndBranch_claim : Claim.StreamEndBranch := by
  intro k off s st h hp
  change execBsend k off s = _
  rw [execBsend, State.issue_ready _ _ _ h (Context.admits_wideForm hp) (by decide) rfl, Env.st_here, Env.target_here]
  cases st.committedStream k.toNat with
  | none => rfl
  | some x => exact conclude_branch s _ _ x.finished _

/-- Settles O10: each form decides and finds its target as the claims say, and then goes on in one of two ways. -/
theorem branchesAndJumps : Obligations.BranchesAndJumps :=
  ⟨conditionalBranches_claim, jumps_claim, streamEndBranch_claim⟩

end Sys2Proof.Machine

/-! # Chapter 2: queues between the contexts, R13, R14 and R157 -/

namespace Sys2Proof.Machine
-- one proof at a time: the memory of proofs in flight together is more than the check has
set_option Elab.async false
open Sys2Proof.Claim

/-! ## What an instruction that writes only its strand leaves -/

theorem Context.reg_setReg (c : Context) (d r : Reg) (x : Word) : (c.setReg d x).reg r = if r = d ∧ r ≠ 0 then x else c.reg r := by
  by_cases hr : r = d
  · subst hr
    by_cases h0 : r = 0
    · simp [h0, Context.setReg]
    · rw [Context.reg_setReg_self c x h0, if_pos ⟨rfl, h0⟩]
  · rw [Context.reg_setReg_ne c x hr, if_neg (fun h => hr h.1)]

/-- A strand that is written, and then its context. -/
theorem State.updStrand_updCtx {s : State} {k : Nat} {st : Strand} (id : CtxId) (f : Strand → Strand) (g : Context → Context)
    (h : s.strand? k = some st) : (s.updStrand k f).updCtx k id g = s.setStrand k ((f st).setCtx id (g ((f st).ctx id))) := by
  rw [State.updStrand_of _ _ h, State.updCtx_of _ _ _ (State.strand?_setStrand s k (f st)), State.setStrand_setStrand]

theorem sameOutside_setStrand (s : State) (st : Strand) : SameOutside s (s.setStrand s.cur.slot st) :=
  ⟨rfl, rfl, rfl, rfl, rfl, rfl, rfl, rfl, rfl, rfl, fun _ hk => State.strand?_setStrand_ne s st hk⟩

/-- A strand that its turn's context leaves with one register written and its PC elsewhere. -/
theorem moved_setStrand {s : State} {st u : Strand} (d : Reg) (x pc : Word) (hu : u.ctx s.cur.ctx = running s st) :
    Moved s st (s.setStrand s.cur.slot (u.setCtx s.cur.ctx (((u.ctx s.cur.ctx).setReg d x).advance pc))) pc d x
      (u.setCtx s.cur.ctx (((u.ctx s.cur.ctx).setReg d x).advance pc)) := by
  refine ⟨State.strand?_setStrand .., ?_⟩
  simp only [running, Strand.ctx_setCtx] at hu ⊢
  refine ⟨rfl, ?_, rfl, rfl, ?_, fun r => ?_⟩
  · exact congrArg (· + 1) ((Context.setReg_issues ..).trans (congrArg Context.issues hu))
  · exact (Context.setReg_flags ..).trans (congrArg Context.flags hu)
  · rw [Context.reg_advance, Context.reg_setReg, hu]

/-! ## The queues -/

theorem popsQueue_iff (id : CtxId) (q : BitVec 2) : popsQueue id q = true ↔ pops id q := by
  cases id
  · simp [popsQueue, pops]
  · change (false == decide (q.toNat < 2)) = true ↔ _
    simp [pops, Nat.lt_iff_add_one_le]

theorem Strand.queue_eq (st : Strand) (q : BitVec 2) : st.queue q = inQueue st q := by
  simp [Strand.queue, inQueue, Vector.getElem?_eq_getElem q.isLt]

theorem inQueue_setQueue (st : Strand) (q k : BitVec 2) (l : List Word) :
    inQueue (st.setQueue q l) k = if k = q then l else inQueue st k := by
  by_cases h : k = q
  · subst h
    simp [inQueue, Strand.setQueue]
  · have hne : q.toNat ≠ k.toNat := fun hn => h (BitVec.eq_of_toNat_eq hn.symm)
    simp [inQueue, Strand.setQueue, h, hne]

theorem inQueue_setCtx (st : Strand) (id : CtxId) (c : Context) (q : BitVec 2) : inQueue (st.setCtx id c) q = inQueue st q := by
  cases id <;> rfl

theorem Strand.ctx_setQueue (st : Strand) (q : BitVec 2) (l : List Word) (id : CtxId) : (st.setQueue q l).ctx id = st.ctx id := by
  cases id <;> rfl

theorem queueTval_eq (q : BitVec 2) : queueTval q.toNat = q.setWidth 64 := by
  revert q
  decide

theorem other_eq (s : State) (st : Strand) : st.ctx (otherCtx s.cur.ctx) = other s st := by
  cases h : s.cur.ctx <;> simp only [other, h] <;> rfl

/-- What an instruction that leaves a queue with other values, writes a register and goes on leaves. -/
theorem queue_left {s : State} {st : Strand} (q : BitVec 2) (l : List Word) (d : Reg) (x pc : Word) (h : s.strand? s.cur.slot = some st) :
    ∃ t st', Host.Outcome.next ((s.updStrand s.cur.slot (fun u => u.setQueue q l)).updCtx s.cur.slot s.cur.ctx
        (fun c => (c.setReg d x).advance pc)) = (.next t : Out) ∧
      Moved s st t pc d x st' ∧ SameOutside s t ∧ ∀ k, inQueue st' k = if k = q then l else inQueue st k := by
  refine ⟨_, _, congrArg _ (State.updStrand_updCtx _ _ _ h), moved_setStrand d x pc (Strand.ctx_setQueue ..), sameOutside_setStrand .., ?_⟩
  intro k
  rw [inQueue_setCtx, inQueue_setQueue]

/-- R14, R157: the oldest value of a queue that the context pops is removed and goes on. -/
theorem State.popQueue_cons {s : State} {st : Strand} {q : BitVec 2} {x : Word} {rest : List Word} (got : Word → State → Act)
    (hp : pops s.cur.ctx q) (hq : inQueue st q = x :: rest) :
    s.popQueue (Env.here s st) q got = got x (s.updStrand s.cur.slot (fun st => st.setQueue q rest)) := by
  simp only [State.popQueue, Env.ctx_here, Env.st_here, Env.slot_here, (popsQueue_iff _ _).2 hp, Strand.queue_eq, hq, Bool.not_true,
    Bool.false_eq_true, ↓reduceIte]

/-- R13, R14: a pop from the wrong side, or of an empty queue that no one will fill, is a misuse. -/
theorem State.popQueue_misused {s : State} {st : Strand} {q : BitVec 2} (got : Word → State → Act)
    (hp : ¬ pops s.cur.ctx q ∨ inQueue st q = [] ∧ (other s st).retired = true) :
    s.popQueue (Env.here s st) q got = .trap .streamProtocol (q.setWidth 64) s := by
  rcases hp with hp | ⟨hq, hr⟩
  · simp only [State.popQueue, Env.ctx_here, mt (popsQueue_iff _ _).1 hp, queueTval_eq, Bool.not_false, ↓reduceIte]
  · by_cases hp : popsQueue s.cur.ctx q = true
    · simp only [State.popQueue, Env.ctx_here, Env.st_here, hp, Strand.queue_eq, hq, other_eq, hr, queueTval_eq, Bool.not_true,
        Bool.false_eq_true, ↓reduceIte]
    · simp only [State.popQueue, Env.ctx_here, hp, queueTval_eq, Bool.not_false, ↓reduceIte]

theorem queuesAreFirstInFirstOut_claim : Claim.QueuesAreFirstInFirstOut := by
  intro r q off s st
  refine ⟨fun h hb hp hlen hrel => ?_, fun h hb hp x rest hq => ?_, fun h hi hp x rest hq => ?_⟩
  · change ∃ t st', execQpush r q s = .next t ∧ _
    have hp' : popsQueue s.cur.ctx q = false := Bool.eq_false_iff.2 (mt (popsQueue_iff _ _).1 hp)
    rw [execQpush, State.issue_ready _ _ _ h (Context.admits_of_bare _ hb) (by decide) rfl]
    simp only [Env.ctx_here, Env.st_here, Env.slot_here, Env.reg_here, hp', Strand.queue_eq, if_neg (Nat.not_le.2 hlen), hrel,
      Bool.false_eq_true, ↓reduceIte, State.conclude_done]
    obtain ⟨t, st', ht, hm, ho, hk⟩ := queue_left (s := s) q (inQueue st q ++ [(running s st).reg r]) 0 0 ((running s st).pc + 4) h.1
    refine ⟨t, st', ?_, hm, ho, fun k => (hk k).trans (by split <;> simp [*])⟩
    rw [← ht]
    simp only [State.updStrand_updCtx _ _ _ h.1, Strand.ctx_setQueue]
    rfl
  · change ∃ t st', execQpop r q s = .next t ∧ _
    rw [execQpop, State.issue_ready _ _ _ h (Context.admits_of_bare _ hb) (by decide) rfl, State.popQueue_cons _ hp hq]
    obtain ⟨t, st', ht, hm, ho, hk⟩ := queue_left (s := s) q rest r x ((running s st).pc + 4) h.1
    refine ⟨t, st', ?_, hm, ho, hk⟩
    rw [← ht, State.conclude_done]
    rw [State.setReg, Env.slot_here, Env.ctx_here, State.updCtx_comp]
    simp only [State.updStrand_updCtx _ _ _ h.1, Strand.ctx_setQueue, Context.setReg_pc]
    rfl
  · change ∃ t st', execBq q off s = .next t ∧ _
    rw [execBq, State.issue_ready _ _ _ h (Context.admits_wideForm hi) (by decide) rfl, State.popQueue_cons _ hp hq]
    obtain ⟨t, st', ht, hm, ho, hk⟩ := queue_left (s := s) q rest 0 0 (if x = 0 then (running s st).pc + 4 else target (running s st) off) h.1
    refine ⟨t, st', ?_, hm, ho, hk⟩
    rw [← ht, Env.target_here]
    simp only [State.updStrand_updCtx _ _ _ h.1]
    split
    · rw [State.conclude_done, State.updStrand_updCtx _ _ _ h.1]
      rfl
    · rw [State.conclude_jump, State.updStrand_updCtx _ _ _ h.1]
      rfl

theorem queueMisuseTraps_claim : Claim.QueueMisuseTraps := by
  intro r q off s st h hb
  have hbare {f : Form} : (running s st).Admits f := Context.admits_of_bare f hb
  have h0 : Stands s st [] := stands_of_subset h (by simp)
  have hpop (hm : ¬ pops s.cur.ctx q ∨ inQueue st q = [] ∧ (other s st).retired = true) :
      exec (.qpop r q) s = traps s .streamProtocol (q.setWidth 64) ∧ exec (.bq q off) s = traps s .streamProtocol (q.setWidth 64) := by
    constructor
    · change execQpop r q s = _
      rw [execQpop, State.issue_ready _ _ _ h hbare (by decide) rfl, State.popQueue_misused _ hm, State.conclude_trap]
      exact (trapsIn_self ..).symm
    · change execBq q off s = _
      rw [execBq, State.issue_ready _ _ _ h0 hbare (by decide) rfl, State.popQueue_misused _ hm, State.conclude_trap]
      exact (trapsIn_self ..).symm
  refine ⟨fun hp => ?_, fun hp => hpop (.inl hp), fun hp hlen hr => ?_, fun _ hq hr => hpop (.inr ⟨hq, hr⟩)⟩
  · change execQpush r q s = _
    rw [execQpush, State.issue_ready _ _ _ h hbare (by decide) rfl]
    simp only [Env.ctx_here, (popsQueue_iff _ _).2 hp, queueTval_eq, ↓reduceIte, State.conclude_trap]
    exact (trapsIn_self ..).symm
  · change execQpush r q s = _
    rw [execQpush, State.issue_ready _ _ _ h hbare (by decide) rfl]
    simp only [Env.ctx_here, Env.st_here, mt (popsQueue_iff _ _).1 hp, Strand.queue_eq, if_pos hlen, other_eq, hr, queueTval_eq,
      Bool.false_eq_true, ↓reduceIte, State.conclude_trap]
    exact (trapsIn_self ..).symm

/-- Settles O11: a push and a pop rewrite one queue of the strand and move its context; a misuse is answered before anything is read. -/
theorem queuesAreFirstInFirstOut : Obligations.QueuesAreFirstInFirstOut :=
  ⟨queuesAreFirstInFirstOut_claim, queueMisuseTraps_claim⟩

end Sys2Proof.Machine

/-! # Chapter 7: prefixes, R119 and R130 to R132 -/

namespace Sys2Proof.Machine
-- one proof at a time: the memory of proofs in flight together is more than the check has
set_option Elab.async false
open Sys2Proof.Claim

/-- R130: a prefix of a kind not yet read is kept. -/
theorem State.readPrefix_keeps {s : State} {st : Strand} (i : Instr) {second : Prefixes → Bool} (f : Prefixes → Prefixes)
    (h : s.strand? s.cur.slot = some st) (hn : ((running s st).prefixes.map second).getD false = false) :
    s.readPrefix i second f = .next (s.setStrand s.cur.slot (st.setCtx s.cur.ctx
      ((running s st).prefixed (((encode i).getD []).headD 0) f))) := by
  simp only [running] at hn ⊢
  simp only [State.readPrefix, h, hn, Bool.false_eq_true, ↓reduceIte, State.updCtx_of _ _ _ h]

/-- R130: a second one of its kind is refused at the sequence's first word. -/
theorem State.readPrefix_refuses {s : State} {st : Strand} (i : Instr) {second : Prefixes → Bool} (f : Prefixes → Prefixes)
    (h : s.strand? s.cur.slot = some st) (hn : ((running s st).prefixes.map second).getD false = true) :
    s.readPrefix i second f = traps s .illegalPrefix (((running s st).prefixes.map (fun p => zext p.word)).getD (word0 i)) := by
  simp only [running] at hn ⊢
  simp only [State.readPrefix, h, hn, ↓reduceIte]
  exact (trapsIn_self ..).symm

/-- What a kept prefix leaves of its context and outside. -/
theorem prefixed_left {s : State} {st : Strand} (w0 : BitVec 32) (f : Prefixes → Prefixes) (g : Prefixes → Prop)
    (hfirst : ∀ p, (f p).first = p.first)
    (hg : g (f ((running s st).prefixes.getD { first := (running s st).pc, word := w0, imx := none, mattr := none, rejected := false }))) :
    ∃ t st' p, (.next (s.setStrand s.cur.slot (st.setCtx s.cur.ctx ((running s st).prefixed w0 f))) : Out) = .next t ∧ SameOutside s t ∧
      t.strand? s.cur.slot = some st' ∧ (running s st').prefixes = some p ∧
      p.first = ((running s st).prefixes.map (·.first)).getD (running s st).pc ∧ g p ∧
      (running s st').pc = (running s st).pc + 4 ∧ (running s st').issues = (running s st).issues ∧
      ∀ r, (running s st').reg r = (running s st).reg r := by
  refine ⟨_, _, _, rfl, sameOutside_setStrand .., State.strand?_setStrand .., congrArg Context.prefixes (Strand.ctx_setCtx ..), ?_, hg, ?_⟩
  · rw [hfirst]
    cases (running s st).prefixes <;> rfl
  · simp only [running, Strand.ctx_setCtx]
    exact ⟨rfl, rfl, fun _ => rfl⟩

theorem prefixesAreKept_claim : Claim.PrefixesAreKept := by
  intro payload scope cache order s st h
  refine ⟨fun hn => ?_, fun hn => State.readPrefix_refuses _ _ h.1 hn, fun hn => ?_, fun hn => State.readPrefix_refuses _ _ h.1 hn⟩
  · dsimp only
    rw [show exec (.imx payload) s = _ from State.readPrefix_keeps _ _ h.1 hn]
    refine prefixed_left _ _ (fun p => p.imx = some payload ∧ p.mattr = mattr (running s st)) (fun _ => rfl) ⟨rfl, ?_⟩
    simp only [mattr]
    cases (running s st).prefixes <;> rfl
  · dsimp only
    rw [show exec (.mattr scope cache order) s = _ from State.readPrefix_keeps _ _ h.1 hn]
    refine prefixed_left _ _ (fun p => p.mattr = some (scope, cache, order) ∧ p.imx = (running s st).prefixes.bind (·.imx))
      (fun _ => rfl) ⟨rfl, ?_⟩
    cases (running s st).prefixes <;> rfl

/-- An SR instruction on two registers takes its prefixes as every one of its shape does. -/
def RunsAsIntOp (mk : Reg → Reg → Reg → Instr) : Prop := ∃ f, ∀ d a b s, exec (mk d a b) s = s.intOp (mk d a b) d a b f

theorem intOps_runAsIntOp : ∀ op ∈ intOps, RunsAsIntOp op.1 := by
  simp only [intOps, List.forall_mem_cons]
  exact
    ⟨⟨fun x y => x + y, fun _ _ _ _ => rfl⟩,
     ⟨fun x y => x - y, fun _ _ _ _ => rfl⟩,
     ⟨fun x y => x * y, fun _ _ _ _ => rfl⟩,
     ⟨mulHigh, fun _ _ _ _ => rfl⟩,
     ⟨mulHighU, fun _ _ _ _ => rfl⟩,
     ⟨minSigned, fun _ _ _ _ => rfl⟩,
     ⟨maxSigned, fun _ _ _ _ => rfl⟩,
     ⟨minUnsigned, fun _ _ _ _ => rfl⟩,
     ⟨maxUnsigned, fun _ _ _ _ => rfl⟩,
     ⟨fun x y => x &&& y, fun _ _ _ _ => rfl⟩,
     ⟨fun x y => x ||| y, fun _ _ _ _ => rfl⟩,
     ⟨fun x y => x ^^^ y, fun _ _ _ _ => rfl⟩,
     ⟨fun x y => x &&& ~~~y, fun _ _ _ _ => rfl⟩,
     ⟨fun x y => x <<< places y, fun _ _ _ _ => rfl⟩,
     ⟨fun x y => x >>> places y, fun _ _ _ _ => rfl⟩,
     ⟨fun x y => x.sshiftRight (places y), fun _ _ _ _ => rfl⟩,
     ⟨fun x y => x.rotateLeft (places y), fun _ _ _ _ => rfl⟩,
     ⟨fun x y => flagWord (decide (x.toInt < y.toInt)), fun _ _ _ _ => rfl⟩,
     ⟨fun x y => flagWord (decide (x.toNat < y.toNat)), fun _ _ _ _ => rfl⟩, nofun⟩

theorem divOps_runAsIntOp : ∀ op ∈ divOps, RunsAsIntOp op.1 := by
  simp only [divOps, List.forall_mem_cons]
  exact
    ⟨⟨divSigned, fun _ _ _ _ => rfl⟩,
     ⟨divUnsigned, fun _ _ _ _ => rfl⟩,
     ⟨remSigned, fun _ _ _ _ => rfl⟩,
     ⟨remUnsigned, fun _ _ _ _ => rfl⟩, nofun⟩

theorem refusedPrefixTraps_claim : Claim.RefusedPrefixTraps := by
  intro op hop d a b s st p h hp hany
  obtain ⟨f, hexec⟩ : RunsAsIntOp op.1 := (List.mem_append.mp hop).elim (intOps_runAsIntOp op) (divOps_runAsIntOp op)
  have hill : p.illegal plainForm = true := by
    rcases hany with hi | hm | hr
    · simp [Prefixes.illegal, plainForm, hi]
    · obtain ⟨m, hm⟩ := Option.isSome_iff_exists.1 hm
      simp [Prefixes.illegal, plainForm, hm, MattrUse.admits]
    · simp [Prefixes.illegal, hr]
  rw [hexec, State.intOp, State.issue_illegal _ _ _ _ h hp hill, Context.firstWord, show (st.ctx s.cur.ctx).prefixes = some p from hp]
  exact (trapsIn_self ..).symm

/-- Settles O12: a prefix is kept or refused by what the sequence has already, and an instruction that takes none refuses any. -/
theorem prefixesAreKept : Obligations.PrefixesAreKept := ⟨prefixesAreKept_claim, refusedPrefixTraps_claim⟩

end Sys2Proof.Machine

/-! # What accesses of memory leave as it was -/

namespace Sys2Proof.Machine
-- one proof at a time: the memory of proofs in flight together is more than the check has
set_option Elab.async false
open Sys2Proof.Claim

/-- The state without its memories and what is kept of them: caches, shadows, poison, translations, records, and the free values
drawn. -/
def State.sansMemory (s : State) : State :=
  { s with
    draws := 0, dev := { cells := [] }, ws := Vector.replicate 2 { cells := [] }, host := { cells := [] }, remotes := [], clusters := [],
    shadows := [], poison := [], tlb := [], recorders := [], replaying := [] }

theorem State.strands_of_sansMemory {s t : State} (h : t.sansMemory = s.sansMemory) : t.strands = s.strands :=
  (congrArg State.strands h :)

theorem State.strand?_of_sansMemory {s t : State} (h : t.sansMemory = s.sansMemory) (k : Nat) : t.strand? k = s.strand? k :=
  congrArg (lookup · k) (State.strands_of_sansMemory h)

theorem State.launch?_of_sansMemory {s t : State} (h : t.sansMemory = s.sansMemory) (k : Nat) : t.launch? k = s.launch? k :=
  (congrArg (fun u : State => lookup u.launches k) h :)

theorem State.sansMemory_foldl {α : Type} (f : State → α → State) (hf : ∀ s x, (f s x).sansMemory = s.sansMemory) (l : List α) (s : State) :
    (l.foldl f s).sansMemory = s.sansMemory := by
  induction l generalizing s with
  | nil => rfl
  | cons x rest ih => exact (ih (f s x)).trans (hf s x)

@[simp] theorem State.sansMemory_drawn (s : State) : s.drawn.sansMemory = s.sansMemory := rfl

@[simp] theorem State.sansMemory_setCluster (s : State) (k : Nat) (c : Cluster) : (s.setCluster k c).sansMemory = s.sansMemory := rfl

@[simp] theorem State.sansMemory_mirror (s : State) (pa : Nat) (bs : List Byte) : (s.mirror pa bs).sansMemory = s.sansMemory := by
  unfold State.mirror
  split <;> rfl

@[simp] theorem State.sansMemory_heal (s : State) (spans : List (Nat × Nat)) : (s.heal spans).sansMemory = s.sansMemory := by
  unfold State.heal
  split <;> rfl

@[simp] theorem State.sansMemory_putBytes (s : State) (k : Nat) (p : Place) (bs : List Byte) :
    (s.putBytes k p bs).sansMemory = s.sansMemory := by
  cases p with
  | scratch | host | remote => rfl
  | ws die off =>
    unfold State.putBytes
    dsimp only
    split <;> rfl
  | dev pa =>
    unfold State.putBytes
    dsimp only
    split
    · exact State.sansMemory_mirror ..
    · exact State.sansMemory_mirror ..

@[simp] theorem State.sansMemory_setAD (s : State) (addr : Nat) (intent : Intent) : (s.setAD addr intent).sansMemory = s.sansMemory := by
  unfold State.setAD
  dsimp only
  split
  · rfl
  · exact State.sansMemory_putBytes ..

@[simp] theorem State.sansMemory_markLeaf (s : State) (l : Leaf) (intent : Intent) : (s.markLeaf l intent).sansMemory = s.sansMemory :=
  State.sansMemory_foldl _ (fun s a => s.sansMemory_setAD a intent) _ s

@[simp] theorem State.sansMemory_fwMark (s : State) (asid va n : Nat) (intent : Intent) :
    (s.fwMark asid va n intent).sansMemory = s.sansMemory := by
  refine State.sansMemory_foldl _ (fun s i => ?_) _ s
  dsimp only
  split
  · exact s.sansMemory_markLeaf _ _
  · rfl

theorem State.sansMemory_fwBytes (bs : List Byte) (s : State) (asid va : Nat) : (s.fwBytes asid va bs).sansMemory = s.sansMemory := by
  induction bs generalizing s va with
  | nil => rfl
  | cons b rest ih =>
    refine (ih _ _).trans ?_
    split
    · exact State.sansMemory_putBytes ..
    · rfl

/-- What the firmware writes is memory alone. -/
@[simp] theorem State.sansMemory_fwWrite (s : State) (asid va : Nat) (bs : List Byte) : (s.fwWrite asid va bs).sansMemory = s.sansMemory := by
  unfold State.fwWrite
  dsimp only
  have h := (State.sansMemory_fwBytes bs _ asid va).trans (s.sansMemory_fwMark asid va bs.length .store)
  split
  · exact h
  · exact (State.sansMemory_heal ..).trans h

@[simp] theorem State.sansMemory_putRecord (s : State) (r : Recorder) (index : Nat) (bs : List Byte) :
    (s.putRecord r index bs).sansMemory = s.sansMemory := by
  unfold State.putRecord
  split
  · rfl
  · exact State.sansMemory_mirror ..

/-- So is a record. -/
@[simp] theorem State.sansMemory_record (s : State) (part kind : Nat) (data : List Nat) :
    (s.record part kind data).sansMemory = s.sansMemory := by
  unfold State.record
  split
  · rfl
  · dsimp only
    split
    · exact (State.sansMemory_foldl _ (fun s i => s.sansMemory_putRecord ..) _ _).trans (s.sansMemory_putRecord ..)
    · exact s.sansMemory_putRecord ..

@[simp] theorem State.sansMemory_recordFault (s : State) (st : Strand) (cause : Cause) :
    (s.recordFault st cause).sansMemory = s.sansMemory := by
  unfold State.recordFault
  split
  · rfl
  · split
    · rfl
    · dsimp only
      split
      · exact s.sansMemory_record ..
      · rfl

end Sys2Proof.Machine

/-! # Chapter 20: traps, R39, R309, R310 and R312 -/

namespace Sys2Proof.Machine
-- one proof at a time: the memory of proofs in flight together is more than the check has
set_option Elab.async false
open Sys2Proof.Claim

/-! ## What freezing leaves of the strand -/

/-- Results that arrive write registers and nothing else of their context (R19). -/
theorem foldl_setReg (l : List SyncRead) (c : Context) :
    ∃ g, l.foldl (fun c r => c.setReg (BitVec.ofNat 5 r.reg) r.value) c = { c with g } := by
  induction l generalizing c with
  | nil => exact ⟨c.g, rfl⟩
  | cons r rest ih =>
    obtain ⟨g, hg⟩ := ih (c.setReg (BitVec.ofNat 5 r.reg) r.value)
    refine ⟨g, hg.trans ?_⟩
    unfold Context.setReg
    split <;> rfl

theorem State.freezeFrame_strand {s : State} {slot : Nat} {st : Strand} (imprecise : Bool) (tpc : Word) (h : s.strand? slot = some st) :
    ∃ st' g, (s.freezeFrame slot imprecise tpc).strand? slot = some st' ∧ st'.exec = { st.exec with g } ∧ st'.access = st.access := by
  by_cases hf : st.frame.isSome = true
  · exact ⟨st, st.exec.g, by rw [State.freezeFrame_held _ _ h hf, h], rfl, rfl⟩
  · obtain ⟨g, hg⟩ := foldl_setReg st.reads st.exec
    unfold State.freezeFrame
    rw [h]
    dsimp only
    rw [if_neg hf]
    refine ⟨_, g, State.strand?_setStrand .., ?_, ?_⟩
    · exact (apply_ite Strand.exec _ _ _).trans ((ite_self _).trans hg)
    · exact (apply_ite Strand.access _ _ _).trans (ite_self _)

/-! ## Entry -/

/-- What a trap leaves of a context whose registers alone may have changed before. -/
theorem entered_trapped (c : Context) (g : Vector Word 32) (t : Trap) (hi : t.imprecise = false) :
    Entered c (Context.trapped { c with g } t) t.cause.code t.vector t.tval t.tpc :=
  ⟨rfl, rfl, rfl, rfl, rfl, rfl, rfl, rfl, rfl, hi, rfl, rfl, rfl, rfl, rfl, rfl, rfl⟩

/-- R309: a precise trap of a context that is in none. -/
theorem preciseTrapEntry_claim : Claim.PreciseTrapEntry := by
  intro s st cause vector tval h hi
  rw [State.preciseTrap_of _ _ _ _ h]
  have hrec (c : Cause) : (s.recordFault st c).strand? s.cur.slot = some st :=
    (State.strand?_of_sansMemory (s.sansMemory_recordFault st c) _).trans h
  cases hid : s.cur.ctx with
  | access =>
    rw [running, hid] at hi
    rw [State.enterTrap_access h hi, State.updCtx_of _ _ _ ((State.strand?_abandon ..).trans (hrec cause))]
    refine ⟨_, State.strand?_setStrand .., ?_⟩
    simp only [running, other, hid]
    exact ⟨entered_trapped st.access st.access.g _ rfl, rfl, fun _ _ => rfl⟩
  | execute =>
    rw [running, hid] at hi
    obtain ⟨st', g, hst', hexec, haccess⟩ := State.freezeFrame_strand (s := (s.recordFault st cause).abandon (.context s.cur.slot .execute))
      (slot := s.cur.slot) false (st.ctx .execute).start (hrec cause)
    rw [State.enterTrap_execute h hi, State.updCtx_of _ _ _ hst']
    refine ⟨_, State.strand?_setStrand .., ?_⟩
    simp only [running, other, hid, Strand.ctx_setCtx]
    refine ⟨?_, haccess, nofun⟩
    change Entered st.exec (Context.trapped st'.exec _) _ _ _ _
    rw [hexec]
    exact entered_trapped st.exec g _ rfl

/-- What a trap that no recorder keeps leaves outside its strand. -/
theorem State.enterTrap_outside {s : State} {st : Strand} {slot : Nat} {id : CtxId} {t : Trap} (h : s.strand? slot = some st)
    (hi : (st.ctx id).intrap = false) (hrec : s.recordFault st t.cause = s) :
    (s.enterTrap slot id t).dev = s.dev ∧ (s.enterTrap slot id t).ws = s.ws ∧ (s.enterTrap slot id t).host = s.host ∧
      (s.enterTrap slot id t).remotes = s.remotes ∧ ∀ k, k ≠ slot → (s.enterTrap slot id t).strand? k = s.strand? k := by
  have hne (u : State) (f : Context → Context) (k : Nat) (hk : k ≠ slot) : (u.updCtx slot id f).strand? k = u.strand? k := by
    unfold State.updCtx State.updStrand
    split
    · rfl
    · exact State.strand?_setStrand_ne _ _ hk
  cases id with
  | access =>
    rw [State.enterTrap_access h hi, hrec]
    simp only [State.updCtx_dev, State.updCtx_ws, State.updCtx_host, State.updCtx_remotes]
    exact ⟨rfl, rfl, rfl, rfl, fun k hk => hne _ _ k hk⟩
  | execute =>
    rw [State.enterTrap_execute h hi, hrec]
    simp only [State.updCtx_dev, State.updCtx_ws, State.updCtx_host, State.updCtx_remotes]
    obtain ⟨hdev, hws, hhost, hremotes⟩ := (s.abandon (.context slot .execute)).freezeFrame_memories slot t.imprecise t.tpc
    exact ⟨hdev, hws, hhost, hremotes, fun k hk => (hne _ _ k hk).trans (State.freezeFrame_others _ _ _ _ hk)⟩

theorem Env.ysImm_here (s : State) (st : Strand) (x : BitVec 32) : (Env.here s st).ysImm x = imm32 (running s st) x := by
  simp only [Env.ysImm, imm32, Env.here, running]
  cases (st.ctx s.cur.ctx).prefixes.bind (·.imx) <;> rfl

theorem Context.admits_ysImmForm {c : Context} (h : AtMostImx c) : c.Admits ysImmForm := Context.admits_wideForm h

/-- An instruction whose whole execution is a trap. -/
theorem State.issue_traps {s : State} {st : Strand} {regs : List Reg} (i : Instr) (f : Form) {body : Env → Act} {cause : Cause} {tval : Word}
    (h : Stands s st regs) (hp : (running s st).Admits f) (hz : f.imx ≠ .zero) (hu : f.priv = false)
    (hbody : body (Env.here s st) = .trap cause tval s) : s.issue i f regs body = trapsIn s s cause f.vector tval := by
  rw [State.issue_ready i f _ h hp hz hu, hbody, State.conclude_trap, trapsIn_self]

theorem execSyscall_traps {s : State} {st : Strand} (f : YsF) (h : Stands s st []) (hp : AtMostImx (running s st)) :
    exec (.syscall f) s = trapsIn s s .systemCall false (imm32 (running s st) f.imm) := by
  change execSyscall f s = _
  exact State.issue_traps _ _ h (Context.admits_ysImmForm hp) (by decide) rfl (by rw [Env.ysImm_here])

theorem execBrk_traps {s : State} {st : Strand} (f : YsF) (h : Stands s st []) (hp : AtMostImx (running s st)) :
    exec (.brk f) s = trapsIn s s .breakpoint false (imm32 (running s st) f.imm) := by
  change execBrk f s = _
  exact State.issue_traps _ _ h (Context.admits_ysImmForm hp) (by decide) rfl (by rw [Env.ysImm_here])

/-- R309, R310: SYSCALL's and BREAK's traps. -/
theorem systemCallAndBreakpointTrap_claim : Claim.SystemCallAndBreakpointTrap := by
  intro f s st h hp hi
  have hentry (cause : Cause) (hrec : s.recordFault st cause = s) (hbusy : s.cur.ctx = .execute → s.arrayBusy s.cur.slot = false) :
      ∃ t st', trapsIn s s cause false (imm32 (running s st) f.imm) = .next t ∧ t.strand? s.cur.slot = some st' ∧
        Entered (running s st) (running s st') cause.code false (imm32 (running s st) f.imm)
          (((running s st).prefixes.map (·.first)).getD (running s st).pc) ∧
        other s st' = other s st ∧ t.dev = s.dev ∧ t.ws = s.ws ∧ t.host = s.host ∧ t.remotes = s.remotes ∧
        ∀ k, k ≠ s.cur.slot → t.strand? k = s.strand? k := by
    obtain ⟨st', hst', hent, hother, -⟩ := preciseTrapEntry_claim s st cause false (imm32 (running s st) f.imm) h.1 hi
    refine ⟨_, st', if_neg (fun hb => ?_), hst', hent, hother, ?_⟩
    · rw [hbusy hb.1] at hb
      exact absurd hb.2 (by decide)
    · rw [State.preciseTrap_of _ _ _ _ h.1]
      exact State.enterTrap_outside h.1 hi hrec
  refine ⟨fun hbusy => ⟨?_, ?_⟩, fun hx hbusy => ⟨?_, ?_⟩⟩
  · dsimp only
    rw [execSyscall_traps f h hp]
    exact hentry .systemCall (if_pos (by decide)) hbusy
  · dsimp only
    rw [execBrk_traps f h hp]
    exact hentry .breakpoint (if_pos (by decide)) hbusy
  · rw [execSyscall_traps f h hp]
    exact if_pos ⟨hx, hbusy⟩
  · rw [execBrk_traps f h hp]
    exact if_pos ⟨hx, hbusy⟩

end Sys2Proof.Machine

/-! ## What a trap freezes, and how one in a trap ends the strand -/

namespace Sys2Proof.Machine
-- one proof at a time: the memory of proofs in flight together is more than the check has
set_option Elab.async false
open Sys2Proof.Claim

/-! ### Records touch no cluster -/

theorem State.putRecord_clusters (s : State) (r : Recorder) (index : Nat) (bs : List Byte) : (s.putRecord r index bs).clusters = s.clusters := by
  unfold State.putRecord State.mirror
  split
  · rfl
  · dsimp only
    split <;> rfl

theorem State.record_clusters (s : State) (part kind : Nat) (data : List Nat) : (s.record part kind data).clusters = s.clusters := by
  have hfold (l : List Nat) (f : Nat → Recorder × Nat × List Byte) (s : State) :
      (l.foldl (fun (s : State) i => s.putRecord (f i).1 (f i).2.1 (f i).2.2) s).clusters = s.clusters := by
    induction l generalizing s with
    | nil => rfl
    | cons i rest ih => exact (ih _).trans (s.putRecord_clusters ..)
  unfold State.record
  split
  · rfl
  · next r _ =>
    dsimp only
    split
    · exact (hfold _ (fun i => (r, r.nextIndex + 1 + i, _)) _).trans (s.putRecord_clusters ..)
    · exact s.putRecord_clusters ..

theorem State.recordFault_clusters (s : State) (st : Strand) (cause : Cause) : (s.recordFault st cause).clusters = s.clusters := by
  unfold State.recordFault
  split
  · rfl
  · split
    · rfl
    · dsimp only
      split
      · exact s.record_clusters ..
      · rfl

/-! ### R312 -/

theorem map_instr_frozen (l : List VqEntry) : (l.map VqEntry.frozen).map (·.instr) = l.map (·.instr) := by
  rw [List.map_map]
  rfl

/-- R312: the frame that freezing leaves where vector work is unfinished and no repartition runs. -/
theorem State.freezeFrame_holds {s : State} {slot : Nat} {st : Strand} (imprecise : Bool) (tpc : Word) (h : s.strand? slot = some st)
    (hf : st.frame = none) (hr : s.repartitioning slot = false) (hwork : ∃ e ∈ st.vq, e.progress ≠ .done) :
    ∃ st' fr, (s.freezeFrame slot imprecise tpc).strand? slot = some st' ∧ st'.vq = [] ∧ st'.pending = [] ∧ st'.frame = some fr ∧
      fr.queued.map (·.instr) = (st.vq.filter (fun e => e.progress != .done)).map (·.instr) ∧
      fr.matrix.map (·.instr) = (((s.cluster (clusterOf slot)).matrixOf slot).filter (fun e => e.progress != .done)).map (·.instr) ∧
      (∀ r, r ∈ fr.pending ↔ r ∈ st.pending ∧ ∀ x ∈ st.reads, x.reg ≠ r) ∧
      st'.v = st.v ∧ st'.tags = st.tags ∧ st'.tiles = st.tiles := by
  obtain ⟨e, he, hne⟩ := hwork
  have hqueued : ((st.deliverReads.vq.filter (fun e => e.progress != .done)).map VqEntry.frozen).isEmpty = false := by
    rw [List.isEmpty_map, List.isEmpty_eq_false_iff]
    exact List.ne_nil_of_mem (List.mem_filter.2 ⟨he, by simpa using hne⟩)
  unfold State.freezeFrame
  rw [h]
  dsimp only
  rw [if_neg (by simp [hf]), hr]
  simp only [Bool.false_eq_true, if_false, hqueued, Bool.not_false, Bool.true_or, if_true]
  refine ⟨_, _, State.strand?_setStrand .., rfl, rfl, rfl, map_instr_frozen _, map_instr_frozen _, fun r => ?_, rfl, rfl, rfl⟩
  simp [Strand.deliverReads]

/-- Settles O14: what freezing leaves is what the trap leaves, but for the context's trap registers. -/
theorem trapFreezesVectorWork : Obligations.TrapFreezesVectorWork := by
  intro s st cause tval h hid hi hf hr hwork
  have hrec : (s.recordFault st cause).strand? s.cur.slot = some st :=
    (State.strand?_of_sansMemory (s.sansMemory_recordFault st cause) _).trans h
  have hcluster (k : Nat) : (s.recordFault st cause).cluster k = s.cluster k :=
    congrArg (fun l => (lookup l k).getD Cluster.blank) (s.recordFault_clusters st cause)
  have hr' : ((s.recordFault st cause).abandon (.context s.cur.slot .execute)).repartitioning s.cur.slot = false := by
    unfold State.repartitioning at hr ⊢
    rwa [State.cluster_abandon, hcluster]
  obtain ⟨st', fr, hst', hvq, hpending, hframe, hqueued, hmatrix, hregs, hv, htags, htiles⟩ := State.freezeFrame_holds
    (s := (s.recordFault st cause).abandon (.context s.cur.slot .execute)) false (st.ctx .execute).start hrec hf hr' hwork
  rw [State.preciseTrap_of _ _ _ _ h, State.enterTrap_execute h hi, State.updCtx_of _ _ _ hst']
  rw [State.cluster_abandon, hcluster] at hmatrix
  exact ⟨_, fr, State.strand?_setStrand .., hvq, hpending, hframe, hqueued, hmatrix, hregs, hv, htags, htiles⟩

/-! ### R39 -/

theorem State.strandGone_strands {s : State} {st : Strand} (status cause : BitVec 8) (fr : Option FaultRecord) (hs : st.sibling = none)
    (hg : st.group = none) : (s.strandGone st status cause fr).strands = s.strands := by
  unfold State.strandGone
  split
  · rfl
  · dsimp only
    have hsib (u : State) : u.siblingGone st status = u := by
      unfold State.siblingGone
      rw [hs]
    have hspl (u : State) : u.spliceGone st status = u := by
      unfold State.spliceGone
      rw [hg]
    have hout (u : State) (g : Nat × Nat × CtxId → Bool) (q : Nat) : ((u.dropOwners g).report q).strands = u.strands := rfl
    rw [hsib, hspl, hout]
    exact (apply_ite State.strands _ _ _).trans (ite_self _)

theorem State.vacate_strands (s : State) (slot : Nat) : (s.vacate slot).strands = s.strands := by
  unfold State.vacate
  dsimp only
  split <;> rfl

theorem State.closeGroup_strands (s : State) (gid : Nat) (g : SibGroup) (launch : Nat) (l : Launch) :
    (s.closeGroup gid g launch l).strands = s.strands := by
  have hw := State.strands_of_sansMemory (s.sansMemory_fwWrite l.asid g.acct.toNat g.record)
  unfold State.closeGroup
  generalize s.fwWrite l.asid g.acct.toNat g.record = t at hw ⊢
  exact hw

theorem State.closeIfOver_strands (s : State) (launch : Nat) : (s.closeIfOver launch).strands = s.strands := by
  unfold State.closeIfOver
  split
  · rfl
  · split
    · rfl
    · split
      · exact s.closeGroup_strands ..
      · rfl

/-- A cluster that holds another strand of the launch frees no slot yet (R39). -/
theorem State.freeSlots_of_mate {s : State} {cluster launch k : Nat} {mate : Strand} (h : s.strand? k = some mate)
    (hk : clusterOf k = cluster) (hl : mate.launch = launch) (hlife : mate.life ≠ .retired) : s.freeSlots cluster launch = s := by
  unfold State.freeSlots
  refine if_neg (fun hall => hlife ?_)
  have hmem : (k, mate) ∈ s.strands.filter (fun p => clusterOf p.1 == cluster && p.2.launch == launch) :=
    List.mem_filter.2 ⟨lookup_mem h, by simp [hk, hl]⟩
  simpa using List.all_eq_true.1 hall _ hmem

/-- R39: a strand that ends while another of its launch stays on its cluster keeps its slot. -/
theorem State.endNow_strand {s : State} {slot k : Nat} {st mate : Strand} (status cause : BitVec 8) (fr : Option FaultRecord)
    (hs : st.sibling = none) (hg : st.group = none) (hk : k ≠ slot) (hmate : s.strand? k = some mate)
    (hcluster : clusterOf k = clusterOf slot) (hl : mate.launch = st.launch) (hlife : mate.life ≠ .retired) :
    (s.endNow slot st status cause fr).strand? slot = some (st.retire status cause) := by
  unfold State.endNow
  dsimp only
  generalize hs1 : (s.setStrand slot { st with life := .retired }).strandGone st status cause fr = s1
  have hstrands : s1.strands = insertKey s.strands slot { st with life := .retired } := by
    rw [← hs1, State.strandGone_strands _ _ _ hs hg]
    rfl
  have hv : ((s1.setStrand slot (st.retire status cause)).vacate slot).strands = insertKey s.strands slot (st.retire status cause) := by
    rw [State.vacate_strands, State.setStrand_strands, hstrands, insertKey_insertKey]
  have hfree : ((s1.setStrand slot (st.retire status cause)).vacate slot).freeSlots (clusterOf slot) st.launch =
      (s1.setStrand slot (st.retire status cause)).vacate slot := by
    refine State.freeSlots_of_mate (k := k) (mate := mate) ?_ hcluster hl hlife
    rw [State.strand?, hv, lookup_insertKey_ne _ _ hk]
    exact hmate
  rw [hfree, State.strand?, State.closeIfOver_strands]
  change lookup ((s1.setStrand slot (st.retire status cause)).vacate slot).strands slot = _
  rw [hv, lookup_insertKey_self]

/-- R39, R309: a trap inside a trap. -/
theorem doubleTrapEndsTheStrand_claim : Claim.DoubleTrapEndsTheStrand := by
  intro f s st k mate h hb hi hlife hend hsib hgrp hk hmate hcluster hl hmlife
  have hexec := execSyscall_traps f h (by simp [AtMostImx, hb])
  have htrap : ∀ tval, ∃ fr, s.preciseTrap s.cur.slot s.cur.ctx .systemCall false tval = s.endStrand s.cur.slot 1 0x0E (some fr) := by
    intro tval
    rw [State.preciseTrap_of _ _ _ _ h.1, State.enterTrap_double h.1 hi (.inl (show Cause.systemCall ≠ .preemption by decide)),
      State.recordFault, if_pos (.inr (.inr rfl))]
    exact ⟨_, rfl⟩
  obtain ⟨fr, hfr⟩ := htrap (imm32 (running s st) f.imm)
  have hcond : ¬ (st.life = .retired ∨ st.ending.isSome = true) := by simp [hlife, hend]
  refine ⟨fun hw => ?_, fun hw hbusy => ?_⟩
  · have hbusy : s.arrayBusy s.cur.slot = false := by
      rw [State.startedWork, List.any_append, Bool.or_eq_false_iff] at hw
      exact hw.2
    have hstrand := State.endNow_strand 1 0x0E (some fr) hsib hgrp hk hmate hcluster hl hmlife
    refine ⟨_, st.retire 1 0x0E, hexec.trans (if_neg (by simp [hbusy])), ?_⟩
    rw [hfr]
    unfold State.endStrand
    rw [h.1]
    dsimp only
    rw [if_neg hcond, hw, if_neg (by decide)]
    exact ⟨hstrand, rfl, rfl, rfl, rfl, rfl⟩
  · refine ⟨_, st.stopping 1 0x0E (some fr), hexec.trans (if_neg (fun hx => by simp [hbusy hx.1] at hx)), ?_⟩
    rw [hfr]
    unfold State.endStrand
    rw [h.1]
    dsimp only
    rw [if_neg hcond, if_pos hw]
    exact ⟨State.strand?_setStrand .., rfl, ⟨_, rfl⟩, rfl⟩

/-- Settles O13: the entry of a trap is one step of its context, and one inside a trap is the end of the strand. -/
theorem trapEntry : Obligations.TrapEntry :=
  ⟨systemCallAndBreakpointTrap_claim, preciseTrapEntry_claim, doubleTrapEndsTheStrand_claim⟩

end Sys2Proof.Machine

/-! # Chapters 7 and 20: words without a row, R118 and R119, and the return from a trap, R318 -/

namespace Sys2Proof.Machine
-- one proof at a time: the memory of proofs in flight together is more than the check has
set_option Elab.async false
open Sys2Proof.Claim

/-! ### R118, R119 -/

/-- A word with no row in a context that has read no prefix: R132's rejected MATTR spoils its sequence, every other word traps. -/
theorem execUnassignedEncoding_bare {s : State} {st : Strand} (w : BitVec 32) (h : s.strand? s.cur.slot = some st) (hb : Bare (running s st)) :
    exec (.unassignedEncoding w) s =
      if classOf w = 7 then
        if bits w 27 2 = 1 ∧ !(running s st).spoils w then
          .next (s.updCtx s.cur.slot s.cur.ctx (fun c => c.prefixed w (fun p => { p with rejected := true })))
        else traps s .illegalPrefix (zext w)
      else trapsIn s s .illegalInstruction (classOf w == 4 || classOf w == 5) (zext w) := by
  change execUnassignedEncoding w s = _
  unfold execUnassignedEncoding
  rw [h]
  dsimp only
  rw [show (st.ctx s.cur.ctx).prefixes = none from hb, traps, trapsIn_self, trapsIn_self]
  rfl

theorem Context.spoils_mattr {c : Context} {w : BitVec 32} (hb : Bare c) (hk : bits w 27 2 = 1) : c.spoils w = false := by
  simp [Context.spoils, hk, show c.prefixes = none from hb]

/-- Settles O16: an unassigned word is answered by its class, and a rejected MATTR is only noted. -/
theorem unassignedWordsTrap : Obligations.UnassignedWordsTrap := by
  intro w s st h hb
  rw [execUnassignedEncoding_bare w h.1 hb]
  refine ⟨fun hc => if_neg hc, fun hc hk => ?_, fun hc hk => ?_⟩
  · have hk1 : bits w 27 2 ≠ 1 := by
      rcases hk with hk | hk <;> exact fun h1 => absurd (hk.symm.trans h1) (by decide)
    rw [if_pos (show classOf w = 7 from hc), if_neg (fun hx => hk1 hx.1)]
    rfl
  · have hk1 : bits w 27 2 = 1 := hk
    rw [if_pos (show classOf w = 7 from hc), if_pos ⟨hk1, by rw [Context.spoils_mattr hb hk1]; rfl⟩, State.updCtx_of _ _ _ h.1]
    refine ⟨_, _, _, rfl, State.strand?_setStrand .., congrArg Context.prefixes (Strand.ctx_setCtx ..), rfl, ?_, congrArg Context.pc (Strand.ctx_setCtx ..)⟩
    rw [show (st.ctx s.cur.ctx).prefixes = none from hb]
    rfl

/-- R320: a privileged instruction in user mode, behind no prefix. -/
theorem State.issue_user_bare {s : State} {st : Strand} (i : Instr) (f : Form) (regs : List Reg) (body : Env → Act)
    (h : s.strand? s.cur.slot = some st) (hb : Bare (running s st)) (hf : f.priv = true) (hu : (running s st).priv = false) :
    s.issue i f regs body = trapsIn s s .privileged f.vector (word0 i) := by
  have hn : (st.ctx s.cur.ctx).prefixes = none := hb
  rw [State.issue_user i f regs body h (by rw [hn]; rfl) (by simp [Env.here, hn]) hf hu, trapsIn_self, Context.firstWord, hn]
  rfl

/-! ### R318 -/

/-- What a return leaves of its context (R318, R356). -/
structure Returned (c c' : Context) : Prop where
  priv : c'.priv = c.ppriv
  ie : c'.ie = true
  intrap : c'.intrap = false
  vimprecise : c'.vimprecise = false
  pc : c'.pc = c.tpc
  tpc : c'.tpc = c.tpc
  tval : c'.tval = c.tval
  cause : c'.cause = c.cause
  issues : c'.issues = c.issues + 1
  g : c'.g = c.g

theorem Context.returned_returned (c : Context) : Returned c c.returned := ⟨rfl, rfl, rfl, rfl, rfl, rfl, rfl, rfl, rfl, rfl⟩

theorem Context.redelivered_returned {c d : Context} (now : Nat) (h : Returned c d) : Returned c (d.redelivered now) := by
  obtain ⟨h1, h2, h3, h4, h5, h6, h7, h8, h9, h10⟩ := h
  unfold Context.redelivered
  split
  · split
    · split <;> exact ⟨h1, h2, h3, h4, h5, h6, h7, h8, h9, h10⟩
    · exact ⟨h1, h2, h3, h4, h5, h6, h7, h8, h9, h10⟩
  · exact ⟨h1, h2, h3, h4, h5, h6, h7, h8, h9, h10⟩

/-- The instructions of a frame as they stand in the VQ again: the oldest at VSTART where no matrix work stands before it (R74, R318). -/
def Frame.back (fr : Frame) (vstart : Nat) : List VqEntry :=
  if fr.matrix.isEmpty then
    (fr.queued.take 1).map (fun e => { e with element := e.element.map (fun _ => vstart) }) ++ fr.queued.drop 1
  else fr.queued

theorem Frame.back_unstarted (fr : Frame) (vstart : Nat) :
    (fr.back vstart).map (fun e => { e with element := none }) = fr.queued.map (fun e => { e with element := none }) := by
  unfold Frame.back
  split
  · cases fr.queued <;> rfl
  · rfl

theorem Frame.back_of_matrix {fr : Frame} (vstart : Nat) (h : fr.matrix ≠ []) : fr.back vstart = fr.queued :=
  if_neg (by simpa using h)

theorem Frame.back_cons {fr : Frame} {x : VqEntry} {rest : List VqEntry} (vstart : Nat) (h : fr.matrix = []) (hq : fr.queued = x :: rest) :
    fr.back vstart = { x with element := x.element.map (fun _ => vstart) } :: rest := by
  rw [Frame.back, h, hq]
  rfl

/-- Thawing touches the strand's vector work alone (R318). -/
theorem State.thaw_strand {s : State} {slot : Nat} {st : Strand} (h : s.strand? slot = some st) :
    ∃ st', (s.thaw slot).strand? slot = some st' ∧ st'.exec = st.exec ∧ st'.access = st.access ∧ st'.frame = none ∧
      st'.vq = st.vq ++ (st.frame.map (fun fr => fr.back st.vstart.toNat)).getD [] := by
  unfold State.thaw
  rw [h]
  dsimp only
  cases hf : st.frame with
  | none => exact ⟨st, h, rfl, rfl, hf, by simp⟩
  | some fr => exact ⟨_, State.strand?_setStrand .., rfl, rfl, rfl, rfl⟩

theorem State.thaw_others (s : State) {slot k : Nat} (hk : k ≠ slot) : (s.thaw slot).strand? k = s.strand? k := by
  unfold State.thaw
  split
  · rfl
  · split
    · rfl
    · dsimp only
      rw [State.strand?_setStrand_ne _ _ hk]
      split <;> rfl

/-- R318: the context that returns, and in the execute context the strand's vector work. -/
theorem State.trapReturn_strand {s : State} {st : Strand} {slot : Nat} (id : CtxId) (h : s.strand? slot = some st) :
    ∃ st', (s.trapReturn slot id).strand? slot = some st' ∧ Returned (st.ctx id) (st'.ctx id) ∧
      (id = .access → st'.frame = st.frame ∧ st'.vq = st.vq) ∧
      (id = .execute → st'.frame = none ∧ st'.vq = st.vq ++ (st.frame.map (fun fr => fr.back st.vstart.toNat)).getD []) := by
  cases id with
  | access =>
    rw [State.trapReturn_access, State.updCtx_of _ _ _ h]
    refine ⟨_, State.strand?_setStrand .., ?_, fun _ => ⟨rfl, rfl⟩, nofun⟩
    rw [Strand.ctx_setCtx]
    exact Context.redelivered_returned _ (Context.returned_returned _)
  | execute =>
    obtain ⟨st1, hst1, hexec, _, hframe, hvq⟩ := State.thaw_strand h
    unfold State.trapReturn
    dsimp only
    rw [if_pos rfl, State.updCtx_of _ _ _ (State.strand?_updStrand _ _ hst1)]
    refine ⟨_, State.strand?_setStrand .., ?_, nofun, fun _ => ⟨hframe, hvq⟩⟩
    rw [Strand.ctx_setCtx]
    refine Context.redelivered_returned _ ?_
    rw [show st.ctx .execute = st1.exec from hexec.symm]
    exact Context.returned_returned _

/-- R318: nothing outside the strand changes. -/
theorem State.trapReturn_outside (s : State) (slot : Nat) (id : CtxId) :
    (s.trapReturn slot id).dev = s.dev ∧ (s.trapReturn slot id).ws = s.ws ∧ (s.trapReturn slot id).host = s.host ∧
      ∀ k, k ≠ slot → (s.trapReturn slot id).strand? k = s.strand? k := by
  obtain ⟨hdev, hws, hhost, _⟩ := s.thaw_memories slot
  cases id with
  | access =>
    rw [State.trapReturn_access]
    exact ⟨State.updCtx_dev .., State.updCtx_ws .., State.updCtx_host .., fun k hk => State.strand?_updCtx_ne _ _ _ hk⟩
  | execute =>
    unfold State.trapReturn
    dsimp only
    rw [if_pos rfl]
    simp only [State.updCtx_dev, State.updCtx_ws, State.updCtx_host, State.updStrand_dev, State.updStrand_ws, State.updStrand_host]
    refine ⟨hdev, hws, hhost, fun k hk => ?_⟩
    rw [State.strand?_updCtx_ne _ _ _ hk, State.strand?_updStrand_ne _ _ hk, State.thaw_others _ hk]

/-- Settles O15: a return is `trapReturn`, whose strand and surroundings the lemmas above give. -/
theorem trapReturnRestores : Obligations.TrapReturnRestores := by
  intro f s st h hb
  dsimp only
  refine ⟨fun hp => ?_, fun hp => ?_⟩
  · obtain ⟨st', hst', ⟨h1, h2, h3, h4, h5, h6, h7, h8, h9, h10⟩, ha, hx⟩ := State.trapReturn_strand s.cur.ctx h.1
    obtain ⟨hdev, hws, hhost, hk⟩ := s.trapReturn_outside s.cur.slot s.cur.ctx
    refine ⟨_, st', ?_, hst', ⟨h1, h2, h3, h4, h5, h6, h7, h8, h9, fun r => ?_⟩, ha, fun he => ?_, hdev, hws, hhost, hk⟩
    · change execTrapret f s = _
      rw [execTrapret, State.issue_bare _ _ _ _ h.1 hb h.2 (fun _ => hp)]
      rfl
    · simp only [Context.reg, running, h10]
    · obtain ⟨hf, hvq⟩ := hx he
      refine ⟨hf, fun hn => by simp [hvq, hn], fun fr hfr => ⟨fr.back st.vstart.toNat, by simp [hvq, hfr], fr.back_unstarted _,
        Frame.back_of_matrix _, fun x rest hm hq => Frame.back_cons _ hm hq⟩⟩
  · change execTrapret f s = _
    rw [execTrapret, State.issue_user_bare _ _ _ _ h.1 hb rfl hp]
    rfl

end Sys2Proof.Machine

/-! # Chapter 20: the control registers, R81, R135 and R320 -/

namespace Sys2Proof.Machine
-- one proof at a time: the memory of proofs in flight together is more than the check has
set_option Elab.async false
open Sys2Proof.Claim

/-! ### Fields of words -/

theorem bits_zero {w : Nat} (x : BitVec w) (n : Nat) : bits x 0 n = x.setWidth n := by
  apply BitVec.eq_of_toNat_eq
  simp [bits]

theorem toNat_bits_zero {w : Nat} (x : BitVec w) (n : Nat) : (bits x 0 n).toNat = x.toNat % 2 ^ n := by
  rw [bits_zero, BitVec.toNat_setWidth]

/-- A flag above a field is added as it is joined. -/
theorem flagAt_add (p : Bool) {n x : Nat} (hn : n < 64) (hx : x < 2 ^ n) :
    BitVec.ofNat 64 (flagAt p n + x) = atBit p n ||| BitVec.ofNat 64 x := by
  cases p
  · simp [flagAt, atBit]
  · rw [flagAt, atBit, if_pos rfl, if_pos rfl]
    apply BitVec.eq_of_toNat_eq
    have h2 : 2 ^ n < 2 ^ 64 := Nat.pow_lt_pow_right (by decide) hn
    have hor : 2 ^ n + x = 2 ^ n ||| x := by simpa using Nat.two_pow_add_eq_or_of_lt hx 1
    rw [BitVec.toNat_or, BitVec.toNat_ofNat, BitVec.toNat_ofNat, BitVec.toNat_ofNat, Nat.mod_eq_of_lt h2, Nat.mod_eq_of_lt (hx.trans h2), ← hor,
      Nat.mod_eq_of_lt]
    calc 2 ^ n + x < 2 ^ n + 2 ^ n := by omega
      _ = 2 ^ (n + 1) := by rw [Nat.pow_succ]; omega
      _ ≤ 2 ^ 64 := Nat.pow_le_pow_right (by decide) hn

theorem tstatus_eq (c : Context) : c.tstatus =
    atBit c.intrap 5 ||| atBit c.vimprecise 4 ||| atBit c.ie 3 ||| atBit c.ven 2 ||| atBit c.ppriv 1 ||| atBit c.priv 0 := by
  have h : ∀ a b c d e f : Bool, BitVec.ofNat 64 (flagAt a 5 + flagAt b 4 + flagAt c 3 + flagAt d 2 + flagAt e 1 + flagAt f 0) =
      atBit a 5 ||| atBit b 4 ||| atBit c 3 ||| atBit d 2 ||| atBit e 1 ||| atBit f 0 := by decide
  exact h ..

theorem causeWord_eq (v : Bool) (cause : BitVec 8) : BitVec.ofNat 64 (flagAt v 8 + cause.toNat) = atBit v 8 ||| cause.setWidth 64 := by
  rw [flagAt_add v (by decide) cause.isLt, BitVec.ofNat_toNat]

theorem preemptWord_eq (p : Bool) (reason : BitVec 8) :
    BitVec.ofNat 64 (reason.toNat * 256 + flagAt p 0) = (reason.setWidth 64 <<< 8) ||| atBit p 0 := by
  have hr := reason.isLt
  have hs : (reason.setWidth 64 <<< 8).toNat = 2 ^ 8 * reason.toNat := by
    simp only [BitVec.toNat_shiftLeft, BitVec.toNat_setWidth, Nat.shiftLeft_eq]
    omega
  have hp : flagAt p 0 < 2 ^ 8 ∧ (atBit p 0).toNat = flagAt p 0 := by cases p <;> decide
  apply BitVec.eq_of_toNat_eq
  rw [BitVec.toNat_or, hs, hp.2, ← Nat.two_pow_add_eq_or_of_lt hp.1, BitVec.toNat_ofNat, Nat.mod_eq_of_lt]
  · omega
  · omega

/-! ### Reads -/

/-- R135: the numbers that CRRD and CRWR take; XFLAGS and VSTART have instructions of their own. -/
theorem State.controlRead_assigned (s : State) (e : Env) : ∀ n ∈ assigned, n ≠ 0x010 → n ≠ 0x014 → ∃ x, s.controlRead e n = some x := by
  simp only [assigned, List.forall_mem_cons]
  have field {x : Word} {n : Nat} (h : s.controlRead e n = some x) : n ≠ 0x010 → n ≠ 0x014 → ∃ x, s.controlRead e n = some x :=
    fun _ _ => ⟨x, h⟩
  exact ⟨field rfl, field rfl, field rfl, field rfl, fun h => absurd rfl h, field rfl, field rfl, field rfl, fun _ h => absurd rfl h, field rfl,
    field rfl, field rfl, field rfl, field rfl, field rfl, field rfl, field rfl, field rfl, field rfl, field rfl, field rfl, field rfl, field rfl,
    field rfl, field rfl, field rfl, field rfl, field rfl, field rfl, field rfl, field rfl, field rfl, nofun⟩

theorem State.controlRead_unassigned {s : State} {e : Env} {n : Nat} (h : n ∉ assigned) : s.controlRead e n = none := by
  apply State.controlRead.eq_31 <;> exact fun hn => h (hn ▸ by decide)

/-- The registers whose values the claims write out (R81). -/
def fieldRegisters : List Nat :=
  [0x000, 0x001, 0x015, 0x016, 0x017, 0x018, 0x019, 0x01A, 0x100, 0x101, 0x102, 0x103, 0x104, 0x105, 0x106, 0x107, 0x110, 0x111, 0x112, 0x120,
   0x121]

theorem mem_fieldRegisters {s : State} {st : Strand} {n : Nat} {x : Word} (h : registerValue s st n = some x) : n ∈ fieldRegisters := by
  by_contra hn
  simp only [fieldRegisters, List.mem_cons, not_or] at hn
  simp only [registerValue, hn, ↓reduceIte] at h
  exact absurd h nofun

theorem State.controlRead_field (s : State) (st : Strand) :
    ∀ n ∈ fieldRegisters, s.controlRead (Env.here s st) n = registerValue s st n := by
  simp only [fieldRegisters, List.forall_mem_cons]
  exact ⟨rfl, rfl, rfl, rfl, rfl, rfl, rfl, rfl, congrArg some (tstatus_eq _), congrArg some (causeWord_eq ..), rfl, rfl, rfl, rfl, rfl, rfl, rfl,
    rfl, rfl, rfl, congrArg some (preemptWord_eq ..), nofun⟩

/-- R119, R131: a system instruction behind no prefix, whose privilege its context has, runs. -/
theorem conclude_setReg_words {s : State} {st : Strand} (i : Instr) (words : Nat) (d : Reg) (x : Word) (h : s.strand? s.cur.slot = some st) :
    s.conclude s.cur.slot s.cur.ctx i words false (.done (s.setReg (Env.here s st) d x)) = .next (complete s words (fun c => c.setReg d x)) := by
  simp only [State.conclude_done, State.setReg, Env.here, State.updCtx_updCtx s _ _ _ h, complete, Context.setReg_pc]

/-- An instruction illegal by its fields, behind no prefix. -/
theorem conclude_illegal {s : State} {st : Strand} (i : Instr) (words : Nat) (hb : Bare (running s st)) :
    s.conclude s.cur.slot s.cur.ctx i words false ((Env.here s st).illegal i s) = traps s .illegalInstruction (word0 i) := by
  rw [Env.illegal, State.conclude_trap, traps, trapsIn_self]
  exact congrArg (fun v => Host.Outcome.next (s.trapNow s.cur.slot s.cur.ctx .illegalInstruction false v))
    (by rw [Context.firstWord, show (Env.here s st).c.prefixes = none from hb]; rfl)

/-- R320: what numbers from 0x100 upward ask of their context. -/
theorem priv_of_user {n : Nat} {c : Context} (h : n < 0x100 ∨ c.priv = true) : decide (0x100 ≤ n) = true → c.priv = true :=
  fun hn => h.resolve_left (Nat.not_lt.2 (of_decide_eq_true hn))

/-- Settles O17: each number's entry in `controlRead` is what the claim says of it. -/
theorem controlRegisterReads : Obligations.ControlRegisterReads := by
  intro f s st h hb
  dsimp only
  change (_ → _ → execCrrd f s = _) ∧ (_ → (∀ x, _ → execCrrd f s = _) ∧ (_ → _ → _ → ∃ x, execCrrd f s = _) ∧ (_ → execCrrd f s = _))
  have hread (hu : f.imm.toNat < 0x100 ∨ (running s st).priv = true) {x : Word} (hx : s.controlRead (Env.here s st) f.imm.toNat = some x) :
      execCrrd f s = .next (complete s 2 (fun c => c.setReg f.gd x)) := by
    rw [execCrrd, State.issue_bare _ _ _ _ h.1 hb h.2 (priv_of_user hu), hx]
    exact conclude_setReg_words _ 2 _ _ h.1
  refine ⟨fun hn hu => ?_, fun hu => ⟨fun x hx => ?_, fun hn h1 h2 => ?_, fun hn => ?_⟩⟩
  · rw [execCrrd, State.issue_user_bare _ _ _ _ h.1 hb (decide_eq_true hn) hu]
    rfl
  · exact hread hu ((s.controlRead_field st _ (mem_fieldRegisters hx)).trans hx)
  · obtain ⟨x, hx⟩ := s.controlRead_assigned (Env.here s st) _ hn h1 h2
    exact ⟨x, hread hu hx⟩
  · rw [execCrrd, State.issue_bare _ _ _ _ h.1 hb h.2 (priv_of_user hu), State.controlRead_unassigned hn]
    exact conclude_illegal _ 2 hb

/-! ### Writes -/

theorem xrmOf_eq (x : Word) : (if 5 < (bits x 0 3).toNat then 0 else bits x 0 3) = if 5 < x.toNat % 8 then 0 else x.setWidth 3 := by
  rw [toNat_bits_zero, bits_zero]
  rfl

theorem slipOf_eq (x : Word) : slipOf x = BitVec.ofNat 4 (max 1 (min (x.toNat % 16) 8)) := by
  have h : ∀ y : BitVec 4, (if y = 0 then 1 else if 8 < y.toNat then 8 else y) = BitVec.ofNat 4 (max 1 (min y.toNat 8)) := by decide
  exact (h (bits x 0 4)).trans (by rw [toNat_bits_zero]; rfl)

theorem vbypassOf_eq (x : Word) : vbypassOf x = BitVec.ofNat 25 (min (x.toNat % 2 ^ 25) (2 ^ 24)) := by
  unfold vbypassOf
  dsimp only
  rw [← toNat_bits_zero x 25]
  split
  · rw [Nat.min_eq_right (Nat.le_of_lt ‹_›)]
    rfl
  · rw [Nat.min_eq_left (Nat.not_lt.1 ‹_›), BitVec.ofNat_toNat, BitVec.setWidth_eq]

theorem alignDown_eq (x : Word) : x &&& ~~~0x3F#64 = BitVec.ofNat 64 (x.toNat / 64 * 64) := by
  have hmask : ∀ i : Fin 64, (~~~0x3F#64).getLsbD i.val = decide (6 ≤ i.val) := by decide
  have hshift : x &&& ~~~0x3F#64 = (x >>> 6) <<< 6 := by
    apply BitVec.eq_of_getLsbD_eq
    intro i hi
    rw [BitVec.getLsbD_and, hmask ⟨i, hi⟩, BitVec.getLsbD_shiftLeft, BitVec.getLsbD_ushiftRight, decide_eq_true hi]
    by_cases h6 : i < 6
    · simp [h6]
    · simp [h6, Nat.not_lt.1 h6]
  rw [hshift]
  apply BitVec.eq_of_toNat_eq
  simp [Nat.shiftLeft_eq, Nat.shiftRight_eq_div_pow]

/-- The registers that a CRWR changes (R3). -/
def writtenRegisters : List Nat := [0x015, 0x017, 0x018, 0x019, 0x01A, 0x100, 0x101, 0x102, 0x103, 0x104, 0x105, 0x106, 0x107, 0x120]

theorem registerWritten_readOnly {id : CtxId} {n : Nat} {x : Word} {st : Strand} (h : n ∉ writtenRegisters) : registerWritten id n x st = st := by
  simp only [writtenRegisters, List.mem_cons, not_or] at h
  simp only [registerWritten, h, ↓reduceIte]

theorem controlWrite_written (st : Strand) (id : CtxId) (x : Word) :
    ∀ n ∈ writtenRegisters, st.controlWrite id n x = registerWritten id n x st := by
  simp only [writtenRegisters, List.forall_mem_cons]
  refine ⟨?_, ?_, ?_, ?_, ?_, rfl, ?_, rfl, rfl, ?_, rfl, ?_, ?_, ?_, nofun⟩
  · exact congrArg (fun v => { st with xrm := v }) (xrmOf_eq x)
  · exact congrArg (fun v => { st with xtrapen := v &&& 0x5C }) (bits_zero x 7)
  · exact congrArg (fun v => { st with edge := v }) (bits_zero x 2)
  · exact congrArg (fun v => { st with vbypass := v }) (vbypassOf_eq x)
  · exact congrArg (fun v => { st with slip := v }) (slipOf_eq x)
  · exact congrArg (fun v => st.setCtx id { st.ctx id with causeVector := bit x 8, cause := v }) (bits_zero x 8)
  · exact congrArg (fun v => st.setCtx id { st.ctx id with tvec := v }) (alignDown_eq x)
  · exact congrArg (fun v => if id = .execute then { st with vdirty := v } else st) (bits_zero x 32)
  · exact congrArg (fun v => if id = .execute then { st with adirty := v } else st) (bits_zero x 4)
  · exact congrArg (fun v => { st with canlimit := v }) (bits_zero x 32)

/-- R3: what each register takes. -/
theorem controlWrite_eq (st : Strand) (id : CtxId) (n : Nat) (x : Word) : st.controlWrite id n x = registerWritten id n x st := by
  by_cases hn : n ∈ writtenRegisters
  · exact controlWrite_written st id x n hn
  · rw [registerWritten_readOnly hn]
    apply Strand.controlWrite.eq_15 <;> exact fun h => hn (h ▸ by decide)

theorem State.controlRead_isSome {s : State} {e : Env} {n : Nat} (hn : n ∈ assigned) (h1 : n ≠ 0x010) (h2 : n ≠ 0x014) :
    (s.controlRead e n).isSome = true := by
  obtain ⟨x, hx⟩ := s.controlRead_assigned e n hn h1 h2
  rw [hx]
  rfl

/-- An instruction that changes its strand and completes. -/
theorem conclude_updStrand {s : State} (i : Instr) (words : Nat) (g : Strand → Strand) :
    s.conclude s.cur.slot s.cur.ctx i words false (.done (s.updStrand s.cur.slot g)) =
      .next (complete (s.updStrand s.cur.slot g) words (fun c => c)) := by
  rw [State.conclude_done, complete, State.updStrand_cur]

/-- What a CRWR in a context that may write comes to. -/
theorem execCrwr_bare {f : YsF} {s : State} {st : Strand} (h : Stands s st [f.ga]) (hb : Bare (running s st))
    (hu : f.imm.toNat < 0x100 ∨ (running s st).priv = true) :
    execCrwr f s =
      if (s.controlRead (Env.here s st) f.imm.toNat).isSome = true ∧ ¬ (f.imm.toNat = 0x018 ∧ ((running s st).reg f.ga).toNat % 4 = 3) then
        .next (complete (s.updStrand s.cur.slot (registerWritten s.cur.ctx f.imm.toNat ((running s st).reg f.ga))) 2 (fun c => c))
      else traps s .illegalInstruction (word0 (.crwr f)) := by
  have hedge : ((bits ((running s st).reg f.ga) 0 2 : BitVec 2) = 3) ↔ ((running s st).reg f.ga).toNat % 4 = 3 := by
    rw [← BitVec.toNat_inj, toNat_bits_zero]
    rfl
  rw [execCrwr, State.issue_bare _ _ _ _ h.1 hb h.2 (priv_of_user hu)]
  dsimp only
  rw [Env.reg_here]
  cases s.controlRead (Env.here s st) f.imm.toNat with
  | none => exact conclude_illegal _ 2 hb
  | some y =>
    dsimp only [Option.isSome]
    by_cases he : f.imm.toNat = 0x018 ∧ ((running s st).reg f.ga).toNat % 4 = 3
    · rw [if_pos ⟨he.1, hedge.2 he.2⟩, if_neg (fun hx => hx.2 he)]
      exact conclude_illegal _ 2 hb
    · rw [if_neg (fun hx => he ⟨hx.1, hedge.1 hx.2⟩), if_pos ⟨rfl, he⟩]
      rw [← funext (fun u => controlWrite_eq u s.cur.ctx f.imm.toNat ((running s st).reg f.ga))]
      exact conclude_updStrand _ 2 _

/-- Settles O18: what a CRWR comes to, for each kind of number. -/
theorem controlRegisterWrites : Obligations.ControlRegisterWrites := by
  intro f s st h hb
  dsimp only
  change (_ → _ → execCrwr f s = _) ∧ (_ → (_ → _ → _ → execCrwr f s = _) ∧ (_ → _ → execCrwr f s = _) ∧ (_ → execCrwr f s = _))
  refine ⟨fun hn hu => ?_, fun hu => ⟨fun hn hrow he => ?_, fun hn he => ?_, fun hn => ?_⟩⟩
  · rw [execCrwr, State.issue_user_bare _ _ _ _ h.1 hb (decide_eq_true hn) hu]
    rfl
  · have h1 : f.imm.toNat ≠ 0x010 := fun hx => hrow (by rw [hx]; decide)
    have h2 : f.imm.toNat ≠ 0x014 := fun hx => hrow (by rw [hx]; decide)
    rw [execCrwr_bare h hb hu, if_pos ⟨State.controlRead_isSome hn h1 h2, he⟩]
  · rw [execCrwr_bare h hb hu, if_neg (fun hx => hx.2 ⟨hn, he⟩)]
  · rw [execCrwr_bare h hb hu, State.controlRead_unassigned hn, if_neg (fun hx => absurd hx.1 (by decide))]

end Sys2Proof.Machine

/-! # Chapters 3, 20 and 21: the registers with rows of their own, YIELD and WFE -/

namespace Sys2Proof.Machine
-- one proof at a time: the memory of proofs in flight together is more than the check has
set_option Elab.async false
open Sys2Proof.Claim

/-! ### R50, R52, R74, R83 -/

theorem crForm_user (c : Context) : (crForm false).priv = true → c.priv = true := fun h => absurd h (by decide)

/-- R50, R74, R83: where none of them waits for the VQ. -/
theorem vqWait_here {s : State} {st : Strand} (h : s.cur.ctx = .execute → st.vq = [] ∨ st.frame.isSome = true) :
    (Env.here s st).vqWait = false := by
  change (s.cur.ctx == .execute && !st.vq.isEmpty && st.frame.isNone) = false
  cases hc : s.cur.ctx with
  | access => rfl
  | execute =>
    rcases h hc with hv | hf
    · simp [hv]
    · simp [Option.isNone_eq_false_iff.2 hf]

theorem xflagsRead_eq {s : State} {st : Strand} {r : Reg} (h : Stands s st [r]) (hb : Bare (running s st))
    (hw : (Env.here s st).vqWait = false) :
    exec (.xflagsRead r) s = .next (complete s 2 (fun c => c.setReg r ((shownFlags s st).setWidth 64))) := by
  change execXflagsRead r s = _
  rw [execXflagsRead, State.issue_bare _ _ _ _ h.1 hb h.2 (crForm_user _), hw]
  refine (conclude_setReg_words _ 2 r _ h.1).trans (congrArg Host.Outcome.next (complete_congr 2 h.1 ?_))
  have hx : (if s.cur.ctx = .execute then st.laneFlags.toList.foldl (fun (f g : Flags) => f ||| g) (running s st).flags else (running s st).flags) =
      shownFlags s st := by
    unfold shownFlags running
    cases s.cur.ctx <;> rfl
  exact congrArg (fun x : Flags => (running s st).setReg r (x.setWidth 64)) hx

theorem xflagsWrite_eq {s : State} {st : Strand} {r : Reg} (h : Stands s st [r]) (hb : Bare (running s st))
    (hw : (Env.here s st).vqWait = false) :
    exec (.xflagsWrite r) s = .next (complete (s.updStrand s.cur.slot (fun u =>
      if s.cur.ctx = .execute then { u with laneFlags := Vector.replicate 64 (((running s st).reg r).setWidth 7) } else u)) 2
        (fun c => { c with flags := ((running s st).reg r).setWidth 7 })) := by
  change execXflagsWrite r s = _
  rw [execXflagsWrite, State.issue_bare _ _ _ _ h.1 hb h.2 (crForm_user _), hw]
  dsimp only
  rw [if_neg (by decide), State.conclude_done, Env.reg_here, bits_zero, complete, State.updStrand_cur, State.updStrand_updCtx _ _ _ h.1]
  refine congrArg Host.Outcome.next ((State.updStrand_updCtx _ _ _ h.1).trans ?_)
  simp only [Env.here, Strand.ctx_setCtx, Strand.setCtx_setCtx]
  rfl

theorem srNonZero_lane (z : Half) (l : Nat) (h : l < 64) :
    (srLanes z)[l] = (let w := z ^^^ BitVec.ofNat 32 (l * 0x9E3779B9); if w = 0 then 1 else w) := by
  simp only [srLanes, Vector.getElem_ofFn]
  rfl

/-- R50, R52: a reseeded strand. -/
theorem reseed_ctx (st : Strand) (id : CtxId) (z : Half) :
    (st.reseed id z).ctx id = { st.ctx id with sr := srScalar z } ∧ (st.reseed id z).ctx (otherCtx id) = st.ctx (otherCtx id) ∧
      (st.reseed id z).seed = z ∧ (st.reseed id z).sr = if id = .execute then srLanes z else st.sr := by
  cases id <;> exact ⟨rfl, rfl, rfl, rfl⟩

theorem xseedWrite_eq {s : State} {st : Strand} {r : Reg} (h : Stands s st [r]) (hb : Bare (running s st))
    (hw : (Env.here s st).vqWait = false) (hm : s.cur.ctx = .execute → s.matrixWork s.cur.slot = []) :
    exec (.xseedWrite r) s = .next (s.setStrand s.cur.slot
      ((st.reseed s.cur.ctx (((running s st).reg r).setWidth 32)).setCtx s.cur.ctx
        (((st.reseed s.cur.ctx (((running s st).reg r).setWidth 32)).ctx s.cur.ctx).advance
          (((st.reseed s.cur.ctx (((running s st).reg r).setWidth 32)).ctx s.cur.ctx).pc + 8)))) := by
  have hmat : ((Env.here s st).ctx == .execute && !(s.matrixWork (Env.here s st).slot).isEmpty) = false := by
    change (s.cur.ctx == .execute && !(s.matrixWork s.cur.slot).isEmpty) = false
    cases hc : s.cur.ctx with
    | access => rfl
    | execute => simp [hm hc]
  change execXseedWrite r s = _
  rw [execXseedWrite, State.issue_bare _ _ _ _ h.1 hb h.2 (crForm_user _), hw, hmat]
  refine (State.conclude_done ..).trans (congrArg Host.Outcome.next ((State.updStrand_updCtx _ _ _ h.1).trans ?_))
  rw [Env.reg_here, bits_zero]
  rfl

theorem vstartAccess_reads {s : State} {st : Strand} {r : Reg} (h : Stands s st [r]) (hb : Bare (running s st))
    (hw : (Env.here s st).vqWait = false) :
    exec (.vstartAccess false r) s =
      .next (complete s 2 (fun c => c.setReg r (if s.cur.ctx = .execute then st.vstart.setWidth 64 else 0))) := by
  change execVstartAccess false r s = _
  rw [execVstartAccess, State.issue_bare _ _ _ _ h.1 hb h.2 (crForm_user _), hw]
  exact conclude_setReg_words _ 2 r _ h.1

theorem vstartAccess_writes {s : State} {st : Strand} {r : Reg} (h : Stands s st [r]) (hb : Bare (running s st))
    (hw : (Env.here s st).vqWait = false) :
    exec (.vstartAccess true r) s = .next (complete (s.updStrand s.cur.slot (fun u =>
      if s.cur.ctx = .execute then { u with vstart := ((running s st).reg r).setWidth 13 } else u)) 2 (fun c => c)) := by
  change execVstartAccess true r s = _
  rw [execVstartAccess, State.issue_bare _ _ _ _ h.1 hb h.2 (crForm_user _), hw]
  rw [if_neg (by decide), if_pos rfl, State.conclude_done, Env.reg_here, bits_zero, complete, State.updStrand_cur]
  change Host.Outcome.next (State.updCtx (if s.cur.ctx = .execute then _ else s) _ _ _) = _
  by_cases hc : s.cur.ctx = .execute
  · simp only [if_pos hc]
    rfl
  · simp only [if_neg hc]
    rw [State.updStrand_updCtx _ _ _ h.1, State.updCtx_of _ _ _ h.1]
    rfl

theorem flagSeedAndStartRegisters_claim : Claim.FlagSeedAndStartRegisters := by
  intro r s st h hb hvq
  have hw := vqWait_here hvq
  refine ⟨xflagsRead_eq h hb hw, xflagsWrite_eq h hb hw, fun hm => ?_, vstartAccess_reads h hb hw, vstartAccess_writes h hb hw⟩
  obtain ⟨hctx, hother, hseed, hsr⟩ := reseed_ctx st s.cur.ctx (((running s st).reg r).setWidth 32)
  refine ⟨_, _, xseedWrite_eq h hb hw hm, State.strand?_setStrand .., ?_, ?_, ?_, ?_, fun hx => ?_, fun hx l hl => ?_⟩
  · rw [Strand.setCtx_seed, hseed]
  · exact (congrArg Context.sr (Strand.ctx_setCtx ..)).trans (congrArg Context.sr hctx)
  · exact (congrArg Context.pc (Strand.ctx_setCtx ..)).trans (congrArg (· + 8) (congrArg Context.pc hctx :))
  · rw [← other_eq, ← other_eq, Strand.ctx_setCtx_other, hother]
  · rw [Strand.setCtx_sr, hsr, if_neg hx]
  · simp only [Strand.setCtx_sr, hsr, if_pos hx]
    exact srNonZero_lane _ l hl

/-! ### R324 -/

theorem keepSpace_eq (c : Context) (u : Strand) : c.keepSpace u = keepsSpace c u.asid u.ptroot := by
  unfold Context.keepSpace keepsSpace
  cases c.wait with
  | none => rfl
  | some w => simp only [Option.isNone_iff_eq_none]

theorem otherKeeps_eq (id : CtxId) (u : Strand) : u.setCtx (otherCtx id) ((u.ctx (otherCtx id)).keepSpace u) = otherKeeps id u := by
  rw [keepSpace_eq]
  cases id <;> rfl

/-- R324: a CRWR of ASID or PTROOT that is admitted. -/
theorem conclude_spaceWrite {s : State} {st : Strand} (i : Instr) (f : Strand → Strand) (hf : st.frame = none) (hs : st.anyStream = false)
    (hd : s.drained s.cur.slot st = true) :
    s.conclude s.cur.slot s.cur.ctx i 2 false (s.spaceWrite (Env.here s st) false f) =
      .next (complete (s.updStrand s.cur.slot (fun u => f (otherKeeps s.cur.ctx u))) 2 (fun c => c)) := by
  have hno : (false || st.frame.isSome || st.anyStream) = false := by rw [hf, hs]; rfl
  have hact : s.spaceWrite (Env.here s st) false f = .done (s.updStrand s.cur.slot (fun u => f (otherKeeps s.cur.ctx u))) := by
    simp only [← otherKeeps_eq]
    unfold State.spaceWrite
    refine (if_neg ?_).trans (if_neg ?_)
    · exact fun hx => absurd (hno.symm.trans hx) (by decide)
    · exact fun hx => absurd ((congrArg (! ·) hd).symm.trans hx) (by decide)
  rw [hact]
  exact conclude_updStrand i 2 _

theorem addressSpaceRegisters_claim : Claim.AddressSpaceRegisters := by
  intro r s st h hb hp hf hs
  dsimp only
  change (_ → (_ → _ → execAsidWrite r s = _) ∧ execPtrootWrite r s = _) ∧ (_ → ∃ v, execAsidWrite r s = _)
  have hx : ((bits ((running s st).reg r) 0 16 : BitVec 16)).toNat = ((running s st).reg r).toNat % 2 ^ 16 := toNat_bits_zero _ 16
  have hx0 : (bits ((running s st).reg r) 0 16 : BitVec 16) = 0 ↔ ((running s st).reg r).toNat % 2 ^ 16 = 0 := by
    rw [← hx, ← BitVec.toNat_inj]
    rfl
  refine ⟨fun hd => ⟨fun hours hne => ?_, ?_⟩, fun hno => ?_⟩
  · obtain ⟨rec, hlook, hpart⟩ := hours
    rw [execAsidWrite, State.issue_bare _ _ _ _ h.1 hb h.2 (fun _ => hp)]
    dsimp only
    rw [Env.reg_here, hx, hlook]
    have hadmit : ((bits ((running s st).reg r) 0 16 : BitVec 16) == 0 ||
        !((some rec).map (fun q : AsRecord => q.part == s.partOf (Env.here s st).st)).getD false) = false := by
      exact Bool.or_eq_false_iff.2 ⟨beq_eq_false_iff_ne.2 (fun hz => hne (hx0.1 hz)),
        (congrArg (! ·) (beq_iff_eq.2 (show rec.part = s.partOf st from hpart)) :)⟩
    rw [hadmit, ← bits_zero]
    exact conclude_spaceWrite _ (fun u => { u with asid := bits ((running s st).reg r) 0 16 }) hf hs hd
  · rw [execPtrootWrite, State.issue_bare _ _ _ _ h.1 hb h.2 (fun _ => hp)]
    exact conclude_spaceWrite _ (fun u => { u with ptroot := rootOfWord ((running s st).reg r) }) hf hs hd
  · refine ⟨Config.freeTval s.draws, ?_⟩
    rw [execAsidWrite, State.issue_bare _ _ _ _ h.1 hb h.2 (fun _ => hp)]
    dsimp only
    rw [Env.reg_here, hx]
    have hrefused : ((bits ((running s st).reg r) 0 16 : BitVec 16) == 0 ||
        !((lookup s.spaces (((running s st).reg r).toNat % 2 ^ 16)).map (fun q => q.part == s.partOf (Env.here s st).st)).getD false) = true := by
      rcases hno with hno | hno
      · rw [hno]
        exact Bool.or_true _
      · simp [hx0.2 hno]
    rw [hrefused, show s.spaceWrite (Env.here s st) true _ = refuse s from rfl]
    rfl

/-- Settles O19: each row of its own, by what its instruction comes to. -/
theorem specialRegisterRows : Obligations.SpecialRegisterRows := ⟨flagSeedAndStartRegisters_claim, addressSpaceRegisters_claim⟩

/-! ### R317, R322 -/

theorem execYield_ignored {s : State} {st : Strand} {r : Reg} (h : Stands s st [r]) (hb : Bare (running s st)) (hp : (running s st).priv = true)
    (hno : (bit ((running s st).reg r) 2 && (running s st).cause == 0x10) = false) :
    exec (.yield r) s = .next (complete s 2 (fun c => c)) := by
  change execYield r s = _
  rw [execYield, State.issue_bare _ _ _ _ h.1 hb h.2 (fun _ => hp)]
  exact congrArg (s.conclude s.cur.slot s.cur.ctx (.yield r) 2 false) (if_neg (fun hx => absurd (hno.symm.trans hx) (by decide)))

/-- R317: a context that has yielded while the other runs on goes no further; nothing else happens yet. -/
theorem State.contextGone_yielded {s : State} {st : Strand} {slot : Nat} (h : s.strand? slot = some st)
    (hgone : (st.exec.retired && st.access.retired) = false)
    (hcancel : (st.exec.cancelled || (st.exec.yielded && st.exec.cancel.isSome)) = false)
    (hcancel' : (st.access.cancelled || (st.access.yielded && st.access.cancel.isSome)) = false) (hidle : st.idle = false) :
    s.contextGone slot = s := by
  unfold State.contextGone
  rw [h]
  dsimp only
  refine (if_neg ?_).trans ((if_neg ?_).trans (if_pos ?_))
  · rw [hgone]
    decide
  · rw [hcancel, hcancel']
    exact Bool.false_ne_true
  · rw [hidle]
    rfl

theorem yieldEndsResidence_claim : Claim.YieldEndsResidence := by
  intro r s st h hb hp
  refine ⟨fun hno => execYield_ignored h hb hp ?_, fun hbit hcause hret hcan hcancel hret' hyld' hcan' => ?_⟩
  · rcases hno with hbit | hcause
    · rw [show bit ((running s st).reg r) 2 = false from hbit, Bool.false_and]
    · rw [beq_eq_false_iff_ne.2 hcause, Bool.and_false]
  · have hyes : (bit ((running s st).reg r) 2 && (running s st).cause == 0x10) = true := by
      rw [show bit ((running s st).reg r) 2 = true from hbit, hcause]
      rfl
    change execYield r s = _
    rw [execYield, State.issue_bare _ _ _ _ h.1 hb h.2 (fun _ => hp)]
    refine (congrArg (s.conclude s.cur.slot s.cur.ctx (.yield r) 2 false) (if_pos hyes)).trans (congrArg Host.Outcome.next ?_)
    change (State.updCtx s s.cur.slot s.cur.ctx _).contextGone s.cur.slot = _
    rw [complete, State.updCtx_of _ _ _ h.1, State.updCtx_of _ _ _ h.1]
    simp only [running, other] at hret hcan hcancel hret' hyld' hcan'
    cases hc : s.cur.ctx with
    | access =>
      rw [hc] at hret hcan hcancel hret' hyld' hcan'
      refine State.contextGone_yielded (State.strand?_setStrand ..) ?_ ?_ ?_ ?_
      · exact (Bool.and_eq_false_iff.2 (.inl hret') :)
      · exact Bool.or_eq_false_iff.2 ⟨hcan', Bool.and_eq_false_iff.2 (.inl hyld')⟩
      · exact Bool.or_eq_false_iff.2 ⟨hcan, Bool.and_eq_false_iff.2 (.inr (congrArg Option.isSome hcancel))⟩
      · exact Bool.and_eq_false_iff.2 (.inl (Bool.or_eq_false_iff.2 ⟨hyld', hret'⟩))
    | execute =>
      rw [hc] at hret hcan hcancel hret' hyld' hcan'
      refine State.contextGone_yielded (State.strand?_setStrand ..) ?_ ?_ ?_ ?_
      · exact (Bool.and_eq_false_iff.2 (.inr hret') :)
      · exact Bool.or_eq_false_iff.2 ⟨hcan, Bool.and_eq_false_iff.2 (.inr (congrArg Option.isSome hcancel))⟩
      · exact Bool.or_eq_false_iff.2 ⟨hcan', Bool.and_eq_false_iff.2 (.inl hyld')⟩
      · exact Bool.and_eq_false_iff.2 (.inr (Bool.or_eq_false_iff.2 ⟨hyld', hret'⟩))

theorem waitForEvent_claim : Claim.WaitForEvent := by
  intro f s st h hb hp
  dsimp only
  change (_ → execWfe f s = _) ∧ (_ → ∀ w, _ → _ → _ → _ → execWfe f s = _) ∧ (_ → _ → execWfe f s = _)
  rw [execWfe, State.issue_bare _ _ _ _ h.1 hb h.2 (fun _ => hp)]
  have hasks (hn : ¬ ((running s st).preempt.isSome = true ∨ (running s st).cancel.isSome = true)) :
      ¬ ((Env.here s st).c.preempt.isSome || (Env.here s st).c.cancel.isSome) = true := fun hx => hn ((Bool.or_eq_true ..).mp hx)
  dsimp only
  refine ⟨fun hask => ?_, fun hn w hw hk h0 hl => ?_, fun hn hw => ?_⟩
  · rw [if_pos (show ((Env.here s st).c.preempt.isSome || (Env.here s st).c.cancel.isSome) = true from (Bool.or_eq_true ..).mpr hask)]
    exact conclude_setReg_words _ 2 _ _ h.1
  · rw [if_neg (hasks hn), show (Env.here s st).c.wait = some w from hw]
    have hexpired : (w.kind == Wait.wfe (1024 * f.imm.toNat) && decide (0 < 1024 * f.imm.toNat) && decide (1024 * f.imm.toNat ≤ s.now - w.since)) = true :=
      by simp only [hk, h0, hl, beq_self_eq_true, decide_true, Bool.and_self]
    exact (congrArg (s.conclude s.cur.slot s.cur.ctx (.wfe f) 2 false) (if_pos hexpired)).trans (conclude_setReg_words _ 2 _ _ h.1)
  · rw [if_neg (hasks hn), show (Env.here s st).c.wait = none from hw]
    exact State.conclude_wait _ _ _ _ _ _ _ rfl

/-- Settles O20: YIELD and WFE, each by the branch it takes. -/
theorem yieldAndWaitForEvent : Obligations.YieldAndWaitForEvent := ⟨yieldEndsResidence_claim, waitForEvent_claim⟩

end Sys2Proof.Machine

/-! # Chapter 21: TLBINV, R321 and R334 -/

namespace Sys2Proof.Machine
-- one proof at a time: the memory of proofs in flight together is more than the check has
set_option Elab.async false
open Sys2Proof.Claim

/-- A map of a table's entries that keeps their keys. -/
theorem lookup_map_keys {α : Type} {f : Nat × α → Nat × α} (hf : ∀ p, (f p).1 = p.1) (l : List (Nat × α)) (k : Nat) :
    lookup (l.map f) k = (lookup l k).map (fun v => (f (k, v)).2) := by
  induction l with
  | nil => rfl
  | cons p l ih =>
    obtain ⟨j, v⟩ := p
    have hj : (f (j, v)).1 = j := hf (j, v)
    rw [List.map_cons, show f (j, v) = (j, (f (j, v)).2) from Prod.ext hj rfl]
    simp only [lookup]
    split
    · subst j
      rfl
    · exact ih

theorem Strand.ctx_unemit (st : Strand) (reg n : Nat) (id : CtxId) : (st.unemit reg n).ctx id = st.ctx id := by
  unfold Strand.unemit
  split
  · rfl
  · split
    · unfold Strand.setStream
      split
      · cases id <;> rfl
      · rfl
    · rfl

/-- A vector instruction that starts again changes no context (R101). -/
theorem Strand.ctx_restartAt (st : Strand) (k : Nat) (e : VqEntry) (j : Nat) (id : CtxId) : (st.restartAt k e j).ctx id = st.ctx id := by
  have h (g : VqEntry → VqEntry) (reg n : Nat) (v : BitVec 13) : ({ (st.updEntry k g).unemit reg n with vstart := v } : Strand).ctx id = st.ctx id := by
    have hu := (Strand.ctx_unemit (st.updEntry k g) reg n id)
    cases id <;> exact hu
  exact h _ _ _ _

/-- What an invalidation makes of a strand: its vector memory instruction starts again if the invalidation reaches it (R101). -/
def Invalidation.restarted (i : Invalidation) (s : State) (p : Nat × Strand) : Nat × Strand :=
  match p.2.nextEntry with
  | none => p
  | some (k, e) =>
    if i.reaches s p.1 p.2 e then
      match s.restartElement (clusterOf p.1) p.2.asid.toNat e with
      | some j => (p.1, p.2.restartAt k e j)
      | none => p
    else p

theorem State.restartOn_eq (s : State) (i : Invalidation) : s.restartOn i = { s with strands := s.strands.map (i.restarted s) } := rfl

theorem Invalidation.restarted_fst (i : Invalidation) (s : State) (p : Nat × Strand) : (i.restarted s p).1 = p.1 := by
  unfold Invalidation.restarted
  split
  · rfl
  · split
    · split <;> rfl
    · rfl

theorem Invalidation.ctx_restarted (i : Invalidation) (s : State) (p : Nat × Strand) (id : CtxId) : (i.restarted s p).2.ctx id = p.2.ctx id := by
  unfold Invalidation.restarted
  split
  · rfl
  · split
    · split
      · exact Strand.ctx_restartAt ..
      · rfl
    · rfl

theorem State.restartOn_strand {s : State} {slot : Nat} {st : Strand} (i : Invalidation) (h : s.strand? slot = some st) :
    (s.restartOn i).strand? slot = some (i.restarted s (slot, st)).2 := by
  rw [State.restartOn_eq]
  exact (lookup_map_keys (i.restarted_fst s) s.strands slot).trans (congrArg (Option.map _) h)

/-- R321: what the invalidation of a TLBINV covers. -/
theorem held_invalidation (s : State) (st : Strand) (f : YsF) (e : TlbEntry) (hf : f.fn7 = 1 ∨ f.fn7 = 2 ∨ f.fn7 = 3) :
    ((Env.here s st).invalidation f).held e = true ↔
      (f.fn7 = 1 ∧ e.asid = ((running s st).reg f.gb).toNat % 2 ^ 16 ∧ e.va ≤ ((running s st).reg f.ga).toNat ∧
        ((running s st).reg f.ga).toNat < e.va + e.size) ∨
      (f.fn7 = 2 ∧ e.asid = ((running s st).reg f.gb).toNat % 2 ^ 16) ∨ f.fn7 = 3 := by
  unfold Env.invalidation
  simp only [Env.reg_here, toNat_bits_zero]
  rcases hf with hf | hf | hf <;> rw [hf]
  · simp [Invalidation.held, and_assoc]
  · simp [Invalidation.held]
  · simp [Invalidation.held]

theorem State.oldChunks_nil {s : State} (i : Invalidation) (h : ∀ p ∈ s.strands, p.2.allStreams = []) : s.oldChunks i = [] := by
  unfold State.oldChunks
  refine List.flatMap_eq_nil_iff.2 (fun p hp => ?_)
  rw [h p hp]
  rfl

/-- Settles O22: a TLBINV with nothing to wait for is its invalidation, then the write of its TLBSEQ. -/
theorem translationInvalidation : Obligations.TranslationInvalidation := by
  intro f s st h hb hp c asid va hit hf hw hheld hstreams
  generalize hi : (Env.here s st).invalidation f = i
  have hst1 : (s.invalidate i).strand? s.cur.slot = some (i.restarted s (s.cur.slot, st)).2 := State.restartOn_strand i h.1
  have hseq : BitVec.ofNat 64 (s.invalidate i).tlbseq.toNat = s.tlbseq + 1 := BitVec.ofNat_toNat ..|>.trans (BitVec.setWidth_eq _)
  have hall : ¬ (f.fn7.toNat = 3 ∧ (bits ((running s st).reg f.gb) 0 16 : BitVec 16) ≠ 0) := by
    rintro ⟨h3, hne⟩
    rcases hf with hf | hf | ⟨_, hz⟩
    · rw [hf] at h3
      exact absurd h3 (by decide)
    · rw [hf] at h3
      exact absurd h3 (by decide)
    · exact hne (BitVec.eq_of_toNat_eq ((toNat_bits_zero _ 16).trans hz))
  have hexec : exec (.tlbinv f) s = .next (((s.invalidate i).setReg (Env.here s st) f.gd (s.tlbseq + 1)).updCtx s.cur.slot s.cur.ctx
      (fun c => c.advance (c.pc + 8))) := by
    change execTlbinv f s = _
    rw [execTlbinv, State.issue_bare _ _ _ _ h.1 hb h.2 (fun _ => hp), show (Env.here s st).c.wait = none from hw]
    refine (congrArg (s.conclude s.cur.slot s.cur.ctx (.tlbinv f) 2 false) ((if_neg hall).trans (if_neg ?_))).trans ?_
    · exact fun hx => absurd (hheld.symm.trans hx) (by decide)
    · dsimp only
      rw [State.oldChunks_nil _ hstreams, hi, hseq]
      rfl
  change exec (.tlbinv f) s = .next (((s.invalidate i).updCtx s.cur.slot s.cur.ctx (fun c => c.setReg f.gd (s.tlbseq + 1))).updCtx _ _ _) at hexec
  rw [State.updCtx_updCtx _ _ _ _ hst1, State.updCtx_of _ _ _ hst1] at hexec
  refine ⟨_, _, hexec, State.strand?_setStrand .., rfl, fun e => ?_, ?_, fun r => ?_, ?_⟩
  · change e ∈ s.tlb.filter (fun e => !i.held e) ↔ _
    have hhit : i.held e = true ↔ hit e := hi ▸ held_invalidation s st f e (hf.imp_right (Or.imp_right And.left))
    rw [List.mem_filter, ← hhit, Bool.not_eq_true, Bool.not_eq_true']
  · rw [running, Strand.ctx_setCtx, Context.advance_pc, Context.setReg_pc, Invalidation.ctx_restarted]
    rfl
  · rw [running, Strand.ctx_setCtx, Context.reg_advance, Context.reg_setReg, Invalidation.ctx_restarted]
    rfl
  · rfl

end Sys2Proof.Machine

/-! # The bytes of the memories, place by place: what each access leaves of them, R2 and R88 -/

namespace Sys2Proof.Machine
-- one proof at a time: the memory of proofs in flight together is more than the check has
set_option Elab.async false
open Sys2Proof.Claim

/-! ### What leaves every byte -/

theorem byteAt_congr {s t : State} (hdev : t.dev = s.dev) (hws : t.ws = s.ws) (hhost : t.host = s.host)
    (hremote : ∀ m, (t.remote m).mem = (s.remote m).mem)
    (hscratch : ∀ k off, (t.cluster k).scratchByte off = (s.cluster k).scratchByte off) (q : Place) : byteAt t q = byteAt s q := by
  cases q with
  | dev a => exact congrArg (fun m => Memory.read m a) hdev
  | host a => exact congrArg (fun m => Memory.read m a) hhost
  | ws die off => exact (congrArg (fun v : Vector Memory 2 => if h : die < 2 then (v[die]).read off else 0) hws :)
  | remote m a => exact congrArg (fun m => Memory.read m a) (hremote m)
  | scratch k off => exact hscratch k off

theorem byteAt_setStrand (s : State) (k : Nat) (st : Strand) (q : Place) : byteAt (s.setStrand k st) q = byteAt s q := by
  cases q <;> rfl

theorem byteAt_updStrand (s : State) (k : Nat) (f : Strand → Strand) (q : Place) : byteAt (s.updStrand k f) q = byteAt s q := by
  unfold State.updStrand
  split
  · rfl
  · exact byteAt_setStrand ..

theorem byteAt_updCtx (s : State) (k : Nat) (id : CtxId) (f : Context → Context) (q : Place) : byteAt (s.updCtx k id f) q = byteAt s q :=
  byteAt_updStrand ..

theorem byteAt_complete (s : State) (n : Nat) (f : Context → Context) (q : Place) : byteAt (complete s n f) q = byteAt s q :=
  byteAt_updCtx ..

theorem byteAt_drawn (s : State) (q : Place) : byteAt s.drawn q = byteAt s q := by cases q <;> rfl

theorem byteAt_cacheTranslation (s : State) (a : Agent) (va : Nat) (q : Place) : byteAt (s.cacheTranslation a va) q = byteAt s q := by
  obtain ⟨l, n, h⟩ := s.cacheTranslation_frame a va
  rw [h]
  cases q <;> rfl

/-- L1 holds copies, never a home (R88). -/
theorem byteAt_setL1 (s : State) (k : Nat) (l : List L1Line) (q : Place) :
    byteAt (s.setCluster k { s.cluster k with l1 := l }) q = byteAt s q := by
  refine byteAt_congr (s := s) (t := s.setCluster k { s.cluster k with l1 := l }) rfl rfl rfl (fun _ => rfl) (fun j off => ?_) q
  by_cases hj : j = k
  · subst hj
    rw [State.cluster_setCluster]
    rfl
  · rw [State.cluster_setCluster_ne _ _ hj]

theorem byteAt_dropL1 (s : State) (k : Nat) (q : Place) : byteAt (s.dropL1 k) q = byteAt s q := by
  unfold State.dropL1
  dsimp only
  split
  · rfl
  · exact byteAt_setL1 ..

theorem byteAt_acquire (s : State) (k : Nat) (scope : BitVec 3) (q : Place) : byteAt (s.acquire k scope) q = byteAt s q := by
  unfold State.acquire
  split
  · exact byteAt_dropL1 ..
  · rfl

theorem byteAt_seen (s : State) (k : Nat) (p : Place) (bs : List Byte) (q : Place) : byteAt (s.seen k p bs) q = byteAt s q := by
  unfold State.seen
  split
  · dsimp only
    split
    · exact byteAt_setL1 ..
    · rfl
  · rfl

theorem byteAt_readMissed (s : State) (k pa n : Nat) (alloc : Bool) (q : Place) : byteAt (s.readMissed k pa n alloc).2 q = byteAt s q := by
  unfold State.readMissed
  dsimp only
  split
  · exact (byteAt_setL1 ..).trans (byteAt_seen ..)
  · exact byteAt_seen ..

theorem State.hostReadFor_bare {s : State} (part : Nat) (bs : List Byte) (h : s.recorders = []) :
    ∃ r, s.hostReadFor part bs = { s with replaying := r } := by
  unfold State.hostReadFor
  dsimp only
  split
  · refine ⟨s.replaying, ?_⟩
    have hnone : lookup s.recorders part = none := by
      rw [h]
      rfl
    unfold State.record
    rw [hnone]
  · split
    · exact ⟨s.replaying, rfl⟩
    · split <;> exact ⟨_, rfl⟩

/-- A read beyond the module changes no byte but those of a recorder (R361, R368). -/
theorem byteAt_farRead (s : State) (k : Nat) (p : Place) (bs : List Byte) (h : isHost p = true → s.recorders = []) (q : Place) :
    byteAt (s.farRead k p bs) q = byteAt s q := by
  cases p with
  | scratch | dev | ws => rfl
  | host a =>
    unfold State.farRead State.hostRead
    dsimp only
    split
    · rfl
    · obtain ⟨r, hr⟩ := s.hostReadFor_bare ‹Nat› bs (h rfl)
      rw [hr]
      cases q <;> rfl
  | remote m a =>
    unfold State.farRead
    dsimp only
    split
    · rfl
    · refine byteAt_congr (s := s) (t := { s with remotes := insertKey s.remotes m { s.remote m with askedSince := some s.now } }) rfl rfl rfl
        (fun j => ?_) (fun _ _ => rfl) q
      by_cases hj : j = m
      · subst hj
        simp only [State.remote, lookup_insertKey_self, Option.getD_some]
      · simp only [State.remote, lookup_insertKey_ne _ _ hj]

/-! ### What is written -/

theorem Cluster.scratchByte_scratchPut_ne (bs : List Byte) : ∀ (c : Cluster) (off x : Nat), (x < off ∨ off + bs.length ≤ x) →
    (c.scratchPut off bs).scratchByte x = c.scratchByte x := by
  induction bs with
  | nil => intro c off x _; rfl
  | cons b rest ih =>
    intro c off x h
    rw [List.length_cons] at h
    rw [Cluster.scratchPut, ih _ _ _ (by omega)]
    simp only [Cluster.scratchByte, lookup_insertKey_ne _ _ (show x ≠ off by omega)]

theorem Cluster.scratchByte_scratchPut (bs : List Byte) : ∀ (c : Cluster) (off i : Nat) (hi : i < bs.length),
    (c.scratchPut off bs).scratchByte (off + i) = bs[i] := by
  induction bs with
  | nil => intro c off i hi; exact absurd hi (Nat.not_lt_zero i)
  | cons b rest ih =>
    intro c off i hi
    rw [Cluster.scratchPut]
    cases i with
    | zero =>
      rw [Cluster.scratchByte_scratchPut_ne _ _ _ _ (.inl (by omega))]
      simp [Cluster.scratchByte]
    | succ j =>
      rw [show off + (j + 1) = off + 1 + j by omega, ih _ _ _ (Nat.lt_of_succ_lt_succ hi)]
      rfl

theorem State.mirror_frame (s : State) (pa : Nat) (bs : List Byte) : ∃ sh, s.mirror pa bs = { s with shadows := sh } := by
  unfold State.mirror
  split
  · exact ⟨s.shadows, rfl⟩
  · exact ⟨_, rfl⟩

theorem byteAt_putBytes_dev (s : State) (k pa : Nat) (bs : List Byte) (q : Place) :
    byteAt (s.putBytes k (.dev pa) bs) q = byteAt { s with dev := s.dev.writeBytes pa bs } q := by
  obtain ⟨sh, hsh⟩ := State.mirror_frame { s with dev := s.dev.writeBytes pa bs } pa bs
  unfold State.putBytes
  dsimp only
  rw [hsh]
  split
  · cases q <;> rfl
  · refine (byteAt_setL1 ..).trans ?_
    cases q <;> rfl

/-- A write changes no byte outside it. -/
theorem byteAt_putBytes_ne (s : State) (k : Nat) (p : Place) (bs : List Byte) (q : Place) (hq : ∀ i < bs.length, q ≠ above p i) :
    byteAt (s.putBytes k p bs) q = byteAt s q := by
  have houtside {a b : Nat} (hb : ∀ i < bs.length, b ≠ a + i) : b < a ∨ a + bs.length ≤ b := by
    by_contra hc
    exact hb (b - a) (by omega) (by omega)
  cases p with
  | dev a =>
    rw [byteAt_putBytes_dev]
    cases q with
    | dev b => exact Memory.read_writeBytes_ne _ _ _ _ (houtside fun i hi hx => hq i hi (congrArg Place.dev hx))
    | scratch | ws | host | remote => rfl
  | host a =>
    cases q with
    | host b => exact Memory.read_writeBytes_ne _ _ _ _ (houtside fun i hi hx => hq i hi (congrArg Place.host hx))
    | scratch | ws | dev | remote => rfl
  | ws die a =>
    unfold State.putBytes
    dsimp only
    split
    · cases q with
      | ws die' b =>
        simp only [byteAt]
        split
        · by_cases hd : die' = die
          · subst hd
            simp only [Vector.getElem_set_self]
            exact Memory.read_writeBytes_ne _ _ _ _ (houtside fun i hi hx => hq i hi (congrArg (Place.ws die') hx))
          · simp only [Vector.getElem_set_ne _ _ (Ne.symm hd)]
        · rfl
      | scratch | host | dev | remote => rfl
    · rfl
  | remote m a =>
    cases q with
    | remote m' b =>
      by_cases hm : m' = m
      · subst hm
        simp only [byteAt, State.putBytes, State.remote, lookup_insertKey_self, Option.getD_some]
        exact Memory.read_writeBytes_ne _ _ _ _ (houtside fun i hi hx => hq i hi (congrArg (Place.remote m') hx))
      · simp only [byteAt, State.putBytes, State.remote, lookup_insertKey_ne _ _ hm]
    | scratch | host | dev | ws => rfl
  | scratch j a =>
    cases q with
    | scratch j' b =>
      simp only [byteAt, State.putBytes]
      by_cases hj : j' = j
      · subst hj
        rw [State.cluster_setCluster]
        exact Cluster.scratchByte_scratchPut_ne _ _ _ _ (houtside fun i hi hx => hq i hi (congrArg (Place.scratch j') hx))
      · rw [State.cluster_setCluster_ne _ _ hj]
    | remote | host | dev | ws => rfl

theorem State.remote_mem_wf {s : State} (h : s.memWf = true) (m : Nat) : (s.remote m).mem.wf = true := by
  obtain ⟨_, hrem⟩ : _ ∧ s.remotes.all (fun r => r.2.mem.wf) = true := (Bool.and_eq_true ..).mp h
  unfold State.remote
  cases hl : lookup s.remotes m with
  | none => rfl
  | some r => exact List.all_eq_true.1 hrem _ (lookup_mem hl)

/-- A write puts its bytes where it says. -/
theorem byteAt_putBytes {s : State} (k : Nat) (p : Place) (bs : List Byte) (hwf : s.memWf = true) (hp : ∀ die off, p ≠ .ws die off) (i : Nat)
    (hi : i < bs.length) : byteAt (s.putBytes k p bs) (above p i) = bs[i] := by
  obtain ⟨hdev, -, -, hhost, -⟩ : s.dev.wf = true ∧ s.ws[0].wf = true ∧ s.ws[1].wf = true ∧ s.host.wf = true ∧
      s.remotes.all (fun r => r.2.mem.wf) = true := by
    simpa only [State.memWf, Bool.and_eq_true, and_assoc] using hwf
  cases p with
  | dev a => exact (byteAt_putBytes_dev ..).trans (Memory.read_writeBytes _ _ _ _ hdev hi)
  | host a => exact Memory.read_writeBytes _ _ _ _ hhost hi
  | ws die off => exact absurd rfl (hp die off)
  | remote m a =>
    simp only [byteAt, above, State.putBytes, State.remote, lookup_insertKey_self, Option.getD_some]
    exact Memory.read_writeBytes _ _ _ _ (State.remote_mem_wf hwf m) hi
  | scratch j a =>
    simp only [byteAt, above, State.putBytes, State.cluster_setCluster]
    exact Cluster.scratchByte_scratchPut _ _ _ _ hi

/-! ### Values as bytes -/

theorem leBytes_getElem (n : Nat) : ∀ (x i : Nat) (hi : i < (leBytes n x).length), (leBytes n x)[i] = BitVec.ofNat 8 (x / 256 ^ i) := by
  induction n with
  | zero => intro x i hi; exact absurd hi (Nat.not_lt_zero i)
  | succ k ih =>
    intro x i hi
    cases i with
    | zero => simp [leBytes]
    | succ j =>
      simp only [leBytes, List.getElem_cons_succ]
      rw [ih, Nat.div_div_eq_div_mul, Nat.pow_succ, Nat.mul_comm]

/-- R2: byte i of a register's value. -/
theorem leBytes_toNat (n : Nat) (x : Word) (i : Nat) (hi : i < (leBytes n x.toNat).length) :
    (leBytes n x.toNat)[i] = x.extractLsb' (8 * i) 8 := by
  rw [leBytes_getElem]
  apply BitVec.eq_of_toNat_eq
  rw [BitVec.toNat_ofNat, BitVec.extractLsb'_toNat, Nat.shiftRight_eq_div_pow, Nat.pow_mul]

end Sys2Proof.Machine

/-! # Chapter 8: scalar loads and stores, R148 to R150 -/

namespace Sys2Proof.Machine
-- one proof at a time: the memory of proofs in flight together is more than the check has
set_option Elab.async false
open Sys2Proof.Claim

@[simp] theorem State.sansMemory_cacheTranslation (s : State) (a : Agent) (va : Nat) :
    (s.cacheTranslation a va).sansMemory = s.sansMemory := by
  obtain ⟨l, n, h⟩ := s.cacheTranslation_frame a va
  rw [h]
  rfl

/-- A context keeps no page of an old version (R114). -/
theorem agent_oldBytes (s : State) (st : Strand) (va : Nat) : (agent s st).oldBytes va = none := by
  have hheld : (agent s st).held = [] := by
    unfold agent Strand.agent
    dsimp only
    split <;> rfl
  unfold Agent.oldBytes
  rw [hheld]
  rfl

theorem agent_cluster (s : State) (st : Strand) : (agent s st).cluster = clusterOf s.cur.slot := by
  unfold agent Strand.agent
  dsimp only
  split <;> rfl

theorem State.cur_of_sansMemory {s t : State} (h : t.sansMemory = s.sansMemory) : t.cur = s.cur := (congrArg State.cur h :)

@[simp] theorem State.sansMemory_seen (s : State) (k : Nat) (p : Place) (bs : List Byte) : (s.seen k p bs).sansMemory = s.sansMemory := by
  unfold State.seen
  split
  · dsimp only
    split <;> rfl
  · rfl

@[simp] theorem State.sansMemory_hostReadFor (s : State) (part : Nat) (bs : List Byte) : (s.hostReadFor part bs).sansMemory = s.sansMemory := by
  unfold State.hostReadFor
  dsimp only
  split
  · exact s.sansMemory_record ..
  · split
    · rfl
    · split <;> rfl

@[simp] theorem State.sansMemory_farRead (s : State) (k : Nat) (p : Place) (bs : List Byte) : (s.farRead k p bs).sansMemory = s.sansMemory := by
  unfold State.farRead
  split
  · unfold State.hostRead
    split
    · rfl
    · exact s.sansMemory_hostReadFor ..
  · dsimp only
    split <;> rfl
  · rfl

@[simp] theorem State.sansMemory_acquire (s : State) (k : Nat) (scope : BitVec 3) : (s.acquire k scope).sansMemory = s.sansMemory := by
  unfold State.acquire State.dropL1
  split
  · dsimp only
    split <;> rfl
  · rfl

@[simp] theorem State.sansMemory_readMissed (s : State) (k pa n : Nat) (alloc : Bool) :
    (s.readMissed k pa n alloc).2.sansMemory = s.sansMemory := by
  unfold State.readMissed
  dsimp only
  split
  · exact s.sansMemory_seen ..
  · exact s.sansMemory_seen ..

@[simp] theorem State.sansMemory_readPlace (s : State) (k : Nat) (p : Place) (n : Nat) (use : L1Line → Bool) (alloc : Bool) :
    (s.readPlace k p n use alloc).2.sansMemory = s.sansMemory := by
  cases p with
  | dev pa =>
    unfold State.readPlace
    dsimp only
    split
    · split
      · split <;> rfl
      · split
        · rfl
        · exact s.sansMemory_readMissed ..
    · exact s.sansMemory_readMissed ..
  | scratch | ws | host | remote => exact s.sansMemory_farRead ..

/-- An instruction that has read memory writes its register and completes. -/
theorem conclude_setReg_at {s t : State} {st : Strand} (i : Instr) (words : Nat) (d : Reg) (x : Word) (ht : t.sansMemory = s.sansMemory)
    (h : s.strand? s.cur.slot = some st) :
    s.conclude s.cur.slot s.cur.ctx i words false (.done (t.setReg (Env.here s st) d x)) = .next (complete t words (fun c => c.setReg d x)) := by
  have hst : t.strand? s.cur.slot = some st := (State.strand?_of_sansMemory ht _).trans h
  simp only [State.conclude_done, State.setReg, Env.slot_here, Env.ctx_here, State.updCtx_updCtx t _ _ _ hst, complete, Context.setReg_pc,
    State.cur_of_sansMemory ht]

/-- The strand after an instruction that has accessed memory completes. -/
theorem complete_strand {s t : State} {st : Strand} (words : Nat) (f : Context → Context) (ht : t.sansMemory = s.sansMemory)
    (h : s.strand? s.cur.slot = some st) : (complete t words f).strand? s.cur.slot =
      some (st.setCtx s.cur.ctx ((f (running s st)).advance ((running s st).pc + BitVec.ofNat 64 (4 * words)))) := by
  rw [complete, State.cur_of_sansMemory ht]
  exact State.strand?_updCtx _ _ _ ((State.strand?_of_sansMemory ht _).trans h)

/-- The registers after one has been written. -/
theorem reg_setCtx_setReg (s : State) (st : Strand) (d : Reg) (x pc : Word) (r : Reg) :
    (running s (st.setCtx s.cur.ctx (((running s st).setReg d x).advance pc))).reg r = if r = d ∧ r ≠ 0 then x else (running s st).reg r := by
  rw [running, Strand.ctx_setCtx, Context.reg_advance, Context.reg_setReg]

/-! ### Stores -/

/-- R88: an ordinary store goes to its home. -/
theorem State.storeVA_memory {s : State} {st : Strand} {strip va : Nat} {kind : AccessKind} {bs : List Byte} {p : Place}
    (hroute : s.route st strip kind va bs.length = .memory) (hplace : s.resolve (agent s st) va .store = .ok p)
    (hreach : s.unreachable p = false) :
    s.storeVA (agent s st) st strip kind va bs =
      .ok ((s.cacheTranslation (agent s st) va).putBytes (clusterOf s.cur.slot) p bs) := by
  unfold State.storeVA
  rw [hroute]
  dsimp only
  unfold State.storeMemory
  rw [hplace]
  dsimp only
  rw [hreach, agent_oldBytes, agent_cluster]
  rfl

/-- A store never has its place in a weight store (R94). -/
theorem State.resolve_store_ne_ws {s : State} {a : Agent} {va : Nat} {intent : Intent} {p : Place} (hi : intentWrites intent = true)
    (h : s.resolve a va intent = .ok p) (die off : Nat) : p ≠ .ws die off := by
  rintro rfl
  have hdev (pa : Nat) : s.devicePlace a pa intent ≠ .ok (.ws die off) := by
    unfold State.devicePlace
    rw [hi]
    split
    · exact fun hx => by cases hx
    · split <;> exact fun hx => by cases hx
  unfold State.resolve at h
  dsimp only at h
  split at h
  · split at h
    · cases h
    · split at h <;> cases h
  · split at h
    · cases h
    · split at h
      · cases h
      · split at h
        · cases h
        · split at h
          · cases h
          · split at h
            · exact hdev _ h
            · cases h
            · cases h

/-- What an instruction does as a store of the claims. -/
def CompletesAsStore (x : Store) : Prop :=
  ∃ (offset : Env → Word) (own : Attr),
    (∀ d a s, exec (x.instr d a) s = s.scalarStore (x.instr d a) d a x.plain x.bytes offset own) ∧
      (∀ s st, offset (Env.here s st) = x.offset (running s st)) ∧ own.scope = x.scope ∧ own.release = x.order.getLsbD 1

theorem completesAsStore_ofPlain {f : Reg → Reg → BitVec 13 → Instr} {off : BitVec 13} {n : Nat}
    (hexec : ∀ d a s, exec (f d a off) s = s.scalarStore (f d a off) d a true n (fun e => e.imm off) .plain) :
    CompletesAsStore (.ofPlain f off n) :=
  ⟨fun e => e.imm off, .plain, hexec, fun s st => Env.imm_here s st off, rfl, (by decide : false = (0#3).getLsbD 1)⟩

theorem storesOf_completesAsStore (off : BitVec 13) (off10 : BitVec 10) (scope : BitVec 3) :
    ∀ x ∈ storesOf off off10 scope, CompletesAsStore x := by
  simp only [storesOf, List.forall_mem_cons]
  exact
    ⟨completesAsStore_ofPlain (fun _ _ _ => rfl),
     completesAsStore_ofPlain (fun _ _ _ => rfl),
     completesAsStore_ofPlain (fun _ _ _ => rfl),
     completesAsStore_ofPlain (fun _ _ _ => rfl),
     ⟨fun e => e.imm off10, _, fun _ _ _ => rfl, fun s st => Env.imm_here s st off10, rfl,
      (by decide : true = (2#3).getLsbD 1)⟩, nofun⟩

/-- R149, R150: an aligned store that nothing holds back, whose place is at hand. -/
theorem CompletesAsStore.completes {x : Store} (hx : CompletesAsStore x) {d a : Reg} {s : State} {st : Strand} {p : Place}
    (h : Stands s st [d, a]) (hp : StoreTakes (running s st) x.plain)
    (halign : ((running s st).reg a + x.offset (running s st)).toNat % x.bytes = 0) (hnov : st.novHeld s.cur.ctx = false)
    (hrel : (orderOf (running s st) x.order).getLsbD 1 = true →
      s.releaseHeld s.cur.slot s.cur.ctx st (scopeOf (running s st) x.scope) = false)
    (hw : Writes s st ((running s st).reg a + x.offset (running s st)).toNat x.bytes p) :
    exec (x.instr d a) s = .next (((s.cacheTranslation (agent s st) ((running s st).reg a + x.offset (running s st)).toNat).putBytes
      (clusterOf s.cur.slot) p (leBytes x.bytes ((running s st).reg d).toNat)).updCtx s.cur.slot s.cur.ctx (fun c => c.advance (c.pc + 4))) := by
  obtain ⟨offset, own, hexec, hoff, hscope, hown⟩ := hx
  obtain ⟨hroute, hplace, hreach⟩ := hw
  rw [hexec, State.scalarStore, State.issue_ready _ _ _ h (Context.admits_storeForm hp) nofun rfl]
  have hheld := Env.heldBack_here hown hnov (hscope ▸ hrel)
  dsimp only
  rw [Env.reg_here, hoff]
  have hroute' : s.route st st.strip ((Env.here s st).accessKind .store) ((running s st).reg a + x.offset (running s st)).toNat
      (leBytes x.bytes ((running s st).reg d).toNat).length = .memory := by
    rw [leBytes_length]
    exact hroute
  refine (congrArg (s.conclude s.cur.slot s.cur.ctx (x.instr d a) 1 false) ((if_neg (not_not.2 halign)).trans ((if_neg ?_).trans
    (congrArg (fun r => Res.act r (Env.here s st) s Act.done) (State.storeVA_memory hroute' hplace hreach))))).trans rfl
  exact fun hx => absurd (hheld.symm.trans hx) (by decide)

/-- Settles O7: the bytes of `putBytes` at the place, and nothing else. -/
theorem storesComplete : Obligations.StoresComplete := by
  intro off off10 scope x hx d a s st p h hp hwf c va halign hnov hrel hw
  have hexec := (storesOf_completesAsStore off off10 scope x hx).completes h hp halign hnov hrel hw
  generalize hs1 : (s.cacheTranslation (agent s st) va).putBytes (clusterOf s.cur.slot) p (leBytes x.bytes (c.reg d).toNat) = s1
  rw [hs1] at hexec
  have hst1 : s1.strand? s.cur.slot = some st := by
    rw [← hs1, State.strand?_of_sansMemory ((State.sansMemory_putBytes ..).trans (State.sansMemory_cacheTranslation ..)), h.1]
  refine ⟨_, _, hexec, State.strand?_updCtx _ _ _ hst1, fun i hi => ?_, fun q hq => ?_, fun r => ?_, ?_, ?_⟩
  · have hlen : i < (leBytes x.bytes (c.reg d).toNat).length := by rwa [leBytes_length]
    rw [byteAt_updCtx, ← hs1, byteAt_putBytes _ _ _ ((State.memWf_cacheTranslation ..).trans hwf) (State.resolve_store_ne_ws rfl hw.2.1) i hlen,
      leBytes_toNat]
  · rw [byteAt_updCtx, ← hs1, byteAt_putBytes_ne _ _ _ _ _ (fun i hi => hq i (by rwa [leBytes_length] at hi)), byteAt_cacheTranslation]
  · rw [running, Strand.ctx_setCtx]
    rfl
  · rw [running, Strand.ctx_setCtx]
    rfl
  · rw [running, Strand.ctx_setCtx]
    rfl

/-! ### Loads -/

/-- R88: an ordinary load reads its place for the cluster. -/
theorem State.loadVA_memory {s : State} {st : Strand} {strip va n : Nat} {kind : AccessKind} {p : Place} (use : L1Line → Bool) (alloc : Bool)
    (helided : s.readsElided st va n = false) (hroute : s.route st strip kind va n = .memory)
    (hplace : s.resolve (agent s st) va .load = .ok p) (hpoison : s.poisoned p = false) (hreach : s.unreachable p = false) :
    s.loadVA (agent s st) st strip kind va n use alloc =
      .ok ((s.cacheTranslation (agent s st) va).readPlace (clusterOf s.cur.slot) p n use alloc) := by
  unfold State.loadVA
  rw [helided, hroute]
  dsimp only
  unfold State.loadMemory
  rw [hplace]
  dsimp only
  rw [hpoison, hreach, agent_oldBytes, agent_cluster]
  rfl

/-- R132: whether an access acquires, -/
theorem Env.attr_here_acquire (s : State) (st : Strand) {own : Attr} {order : BitVec 3} (h : own.acquire = order.getLsbD 0) :
    ((Env.here s st).attr own).acquire = (Claim.orderOf (running s st) order).getLsbD 0 := by
  simp only [Env.attr, Env.mattr_here, Claim.orderOf]
  cases Claim.mattr (running s st) with
  | none => exact h
  | some m =>
    change (if m.2.2 = 7 then own.acquire else bit m.2.2 0) = (if m.2.2 = 7 then order else m.2.2).getLsbD 0
    split
    · exact h
    · rfl

/-- and the cache policy of one that has none of its own. -/
theorem Env.attr_here_cache (s : State) (st : Strand) {own : Attr} (h : own.cache = 0) :
    ((Env.here s st).attr own).cache = cacheOf (running s st) := by
  simp only [Env.attr, Env.mattr_here, cacheOf]
  cases Claim.mattr (running s st) with
  | none => exact h
  | some m => exact congrArg (fun x => if m.2.1 = 7 then x else m.2.1) h

/-- What an instruction does as a load of the claims. -/
def CompletesAsLoad (x : Load) : Prop :=
  ∃ (offset : Env → Word) (own : Attr),
    (∀ d a s, exec (x.instr d a) s = s.scalarLoad (x.instr d a) d a x.plain x.bytes offset own x.extend) ∧
      (∀ s st, offset (Env.here s st) = x.offset (running s st)) ∧ own.scope = x.scope ∧ own.acquire = x.order.getLsbD 0 ∧ own.cache = 0 ∧
      (x.plain = true → x.order = 0)

theorem signFill_eq (n x : Nat) : signFill n x = (BitVec.ofNat (8 * n) x).signExtend 64 := by
  rw [signFill, signedOf_eq_toInt, BitVec.signExtend]

theorem completesAsLoad_signed {f : Reg → Reg → BitVec 13 → Instr} {off : BitVec 13} {n : Nat}
    (hexec : ∀ d a s, exec (f d a off) s = s.scalarLoad (f d a off) d a true n (fun e => e.imm off) .plain (signFill n)) :
    CompletesAsLoad (.ofPlain f off n true) := by
  have hext : (Load.ofPlain f off n true).extend = signFill n := funext fun x => (signFill_eq n x).symm
  refine ⟨fun e => e.imm off, .plain, fun d a s => ?_, fun s st => Env.imm_here s st off, rfl, (by decide : false = (0#3).getLsbD 0), rfl,
    fun _ => rfl⟩
  rw [hext]
  exact hexec d a s

theorem completesAsLoad_unsigned {f : Reg → Reg → BitVec 13 → Instr} {off : BitVec 13} {n : Nat}
    (hexec : ∀ d a s, exec (f d a off) s = s.scalarLoad (f d a off) d a true n (fun e => e.imm off) .plain zeroFill) :
    CompletesAsLoad (.ofPlain f off n false) :=
  ⟨fun e => e.imm off, .plain, hexec, fun s st => Env.imm_here s st off, rfl, (by decide : false = (0#3).getLsbD 0), rfl, fun _ => rfl⟩

theorem loadsOf_completesAsLoad (off : BitVec 13) (off10 : BitVec 10) (scope : BitVec 3) : ∀ x ∈ loadsOf off off10 scope, CompletesAsLoad x := by
  simp only [loadsOf, List.forall_mem_cons]
  exact
    ⟨completesAsLoad_signed (fun _ _ _ => rfl),
     completesAsLoad_signed (fun _ _ _ => rfl),
     completesAsLoad_signed (fun _ _ _ => rfl),
     completesAsLoad_unsigned (fun _ _ _ => rfl),
     completesAsLoad_unsigned (fun _ _ _ => rfl),
     completesAsLoad_unsigned (fun _ _ _ => rfl),
     completesAsLoad_unsigned (fun _ _ _ => rfl),
     ⟨fun e => e.imm off10, { scope, cache := 0, acquire := true, release := false }, fun _ _ _ => rfl,
      fun s st => Env.imm_here s st off10, rfl, (by decide : true = (1#3).getLsbD 0), rfl, nofun⟩, nofun⟩

/-- R148, R149, R150: what every load of the claims comes to. -/
theorem loadsComplete_claim : Claim.LoadsComplete := by
  intro off off10 scope x hx d a s st p h hp c va acquires halign hnov hr got t
  obtain ⟨offset, own, hexec, hoff, hscope, hown, hcache, -⟩ := loadsOf_completesAsLoad off off10 scope x hx
  obtain ⟨helided, hroute, hplace, hpoison, hreach⟩ := hr
  rw [hexec, State.scalarLoad, State.issue_ready _ _ _ h (Context.admits_loadForm hp) nofun rfl]
  have hload := State.loadVA_memory (fun _ => !((Env.here s st).attr own).acquire) (((Env.here s st).attr own).cache != 1)
    helided hroute hplace hpoison hreach
  dsimp only
  rw [Env.reg_here, hoff]
  have ht : t = if ((Env.here s st).attr own).acquire then got.2.acquire (clusterOf s.cur.slot) ((Env.here s st).attr own).scope else got.2 := by
    rw [Env.attr_here_acquire s st hown, Env.attr_here_scope, hscope]
    unfold State.acquire
    cases hq : (Claim.orderOf (running s st) x.order).getLsbD 0 with
    | false => simp only [t, acquires, c, hq, Bool.false_and, Bool.false_eq_true, if_false]
    | true => simp only [t, acquires, c, hq, Bool.true_and, decide_eq_true_eq, if_true]
  have hsans : t.sansMemory = s.sansMemory := by
    have hgot : got.2.sansMemory = s.sansMemory := (State.sansMemory_readPlace ..).trans (State.sansMemory_cacheTranslation ..)
    rw [ht]
    split
    · exact (State.sansMemory_acquire ..).trans hgot
    · exact hgot
  have hgot : got = (s.cacheTranslation (agent s st) va).readPlace (clusterOf s.cur.slot) p x.bytes
      (fun _ => !((Env.here s st).attr own).acquire) (((Env.here s st).attr own).cache != 1) := by
    rw [Env.attr_here_acquire s st hown, Env.attr_here_cache s st hcache]
  rw [← hgot] at hload
  refine (congrArg (s.conclude s.cur.slot s.cur.ctx (x.instr d a) 1 false) ((if_neg (not_not.2 halign)).trans ((if_neg ?_).trans ?_))).trans
    (conclude_setReg_at _ 1 d (x.extend (leNat got.1)) hsans h.1)
  · exact fun hn => absurd (hnov.symm.trans hn) (by decide)
  · change (match s.loadVA (agent s st) st st.strip (kindOf s .load) va x.bytes (fun _ => !((Env.here s st).attr own).acquire)
      (((Env.here s st).attr own).cache != 1) with | .ok (bs, s1) => _ | .fault .uncorrectable _ => _ | r => _) = _
    rw [hload, ht]
    rfl

/-! ### The bytes a load gives -/

theorem L1_findIdx_none {l : List L1Line} {pa n : Nat} (use : L1Line → Bool) (h : ∀ x ∈ l, x.copy pa n = none) :
    l.findIdx? (fun x => use x && (x.copy pa n).isSome) = none := by
  rw [List.findIdx?_eq_none_iff]
  intro x hx
  rw [h x hx]
  exact Bool.and_false _

/-- A place whose n bytes a cluster reads at their home. -/
def HomeOnly (s : State) (k n : Nat) : Place → Prop
  | .dev pa => ∀ l ∈ (s.cluster k).l1, l.copy pa n = none
  | .scratch _ _ => True
  | _ => False

/-- A place of which L1 holds no copy gives the bytes at its home, and every byte stays. -/
theorem State.readPlace_home {s : State} {k n : Nat} {p : Place} (use : L1Line → Bool) (alloc : Bool)
    (hp : HomeOnly s k n p) :
    (s.readPlace k p n use alloc).1 = (List.range n).map (fun i => byteAt s (above p i)) ∧
      ∀ q, byteAt (s.readPlace k p n use alloc).2 q = byteAt s q := by
  cases p with
  | dev pa =>
    have hmiss : s.readPlace k (.dev pa) n use alloc = s.readMissed k pa n alloc := by
      unfold State.readPlace
      dsimp only
      rw [L1_findIdx_none use hp]
    rw [hmiss]
    refine ⟨?_, byteAt_readMissed s k pa n alloc⟩
    unfold State.readMissed
    dsimp only
    split <;> rfl
  | scratch j off => exact ⟨rfl, fun q => rfl⟩
  | ws | host | remote => exact hp.elim

/-- R131, R132: with at most an IMX read there is no MATTR, and every load takes what there is. -/
theorem atMostImx_mattr {c : Context} (h : AtMostImx c) : Claim.mattr c = none := by
  unfold Claim.mattr
  cases hp : c.prefixes with
  | none => rfl
  | some p =>
    rw [AtMostImx, hp, Option.all_some, Bool.and_eq_true] at h
    exact Option.isNone_iff_eq_none.1 h.2

theorem loadTakes_of_atMostImx {c : Context} (plain : Bool) (h : AtMostImx c) : LoadTakes c plain := by
  cases hp : c.prefixes with
  | none => rw [LoadTakes, hp]; rfl
  | some p =>
    rw [AtMostImx, hp, Option.all_some, Bool.and_eq_true] at h
    rw [LoadTakes, hp, Option.all_some, h.1, Option.isNone_iff_eq_none.1 h.2]
    rfl

theorem loadGivesLittleEndianBytes_claim : Claim.LoadGivesLittleEndianBytes := by
  intro off off10 scope x hx hplain d a s st p h hp c va halign hnov hr hcopy
  have hexec := loadsComplete_claim off off10 scope x hx d a s st p h (loadTakes_of_atMostImx _ hp) halign hnov hr
  have horder : (Claim.orderOf (running s st) x.order).getLsbD 0 = false := by
    obtain ⟨-, -, -, -, -, -, -, hzero⟩ := loadsOf_completesAsLoad off off10 scope x hx
    rw [Claim.orderOf, atMostImx_mattr hp, hzero hplain]
    decide
  have hhome : HomeOnly (s.cacheTranslation (agent s st) va) (clusterOf s.cur.slot) x.bytes p := by
    obtain ⟨l, n, ht⟩ := s.cacheTranslation_frame (agent s st) va
    rw [ht]
    cases p with
    | dev pa => exact hcopy
    | scratch => trivial
    | ws | host | remote => exact hcopy
  obtain ⟨hbytes, hsame⟩ := State.readPlace_home (fun _ => !false) (cacheOf c != 1) hhome
  generalize hgot : (s.cacheTranslation (agent s st) va).readPlace (clusterOf s.cur.slot) p x.bytes (fun _ => !false) (cacheOf c != 1) = got
    at hbytes hsame
  have hsans : got.2.sansMemory = s.sansMemory := by
    rw [← hgot]
    exact (State.sansMemory_readPlace ..).trans (State.sansMemory_cacheTranslation ..)
  have hexec : exec (x.instr d a) s = .next (complete got.2 1 (fun c => c.setReg d (x.extend (leNat got.1)))) := by
    dsimp only at hexec
    rw [horder] at hexec
    rw [← hgot]
    exact hexec
  simp only [byteAt_cacheTranslation] at hbytes hsame
  refine ⟨_, _, hexec, complete_strand 1 _ hsans h.1, fun hd => ?_, fun r hr => ?_, fun q => (byteAt_complete ..).trans (hsame q)⟩
  · rw [reg_setCtx_setReg, if_pos ⟨rfl, hd⟩, hbytes]
  · rw [reg_setCtx_setReg, if_neg (fun hx => hr hx.1)]

/-- Settles O5: what a load comes to, and the bytes it then gives. -/
theorem loadsComplete : Obligations.LoadsComplete := ⟨loadsComplete_claim, loadGivesLittleEndianBytes_claim⟩

end Sys2Proof.Machine

/-! # Chapter 8: atomics, R151 to R154 -/

namespace Sys2Proof.Machine
-- one proof at a time: the memory of proofs in flight together is more than the check has
set_option Elab.async false
open Sys2Proof.Claim

theorem homeBytes_eq (s : State) (p : Place) (n : Nat) : s.homeBytes p n = (List.range n).map (fun i => byteAt s (above p i)) := by
  cases p with
  | dev | host | scratch | remote => rfl
  | ws die off =>
    unfold State.homeBytes
    dsimp only
    split
    · rename_i hd
      simp only [byteAt, above, dif_pos hd]
      rfl
    · rename_i hd
      simp only [byteAt, above, dif_neg hd, List.map_const', List.length_range]

/-- The state in which an atomic writes: its doubleword has been read at its home (R151, R361, R368). -/
def State.atomicRead (s : State) (a : Agent) (va : Nat) (p : Place) : State :=
  ((if isHost p then s.drawn else s).cacheTranslation a va).farRead a.cluster p (s.homeBytes p 8)

/-- What an atomic leaves where it read m: a doubleword written, or the copies that differ dropped (R103). -/
def State.atomicLeft (s : State) (k : Nat) (p : Place) (m : Word) : Option Word → State
  | some x => s.putBytes k p (leBytes 8 x.toNat)
  | none => s.seen k p (leBytes 8 m.toNat)

/-- An atomic's own attributes (R151). -/
def atomicAttr (scope : BitVec 3) (order : BitVec 2) : Attr := { scope, cache := 0, acquire := bit order 0, release := bit order 1 }

/-- The acquire of an access, if it is one (R110). -/
def Env.acquired (e : Env) (own : Attr) (u : State) : State :=
  if (e.attr own).acquire then u.acquire (clusterOf e.slot) (e.attr own).scope else u

theorem Env.acquired_sans (e : Env) (own : Attr) (u : State) : (e.acquired own u).sansMemory = u.sansMemory := by
  unfold Env.acquired
  split
  · exact u.sansMemory_acquire ..
  · rfl

theorem byteAt_acquired (e : Env) (own : Attr) (u : State) (q : Place) : byteAt (e.acquired own u) q = byteAt u q := by
  unfold Env.acquired
  split
  · exact byteAt_acquire ..
  · rfl

theorem State.atomicRead_sans (s : State) (a : Agent) (va : Nat) (p : Place) : (s.atomicRead a va p).sansMemory = s.sansMemory := by
  refine (State.sansMemory_farRead ..).trans ((State.sansMemory_cacheTranslation ..).trans ?_)
  split <;> rfl

theorem State.memWf_atomicRead {s : State} (a : Agent) (va : Nat) (p : Place) (h : s.memWf = true) : (s.atomicRead a va p).memWf = true := by
  refine State.memWf_farRead _ _ _ _ ((State.memWf_cacheTranslation ..).trans ?_)
  split <;> exact h

theorem byteAt_atomicRead {s : State} (a : Agent) (va : Nat) (p : Place) (h : isHost p = true → s.recorders = []) (q : Place) :
    byteAt (s.atomicRead a va p) q = byteAt s q := by
  have hrec : ∀ u : State, u.recorders = s.recorders → (u.cacheTranslation a va).recorders = s.recorders := by
    intro u hu
    obtain ⟨l, n, ht⟩ := u.cacheTranslation_frame a va
    rw [ht]
    exact hu
  refine (byteAt_farRead _ _ _ _ (fun hp => (hrec _ ?_).trans (h hp)) q).trans ((byteAt_cacheTranslation ..).trans ?_)
  · split <;> rfl
  · split
    · exact byteAt_drawn ..
    · rfl

theorem State.atomicLeft_sans (s : State) (k : Nat) (p : Place) (m : Word) (x : Option Word) :
    (s.atomicLeft k p m x).sansMemory = s.sansMemory := by
  cases x with
  | none => exact s.sansMemory_seen ..
  | some x => exact s.sansMemory_putBytes ..

/-- R151, R154: an aligned atomic that nothing holds back, of a doubleword whose place is at hand. -/
theorem State.atomic_outcome {s : State} {st : Strand} (i : Instr) {d a : Reg} {regs : List Reg} {scope : BitVec 3} {order : BitVec 2}
    {host : Bool} (f : Env → Word → Option Word) {p : Place} (h : Stands s st regs) (hp : AtomicTakes (running s st))
    (halign : ((running s st).reg a).toNat % 8 = 0) (hnov : st.novHeld s.cur.ctx = false)
    (hrel : (Claim.orderOf (running s st) (order.setWidth 3)).getLsbD 1 = true →
      s.releaseHeld s.cur.slot s.cur.ctx st (scopeOf (running s st) scope) = false)
    (hroute : s.route st st.strip .other ((running s st).reg a).toNat 8 = .memory)
    (hplace : s.resolve (agent s st) ((running s st).reg a).toNat .atomic = .ok p) (hhost : isHost p = true → host = true)
    (hpoison : s.poisoned p = false) (hreach : s.unreachable p = false) :
    s.atomic i d a regs scope order host f =
      if isHost p && !Config.hostAccepts s.draws then trapsIn s s.drawn .protection false ((running s st).reg a)
      else .next (complete ((Env.here s st).acquired (atomicAttr scope order) ((s.atomicRead (agent s st) ((running s st).reg a).toNat p).atomicLeft (clusterOf s.cur.slot) p (doubleAt s p)
            (f (Env.here s st) (doubleAt s p)))) 1 (fun c => c.setReg d (doubleAt s p))) := by
  generalize hown : atomicAttr scope order = own
  have hheld := Env.heldBack_here (own := own) (order := order.setWidth 3) (by rw [← hown]; simp [atomicAttr, bit]) hnov (by rw [← hown]; exact hrel)
  have hrefused : (isHost p && !host) = false := by
    cases hh : isHost p with
    | false => rfl
    | true => rw [hhost hh]; rfl
  have hread : s.atomicRead (agent s st) ((running s st).reg a).toNat p =
      ((if isHost p then s.drawn else s).cacheTranslation (agent s st) ((running s st).reg a).toNat).farRead (clusterOf s.cur.slot) p
        (s.homeBytes p 8) := by
    rw [State.atomicRead, agent_cluster]
  have hdouble : BitVec.ofNat 64 (leNat (s.homeBytes p 8)) = doubleAt s p := by
    rw [homeBytes_eq]
    rfl
  rw [State.atomic, State.issue_ready i _ _ h (Context.admits_atomicForm hp) nofun rfl, ← atomicAttr, hown]
  simp only [Env.slot_here, Env.ctx_here, Env.st_here, Env.agent_here, Env.reg_here]
  refine (congrArg (s.conclude s.cur.slot s.cur.ctx i 1 false) ((if_neg (not_not.2 halign)).trans (if_neg ?_))).trans ?_
  · exact fun hx => absurd (hheld.symm.trans hx) (by decide)
  rw [hroute, hplace]
  change s.conclude s.cur.slot s.cur.ctx i 1 false (if isHost p && !host then _ else if s.poisoned p || s.unreachable p then _
    else if isHost p && !Config.hostAccepts s.draws then _ else _) = _
  rw [hrefused, if_neg Bool.false_ne_true, hpoison, hreach, Bool.or_self, if_neg Bool.false_ne_true, hdouble]
  by_cases hacc : (isHost p && !Config.hostAccepts s.draws) = true
  · rw [if_pos hacc, if_pos hacc]
    rfl
  · rw [if_neg hacc, if_neg hacc]
    have hleft : ((s.atomicRead (agent s st) ((running s st).reg a).toNat p).atomicLeft (clusterOf s.cur.slot) p (doubleAt s p)
        (f (Env.here s st) (doubleAt s p))).sansMemory = s.sansMemory := (State.atomicLeft_sans ..).trans (State.atomicRead_sans ..)
    rw [hread] at hleft ⊢
    refine Eq.trans ?_ (conclude_setReg_at i 1 d (doubleAt s p) ?_ h.1)
    · cases f (Env.here s st) (doubleAt s p) <;> rfl
    · exact (Env.acquired_sans ..).trans hleft

/-- R2: a doubleword written is read back, and only its bytes change. -/
theorem atomicLeft_bytes {s : State} (k : Nat) {p : Place} (m : Word) (x : Option Word) (hwf : s.memWf = true) (hp : ∀ die off, p ≠ .ws die off) :
    (∀ y, x = some y → doubleAt (s.atomicLeft k p m x) p = y) ∧
      ∀ q, (x = none ∨ ∀ i < 8, q ≠ above p i) → byteAt (s.atomicLeft k p m x) q = byteAt s q := by
  cases x with
  | none => exact ⟨nofun, fun q _ => byteAt_seen ..⟩
  | some y =>
    refine ⟨fun z hz => ?_, fun q hq => ?_⟩
    · cases hz
      have hbytes : (List.range 8).map (fun i => byteAt (s.atomicLeft k p m (some y)) (above p i)) = leBytes 8 y.toNat := by
        apply List.ext_getElem
        · simp
        · intro i h1 h2
          rw [List.getElem_map, List.getElem_range]
          exact byteAt_putBytes k p _ hwf hp i h2
      rw [doubleAt, hbytes, leNat_leBytes]
      apply BitVec.eq_of_toNat_eq
      rw [BitVec.toNat_ofNat, Nat.mod_mod_of_dvd _ (by decide), Nat.mod_eq_of_lt y.isLt]
    · refine byteAt_putBytes_ne _ _ _ _ _ (fun i hi => ?_)
      rw [leBytes_length] at hi
      exact hq.resolve_left nofun i hi

/-- What an atomic that reads m and writes x leaves (R151). -/
theorem atomic_left {s : State} {st : Strand} (i : Instr) (d : Reg) (own : Attr) {va : Nat} {p : Place} (x : Option Word)
    (h : s.strand? s.cur.slot = some st) (hwf : s.memWf = true) (hplace : s.resolve (agent s st) va .atomic = .ok p)
    (hexec : exec i s = .next (complete ((Env.here s st).acquired own
      ((s.atomicRead (agent s st) va p).atomicLeft (clusterOf s.cur.slot) p (doubleAt s p) x)) 1 (fun c => c.setReg d (doubleAt s p)))) :
    ∃ t st', exec i s = .next t ∧ t.strand? s.cur.slot = some st' ∧
      (d ≠ 0 → (running s st').reg d = doubleAt s p) ∧ (∀ r, r ≠ d → (running s st').reg r = (running s st).reg r) ∧
      (∀ y, x = some y → doubleAt t p = y) ∧
      ((isHost p = true → s.recorders = []) → ∀ q, (x = none ∨ ∀ i < 8, q ≠ above p i) → byteAt t q = byteAt s q) := by
  obtain ⟨hwritten, hsame⟩ := atomicLeft_bytes (s := s.atomicRead (agent s st) va p) (clusterOf s.cur.slot) (p := p) (doubleAt s p) x
    (State.memWf_atomicRead _ _ _ hwf) (State.resolve_store_ne_ws rfl hplace)
  generalize hu : (s.atomicRead (agent s st) va p).atomicLeft (clusterOf s.cur.slot) p (doubleAt s p) x = u at hexec hwritten hsame
  have hsans : u.sansMemory = s.sansMemory := by
    rw [← hu]
    exact (State.atomicLeft_sans ..).trans (State.atomicRead_sans ..)
  have hbyte (q : Place) : byteAt (complete ((Env.here s st).acquired own u) 1 (fun c => c.setReg d (doubleAt s p))) q = byteAt u q :=
    (byteAt_complete ..).trans (byteAt_acquired ..)
  refine ⟨_, _, hexec, complete_strand 1 _ ((Env.acquired_sans ..).trans hsans) h, fun hd => ?_, fun r hr => ?_, fun y hy => ?_,
    fun hrec q hq => ?_⟩
  · rw [reg_setCtx_setReg, if_pos ⟨rfl, hd⟩]
  · rw [reg_setCtx_setReg, if_neg (fun hx => hr hx.1)]
  · rw [← hwritten y hy]
    exact congrArg (fun f : Nat → Byte => BitVec.ofNat 64 (leNat ((List.range 8).map f))) (funext fun i => hbyte (above p i))
  · rw [hbyte, hsame q hq, byteAt_atomicRead _ _ _ hrec]

/-- What an instruction computes as an atomic of the table. -/
def ComputesAtomic (op : (Reg → Reg → BitVec 3 → BitVec 2 → Reg → Instr) × Bool × (Word → Word → Word)) : Prop :=
  ∃ f, (∀ d a src scope order s, exec (op.1 d a scope order src) s =
    s.atomicOp (op.1 d a scope order src) d a scope order src op.2.1 f) ∧ ∀ m x, f m x = op.2.2 m x

theorem minSigned_slt (m x : Word) : minSigned m x = if x.slt m then x else m := by
  rw [minSigned, BitVec.slt_eq_decide]
  by_cases h : x.toInt < m.toInt
  · rw [if_neg (Int.not_le.2 h), if_pos (decide_eq_true h)]
  · rw [if_pos (Int.not_lt.1 h), if_neg (by simpa using h)]

theorem maxSigned_slt (m x : Word) : maxSigned m x = if m.slt x then x else m := by
  rw [maxSigned, BitVec.slt_eq_decide]
  rcases Int.lt_trichotomy m.toInt x.toInt with h | h | h
  · rw [if_pos h.le, if_pos (decide_eq_true h)]
  · rw [BitVec.toInt_inj.1 h, ite_self, ite_self]
  · rw [if_neg (Int.not_le.2 h), if_neg (by simpa using h.le)]

theorem atomicOps_compute : ∀ op ∈ atomicOps, ComputesAtomic op := by
  simp only [atomicOps, List.forall_mem_cons]
  exact
    ⟨⟨fun _ x => x, fun _ _ _ _ _ _ => rfl, fun _ _ => rfl⟩,
     ⟨fun m x => m + x, fun _ _ _ _ _ _ => rfl, fun _ _ => rfl⟩,
     ⟨fun m x => m &&& x, fun _ _ _ _ _ _ => rfl, fun _ _ => rfl⟩,
     ⟨fun m x => m ||| x, fun _ _ _ _ _ _ => rfl, fun _ _ => rfl⟩,
     ⟨fun m x => m ^^^ x, fun _ _ _ _ _ _ => rfl, fun _ _ => rfl⟩,
     ⟨minSigned, fun _ _ _ _ _ _ => rfl, minSigned_slt⟩,
     ⟨maxSigned, fun _ _ _ _ _ _ => rfl, maxSigned_slt⟩, nofun⟩

theorem atomicsComplete_claim : Claim.AtomicsComplete := by
  intro op hop d a src scope order s st p h hp hwf c ord va halign hnov hrel hroute hplace hhost hpoison hreach
  obtain ⟨f, hexec, hf⟩ := atomicOps_compute op hop
  have hout := State.atomic_outcome (op.1 d a scope order src) (d := d) (fun e m => some (f m (e.reg src))) h hp halign hnov hrel hroute hplace
    hhost hpoison hreach
  rw [← State.atomicOp, ← hexec] at hout
  split
  · rwa [if_pos ‹_›] at hout
  · rw [if_neg ‹_›] at hout
    obtain ⟨t, st', hnext, hst', hd, hr, hwrite, hsame⟩ := atomic_left _ d _ _ h.1 hwf hplace hout
    refine ⟨t, st', hnext, hst', hd, hr, (hwrite _ rfl).trans (hf ..), fun hrec q hq => hsame hrec q (.inr hq)⟩

theorem compareAndSwap_claim : Claim.CompareAndSwap := by
  intro d a scope order s st p h hp hwf c ord va halign hnov hrel hroute hplace hpoison hreach
  have hout := State.atomic_outcome (.amocas d a scope order) (d := d) (fun e m => if m = e.reg d then some (e.reg (d + 1)) else none) h hp
    halign hnov hrel hroute hplace (fun _ => rfl) hpoison hreach
  change exec (.amocas d a scope order) s = _ at hout
  split
  · rwa [if_pos ‹_›] at hout
  · rw [if_neg ‹_›] at hout
    obtain ⟨t, st', hnext, hst', hd, hr, hwrite, hsame⟩ := atomic_left _ d _ _ h.1 hwf hplace hout
    refine ⟨t, st', hnext, hst', hd, hr, fun hne hrec q => hsame hrec q (.inl (if_neg hne)), fun heq => ⟨hwrite _ (if_pos heq), ?_⟩⟩
    exact fun hrec q hq => hsame hrec q (.inr hq)

/-- Settles O8: an atomic reads its home, writes what it computes, and gives what it read. -/
theorem atomicsComplete : Obligations.AtomicsComplete := ⟨atomicsComplete_claim, compareAndSwap_claim⟩

end Sys2Proof.Machine

/-! # Chapters 6 and 12: FENCE, SVFENCE and WSINFO -/

namespace Sys2Proof.Machine
-- one proof at a time: the memory of proofs in flight together is more than the check has
set_option Elab.async false
open Sys2Proof.Claim

/-! ### R111 -/

/-- A FENCE that waits for nothing. -/
theorem execFence_passes {s : State} {st : Strand} (scope : BitVec 3) (kinds : BitVec 6) (h : Stands s st []) (hb : Bare (running s st))
    (hwork : ((bit kinds 0 || bit kinds 1) && (bit kinds 2 || bit kinds 3) && bit kinds 5 && s.cur.ctx == .execute &&
      s.fenceWork s.cur.slot st kinds) = false)
    (hacks : ((bit kinds 0 || bit kinds 1) && (bit kinds 2 || bit kinds 3) && bit kinds 1 && decide (4 ≤ scope.toNat) && s.acksOwed) = false)
    (hcmds : ((bit kinds 0 || bit kinds 1) && (bit kinds 2 || bit kinds 3) && bit kinds 4 && !(s.commandsOf st s.cur.ctx).isEmpty) = false) :
    exec (.fence scope kinds) s = .next (complete s 1 (fun c => c)) := by
  change execFence scope kinds s = _
  rw [execFence, State.issue_bare _ _ _ _ h.1 hb h.2 (fun hx => absurd hx Bool.false_ne_true)]
  have hno {b : Bool} (hb : b = false) : ¬ b = true := fun hx => absurd (hb.symm.trans hx) (by decide)
  exact congrArg (s.conclude s.cur.slot s.cur.ctx (.fence scope kinds) 1 false)
    ((if_neg (hno hwork)).trans ((if_neg (hno hacks)).trans (if_neg (hno hcmds))))

/-- A FENCE that waits for the context's engine commands alone. -/
theorem execFence_awaitsEngines {s : State} {st : Strand} (scope : BitVec 3) (kinds : BitVec 6) (h : Stands s st []) (hb : Bare (running s st))
    (hwork : ((bit kinds 0 || bit kinds 1) && (bit kinds 2 || bit kinds 3) && bit kinds 5 && s.cur.ctx == .execute &&
      s.fenceWork s.cur.slot st kinds) = false)
    (hacks : ((bit kinds 0 || bit kinds 1) && (bit kinds 2 || bit kinds 3) && bit kinds 1 && decide (4 ≤ scope.toNat) && s.acksOwed) = false)
    (hcmds : ((bit kinds 0 || bit kinds 1) && (bit kinds 2 || bit kinds 3) && bit kinds 4 && !(s.commandsOf st s.cur.ctx).isEmpty) = true) :
    exec (.fence scope kinds) s =
      .next (s.updCtx s.cur.slot s.cur.ctx (fun c => c.await .engines s.now (some (.fence scope kinds)))) := by
  change execFence scope kinds s = _
  rw [execFence, State.issue_bare _ _ _ _ h.1 hb h.2 (fun hx => absurd hx Bool.false_ne_true)]
  have hno {b : Bool} (hb : b = false) : ¬ b = true := fun hx => absurd (hb.symm.trans hx) (by decide)
  refine (congrArg (s.conclude s.cur.slot s.cur.ctx (.fence scope kinds) 1 false)
    ((if_neg (hno hwork)).trans ((if_neg (hno hacks)).trans (if_pos hcmds)))).trans ?_
  exact State.conclude_wait _ _ _ _ _ _ _ rfl

theorem commandsOf_isEmpty {s : State} {st : Strand} {id : CtxId} :
    (s.commandsOf st id).isEmpty = true ↔ ∀ e ∈ s.engines, e.owner ≠ (st.launch, st.ordinal, id) := by
  simp [State.commandsOf, List.filter_eq_nil_iff]

theorem fenceOrders_claim : Claim.FenceOrders := by
  intro scope kinds s st h hb
  refine ⟨fun hnone => ?_, fun h01 h23 h5 hacks h4 hcmd => ?_⟩
  · rcases hnone with ⟨h0, h1⟩ | ⟨h2, h3⟩ | ⟨hwork, hacks, hcmd⟩
    · refine execFence_passes scope kinds h hb ?_ ?_ ?_ <;> simp only [bit, h0, h1, Bool.or_self, Bool.false_and]
    · refine execFence_passes scope kinds h hb ?_ ?_ ?_ <;> simp only [bit, h2, h3, Bool.or_self, Bool.and_false, Bool.false_and]
    · refine execFence_passes scope kinds h hb ?_ ?_ ?_
      · cases h5 : kinds.getLsbD 5 with
        | false => simp only [bit, h5, Bool.and_false, Bool.false_and]
        | true =>
          cases hc : s.cur.ctx with
          | access => exact (Bool.and_eq_false_iff.2 (.inl (Bool.and_false _)))
          | execute => exact Bool.and_eq_false_iff.2 (.inr (hwork h5 hc))
      · cases h1 : kinds.getLsbD 1 with
        | false => simp only [bit, h1, Bool.and_false, Bool.false_and]
        | true =>
          by_cases h4 : 4 ≤ scope.toNat
          · exact Bool.and_eq_false_iff.2 (.inr (hacks h1 h4))
          · exact Bool.and_eq_false_iff.2 (.inl (Bool.and_eq_false_iff.2 (.inr (decide_eq_false h4))))
      · cases h4 : kinds.getLsbD 4 with
        | false => simp only [bit, h4, Bool.and_false, Bool.false_and]
        | true => exact Bool.and_eq_false_iff.2 (.inr (congrArg (! ·) (commandsOf_isEmpty.2 (hcmd h4))))
  · have hkinds : ((bit kinds 0 || bit kinds 1) && (bit kinds 2 || bit kinds 3)) = true :=
      Bool.and_eq_true_iff.2 ⟨Bool.or_eq_true_iff.2 h01, Bool.or_eq_true_iff.2 h23⟩
    refine execFence_awaitsEngines scope kinds h hb ?_ ?_ ?_
    · simp only [bit, h5, Bool.and_false, Bool.false_and]
    · cases h1 : kinds.getLsbD 1 with
      | false => simp only [bit, h1, Bool.and_false, Bool.false_and]
      | true =>
        by_cases hs : 4 ≤ scope.toNat
        · exact Bool.and_eq_false_iff.2 (.inr (hacks h1 hs))
        · exact Bool.and_eq_false_iff.2 (.inl (Bool.and_eq_false_iff.2 (.inr (decide_eq_false hs))))
    · have hne : (s.commandsOf st s.cur.ctx).isEmpty = false := by
        rw [← Bool.not_eq_true, commandsOf_isEmpty]
        obtain ⟨e, he, howner⟩ := hcmd
        exact fun hx => hx e he howner
      rw [hkinds, hne, show bit kinds 4 = true from h4]
      rfl

/-! ### R108, R266 -/

/-- R131: a user YS instruction that reads no imm32, behind at most an IMX of payload 0. -/
theorem State.issue_ys {s : State} {st : Strand} {regs : List Reg} (i : Instr) (body : Env → Act) (h : Stands s st regs)
    (hp : AtMostZeroImx (running s st)) : s.issue i ysForm regs body = s.conclude s.cur.slot s.cur.ctx i 2 false (body (Env.here s st)) := by
  obtain ⟨hst, hr⟩ := h
  have hstall : (if s.cur.ctx = .execute then st.stalls regs else none) = none := by
    split
    · exact Strand.stalls_none (hr ‹_›)
    · rfl
  have hpre : (((running s st).prefixes.map (fun p => p.illegal ysForm)).getD false) = false ∧ ((Env.here s st).imx.getD 0) = 0 := by
    change _ ∧ (((running s st).prefixes.bind (·.imx)).getD 0) = 0
    cases hc : (running s st).prefixes with
    | none => exact ⟨rfl, rfl⟩
    | some p =>
      rw [AtMostZeroImx, hc, Option.all_some, Bool.and_eq_true, Bool.and_eq_true] at hp
      obtain ⟨⟨hrej, hmattr⟩, himx⟩ := hp
      have hm : p.mattr = none := Option.isNone_iff_eq_none.1 hmattr
      refine ⟨?_, ?_⟩
      · simp only [Option.map_some, Option.getD_some, Prefixes.illegal, hm]
        simpa [ysForm] using hrej
      · cases hx : p.imx with
        | none => exact congrArg (·.getD 0) hx
        | some y =>
          rw [hx] at himx
          exact (congrArg (·.getD 0) hx).trans (beq_iff_eq.1 himx)
  rw [State.issue_passes i ysForm regs body hst hpre.1 (fun hz => hz.2 hpre.2) (fun hu => absurd hu (by decide)), hstall]
  rfl

theorem fenceAndStoreInformation_claim : Claim.FenceAndStoreInformation := by
  intro f s st
  dsimp only
  refine ⟨fun h hb hq => ?_, fun h hb hx hq => ?_, fun h hp => ?_⟩
  · change execSvfence f s = _
    rw [execSvfence, State.issue_bare _ _ _ _ h.1 hb h.2 (fun hx => absurd hx Bool.false_ne_true)]
    refine congrArg (s.conclude s.cur.slot s.cur.ctx (.svfence f) 2 false) (if_neg ?_)
    rintro ⟨hx, hn⟩
    obtain ⟨hvq, hm⟩ := hq hx
    rw [show (Env.here s st).st.vq = [] from hvq, show s.matrixWork (Env.here s st).slot = [] from hm] at hn
    exact absurd hn (by decide)
  · change execSvfence f s = _
    rw [execSvfence, State.issue_bare _ _ _ _ h.1 hb h.2 (fun hx => absurd hx Bool.false_ne_true)]
    refine (congrArg (s.conclude s.cur.slot s.cur.ctx (.svfence f) 2 false) (if_pos ?_)).trans ((State.conclude_wait _ _ _ _ _ _ _ rfl).trans ?_)
    · refine ⟨hx, ?_⟩
      rw [show (Env.here s st).st.vq.isEmpty = false by simpa using hq]
      rfl
    · rw [hx]
  · have hexec : exec (.wsinfo f) s = .next (complete s 2 (fun c => c.setReg f.gd
        (if 15 < ((running s st).reg f.ga).toNat then 0 else ((st.wsBindings[((running s st).reg f.ga).toNat]?).map s.wsInfo).getD 0))) := by
      change execWsinfo f s = _
      rw [execWsinfo, State.issue_ys _ _ h hp]
      exact conclude_setReg_words _ 2 f.gd _ h.1
    refine ⟨fun hn => ?_, fun b r hn hbind hr => ?_⟩
    · rw [hexec]
      by_cases h15 : 15 < ((running s st).reg f.ga).toNat
      · rw [if_pos h15]
      · rw [if_neg h15, List.getElem?_eq_none (hn.resolve_left h15)]
        rfl
    · rw [hexec, if_neg (Nat.not_lt.2 hn), hbind, Option.map_some, Option.getD_some, State.wsInfo, hr]
      rfl

/-- Settles O9: FENCE, SVFENCE and WSINFO, each by the branch it takes. -/
theorem fencesAndStoreInformation : Obligations.FencesAndStoreInformation := ⟨fenceOrders_claim, fenceAndStoreInformation_claim⟩

end Sys2Proof.Machine

/-! # Chapter 12: watermarks and barriers, R244 to R246 -/

namespace Sys2Proof.Machine
-- one proof at a time: the memory of proofs in flight together is more than the check has
set_option Elab.async false
open Sys2Proof.Claim

/-! ### What a synchronisation instruction comes to -/

/-- An instruction that has acted writes its register and completes. -/
theorem conclude_gives {s t : State} {st : Strand} (i : Instr) (d : Reg) (x : Word) (hcur : t.cur = s.cur)
    (h : t.strand? s.cur.slot = some st) :
    s.conclude s.cur.slot s.cur.ctx i 2 false (.done (t.setReg (Env.here s st) d x)) = .next (complete t 2 (fun c => c.setReg d x)) := by
  simp only [State.conclude_done, State.setReg, Env.slot_here, Env.ctx_here, State.updCtx_updCtx t _ _ _ h, complete, Context.setReg_pc, hcur]

theorem conclude_passes {s t : State} (i : Instr) (hcur : t.cur = s.cur) :
    s.conclude s.cur.slot s.cur.ctx i 2 false (.done t) = .next (complete t 2 (fun c => c)) := by
  rw [State.conclude_done, complete, hcur]

/-- The register that a completed instruction gives. -/
theorem gave_complete {s t : State} {st : Strand} (d : Reg) (x : Word) (hcur : t.cur = s.cur) (h : t.strand? s.cur.slot = some st) :
    Gave s st (complete t 2 (fun c => c.setReg d x)) d x := by
  refine ⟨st.setCtx s.cur.ctx (((running s st).setReg d x).advance ((running s st).pc + 8)), ?_, ?_, fun r => ?_, ?_⟩
  · rw [complete, hcur]
    exact State.strand?_updCtx _ _ _ h
  · rw [running, Strand.ctx_setCtx]
    rfl
  · exact reg_setCtx_setReg ..
  · rw [running, Strand.ctx_setCtx]
    exact Context.setReg_flags ..

theorem gave_nothing {s t : State} {st : Strand} (hcur : t.cur = s.cur) (h : t.strand? s.cur.slot = some st) :
    Gave s st (complete t 2 (fun c => c)) 0 0 := by
  simpa only [Context.setReg_zero] using gave_complete 0 0 hcur h

/-- R32, R242: a wait at a cancellation point begins where nothing asks. -/
theorem conclude_point_unasked {s : State} {st : Strand} {w : Wait} (i : Instr) (hw : w.point = true) (h : s.strand? s.cur.slot = some st)
    (hu : Unasked (running s st)) :
    s.conclude s.cur.slot s.cur.ctx i 2 false (.wait w s) = .next (s.updCtx s.cur.slot s.cur.ctx (fun c => c.await w s.now (some i))) := by
  obtain ⟨hc, hp⟩ := hu
  have hkept : ((running s st).await w s.now (some i)).cancel = none ∧
      (((running s st).await w s.now (some i)).preempt = none ∨ ((running s st).await w s.now (some i)).ie = false) := by
    unfold Context.await
    split
    · split
      · exact ⟨hc, hp⟩
      · exact ⟨hc, hp⟩
    · exact ⟨hc, hp⟩
  have hctx := Strand.ctx_setCtx st s.cur.ctx ((running s st).await w s.now (some i))
  rw [running] at hctx hkept
  rw [State.conclude_point _ _ _ _ _ _ _ hw, State.takeRequest_none (State.strand?_updCtx _ _ _ h) (by rw [hctx]; exact hkept.1)
    (by rw [hctx]; exact hkept.2)]
  rfl

theorem conclude_refuses {s : State} (i : Instr) (words : Nat) :
    s.conclude s.cur.slot s.cur.ctx i words false (refuse s) = trapsIn s s.drawn .protection false (Config.freeTval s.draws) := rfl

/-- An access that is answered, or that misses, is what it is for any instruction. -/
theorem Res.sync_ok {α : Type} (x : α) (e : Env) (s : State) (d : Reg) (f : α → Act) : (Res.ok x).sync e s d f = f x := rfl

/-- An atomic update is made where the claims say. -/
theorem State.atomicPlace_updates {s : State} {st : Strand} {va n : Nat} {p : Place} (h : Updates s st va n p) :
    s.atomicPlace (Env.here s st) va n = .ok p := by
  obtain ⟨hroute, hplace, hhost, hpoison, hreach⟩ := h
  have hbad : ¬ (s.poisoned p || s.unreachable p) = true := by simp [hpoison, hreach]
  unfold State.atomicPlace
  rw [show s.route (Env.here s st).st (Env.here s st).st.strip .other va n = .memory from hroute]
  dsimp only
  rw [show s.resolve (Env.here s st).agent va .atomic = .ok p from hplace]
  dsimp only
  rw [if_neg hbad]
  cases p with
  | host a => exact nomatch hhost
  | dev | scratch | ws | remote => rfl

theorem isScopeField (f : YsF) : (scopeField f).toNat = f.fn7.toNat % 8 := toNat_bits_zero ..

/-- R110: an acquire of a YS instruction. -/
theorem State.acquires_here (s t : State) (st : Strand) (f : YsF) :
    t.acquires (Env.here s st) (scopeField f) = if 2 ≤ f.fn7.toNat % 8 then t.dropL1 (clusterOf s.cur.slot) else t := by
  rw [State.acquires, State.acquire, isScopeField]
  rfl

/-! ### R244 -/

theorem watermark_here (s : State) (st : Strand) (f : YsF) : (Env.here s st).watermark f = watermarkOf st f := by
  have hn : (bits f.gd 0 3).toNat = f.gd.toNat % 8 := toNat_bits_zero ..
  have hlt : f.gd.toNat % 8 < 8 := Nat.mod_lt _ (by decide)
  rw [watermarkOf, List.getD_eq_getElem _ _ (by simpa using hlt)]
  simp only [Env.watermark, Env.st_here, hn, Vector.getElem_toList]

theorem numberAt_eq (s : State) (p : Place) (n : Nat) : leNat (s.homeBytes p n) = numberAt s p n := by rw [homeBytes_eq, numberAt]

theorem leNat_lt (bs : List Byte) : leNat bs < 256 ^ bs.length := by
  induction bs with
  | nil => decide
  | cons b rest ih =>
    have hb := b.isLt
    rw [leNat, List.length_cons, Nat.pow_succ]
    omega

theorem numberAt_putBytes {s : State} (k : Nat) {p : Place} (n x : Nat) (hwf : s.memWf = true) (hp : ∀ die off, p ≠ .ws die off) :
    numberAt (s.putBytes k p (leBytes n x)) p n = x % 256 ^ n := by
  rw [← leNat_leBytes, numberAt]
  apply congrArg
  apply List.ext_getElem
  · simp
  · intro i h1 h2
    rw [List.getElem_map, List.getElem_range]
    exact byteAt_putBytes k p _ hwf hp i h2

theorem numberAt_congr {s t : State} {p : Place} {n : Nat} (h : ∀ i < n, byteAt t (above p i) = byteAt s (above p i)) :
    numberAt t p n = numberAt s p n :=
  congrArg leNat (List.map_congr_left fun i hi => h i (List.mem_range.1 hi))

theorem numberAt_lt (s : State) (p : Place) (n : Nat) : numberAt s p n < 256 ^ n := by
  rw [numberAt]
  exact (leNat_lt _).trans_eq (by rw [List.length_map, List.length_range])

theorem watermarkPublishes_claim : Claim.WatermarkPublishes := by
  intro f s st p h hp hwf c b
  refine ⟨fun hb => ⟨Config.freeTval s.draws, ?_⟩, fun hb hheld hup => ?_⟩
  · change execWmpub f s = _
    rw [execWmpub, State.issue_ys _ _ h hp]
    refine (congrArg (s.conclude s.cur.slot s.cur.ctx (.wmpub f) 2 false) (if_pos ?_)).trans (conclude_refuses _ _)
    rw [watermark_here]
    exact hb
  · have hb' : ¬ ((Env.here s st).watermark f).word = 0 := by
      rw [watermark_here]
      exact hb
    have hplace : s.atomicPlace (Env.here s st) ((Env.here s st).watermark f).word.toNat 8 = .ok p := by
      rw [watermark_here]
      exact State.atomicPlace_updates hup
    have hexec : exec (.wmpub f) s = s.conclude s.cur.slot s.cur.ctx (.wmpub f) 2 false
        (if max (numberAt s p 8) (c.reg f.ga).toNat = numberAt s p 8 then .done (s.seen (clusterOf s.cur.slot) p (leBytes 8 (numberAt s p 8)))
          else .done (s.putBytes (clusterOf s.cur.slot) p (leBytes 8 (max (numberAt s p 8) (c.reg f.ga).toNat)))) := by
      change execWmpub f s = _
      rw [execWmpub, State.issue_ys _ _ h hp]
      refine congrArg (s.conclude s.cur.slot s.cur.ctx (.wmpub f) 2 false) ((if_neg hb').trans ((if_neg ?_).trans ?_))
      · exact fun hx => absurd (hheld.symm.trans hx) (by decide)
      · rw [hplace, Res.sync_ok, numberAt_eq]
        rfl
    rw [hexec]
    by_cases hmax : max (numberAt s p 8) (c.reg f.ga).toNat = numberAt s p 8
    · have hsans := State.sansMemory_seen s (clusterOf s.cur.slot) p (leBytes 8 (numberAt s p 8))
      have hsame (q : Place) := (byteAt_complete (s.seen (clusterOf s.cur.slot) p (leBytes 8 (numberAt s p 8))) 2 (fun c => c) q).trans
        (byteAt_seen s (clusterOf s.cur.slot) p (leBytes 8 (numberAt s p 8)) q)
      rw [if_pos hmax, conclude_passes _ (State.cur_of_sansMemory hsans)]
      refine ⟨_, rfl, gave_nothing (State.cur_of_sansMemory hsans) ((State.strand?_of_sansMemory hsans _).trans h.1), ?_, fun q _ => hsame q⟩
      rw [hmax]
      exact numberAt_congr fun i _ => hsame _
    · have hsans := State.sansMemory_putBytes s (clusterOf s.cur.slot) p (leBytes 8 (max (numberAt s p 8) (c.reg f.ga).toNat))
      rw [if_neg hmax, conclude_passes _ (State.cur_of_sansMemory hsans)]
      refine ⟨_, rfl, gave_nothing (State.cur_of_sansMemory hsans) ((State.strand?_of_sansMemory hsans _).trans h.1), ?_, fun q hq => ?_⟩
      · rw [numberAt_congr fun i _ => byteAt_complete .., numberAt_putBytes _ _ _ hwf (State.resolve_store_ne_ws rfl hup.2.1)]
        exact Nat.mod_eq_of_lt (Nat.max_lt.2 ⟨numberAt_lt s p 8, (c.reg f.ga).isLt⟩)
      · rw [byteAt_complete]
        refine byteAt_putBytes_ne _ _ _ _ _ fun i hi => hq i ?_
        rwa [leBytes_length] at hi

/-- A place of which no copy may serve a read gives the bytes at its home. -/
theorem State.readPlace_noCopy (s : State) (k n : Nat) (p : Place) (alloc : Bool) :
    (s.readPlace k p n (fun _ => false) alloc).1 = (List.range n).map (fun i => byteAt s (above p i)) := by
  rw [← homeBytes_eq]
  cases p with
  | dev pa =>
    have hmiss : (s.cluster k).l1.findIdx? (fun l => false && (l.copy pa n).isSome) = none := by simp
    unfold State.readPlace
    dsimp only
    rw [hmiss]
    unfold State.readMissed
    dsimp only
    split <;> rfl
  | scratch | ws | host | remote => rfl

/-- R244: the context has waited for a watermark as long as its limit. -/
def Context.pastWatermark (c : Context) (now n limit : Nat) : Bool :=
  match c.wait with
  | some w => w.kind == .watermark n limit && decide (0 < limit) && decide (limit ≤ now - w.since)
  | none => false

theorem Context.pastWatermark_of {c : Context} {now n limit : Nat}
    (h : ∃ w, c.wait = some w ∧ w.kind = .watermark n limit ∧ 0 < limit ∧ limit ≤ now - w.since) : c.pastWatermark now n limit = true := by
  obtain ⟨w, hw, hkind, hpos, hpast⟩ := h
  simp only [Context.pastWatermark, hw, hkind, hpos, hpast, decide_true, BEq.rfl, Bool.and_self]

theorem Context.pastWatermark_none {c : Context} (now n limit : Nat) (h : c.wait = none) : c.pastWatermark now n limit = false := by
  rw [Context.pastWatermark, h]

theorem watermarkWaits_claim : Claim.WatermarkWaits := by
  intro f s st p h hp c b limit got hb hheld ⟨helided, hroute, hplace, hpoison, hreach⟩
  have hb' : ¬ ((Env.here s st).watermark f).word = 0 := by
    rw [watermark_here]
    exact hb
  have hload : s.loadVA (Env.here s st).agent (Env.here s st).st (Env.here s st).st.strip ((Env.here s st).accessKind .load)
      ((Env.here s st).watermark f).word.toNat 8 (fun _ => false) false = .ok got := by
    rw [watermark_here]
    exact State.loadVA_memory _ _ helided hroute hplace hpoison hreach
  have hn : (bits f.gd 0 3).toNat = f.gd.toNat % 8 := toNat_bits_zero ..
  have hsans : got.2.sansMemory = s.sansMemory := (State.sansMemory_readPlace ..).trans (State.sansMemory_cacheTranslation ..)
  have hlimit : 1024 * (if (Env.here s st).ysImm f.imm = 0 then ((Env.here s st).watermark f).limit else ((Env.here s st).ysImm f.imm).toNat) =
      limit := by
    rw [watermark_here, Env.ysImm_here]
  have hexec : exec (.wmwait f) s = s.conclude s.cur.slot s.cur.ctx (.wmwait f) 2 false
      (if (c.reg f.ga).toNat ≤ leNat got.1 then .done (got.2.acquires (Env.here s st) (scopeField f))
        else if c.pastWatermark s.now (f.gd.toNat % 8) limit = true then .trap .watermarkTimeout (zext (bits f.gd 0 3)) s
          else .wait (.watermark (f.gd.toNat % 8) limit) s) := by
    change execWmwait f s = _
    rw [execWmwait, State.issue_ready _ _ _ h (Context.admits_ysImmForm hp) nofun rfl]
    refine congrArg (s.conclude s.cur.slot s.cur.ctx (.wmwait f) 2 false) ((if_neg hb').trans ((if_neg ?_).trans ?_))
    · exact fun hx => absurd (hheld.symm.trans hx) (by decide)
    · rw [hload, Res.sync_ok, hlimit, hn]
      rfl
  have hwm : zext (bits f.gd 0 3) = BitVec.ofNat 64 (f.gd.toNat % 8) := by
    apply BitVec.eq_of_toNat_eq
    rw [zext, BitVec.toNat_setWidth, hn, BitVec.toNat_ofNat]
  refine ⟨?_, fun hle => ?_, fun hlt hexp => ?_, fun hlt hnone hun => ?_⟩
  · have hgot : leNat got.1 = numberAt s p 8 := by
      refine (congrArg leNat (State.readPlace_noCopy ..)).trans (numberAt_congr fun i _ => byteAt_cacheTranslation ..)
    cases p with
    | dev | scratch => exact hgot
    | ws | host | remote => trivial
  · rw [hexec, if_pos hle, State.acquires_here]
    apply conclude_passes
    rw [← State.acquires_here s got.2 st f]
    exact State.cur_of_sansMemory ((State.sansMemory_acquire ..).trans hsans)
  · rw [hexec, if_neg (Nat.not_le.2 hlt), if_pos (Context.pastWatermark_of hexp), hwm, State.conclude_trap]
    exact (trapsIn_self ..).symm
  · rw [hexec, if_neg (Nat.not_le.2 hlt), Context.pastWatermark_none _ _ _ hnone, if_neg Bool.false_ne_true]
    exact conclude_point_unasked _ rfl h.1 hun

/-! ### R246 -/

theorem above_above (p : Place) (i j : Nat) : above (above p i) j = above p (i + j) := by
  cases p <;> exact congrArg _ (Nat.add_assoc ..)

theorem fieldLE_homeBytes (s : State) (p : Place) {off n m : Nat} (h : off + n ≤ m) :
    fieldLE (s.homeBytes p m) off n = numberAt s (above p off) n := by
  rw [fieldLE, homeBytes_eq, numberAt]
  apply congrArg
  apply List.ext_getElem
  · simp only [List.length_take, List.length_drop, List.length_map, List.length_range]
    omega
  · intro i h1 h2
    simp only [List.getElem_take, List.getElem_drop, List.getElem_map, List.getElem_range, above_above]

theorem above_zero (p : Place) : above p 0 = p := by cases p <;> rfl

/-- The eight bytes that an arrival writes (R246). -/
theorem arrive_take {bs : List Byte} (h : 8 ≤ bs.length) : (arrive bs).take 8 =
    if fieldLE bs 8 4 ≤ fieldLE bs 0 4 + 1 then leBytes 4 0 ++ (bs.drop 4).take 3 ++ leBytes 1 (128 * (1 - objectPhase bs))
    else leBytes 4 (fieldLE bs 0 4 + 1) ++ (bs.drop 4).take 4 := by
  unfold arrive
  dsimp only
  split
  · have hfirst : (putField bs 0 (leBytes 4 0)).take 7 = leBytes 4 0 ++ (bs.drop 4).take 3 := List.take_append ..
    rw [putField, hfirst]
    refine List.take_left' ?_
    rw [List.length_append, List.length_append, List.length_take, List.length_drop, leBytes_length, leBytes_length, Nat.min_eq_left (by omega)]
  · exact List.take_append ..

theorem badObject_expected {bs : List Byte} (h : fieldLE bs 8 4 = 0) : badObject bs = true := by simp [badObject, h]

/-- What an object that is not bad has in its low bits (R246). -/
theorem badObject_false {bs : List Byte} (h : badObject bs = false) : fieldLE bs 7 1 % 128 = 0 := by
  simp only [badObject, Bool.or_eq_false_iff, bne_eq_false_iff_eq] at h
  obtain ⟨⟨⟨⟨-, hlow⟩, -⟩, -⟩, -⟩ := h
  exact hlow

/-- An arrival's write, field by field. -/
theorem arrive_left {s t : State} {p : Place}
    (hnew : ∀ i (hi : i < ((arrive (s.homeBytes p 64)).take 8).length), byteAt t (above p i) = ((arrive (s.homeBytes p 64)).take 8)[i]) :
    numberAt t p 4 = (if numberAt s (above p 8) 4 ≤ numberAt s p 4 + 1 then 0 else numberAt s p 4 + 1) ∧
      numberAt t (above p 7) 1 = (if numberAt s (above p 8) 4 ≤ numberAt s p 4 + 1 then 128 * (1 - numberAt s (above p 7) 1 / 128)
        else numberAt s (above p 7) 1) ∧
      ∀ i, 4 ≤ i → i < 7 → byteAt t (above p i) = byteAt s (above p i) := by
  have hlen : (s.homeBytes p 64).length = 64 := by rw [homeBytes_eq, List.length_map, List.length_range]
  have hone (u : State) (q : Place) : numberAt u q 1 = (byteAt u (above q 0)).toNat := by
    simp [numberAt, leNat]
  have hfour (u : State) (q : Place) : numberAt u q 4 = leNat [byteAt u (above q 0), byteAt u (above q 1), byteAt u (above q 2), byteAt u (above q 3)] :=
    rfl
  have hbyte (i : Nat) (hi : i < (s.homeBytes p 64).length) : (s.homeBytes p 64)[i] = byteAt s (above p i) := by
    simp only [homeBytes_eq, List.getElem_map, List.getElem_range]
  rw [arrive_take (by omega), objectPhase, fieldLE_homeBytes s p (by decide), fieldLE_homeBytes s p (by decide),
    fieldLE_homeBytes s p (by decide), above_zero] at hnew
  have hphase := numberAt_lt s (above p 7) 1
  by_cases hfull : numberAt s (above p 8) 4 ≤ numberAt s p 4 + 1
  · simp only [if_pos hfull] at hnew ⊢
    refine ⟨?_, ?_, fun i h4 h7 => ?_⟩
    · rw [hfour, hnew 0 (by simp [hlen]), hnew 1 (by simp [hlen]), hnew 2 (by simp [hlen]), hnew 3 (by simp [hlen])]
      rfl
    · rw [hone, above_above, hnew 7 (by simp [hlen])]
      rw [List.getElem_append_right (by simp [hlen])]
      simp only [leBytes, List.length_append, List.length_take, List.length_drop, hlen]
      simp
      omega
    · rw [hnew i (by simp [hlen]; omega), List.getElem_append_left (by simp [hlen]; omega), List.getElem_append_right (by simpa using h4)]
      simp only [List.getElem_take, List.getElem_drop, leBytes_length, hbyte]
      rw [show 4 + (i - 4) = i by omega]
  · have hlt := numberAt_lt s (above p 8) 4
    simp only [if_neg hfull] at hnew ⊢
    have hkept (i : Nat) (h4 : 4 ≤ i) (h8 : i < 8) : byteAt t (above p i) = byteAt s (above p i) := by
      rw [hnew i (by simp [hlen]; omega), List.getElem_append_right (by simpa using h4)]
      simp only [List.getElem_take, List.getElem_drop, leBytes_length, hbyte]
      rw [show 4 + (i - 4) = i by omega]
    refine ⟨?_, ?_, fun i h4 h7 => hkept i h4 (by omega)⟩
    · have hcount : leNat (leBytes 4 (numberAt s p 4 + 1)) = numberAt s p 4 + 1 := by
        rw [leNat_leBytes, Nat.mod_eq_of_lt (by omega)]
      rw [← hcount, hfour, hnew 0 (by simp [hlen]), hnew 1 (by simp [hlen]), hnew 2 (by simp [hlen]), hnew 3 (by simp [hlen])]
      rfl
    · rw [hone, hone, above_above, hkept 7 (by decide) (by decide)]

theorem barrierArrival_claim : Claim.BarrierArrival := by
  intro f s st p h hp hwf c va arrived expected phase
  have halign : va % 64 = 0 → ¬ ((Env.here s st).reg f.ga).toNat % 64 ≠ 0 := fun h0 hx => hx h0
  refine ⟨fun hn => ?_, fun hn hheld hup => ?_⟩
  · change execBarrive f s = _
    rw [execBarrive, State.issue_ys _ _ h hp]
    refine (congrArg (s.conclude s.cur.slot s.cur.ctx (.barrive f) 2 false) (if_pos hn)).trans ?_
    rw [State.conclude_trap]
    exact (trapsIn_self ..).symm
  · have hexec : exec (.barrive f) s = s.conclude s.cur.slot s.cur.ctx (.barrive f) 2 false
        (if badObject (s.homeBytes p 64) then .trap .protection (c.reg f.ga) s
          else .done ((s.putBytes (clusterOf s.cur.slot) p ((arrive (s.homeBytes p 64)).take 8)).setReg (Env.here s st) f.gd
            (BitVec.ofNat 64 (objectPhase (s.homeBytes p 64))))) := by
      change execBarrive f s = _
      rw [execBarrive, State.issue_ys _ _ h hp]
      refine congrArg (s.conclude s.cur.slot s.cur.ctx (.barrive f) 2 false) ((if_neg (halign hn)).trans ((if_neg ?_).trans ?_))
      · exact fun hx => absurd (hheld.symm.trans hx) (by decide)
      · rw [show s.atomicPlace (Env.here s st) ((Env.here s st).reg f.ga).toNat 64 = .ok p from State.atomicPlace_updates hup]
        rfl
    have hfields := fieldLE_homeBytes s p (off := 8) (n := 4) (m := 64) (by decide)
    refine ⟨fun hexp => ?_, fun hbad => ?_⟩
    · rw [hexec, if_pos (badObject_expected (hfields.trans hexp)), State.conclude_trap]
      exact (trapsIn_self ..).symm
    · rw [← homeBytes_eq] at hbad
      have hsans := State.sansMemory_putBytes s (clusterOf s.cur.slot) p ((arrive (s.homeBytes p 64)).take 8)
      have hst := (State.strand?_of_sansMemory hsans _).trans h.1
      have hlen : ((arrive (s.homeBytes p 64)).take 8).length = 8 := by
        rw [arrive_take (by rw [homeBytes_eq]; simp)]
        split <;> simp [homeBytes_eq]
      have hphase : objectPhase (s.homeBytes p 64) = phase := by rw [objectPhase, fieldLE_homeBytes s p (by decide)]
      rw [hexec, if_neg (by rw [hbad]; exact Bool.false_ne_true), conclude_gives _ _ _ (State.cur_of_sansMemory hsans) hst, hphase]
      obtain ⟨hcount, hbyte7, hmid⟩ := arrive_left (t := complete (s.putBytes (clusterOf s.cur.slot) p ((arrive (s.homeBytes p 64)).take 8)) 2
        (fun c => c.setReg f.gd (BitVec.ofNat 64 phase))) fun i hi =>
          (byteAt_complete ..).trans (byteAt_putBytes _ p _ hwf (State.resolve_store_ne_ws rfl hup.2.1) i hi)
      have hlow : numberAt s (above p 7) 1 % 128 = 0 := by
        rw [← fieldLE_homeBytes s p (m := 64) (by decide)]
        exact badObject_false hbad
      refine ⟨_, rfl, gave_complete _ _ (State.cur_of_sansMemory hsans) hst, hcount, ?_, ?_, hmid, fun q hq => ?_⟩
      · rw [hbyte7]
        split <;> omega
      · rw [hbyte7]
        split <;> omega
      · rw [byteAt_complete]
        exact byteAt_putBytes_ne _ _ _ _ _ fun i hi => hq i (by omega)

theorem State.sansMemory_noteRead (s : State) (a : Agent) (va n : Nat) : (s.noteRead a va n).sansMemory = s.sansMemory := by
  unfold State.noteRead
  refine State.sansMemory_foldl _ (fun t i => ?_) _ s
  dsimp only
  split
  · refine (State.sansMemory_farRead ..).trans ?_
    unfold State.seenBy
    split
    · rfl
    · exact State.sansMemory_seen ..
  · rfl

theorem barrierWait_claim : Claim.BarrierWait := by
  intro f s st bs h hp c va
  have halign : va % 64 = 0 → ¬ ((Env.here s st).reg f.ga).toNat % 64 ≠ 0 := fun h0 hx => hx h0
  refine ⟨fun hn => ?_, fun hn hheld hread => ?_⟩
  · change execBarwait f s = _
    rw [execBarwait, State.issue_ys _ _ h hp]
    refine (congrArg (s.conclude s.cur.slot s.cur.ctx (.barwait f) 2 false) (if_pos hn)).trans ?_
    rw [State.conclude_trap]
    exact (trapsIn_self ..).symm
  · have hexec : exec (.barwait f) s = s.conclude s.cur.slot s.cur.ctx (.barwait f) 2 false
        (if badObject bs then .trap .protection (c.reg f.ga) s
          else if objectPhase bs ≠ (c.reg f.gb).toNat % 2 then
            .done ((s.noteRead (agent s st) va 64).acquires (Env.here s st) (scopeField f))
          else .wait .barrier s) := by
      change execBarwait f s = _
      rw [execBarwait, State.issue_ys _ _ h hp]
      refine congrArg (s.conclude s.cur.slot s.cur.ctx (.barwait f) 2 false) ((if_neg (halign hn)).trans ((if_neg ?_).trans ?_))
      · exact fun hx => absurd (hheld.symm.trans hx) (by decide)
      · rw [show s.readObject (Env.here s st) ((Env.here s st).reg f.ga).toNat 64 = .ok bs from hread]
        rfl
    refine ⟨fun hexp => ?_, fun hbad hne => ?_, fun hbad heq hnone hun => ?_⟩
    · rw [hexec, if_pos (badObject_expected hexp), State.conclude_trap]
      exact (trapsIn_self ..).symm
    · rw [hexec, if_neg (by rw [hbad]; exact Bool.false_ne_true), if_pos (show objectPhase bs ≠ _ from hne), conclude_passes, State.acquires_here]
      exact State.cur_of_sansMemory ((State.sansMemory_acquire ..).trans (State.sansMemory_noteRead ..))
    · rw [hexec, if_neg (by rw [hbad]; exact Bool.false_ne_true), if_neg (show ¬ objectPhase bs ≠ _ from not_not.2 heq)]
      exact conclude_point_unasked _ rfl h.1 hun

/-- Settles O24: the watermark and the barrier object as the bytes at their place, each instruction by the branch it takes. -/
theorem watermarksAndBarriers : Obligations.WatermarksAndBarriers :=
  ⟨watermarkPublishes_claim, watermarkWaits_claim, barrierArrival_claim, barrierWait_claim⟩

end Sys2Proof.Machine

/-! # Chapter 12: dependency counters and TSPAWN, R247 to R249 -/

namespace Sys2Proof.Machine
-- one proof at a time: the memory of proofs in flight together is more than the check has
set_option Elab.async false
open Sys2Proof.Claim

/-! ### The task an identifier names -/

theorem taskNamed_of {s : State} {st : Strand} {x : Word} {key : Nat} {g : Graph} {n : Nat} {task : Task} (h : taskOf s st x key g n task) :
    s.taskNamed st x = some (key, g, n, task) := by
  obtain ⟨hmid, hn, hkey, hg, htask⟩ := h
  have hlow : (bits x 0 16).toNat = n := (toNat_bits_zero ..).trans hn.symm
  have hhigh : (bits x 48 16).toNat = x.toNat / 2 ^ 48 := by
    rw [bits, BitVec.extractLsb'_toNat, Nat.shiftRight_eq_div_pow]
    exact Nat.mod_eq_of_lt (by omega)
  have hkey' : s.partOf st * 65536 + (bits x 48 16).toNat = key := by rw [hhigh, hkey, State.partOf]
  unfold State.taskNamed
  dsimp only
  rw [if_neg (not_not.2 (show bits x 16 32 = 0 from hmid)), hkey', hlow, hg]
  dsimp only
  rw [htask]
  rfl

theorem taskNamed_none {s : State} {st : Strand} {x : Word} (h : ∀ key g n task, ¬ taskOf s st x key g n task) : s.taskNamed st x = none := by
  have hhigh : (bits x 48 16).toNat = x.toNat / 2 ^ 48 := by
    rw [bits, BitVec.extractLsb'_toNat, Nat.shiftRight_eq_div_pow]
    exact Nat.mod_eq_of_lt (by omega)
  unfold State.taskNamed
  dsimp only
  split
  · rfl
  · next hmid =>
    rw [hhigh, toNat_bits_zero]
    cases hg : lookup s.graphs (s.partOf st * 65536 + x.toNat / 2 ^ 48) with
    | none => rfl
    | some g =>
      cases htask : g.tasks[x.toNat % 2 ^ 16]? with
      | none => simp only [htask, Option.map_none]
      | some task => exact absurd ⟨not_not.1 hmid, rfl, rfl, hg, htask⟩ (h _ g _ task)

/-! ### Setting a counter -/

theorem mem_insertReady (tasks : List Task) (t : Nat) (l : List Nat) : t ∈ insertReady tasks t l := by
  induction l with
  | nil => exact List.mem_singleton_self t
  | cons u rest ih =>
    unfold insertReady
    dsimp only
    split
    · exact List.mem_cons_self
    · exact List.mem_cons_of_mem u ih

/-- R247: task i of a graph has the counter m, and is released where it was or where m is 0. -/
def CounterSet (t : State) (key i m : Nat) (was : Task) : Prop :=
  ∃ g' task', lookup t.graphs key = some g' ∧ g'.tasks[i]? = some task' ∧ task'.counter = m ∧
    task'.released = (was.released || m == 0) ∧ (was.released = false → m = 0 → i ∈ g'.ready)

theorem CounterSet.complete {t : State} {key i m : Nat} {was : Task} (words : Nat) (f : Context → Context) (h : CounterSet t key i m was) :
    CounterSet (complete t words f) key i m was := by
  rw [CounterSet, Claim.complete, State.updCtx_graphs]
  exact h

/-- What setting a counter leaves in the graph. -/
theorem State.setCounter_graph (s : State) (key : Nat) {g : Graph} {i : Nat} {was task : Task} (m : Nat) (hi : g.tasks[i]? = some was)
    (hrel : task.released = was.released) :
    CounterSet (s.setCounter key g i task m) key i m was := by
  have hlt : i < g.tasks.length := (List.getElem?_eq_some_iff.1 hi).1
  unfold State.setCounter CounterSet
  dsimp only
  rw [hrel]
  split
  · exact ⟨_, _, lookup_insertKey_self .., List.getElem?_set_self hlt, rfl, rfl, fun _ _ => mem_insertReady ..⟩
  · next hkeep =>
    refine ⟨_, _, lookup_insertKey_self .., List.getElem?_set_self hlt, rfl, rfl, fun hno hm => absurd ⟨hm, ?_⟩ hkeep⟩
    rw [hno]
    rfl

theorem State.decided_sans (s : State) (part : Nat) (ds : List (Nat × Nat × Nat × List Nat)) : (s.decided part ds).sansMemory = s.sansMemory := by
  unfold State.decided
  split
  · exact State.sansMemory_foldl _ (fun t d => t.sansMemory_record ..) _ s
  · rfl

/-- A counter's change leaves the strands and the turn. -/
theorem State.setCounter_strands (s : State) (key : Nat) (g : Graph) (i : Nat) (task : Task) (m : Nat) :
    (s.setCounter key g i task m).strands = s.strands ∧ (s.setCounter key g i task m).cur = s.cur := by
  have h := s.decided_sans g.part (g.release i)
  unfold State.setCounter
  dsimp only
  split
  · exact ⟨(State.strands_of_sansMemory h :), (State.cur_of_sansMemory h :)⟩
  · exact ⟨rfl, rfl⟩

theorem State.inTurn_of_none {s : State} (h : s.replaying = []) (part : Nat) (ds : List (Nat × Nat × Nat × List Nat)) :
    s.inTurn part ds = true := by
  unfold State.inTurn
  rw [h]
  rfl

theorem State.releaseEarly_of_none {s : State} (h : s.replaying = []) (g : Graph) (i : Nat) (task : Task) (m : Nat) :
    s.releaseEarly g i task m = false := by
  rw [State.releaseEarly, State.inTurn_of_none h, Bool.not_true, Bool.and_false]

theorem dependencyCounters_claim : Claim.DependencyCounters := by
  intro f s st hp hrep c x n set
  refine ⟨fun h => ?_, fun h => ?_⟩
  · have hissue : exec (.depinit f) s = execDepinit f s := rfl
    rw [execDepinit, State.issue_ys _ _ h hp] at hissue
    refine ⟨fun hnone => ⟨Config.freeTval s.draws, ?_⟩, fun key g i task htask => ⟨fun hbad => ⟨Config.freeTval s.draws, ?_⟩, ?_⟩⟩
    · rw [hissue, show s.taskNamed (Env.here s st).st ((Env.here s st).reg f.ga) = none from taskNamed_none hnone]
      exact conclude_refuses ..
    · rw [hissue, show s.taskNamed (Env.here s st).st ((Env.here s st).reg f.ga) = some (key, g, i, task) from taskNamed_of htask]
      refine (congrArg (s.conclude s.cur.slot s.cur.ctx (.depinit f) 2 false) (if_pos ?_)).trans (conclude_refuses ..)
      rcases hbad with hbad | hbad
      · exact Bool.or_eq_true_iff.2 (.inl hbad)
      · exact Bool.or_eq_true_iff.2 (.inr (decide_eq_true hbad))
    · intro hrel hn hheld
      obtain ⟨hstrands, hcur⟩ := s.setCounter_strands key g i task n
      have hst : (s.setCounter key g i task n).strand? s.cur.slot = some st := (congrArg (lookup · s.cur.slot) hstrands).trans h.1
      rw [hissue, show s.taskNamed (Env.here s st).st ((Env.here s st).reg f.ga) = some (key, g, i, task) from taskNamed_of htask]
      refine ⟨_, (congrArg (s.conclude s.cur.slot s.cur.ctx (.depinit f) 2 false) ((if_neg ?_).trans (if_neg ?_))).trans
        (conclude_passes _ hcur), gave_nothing hcur hst, ?_⟩
      · exact Bool.eq_false_iff.1 (Bool.or_eq_false_iff.2 ⟨hrel, decide_eq_false (Nat.not_lt.2 hn)⟩)
      · rw [State.releaseEarly_of_none hrep, Bool.or_false]
        exact fun hx => absurd (hheld.symm.trans hx) (by decide)
      · exact (State.setCounter_graph s key n htask.2.2.2.2 rfl).complete ..
  · have hissue : exec (.depdec f) s = execDepdec f s := rfl
    rw [execDepdec, State.issue_ys _ _ h hp] at hissue
    refine ⟨fun hnone => ⟨Config.freeTval s.draws, ?_⟩, fun key g i task htask hheld hbefore => ⟨fun hzero => ?_, fun hpos => ?_⟩⟩
    · rw [hissue, show s.taskNamed (Env.here s st).st ((Env.here s st).reg f.ga) = none from taskNamed_none hnone]
      exact conclude_refuses ..
    all_goals
      have hfree : ¬ (s.heldBack (Env.here s st) (some (scopeField f)) ||
          decBefore task s.now (turnKey (Env.here s st).slot (Env.here s st).ctx)) = true :=
        Bool.eq_false_iff.1 (Bool.or_eq_false_iff.2 ⟨hheld, hbefore⟩)
      rw [hissue, show s.taskNamed (Env.here s st).st ((Env.here s st).reg f.ga) = some (key, g, i, task) from taskNamed_of htask]
    · refine (congrArg (s.conclude s.cur.slot s.cur.ctx (.depdec f) 2 false) ((if_neg hfree).trans (if_pos hzero))).trans ?_
      rw [State.conclude_trap]
      exact (trapsIn_self ..).symm
    · obtain ⟨hstrands, hcur⟩ := s.setCounter_strands key g i { task with lastDec := some (s.now, turnKey s.cur.slot s.cur.ctx) }
        (task.counter - 1)
      have hst : State.strand? _ s.cur.slot = some st := (congrArg (lookup · s.cur.slot) hstrands).trans h.1
      refine ⟨_, (congrArg (s.conclude s.cur.slot s.cur.ctx (.depdec f) 2 false) ((if_neg hfree).trans ((if_neg hpos.ne').trans
        (if_neg ?_)))).trans (conclude_gives _ _ _ hcur hst), gave_complete _ _ hcur hst, ?_⟩
      · rw [State.releaseEarly_of_none hrep]
        exact Bool.false_ne_true
      · have hset := State.setCounter_graph s key (task := { task with lastDec := some (s.now, turnKey s.cur.slot s.cur.ctx) })
          (task.counter - 1) htask.2.2.2.2 rfl
        exact hset.complete ..

/-! ### R249 -/

/-- A packet appended moves its queue's notify word, and leaves the strands. -/
theorem State.append_notifies {s : State} {q : Nat} {x : Queue} (bs : List Byte) (hq : s.queue? q = some x) (hd : x.destroyed = none) :
    (s.append q x bs).strands = s.strands ∧ (s.append q x bs).cur = s.cur ∧
      (s.append q x bs).queue? q = some { x with notify := x.notify + 1, pending := true } := by
  have hsans := s.sansMemory_fwWrite x.asid (x.ring.toNat + x.packetBytes * (x.notify.toNat % 2 ^ x.log2n)) bs
  have hq' : (s.fwWrite x.asid (x.ring.toNat + x.packetBytes * (x.notify.toNat % 2 ^ x.log2n)) bs).queue? q = some x :=
    (congrArg (fun u : State => lookup u.queues q) hsans :).trans hq
  unfold State.append State.notify
  rw [hq']
  dsimp only
  rw [hd, if_neg (by decide)]
  exact ⟨(State.strands_of_sansMemory hsans :), (State.cur_of_sansMemory hsans :), lookup_insertKey_self ..⟩

theorem spawnQueue_none {s : State} {st : Strand} {x : Word} (h : s.queue? (x.toNat % 4096) = none) : s.spawnQueue st x = none := by
  unfold State.spawnQueue
  dsimp only
  rw [toNat_bits_zero, show x.toNat % 2 ^ 12 = x.toNat % 4096 from rfl, h]
  split <;> rfl

theorem spawnQueue_of {s : State} {st : Strand} {q : Nat} {x : Queue} (hq : q < 4096) (h : s.queue? q = some x) (hsub : x.devsub = true)
    (hpart : x.part = s.partOf st) (hver : x.version = 2) (hd : x.destroyed = none) :
    s.spawnQueue st (BitVec.ofNat 64 q) = some (q, x) := by
  have hlow : (bits (BitVec.ofNat 64 q) 0 12).toNat = q := by
    rw [toNat_bits_zero, BitVec.toNat_ofNat]
    omega
  have hhigh : bits (BitVec.ofNat 64 q) 12 52 = 0 := by
    apply BitVec.eq_of_toNat_eq
    rw [bits, BitVec.extractLsb'_toNat, BitVec.toNat_ofNat, Nat.shiftRight_eq_div_pow]
    change _ = 0
    omega
  unfold State.spawnQueue
  dsimp only
  rw [if_neg (not_not.2 hhigh), hlow, h]
  dsimp only
  rw [hsub, hpart, hver, hd]
  simp

theorem taskSpawn_claim : Claim.TaskSpawn := by
  intro f s st q x bs h hp c va
  have hissue : exec (.tspawn f) s = execTspawn f s := rfl
  rw [execTspawn, State.issue_ys _ _ h hp] at hissue
  have halign : va % 128 = 0 → ¬ ((Env.here s st).reg f.ga).toNat % 128 ≠ 0 := fun h0 hx => hx h0
  refine ⟨fun hn => ?_, fun hn hnone => ⟨Config.freeTval s.draws, ?_⟩, fun hn hgb hq hx hsub hpart hver hd hheld hread => ?_⟩
  · rw [hissue]
    refine (congrArg (s.conclude s.cur.slot s.cur.ctx (.tspawn f) 2 false) (if_pos hn)).trans ?_
    rw [State.conclude_trap]
    exact (trapsIn_self ..).symm
  · rw [hissue, show s.spawnQueue (Env.here s st).st ((Env.here s st).reg f.gb) = none from spawnQueue_none hnone]
    exact (congrArg (s.conclude s.cur.slot s.cur.ctx (.tspawn f) 2 false) (if_neg (halign hn))).trans (conclude_refuses ..)
  · have hqueue : s.spawnQueue (Env.here s st).st ((Env.here s st).reg f.gb) = some (q, x) := by
      rw [Env.reg_here, hgb]
      exact spawnQueue_of hq hx hsub hpart hver hd
    have hsans := s.sansMemory_noteRead (agent s st) va 128
    have hexec : exec (.tspawn f) s = s.conclude s.cur.slot s.cur.ctx (.tspawn f) 2 false
        (if x.fetched + 2 ^ x.log2n ≤ x.notify.toNat then .done ((s.noteRead (agent s st) va 128).setReg (Env.here s st) f.gd 1)
          else .done (((s.noteRead (agent s st) va 128).append q x bs).setReg (Env.here s st) f.gd 0)) := by
      rw [hissue, hqueue]
      refine congrArg (s.conclude s.cur.slot s.cur.ctx (.tspawn f) 2 false) ((if_neg (halign hn)).trans ((if_neg ?_).trans ?_))
      · exact fun hx => absurd (hheld.symm.trans hx) (by decide)
      · rw [show s.readObject (Env.here s st) ((Env.here s st).reg f.ga).toNat 128 = .ok bs from hread]
        rfl
    refine ⟨fun hfull => ?_, fun hroom => ?_⟩
    · rw [hexec, if_pos hfull]
      exact conclude_gives _ _ _ (State.cur_of_sansMemory hsans) ((State.strand?_of_sansMemory hsans _).trans h.1)
    · obtain ⟨hstrands, hcur, hnotified⟩ := State.append_notifies (s := s.noteRead (agent s st) va 128) bs
        ((congrArg (fun u : State => lookup u.queues q) hsans :).trans hx) hd
      have hst : ((s.noteRead (agent s st) va 128).append q x bs).strand? s.cur.slot = some st :=
        (congrArg (lookup · s.cur.slot) (hstrands.trans (State.strands_of_sansMemory hsans))).trans h.1
      have hcur' := hcur.trans (State.cur_of_sansMemory hsans)
      rw [hexec, if_neg (Nat.not_le.2 hroom), conclude_gives _ _ _ hcur' hst]
      refine ⟨_, rfl, gave_complete _ _ hcur' hst, { x with notify := x.notify + 1, pending := true }, ?_, rfl⟩
      rw [complete, State.queue?, State.updCtx_queues]
      exact hnotified

/-- Settles O25: the counter and the queue an instruction names, and what setting one leaves. -/
theorem dependencyCountersAndSpawn : Obligations.DependencyCountersAndSpawn := ⟨dependencyCounters_claim, taskSpawn_claim⟩

end Sys2Proof.Machine

/-! # Chapter 12: the ballot of a sibling group, R251 to R254 -/

namespace Sys2Proof.Machine
-- one proof at a time: the memory of proofs in flight together is more than the check has
set_option Elab.async false
open Sys2Proof.Claim

theorem siblingOf_of {s : State} {st : Strand} {index gid : Nat} {g : SibGroup} {x : Sibling} (h : siblingIs s st index gid g x) :
    s.siblingOf st = some (index, gid, g, x) := by
  obtain ⟨hst, hg, hx⟩ := h
  simp only [State.siblingOf, hst, hg, hx, Option.map_some]

theorem siblingOf_none {s : State} {st : Strand} (h : st.sibling = none) : s.siblingOf st = none := by simp only [State.siblingOf, h]

/-! ### Counting posts -/

/-- A sibling has posted a hash. -/
def Sibling.posted (h : Word) (x : Sibling) : Bool := (x.post.map (·.1)) == some h

/-- The post of the sibling at an index, with that index. -/
def postAt (l : List Sibling) (i : Nat) : Option (Nat × Word × Nat) := (l[i]?).bind (fun x => x.post.map (fun p => (i, p.1, p.2)))

theorem SibGroup.posts_eq (g : SibGroup) : g.posts = (List.range g.siblings.length).filterMap (postAt g.siblings) := by
  refine congrArg (fun f => List.filterMap f (List.range g.siblings.length)) (funext fun i => ?_)
  unfold postAt
  cases g.siblings[i]? <;> rfl

theorem posts_take (h : Word) (l : List Sibling) {n : Nat} (hn : n ≤ l.length) :
    (((List.range n).filterMap (postAt l)).filter (fun p => p.2.1 == h)).length = ((l.take n).filter (Sibling.posted h)).length := by
  induction n with
  | zero => rfl
  | succ n ih =>
    have hlt : n < l.length := hn
    rw [List.range_succ, List.filterMap_append, List.filter_append, List.length_append, ih hlt.le, List.take_add_one,
      List.filter_append, List.length_append, List.getElem?_eq_getElem hlt]
    refine congrArg (_ + ·) ?_
    have hpost : postAt l n = l[n].post.map (fun p => (n, p.1, p.2)) := by rw [postAt, List.getElem?_eq_getElem hlt, Option.bind_some]
    rw [List.filterMap_cons, hpost, Option.toList_some]
    cases hp : l[n].post with
    | none => simp [Sibling.posted, hp]
    | some p => by_cases hh : p.1 = h <;> simp [Sibling.posted, hp, hh]

/-- R252, R253: the posts that the unit counts are those of the siblings' entries. -/
theorem SibGroup.count_eq (g : SibGroup) (h : Word) : g.count h = postsOf g h := by
  have hall := posts_take h g.siblings le_rfl
  rw [List.take_length, ← SibGroup.posts_eq] at hall
  exact hall

/-- A first post counts once. -/
theorem postsOf_set {g g' : SibGroup} {index : Nat} {x x' : Sibling} {h : Word} (hx : g.siblings[index]? = some x) (hnone : x.post = none)
    (hpost : x'.post.map (·.1) = some h) (hset : g'.siblings = g.siblings.set index x') : postsOf g' h = postsOf g h + 1 := by
  obtain ⟨hlt, hget⟩ := List.getElem?_eq_some_iff.1 hx
  have hno : ¬ Sibling.posted h g.siblings[index] = true := by simp [hget, Sibling.posted, hnone]
  have hyes : Sibling.posted h x' = true := by rw [Sibling.posted, hpost, beq_self_eq_true]
  change (g'.siblings.filter (Sibling.posted h)).length = (g.siblings.filter (Sibling.posted h)).length + 1
  rw [hset, ← List.countP_eq_length_filter, ← List.countP_eq_length_filter, List.countP_set hlt, if_neg hno, if_pos hyes, Nat.sub_zero]

/-! ### Deciding -/

theorem State.decideGroup_decided (s : State) (gid : Nat) (g : SibGroup) (how : GroupState) (winner : Nat) (hash : Word) :
    ∃ g', lookup (s.decideGroup gid g how winner hash).sibgroups gid = some g' ∧ g'.state = how ∧ g'.winner = winner ∧ g'.hash = hash :=
  ⟨_, lookup_insertKey_self .., rfl, rfl, rfl⟩

/-- Each sibling of a group has an entry of another with its post, and has left if it has. -/
def KeepsPosts (g g' : SibGroup) : Prop :=
  ∀ (i : Nat) (x : Sibling), g.siblings[i]? = some x → ∃ x' : Sibling, g'.siblings[i]? = some x' ∧ x'.post = x.post ∧ x'.left = x.left

theorem State.decideGroup_keeps (s : State) (gid : Nat) (g : SibGroup) (how : GroupState) (winner : Nat) (hash : Word) :
    ∃ g', lookup (s.decideGroup gid g how winner hash).sibgroups gid = some g' ∧ KeepsPosts g g' := by
  refine ⟨_, lookup_insertKey_self .., fun i x hx => ?_⟩
  obtain ⟨hlt, hget⟩ := List.getElem?_eq_some_iff.1 hx
  have hall (f : Nat → Sibling → Sibling) : (List.range g.siblings.length).filterMap (fun i => (g.siblings[i]?).map (f i)) =
      (List.range g.siblings.length).map (fun i => f i (g.siblings.getD i default)) := by
    rw [← List.filterMap_eq_map]
    refine List.filterMap_congr fun i hi => ?_
    rw [List.getElem?_eq_getElem (List.mem_range.1 hi), Function.comp_apply, List.getD_eq_getElem _ _ (List.mem_range.1 hi)]
    rfl
  refine ⟨_, (congrArg (fun l : List Sibling => l[i]?) (hall _)).trans
    ((List.getElem?_map ..).trans (congrArg _ (List.getElem?_range hlt))), ?_⟩
  dsimp only
  rw [List.getD_eq_getElem _ _ hlt, hget]
  unfold Sibling.resolved
  split <;> exact ⟨rfl, rfl⟩

/-- What a decision leaves of the strands and the turn. -/
theorem State.decideGroup_frame (s : State) (gid : Nat) (g : SibGroup) (how : GroupState) (winner : Nat) (hash : Word) :
    (s.decideGroup gid g how winner hash).strands = s.strands ∧ (s.decideGroup gid g how winner hash).cur = s.cur := by
  unfold State.decideGroup
  dsimp only
  split <;> exact ⟨rfl, rfl⟩

theorem State.settle_frame (s : State) (gid : Nat) : (s.settle gid).strands = s.strands ∧ (s.settle gid).cur = s.cur := by
  unfold State.settle
  split
  · exact ⟨rfl, rfl⟩
  · split
    · split <;> exact State.decideGroup_frame ..
    · exact ⟨rfl, rfl⟩

/-- Settling a group keeps each sibling's post and whether it has left. -/
theorem State.settle_keeps {s : State} {gid : Nat} {g : SibGroup} (hg : lookup s.sibgroups gid = some g) :
    ∃ g', lookup (s.settle gid).sibgroups gid = some g' ∧ KeepsPosts g g' := by
  unfold State.settle
  simp only [hg]
  split
  · split <;> exact State.decideGroup_keeps ..
  · exact ⟨g, hg, fun i x hx => ⟨x, hx, rfl, rfl⟩⟩

/-- R251, R252: what handling a post gives. -/
theorem State.handlePost_gives {s : State} {index gid : Nat} {g : SibGroup} {x : Sibling} (hash : Word) (hx : g.siblings[index]? = some x)
    (hnone : x.post = none) :
    ((s.handlePost index gid g x hash).2.strands = s.strands ∧ (s.handlePost index gid g x hash).2.cur = s.cur) ∧
      (g.state ≠ .open_ → (s.handlePost index gid g x hash).1 = 2) ∧
      (g.state = .open_ → postsOf g hash + 1 ≠ g.quorum → (s.handlePost index gid g x hash).1 = 0) ∧
      (g.state = .open_ → postsOf g hash + 1 = g.quorum → (s.handlePost index gid g x hash).1 = 1 ∧
        ∃ g', lookup (s.handlePost index gid g x hash).2.sibgroups gid = some g' ∧ g'.state = .quorum ∧ g'.winner = index ∧ g'.hash = hash) := by
  unfold State.handlePost
  dsimp only
  by_cases hopen : g.state = .open_
  · rw [if_neg (not_not.2 hopen), SibGroup.count_eq,
      postsOf_set (g := g) (x' := { x with post := some (hash, g.arrivals), status := 7 }) hx hnone rfl rfl]
    by_cases hq : postsOf g hash + 1 = g.quorum
    · rw [if_pos hq]
      exact ⟨State.decideGroup_frame .., absurd hopen, fun _ hne => absurd hq hne, fun _ _ => ⟨rfl, State.decideGroup_decided ..⟩⟩
    · rw [if_neg hq]
      exact ⟨State.settle_frame .., absurd hopen, fun _ _ => rfl, fun _ hx => absurd hx hq⟩
  · rw [if_pos hopen]
    exact ⟨⟨rfl, rfl⟩, fun _ => rfl, fun hx => absurd hx hopen, fun hx => absurd hx hopen⟩

/-! ### The instructions -/

/-- A sibling is marked gone (R254). -/
def State.withLeft (s : State) (gid : Nat) (g : SibGroup) (index : Nat) (x : Sibling) : State :=
  { s with sibgroups := insertKey s.sibgroups gid { g with siblings := g.siblings.set index { x with left := true, status := 6 } } }

/-- R254: a strand that is no sibling, and R251: one whose sibling has posted or left. -/
theorem sbpost_refuses {s : State} {st : Strand} (f : YsF) (h : Stands s st [f.gd, f.ga]) (hp : AtMostZeroImx (running s st))
    (hno : st.sibling = none ∨ ∃ index gid g x, siblingIs s st index gid g x ∧ (x.post.isSome = true ∨ x.left = true)) :
    refuses s (.sbpost f) := by
  refine ⟨Config.freeTval s.draws, ?_⟩
  change execSbpost f s = _
  rw [execSbpost, State.issue_ys _ _ h hp]
  rcases hno with hno | ⟨index, gid, g, x, hsib, hover⟩
  · rw [show s.siblingOf (Env.here s st).st = none from siblingOf_none hno]
    exact conclude_refuses ..
  · rw [show s.siblingOf (Env.here s st).st = some (index, gid, g, x) from siblingOf_of hsib]
    refine (congrArg (s.conclude s.cur.slot s.cur.ctx (.sbpost f) 2 false) (if_pos ?_)).trans (conclude_refuses ..)
    exact Bool.or_eq_true_iff.2 (.inl (Bool.or_eq_true_iff.2 hover))

/-- R251, R252: a first post. -/
theorem sbpost_posts {s : State} {st : Strand} (f : YsF) {index gid : Nat} {g : SibGroup} {x : Sibling} (h : Stands s st [f.gd, f.ga])
    (hp : AtMostZeroImx (running s st)) (hrep : s.replaying = []) (hsib : siblingIs s st index gid g x)
    (hposting : s.posting (env s st) index gid = false) (hbefore : g.postBefore s.now index = false) (hpost : x.post = none)
    (hleft : x.left = false) (hheld : s.heldBack (env s st) (some 5) = false) :
    ∃ u : State, u.sansMemory = s.sansMemory ∧ exec (.sbpost f) s = s.conclude s.cur.slot s.cur.ctx (.sbpost f) 2 false
      (.done (((u.handlePost index gid g x ((running s st).reg f.ga)).2).setReg (Env.here s st) f.gd
        (BitVec.ofNat 64 (u.handlePost index gid g x ((running s st).reg f.ga)).1))) := by
  refine ⟨_, s.decided_sans (s.postDecision st index ((running s st).reg f.ga)).1 (s.postDecision st index ((running s st).reg f.ga)).2, ?_⟩
  change execSbpost f s = _
  rw [execSbpost, State.issue_ys _ _ h hp, show s.siblingOf (Env.here s st).st = some (index, gid, g, x) from siblingOf_of hsib]
  refine congrArg (s.conclude s.cur.slot s.cur.ctx (.sbpost f) 2 false) ((if_neg ?_).trans ((if_neg ?_).trans (if_neg ?_)))
  · rw [hpost, hleft, show s.posting (Env.here s st) index gid = false from hposting]
    decide
  · rw [show s.heldBack (Env.here s st) (some 5) = false from hheld, hbefore]
    decide
  · rw [State.inTurn_of_none hrep]
    decide

theorem siblingBallot_refuses {s : State} {st : Strand} (f : YsF) (h : Stands s st [f.gd, f.ga]) (hp : AtMostZeroImx (running s st))
    (hno : st.sibling = none) : refuses s (.sbpost f) ∧ refuses s (.sbstat f) ∧ refuses s (.sbleave f) := by
  have hnone : s.siblingOf (Env.here s st).st = none := siblingOf_none hno
  refine ⟨sbpost_refuses f h hp (.inl hno), ⟨Config.freeTval s.draws, ?_⟩, ⟨Config.freeTval s.draws, ?_⟩⟩
  · change execSbstat f s = _
    rw [execSbstat, State.issue_ys _ _ (stands_of_subset h (by simp)) hp, hnone]
    exact conclude_refuses ..
  · change execSbleave f s = _
    rw [execSbleave, State.issue_ys _ _ (stands_of_subset h (by simp)) hp, hnone]
    exact conclude_refuses ..

/-- Settles O26: the post, the question and the leave, each by what the sibling's entry and its group hold. -/
theorem siblingBallot : Obligations.SiblingBallot := by
  intro f s st hp hrep hrec c hash
  refine ⟨fun hno h => siblingBallot_refuses f h hp hno, fun index gid g x hsib hlife hended hposting hbefore => ?_⟩
  refine ⟨fun h hover => sbpost_refuses f h hp (.inr ⟨index, gid, g, x, hsib, hover⟩), fun h hpost hleft hheld => ?_, fun h hsel => ?_,
    fun h hsel => ?_, fun h => ⟨fun hover => ?_, fun hpost hleft => ?_⟩⟩
  · obtain ⟨u, hu, hexec⟩ := sbpost_posts f h hp hrep hsib hposting hbefore hpost hleft hheld
    obtain ⟨⟨hstrands, hcur⟩, htwo, hzero, hone⟩ := State.handlePost_gives (s := u) (gid := gid) hash hsib.2.2 hpost
    have hst : (u.handlePost index gid g x hash).2.strand? s.cur.slot = some st :=
      (congrArg (lookup · s.cur.slot) (hstrands.trans (State.strands_of_sansMemory hu))).trans h.1
    have hcur' := hcur.trans (State.cur_of_sansMemory hu)
    refine ⟨_, _, hexec.trans (conclude_gives _ _ _ hcur' hst), gave_complete _ _ hcur' hst, fun ho => ?_, fun ho hq => ?_, fun ho hq => ?_⟩
    · rw [htwo ho]
      rfl
    · rw [hzero ho hq]
      rfl
    · obtain ⟨hv, hgroup⟩ := hone ho hq
      refine ⟨congrArg (BitVec.ofNat 64) hv, ?_⟩
      rw [complete, State.updCtx_sibgroups]
      exact hgroup
  · change execSbstat f s = _
    rw [execSbstat, State.issue_ys _ _ h hp, show s.siblingOf (Env.here s st).st = some (index, gid, g, x) from siblingOf_of hsib]
    refine (conclude_setReg_words _ 2 f.gd _ h.1).trans ?_
    rw [hsel, if_neg (by decide), SibGroup.winHash]
    simp only [Bool.or_eq_true, beq_iff_eq]
  · refine ⟨g.word x.status, ?_⟩
    change execSbstat f s = _
    rw [execSbstat, State.issue_ys _ _ h hp, show s.siblingOf (Env.here s st).st = some (index, gid, g, x) from siblingOf_of hsib]
    refine (conclude_setReg_words _ 2 f.gd _ h.1).trans ?_
    rw [hsel, if_pos (by decide)]
  · change execSbleave f s = _
    rw [execSbleave, State.issue_ys _ _ h hp, show s.siblingOf (Env.here s st).st = some (index, gid, g, x) from siblingOf_of hsib]
    exact (congrArg (s.conclude s.cur.slot s.cur.ctx (.sbleave f) 2 false) (if_pos (Bool.or_eq_true_iff.2 hover))).trans
      (conclude_passes _ rfl)
  · have hset : ({ g with siblings := g.siblings.set index { x with left := true, status := 6 } } : SibGroup).siblings[index]? =
        some { x with left := true, status := 6 } := List.getElem?_set_self (List.getElem?_eq_some_iff.1 hsib.2.2).1
    obtain ⟨g', hg', hkeeps⟩ := State.settle_keeps (s := s.withLeft gid g index x) (lookup_insertKey_self ..)
    obtain ⟨hstrands, hcur⟩ := (s.withLeft gid g index x).settle_frame gid
    obtain ⟨x', hx', hpost', hleft'⟩ := hkeeps _ _ hset
    have hexec : exec (.sbleave f) s =
        s.conclude s.cur.slot s.cur.ctx (.sbleave f) 2 false (.done ((s.withLeft gid g index x).settle gid)) := by
      change execSbleave f s = _
      rw [execSbleave, State.issue_ys _ _ h hp, show s.siblingOf (Env.here s st).st = some (index, gid, g, x) from siblingOf_of hsib]
      refine congrArg (s.conclude s.cur.slot s.cur.ctx (.sbleave f) 2 false) ((if_neg ?_).trans (if_neg ?_))
      · rw [hpost, hleft]
        decide
      · rw [show s.posting (Env.here s st) index gid = false from hposting]
        decide
    have hst : State.strand? _ s.cur.slot = some st := (congrArg (lookup · s.cur.slot) hstrands).trans h.1
    refine ⟨_, g', x', hexec.trans (conclude_passes _ hcur), gave_nothing hcur hst, ?_, hx', hleft', hpost'.trans hpost⟩
    rw [complete, State.updCtx_sibgroups]
    exact hg'

end Sys2Proof.Machine

/-! # Chapter 12: KEND, R240, of a strand whose slot is listed twice -/

namespace Sys2Proof.Machine
-- one proof at a time: the memory of proofs in flight together is more than the check has
set_option Elab.async false
open Sys2Proof.Claim Sys2Proof.Tests

/-- A strand whose access context has retired, in slot 0, and behind it in the list a second entry of the slot, of another launch. -/
def twiceListed : State :=
  { at_ lastContext .execute with launches := [(0, launch0)], strands := [(0, lastContext), (0, { strand with launch := 1 })] }

/-- How the strand found in slot 0 stands after an outcome. -/
def lifeAfter (o : Out) : Option Life :=
  match o with
  | .next t => (t.strand? 0).map (·.life)
  | _ => none

theorem lifeAfter_twiceListed : lifeAfter (exec (.kend ys) twiceListed) = some .running := by decide

/-- Refutes O23: where the list of strands has a slot twice, the first entry's KEND frees the slots of its launch, its own entry is gone from
the list, and the strand then found in the slot is the other entry's, which runs. -/
theorem not_strandsEndAndCancel : ¬ Obligations.StrandsEndAndCancel := by
  rintro ⟨hkend, -⟩
  obtain ⟨-, hend, -⟩ := hkend ys twiceListed lastContext ⟨rfl, fun _ r hr => nomatch hr⟩ rfl (by decide)
  obtain ⟨t, l', hexec, -, -, hretired⟩ := hend rfl ⟨rfl, .inl rfl⟩ (by decide) (by decide) rfl rfl rfl rfl launch0 rfl
  have hlife := lifeAfter_twiceListed
  rw [hexec] at hlife
  obtain ⟨st', hst', hrunning⟩ := Option.map_eq_some_iff.1 hlife
  exact absurd ((hretired st' hst').symm.trans hrunning) (by decide)

end Sys2Proof.Machine

/-! # Chapters 2 and 11: the order of the VQ and of the matrix queue, R17, R18, R218 -/

namespace Sys2Proof.Machine
-- one proof at a time: the memory of proofs in flight together is more than the check has
set_option Elab.async false
open Sys2Proof.Claim

theorem State.when_true {s t : State} {b : Bool} (h : b = true) : s.when b t = .next t := if_pos h

theorem State.when_false {s t : State} {b : Bool} (h : b = false) : s.when b t = .next s := if_neg (h ▸ Bool.false_ne_true)

theorem execVqEntryComplete_eq {s : State} {st : Strand} {e : VqEntry} {rest : List VqEntry} (h : s.strand? s.cur.slot = some st)
    (hvq : st.vq = e :: rest) :
    exec .vqEntryComplete s = s.when (e.progress == .done) (s.setStrand s.cur.slot { st with vq := rest }) := by
  change execVqEntryComplete s = _
  simp only [execVqEntryComplete, h, hvq]

/-- R18: an entry may move to the matrix queue. -/
def State.mayMove (s : State) (st : Strand) (e : VqEntry) : Bool :=
  isMatrixQueue e.instr && st.life == .running && st.fault.isNone && st.ending.isNone && !st.startsNone s.now &&
    decide ((s.cluster (clusterOf s.cur.slot)).mq.length < mqDepth) && decide (0 < (s.lanes s.cur.slot).2) &&
    ((s.cluster (clusterOf s.cur.slot)).repartition.isNone || e.marked)

theorem execMatrixQueueMove_eq {s : State} {st : Strand} {e : VqEntry} {rest : List VqEntry} (h : s.strand? s.cur.slot = some st)
    (hvq : st.vq = e :: rest) :
    exec .matrixQueueMove s = s.when (s.mayMove st e)
      ((s.setStrand s.cur.slot { st with vq := rest }).setCluster (clusterOf s.cur.slot)
        { s.cluster (clusterOf s.cur.slot) with mq := (s.cluster (clusterOf s.cur.slot)).mq ++ [{ slot := s.cur.slot, entry := e }] }) := by
  change execMatrixQueueMove s = _
  simp only [execMatrixQueueMove, h, hvq, State.mayMove]

/-- R218: the first complete entry of the slot leaves. -/
theorem execMatrixQueueComplete_eq {s : State} {a b : List MqEntry} {q : MqEntry} (hmq : (s.cluster (clusterOf s.cur.slot)).mq = a ++ q :: b)
    (hslot : q.slot = s.cur.slot) (hdone : q.entry.progress = .done) (hfirst : ∀ x ∈ a, x.slot = s.cur.slot → x.entry.progress ≠ .done) :
    exec .matrixQueueComplete s = .next (s.setCluster (clusterOf s.cur.slot) { s.cluster (clusterOf s.cur.slot) with mq := a ++ b }) := by
  have hfind : (a ++ q :: b).findIdx? (fun q => q.slot == s.cur.slot && q.entry.progress == .done) = some a.length := by
    have hnone : a.findIdx? (fun q => q.slot == s.cur.slot && q.entry.progress == .done) = none := by
      rw [List.findIdx?_eq_none_iff]
      intro x hx
      rw [Bool.and_eq_false_iff, beq_eq_false_iff_ne, beq_eq_false_iff_ne]
      exact (em (x.slot = s.cur.slot)).symm.imp id (hfirst x hx)
    rw [List.findIdx?_append, hnone, List.findIdx?_cons, hslot, hdone]
    simp
  change execMatrixQueueComplete s = _
  unfold execMatrixQueueComplete
  dsimp only
  rw [hmq, hfind]
  dsimp only
  rw [List.eraseIdx_append_of_length_le (le_refl _), Nat.sub_self]
  rfl

/-- Settles O32: the head that leaves the VQ, the head that moves, and the first complete entry of the matrix queue. -/
theorem vectorQueueOrder : Obligations.VectorQueueOrder := by
  intro s st e rest h hvq k
  refine ⟨fun hdone => ?_, fun hno => ?_, fun hm hlife hfault hending hstarts hroom hlanes hpart => ?_, fun hbar => ?_,
    fun a b q hmq hslot hdone hfirst => ?_⟩
  · rw [execVqEntryComplete_eq h hvq, State.when_true (beq_iff_eq.2 hdone)]
    exact ⟨_, _, rfl, State.strand?_setStrand .., sameOutside_setStrand .., rfl⟩
  · rw [execVqEntryComplete_eq h hvq, State.when_false (beq_eq_false_iff_ne.2 hno)]
  · have hmay : s.mayMove st e = true := by
      have hrep : ((s.cluster (clusterOf s.cur.slot)).repartition.isNone || e.marked) = true :=
        Bool.or_eq_true_iff.2 (hpart.imp_left Option.isNone_iff_eq_none.2)
      rw [State.mayMove, hm, hlife, hfault, hending, hstarts, hrep, decide_eq_true hlanes,
        decide_eq_true (show (s.cluster (clusterOf s.cur.slot)).mq.length < mqDepth from hroom)]
      rfl
    rw [execMatrixQueueMove_eq h hvq, State.when_true hmay]
    refine ⟨_, _, rfl, ?_, rfl, ?_, rfl⟩
    · rw [State.strand?_setCluster]
      exact State.strand?_setStrand ..
    · rw [State.cluster_setCluster]
  · rw [execMatrixQueueMove_eq h hvq]
    refine State.when_false ?_
    rw [State.mayMove]
    rcases hbar with hfull | ⟨hrep, hmark⟩
    · rw [decide_eq_false (show ¬ (s.cluster (clusterOf s.cur.slot)).mq.length < mqDepth from Nat.not_lt.2 hfull), Bool.and_false,
        Bool.false_and, Bool.false_and]
    · rw [hmark, Bool.or_false, Option.isNone_eq_false_iff.2 (Option.isSome_iff_ne_none.2 hrep), Bool.and_false]
  · rw [execMatrixQueueComplete_eq hmq hslot hdone hfirst]
    exact ⟨_, rfl, congrArg Cluster.mq (State.cluster_setCluster ..), rfl, rfl⟩

end Sys2Proof.Machine

/-! # Chapters 2 and 4: commit into the VQ, R15, R17, R69, R308 -/

namespace Sys2Proof.Machine
-- one proof at a time: the memory of proofs in flight together is more than the check has
set_option Elab.async false
open Sys2Proof.Claim

/-! ### What claiming a chunk changes -/

theorem map_replaceLast {α β : Type} (p : α → Bool) (f : α → α) (g : α → β) (hg : ∀ x, g (f x) = g x) (l : List α) :
    (replaceLast p f l).map g = l.map g := by
  induction l with
  | nil => rfl
  | cons x rest ih =>
    unfold replaceLast
    split
    · rw [List.map_cons, hg, List.map_cons]
    · rw [List.map_cons, ih, List.map_cons]

/-- Two strands differ in what their streams and queued VBINDs hold alone. -/
def SameButStreams (st st1 : Strand) : Prop :=
  st1.vq.map (·.instr) = st.vq.map (·.instr) ∧ st1 = { st with vq := st1.vq, frame := st1.frame, streams := st1.streams }

theorem SameButStreams.refl (st : Strand) : SameButStreams st st := ⟨rfl, rfl⟩

theorem SameButStreams.trans {a b c : Strand} (h : SameButStreams a b) (h' : SameButStreams b c) : SameButStreams a c := by
  obtain ⟨hvq, heq⟩ := h
  obtain ⟨hvq', heq'⟩ := h'
  refine ⟨hvq'.trans hvq, heq'.trans ?_⟩
  rw [heq]

theorem Strand.setCommitted_same (st : Strand) (k : Nat) (x : Stream) : SameButStreams st (st.setCommitted k x) := by
  unfold Strand.setCommitted
  dsimp only
  split
  · split
    · exact ⟨map_replaceLast _ (fun (e : VqEntry) => { e with bind := some x }) _ (fun _ => rfl) _, rfl⟩
    · exact ⟨rfl, rfl⟩
  · split <;> exact ⟨rfl, rfl⟩

theorem Strand.claim_same (st : Strand) (tags : Vector Tag 32) (r : Nat) : SameButStreams st (st.claim tags r).2 := by
  unfold Strand.claim
  split
  · exact .refl st
  · split
    · exact .refl st
    · split
      · exact .refl st
      · exact st.setCommitted_same ..

theorem Strand.claims_same (st : Strand) (tags : Vector Tag 32) (regs : List Nat) : SameButStreams st (st.claims tags regs).2 := by
  have hfold (l : List Nat) (acc : List Claim × Strand) (h : SameButStreams st acc.2) :
      SameButStreams st (l.foldl (fun (acc : List Claim × Strand) r => (acc.1 ++ (acc.2.claim tags r).1.toList, (acc.2.claim tags r).2)) acc).2 := by
    induction l generalizing acc with
    | nil => exact h
    | cons r rest ih => exact ih _ (h.trans (acc.2.claim_same tags r))
  unfold Strand.claims
  dsimp only
  split
  · exact hfold _ _ (.refl st)
  · exact .refl st

/-! ### The committed strand -/

/-- A change of a VQ entry that keeps what R15 takes at commit. -/
def KeepsCommit (f : VqEntry → VqEntry) : Prop :=
  ∀ x, (f x).instr = x.instr ∧ (f x).pc = x.pc ∧ (f x).g = x.g ∧ (f x).tags = x.tags ∧ (f x).rm = x.rm ∧ (f x).edge = x.edge ∧
    (f x).trapen = x.trapen

/-- The tags that a plan sets (R69). -/
def Plan.tagsAfter (p : Plan) (tags : Vector Tag 32) : Vector Tag 32 :=
  if p.bad.isSome then tags else p.newTags.foldl (fun ts (x : Nat × Tag) => setTag ts x.1 x.2) tags

/-- The strand after the commit of an instruction, from its claims and the strand that has made them. -/
def Env.committedFrom (e : Env) (i : Instr) (p : Plan) (f : VqEntry → VqEntry) (x : List Machine.Claim × Strand) : Strand :=
  { x.2 with
    charged := none
    tags := p.tagsAfter x.2.tags
    vdirty := x.2.vdirty ||| bitsOf (p.writes ++ x.1.map (·.reg))
    adirty := x.2.adirty ||| bitsOf p.tileWrite.toList
    pending := x.2.pending ++ (match pendingDest i with
      | some r => [r.toNat]
      | none => [])
    commits := x.2.commits + 1
    vq := x.2.vq ++ [f (e.entry i x.1)] }

theorem committed_eq (s : State) (st : Strand) (i : Instr) (p : Plan) (f : VqEntry → VqEntry) :
    ∃ x, SameButStreams st x.2 ∧ (Env.here s st).committed i p f = (Env.here s st).committedFrom i p f x := by
  refine ⟨if p.n = 0 then ([], st) else st.claims st.tags p.reads, ?_, rfl⟩
  split
  · exact .refl st
  · exact st.claims_same ..

theorem getLsbD_bitsOf {w : Nat} {l : List Nat} {r : Nat} (hw : r < w) (hr : r ∈ l) : (bitsOf l : BitVec w).getLsbD r = true := by
  have hkeep (l : List Nat) (x : BitVec w) (hx : x.getLsbD r = true) :
      (l.foldl (fun x r => x ||| BitVec.ofNat w (2 ^ r)) x).getLsbD r = true := by
    induction l generalizing x with
    | nil => exact hx
    | cons k rest ih => exact ih _ (by rw [BitVec.getLsbD_or, hx, Bool.true_or])
  have hset (l : List Nat) (x : BitVec w) (hl : r ∈ l) : (l.foldl (fun x r => x ||| BitVec.ofNat w (2 ^ r)) x).getLsbD r = true := by
    induction l generalizing x with
    | nil => exact absurd hl List.not_mem_nil
    | cons k rest ih =>
      rcases List.mem_cons.1 hl with rfl | hl
      · refine hkeep rest _ ?_
        rw [BitVec.getLsbD_or, BitVec.getLsbD_ofNat, Nat.testBit_two_pow_self, decide_eq_true hw]
        exact Bool.or_true _
      · exact ih _ hl
  exact hset l 0 hr

theorem tagAt_setTag (tags : Vector Tag 32) (k r : Nat) (t : Tag) (hr : r < 32) :
    tagAt (setTag tags k t) r = if k = r then t else tagAt tags r := by
  simp only [tagAt, setTag, dif_pos hr]
  split
  · rw [Vector.getElem_set]
  · next hk => rw [if_neg (by omega)]

/-- R69: the last tag that a plan gives a register stands. -/
theorem tagAt_tagsAfter (l : List (Nat × Tag)) (tags : Vector Tag 32) {r : Nat} (hr : r < 32) :
    tagAt (l.foldl (fun ts (x : Nat × Tag) => setTag ts x.1 x.2) tags) r = ((l.reverse.find? (·.1 == r)).map (·.2)).getD (tagAt tags r) := by
  induction l generalizing tags with
  | nil => rfl
  | cons x rest ih =>
    rw [List.foldl_cons, ih, List.reverse_cons, List.find?_append, tagAt_setTag _ _ _ _ hr]
    cases rest.reverse.find? (·.1 == r) with
    | some y => rfl
    | none =>
      by_cases hx : x.1 = r
      · simp [hx]
      · simp [hx]

/-- What a commit leaves of the strand, but for its context's PC (R15, R19, R69, R308). -/
theorem committedFrom_keeps {st : Strand} (e : Env) (i : Instr) (p : Plan) (f : VqEntry → VqEntry) {x : List Machine.Claim × Strand}
    (h : SameButStreams st x.2) :
    let u := e.committedFrom i p f x
    u.exec = st.exec ∧ u.access = st.access ∧ u.v = st.v ∧ u.tiles = st.tiles ∧ u.vstart = st.vstart ∧ u.sr = st.sr ∧ u.laneFlags = st.laneFlags ∧
      u.tags = p.tagsAfter st.tags ∧ u.pending = st.pending ++ ((pendingDest i).map (·.toNat)).toList ∧
      (∀ r < 32, r ∈ p.writes → u.vdirty.getLsbD r = true) ∧ (∀ k < 4, p.tileWrite = some k → u.adirty.getLsbD k = true) ∧
      u.vq.map (·.instr) = st.vq.map (·.instr) ++ [(f (e.entry i x.1)).instr] ∧ u.vq.getLast? = some (f (e.entry i x.1)) := by
  obtain ⟨hvq, heq⟩ := h
  have htags : x.2.tags = st.tags := (congrArg Strand.tags heq :)
  have hpend : x.2.pending = st.pending := (congrArg Strand.pending heq :)
  refine ⟨(congrArg Strand.exec heq :), (congrArg Strand.access heq :), (congrArg Strand.v heq :), (congrArg Strand.tiles heq :),
    (congrArg Strand.vstart heq :), (congrArg Strand.sr heq :), (congrArg Strand.laneFlags heq :), congrArg p.tagsAfter htags, ?_,
    fun r hr hw => ?_, fun k hk hw => ?_, ?_, List.getLast?_concat ..⟩
  · refine congrArg₂ (· ++ ·) hpend ?_
    cases pendingDest i <;> rfl
  · refine (BitVec.getLsbD_or ..).trans ?_
    rw [getLsbD_bitsOf hr (List.mem_append_left _ hw), Bool.or_true]
  · refine (BitVec.getLsbD_or ..).trans ?_
    rw [hw, getLsbD_bitsOf hk (by simp), Bool.or_true]
  · exact (List.map_append ..).trans (congrArg (· ++ _) hvq)

/-! ### The checks of a commit -/

/-- R13, R16, R119, R161, R308, R312: a commit whose instruction has no prefix. -/
theorem State.commitChecked_bare {s : State} {st : Strand} (i : Instr) (body : Env → Plan → Act) (h : s.strand? s.cur.slot = some st)
    (hb : Bare (running s st)) :
    s.commitChecked i body = s.conclude s.cur.slot s.cur.ctx i 2 true
      (if s.cur.ctx = .access ∨ st.frame.isSome = true then .trap .illegalInstruction (word0 i) s
        else match st.stalls (scalarsC i ++ scalarsM i) with
          | some r => .wait (.register r.toNat) s
          | none =>
            if (plan i st.tags (running s st).g).illegal || (plan i st.tags (running s st).g).tiles.any (fun k => decide (st.tiles.length ≤ k)) then
              .trap .illegalInstruction (word0 i) s
            else if !(running s st).ven then .trap .vectorFirstUse 0 s
            else if vqDepth ≤ st.vq.length then .wait .commit s
            else body (Env.here s st) (plan i st.tags (running s st).g)) := by
  have hword : (running s st).firstWord i = word0 i := by rw [Context.firstWord, show (running s st).prefixes = none from hb]; rfl
  rw [State.commitChecked, State.issue_bare i vectorForm _ _ h hb (fun _ _ hr => absurd hr List.not_mem_nil)
    (fun hu => absurd hu Bool.false_ne_true), ← hword]
  refine congrArg (s.conclude s.cur.slot s.cur.ctx i 2 true) ?_
  by_cases hx : s.cur.ctx = .access
  · rw [if_pos (Or.inl hx)]
    exact if_pos hx
  · refine (if_neg hx).trans ?_
    by_cases hf : st.frame.isSome = true
    · rw [if_pos (Or.inr hf)]
      exact if_pos hf
    · rw [if_neg (not_or.2 ⟨hx, hf⟩)]
      exact (if_neg hf).trans rfl

theorem State.commitChecked_commits {s : State} {st : Strand} (i : Instr) (body : Env → Plan → Act) (h : s.strand? s.cur.slot = some st)
    (hb : Bare st.exec) (hc : Commits s st i) :
    s.commitChecked i body = s.conclude s.cur.slot s.cur.ctx i 2 true (body (Env.here s st) (resolved st i)) := by
  obtain ⟨hx, hven, hframe, hfree, hlegal, htiles, hroom⟩ := hc
  have hrun : running s st = st.exec := by rw [running, hx]; rfl
  have htiles' : (resolved st i).tiles.any (fun k => decide (st.tiles.length ≤ k)) = false := by
    simp only [List.any_eq_false, decide_eq_true_eq, Nat.not_le]
    exact htiles
  rw [State.commitChecked_bare i body h (hrun ▸ hb), hrun]
  refine congrArg (s.conclude s.cur.slot s.cur.ctx i 2 true) ?_
  rw [if_neg (by rw [hx, hframe]; decide), Strand.stalls_none hfree]
  dsimp only
  rw [show (plan i st.tags st.exec.g) = resolved st i from rfl, hlegal, htiles', if_neg (by decide), hven, if_neg (by decide),
    if_neg (show ¬ vqDepth ≤ st.vq.length from Nat.not_le.2 hroom)]

/-- The instructions that only commit do so. -/
theorem exec_commits_cond (i : Instr) (s : State) :
    cond (queued i) ((s.cur.ctx = .execute ∨ ∀ f, i ≠ .vpref f) → exec i s = s.commit i) True := by
  cases i
  case vpref f =>
    refine fun hp => if_neg ?_
    rcases hp with hx | hne
    · rw [hx]
      decide
    · exact absurd rfl (hne f)
  all_goals try exact True.intro
  all_goals exact fun _ => rfl

theorem exec_commits {i : Instr} {s : State} (hq : queued i = true) (hp : s.cur.ctx = .execute ∨ ∀ f, i ≠ .vpref f) :
    exec i s = s.commit i := by
  have h := exec_commits_cond i s
  rw [hq] at h
  exact h hp

/-! ### R15, R17 -/

def Strand.withVstart (u : Strand) (v : BitVec 13) : Strand := { u with vstart := v }

/-- What a commit leaves, whatever the instruction's entry holds besides what R15 takes. -/
theorem commit_leaves {s : State} {st : Strand} (i : Instr) {f : VqEntry → VqEntry} (hf : KeepsCommit f)
    (hx : s.cur.ctx = .execute) (g : Strand → Strand) (hg : ∀ u, ∃ v, g u = u.withVstart v) (d : Reg) (x : Word) :
    ∃ t st', s.conclude s.cur.slot s.cur.ctx i 2 true (.done ((s.setStrand s.cur.slot
        (g ((Env.here s st).committed i (resolved st i) f))).updCtx s.cur.slot s.cur.ctx (fun c => c.setReg d x))) = .next t ∧
      Committed s st i t st' ∧ SameOutside s t ∧ (∀ r, st'.exec.reg r = if r = d ∧ r ≠ 0 then x else st.exec.reg r) ∧
      st'.exec.flags = st.exec.flags ∧ st'.v = st.v ∧ st'.tiles = st.tiles ∧
      (∀ v, (∀ u, g u = u.withVstart v) → st'.vstart = v) ∧ ((∀ u, g u = u) → st'.vstart = st.vstart) ∧ st'.sr = st.sr ∧
      st'.laneFlags = st.laneFlags ∧ st'.pending = st.pending ++ ((pendingDest i).map (·.toNat)).toList ∧
      (∀ r < 32, r ∈ (resolved st i).writes → st'.vdirty.getLsbD r = true) ∧
      (∀ k < 4, (resolved st i).tileWrite = some k → st'.adirty.getLsbD k = true) ∧ st'.tags = (resolved st i).tagsAfter st.tags := by
  obtain ⟨cl, hsame, heq⟩ := committed_eq s st i (resolved st i) f
  obtain ⟨hexec, haccess, hv, htiles, hvstart, hsr, hflags, htags, hpend, hdirty, hadirty, hvq, hlast⟩ :=
    committedFrom_keeps (Env.here s st) i (resolved st i) f hsame
  obtain ⟨hinstr, hpc, hgs, htg, hrm, hedge, htrap⟩ := hf ((Env.here s st).entry i cl.1)
  have hrun : running s st = st.exec := by rw [running, hx]; rfl
  rw [heq]
  generalize (Env.here s st).committedFrom i (resolved st i) f cl = u at *
  obtain ⟨v, hgu⟩ := hg u
  have hctx : (fun c : Context => (c.setReg d x).advance ((c.setReg d x).pc + BitVec.ofNat 64 (4 * 2))) ((u.withVstart v).ctx .execute) =
      (st.exec.setReg d x).advance ((st.exec.setReg d x).pc + 8) := by
    rw [← hexec]
    rfl
  rw [hgu, State.conclude_done, State.updCtx_updCtx _ _ _ _ (State.strand?_setStrand ..), State.updCtx_of _ _ _ (State.strand?_setStrand ..),
    State.setStrand_setStrand, hx]
  refine ⟨_, _, rfl, ⟨State.strand?_setStrand .., hvq.trans (by rw [hinstr]; rfl), ⟨_, hlast, hinstr, hpc.trans (congrArg Context.pc hrun),
    hgs.trans (congrArg Context.g hrun), htg, hrm, hedge, htrap⟩, (congrArg Context.pc hctx).trans ?_,
    (congrArg Context.issues hctx).trans ?_, haccess⟩, sameOutside_setStrand .., fun r => (congrArg (fun c => Context.reg c r) hctx).trans ?_,
    (congrArg Context.flags hctx).trans ?_, hv, htiles, fun w hw => ?_, fun hw => ?_, hsr, hflags, hpend, hdirty, hadirty, htags⟩
  · exact congrArg (· + 8) (Context.setReg_pc ..)
  · exact congrArg (· + 1) (Context.setReg_issues ..)
  · exact (Context.reg_advance ..).trans (Context.reg_setReg ..)
  · exact Context.setReg_flags ..
  · exact congrArg Strand.vstart (hgu.symm.trans (hw u))
  · exact (congrArg Strand.vstart (hgu.symm.trans (hw u))).trans hvstart

theorem vectorCommit_claim : Claim.VectorCommit := by
  intro i s st hq h hb hc p
  obtain ⟨t, st', hnext, hcommitted, hout, hreg, hflags, hv, htiles, -, hvstart, hsr, hlane, hpend, hdirty, hadirty, htags⟩ :=
    commit_leaves i (f := fun x => x) (fun _ => ⟨rfl, rfl, rfl, rfl, rfl, rfl, rfl⟩) hc.1 (fun u => u) (fun u => ⟨u.vstart, rfl⟩) 0 0
  refine ⟨t, st', ?_, hcommitted, hout, fun r => (hreg r).trans (if_neg (fun hr => hr.2 hr.1)), hflags, hv, htiles, hvstart (fun _ => rfl), hsr,
    hlane, hpend, hdirty, hadirty, fun hbad => ?_, fun hbad r hr => ?_⟩
  · rw [exec_commits hq (.inl hc.1), State.commit, State.commitChecked_commits i _ h hb hc, ← hnext]
    simp only [State.conclude_done, State.updCtx_updCtx _ _ _ _ (State.strand?_setStrand ..), Context.setReg_zero]
    rfl
  · rw [htags, Plan.tagsAfter, if_pos hbad]
  · rw [htags, Plan.tagsAfter, if_neg (by rw [hbad]; decide)]
    exact tagAt_tagsAfter _ _ hr

theorem vectorCommitRefusals_claim : Claim.VectorCommitRefusals := by
  intro i s st hq h hb illegal free p
  have hillegal : s.conclude s.cur.slot s.cur.ctx i 2 true (.trap .illegalInstruction (word0 i) s) = illegal :=
    (State.conclude_trap ..).trans (trapsIn_self ..).symm
  refine ⟨fun hx hne => ?_, fun hx hf => ?_, fun hx hf hfree => ?_⟩
  · rw [exec_commits hq (.inr hne), State.commit, State.commitChecked_bare i _ h hb, if_pos (Or.inl hx), hillegal]
  · rw [exec_commits hq (.inl hx), State.commit, State.commitChecked_bare i _ h hb, if_pos (Or.inr hf), hillegal]
  · have hrun : running s st = st.exec := by rw [running, hx]; rfl
    have hexec := exec_commits (s := s) hq (.inl hx)
    rw [State.commit, State.commitChecked_bare i _ h hb, if_neg (by rw [hx, hf]; decide), Strand.stalls_none hfree, hrun] at hexec
    dsimp only at hexec
    rw [show (plan i st.tags st.exec.g) = p from rfl] at hexec
    refine ⟨fun hbad => ?_, fun hlegal htiles => ?_⟩
    · rw [hexec, if_pos, hillegal]
      refine Bool.or_eq_true_iff.2 (hbad.imp_right fun hk => List.any_eq_true.2 ?_)
      obtain ⟨k, hk, hle⟩ := hk
      exact ⟨k, hk, decide_eq_true hle⟩
    · have htiles' : p.tiles.any (fun k => decide (st.tiles.length ≤ k)) = false := by
        simp only [List.any_eq_false, decide_eq_true_eq, Nat.not_le]
        exact htiles
      rw [hlegal, htiles', if_neg (by decide)] at hexec
      refine ⟨fun hven => ?_, fun hven hfull => ?_⟩
      · rw [hexec, hven, if_pos (by decide), State.conclude_trap]
        exact (trapsIn_self ..).symm
      · rw [hexec, hven, if_neg (by decide), if_pos (show vqDepth ≤ st.vq.length from hfull), State.conclude_wait _ _ _ _ _ _ _ rfl, hx]

/-- Settles O27: what a commit leaves is read off the committed strand; the refusals are the checks in their order. -/
theorem vectorCommit : Obligations.VectorCommit := ⟨vectorCommit_claim, vectorCommitRefusals_claim⟩

end Sys2Proof.Machine

/-! # Chapter 9: VCFG, VSETL and VSETRC, R163 to R166 -/

namespace Sys2Proof.Machine
-- one proof at a time: the memory of proofs in flight together is more than the check has
set_option Elab.async false
open Sys2Proof.Claim

/-- R74, R166: the completion of an instruction at commit clears VSTART where nothing earlier has to use it. -/
def Strand.cleared (st u : Strand) : Strand :=
  if st.vq.all (fun x => x.progress == .done || isMatrixQueue x.instr) then { u with vstart := 0 } else u

theorem Strand.cleared_withVstart (st u : Strand) : ∃ v, st.cleared u = u.withVstart v := by
  unfold Strand.cleared
  split
  · exact ⟨0, rfl⟩
  · exact ⟨u.vstart, rfl⟩

/-- What an instruction whose whole effect is at commit leaves: a register, and its tags. -/
theorem commitAtOnce_leaves {s : State} {st : Strand} (i : Instr) (d : Reg) (x : Word) (f : Env → State → State)
    (hf : ∀ u, s.conclude s.cur.slot s.cur.ctx i 2 true (.done (f (Env.here s st) (s.setStrand s.cur.slot u))) =
      s.conclude s.cur.slot s.cur.ctx i 2 true (.done ((s.setStrand s.cur.slot u).updCtx s.cur.slot s.cur.ctx (fun c => c.setReg d x))))
    (h : s.strand? s.cur.slot = some st)
    (hb : Bare st.exec) (hc : Commits s st i) :
    ∃ t st', s.commitAtOnce i f = .next t ∧ Committed s st i t st' ∧ SameOutside s t ∧
      (∀ r, st'.exec.reg r = if r = d ∧ r ≠ 0 then x else st.exec.reg r) ∧ st'.tags = (resolved st i).tagsAfter st.tags ∧ st'.v = st.v ∧
      (st.vq = [] → st'.vstart = 0) := by
  obtain ⟨t, st', hnext, hcommitted, hout, hreg, -, hv, -, hzero, -, -, -, -, -, -, htags⟩ :=
    commit_leaves i (s := s) (st := st) (f := fun x => { x with progress := .done }) (fun _ => ⟨rfl, rfl, rfl, rfl, rfl, rfl, rfl⟩) hc.1
      st.cleared st.cleared_withVstart d x
  refine ⟨t, st', ?_, hcommitted, hout, hreg, htags, hv, fun hempty => hzero 0 fun u => ?_⟩
  · rw [State.commitAtOnce, State.commitChecked_commits i _ h hb hc, ← hnext]
    exact hf _
  · rw [Strand.cleared, hempty, if_pos (by rfl)]
    rfl

theorem tagsAfter_none {p : Plan} (hn : p.newTags = []) (tags : Vector Tag 32) : p.tagsAfter tags = tags := by
  rw [Plan.tagsAfter, hn, List.foldl_nil, ite_self]

/-- R163: the run of registers that VCFG names gets its tag. -/
theorem tagsAfter_vcfg (f : VxC) (st : Strand) {r : Nat} (hr : r < 32) :
    tagAt ((resolved st (.vcfg f)).tagsAfter st.tags) r =
      if f.vd.toNat ≤ r ∧ r ≤ f.vd.toNat + (bits f.imm 4 5).toNat then f.target else tagAt st.tags r := by
  have hplan : (resolved st (.vcfg f)).newTags = (runOf f.vd.toNat ((bits f.imm 4 5).toNat + 1)).map (fun r => (r, f.target)) := rfl
  have hbad : (resolved st (.vcfg f)).bad = none := rfl
  rw [Plan.tagsAfter, hbad, if_neg (by decide), hplan, tagAt_tagsAfter _ _ hr, ← List.map_reverse, List.find?_map]
  have hmem : r ∈ runOf f.vd.toNat ((bits f.imm 4 5).toNat + 1) ↔ f.vd.toNat ≤ r ∧ r ≤ f.vd.toNat + (bits f.imm 4 5).toNat := by
    simp only [runOf, List.mem_map, List.mem_range]
    exact ⟨fun ⟨k, hk, hr⟩ => by omega, fun h => ⟨r - f.vd.toNat, by omega, by omega⟩⟩
  by_cases hin : r ∈ runOf f.vd.toNat ((bits f.imm 4 5).toNat + 1)
  · obtain ⟨y, hy⟩ := Option.isSome_iff_exists.1 (List.find?_isSome (p := ((fun x : Nat × Tag => x.1 == r) ∘ fun r => (r, f.target))).2
      ⟨r, List.mem_reverse.2 hin, beq_self_eq_true r⟩)
    rw [hy, if_pos (hmem.1 hin)]
    rfl
  · rw [if_neg (fun hx => hin (hmem.2 hx)), List.find?_eq_none.2 fun y hy hyr => hin ?_]
    · rfl
    · rw [← beq_iff_eq.1 (show (y == r) = true from hyr)]
      exact List.mem_reverse.1 hy

/-- Settles O28: the commit of each leaves its entry complete, its tags, and its result in its register. -/
theorem tagsAndLengths : Obligations.TagsAndLengths := by
  intro f s st h hb c limit outcome k target cols rows
  have hgives (i : Instr) (d : Reg) (x : Word) (tag : Nat → Tag) (hc : Commits s st i)
      (hexec : ∃ g, exec i s = s.commitAtOnce i g ∧ ∀ u, s.conclude s.cur.slot s.cur.ctx i 2 true (.done (g (Env.here s st) (s.setStrand s.cur.slot u))) =
        s.conclude s.cur.slot s.cur.ctx i 2 true (.done ((s.setStrand s.cur.slot u).updCtx s.cur.slot s.cur.ctx (fun c => c.setReg d x))))
      (htag : ∀ r < 32, tagAt ((resolved st i).tagsAfter st.tags) r = tag r) : outcome i d x tag := by
    obtain ⟨g, hexec, hg⟩ := hexec
    obtain ⟨t, st', hnext, hcommitted, hout, hreg, htags, hv, hzero⟩ := commitAtOnce_leaves i d x g hg h hb hc
    exact ⟨t, st', hexec.trans hnext, hcommitted, hout, hreg, fun r hr => by rw [htags, htag r hr], hv, hzero⟩
  have hrun (i : Instr) (hc : Commits s st i) : running s st = st.exec := by rw [running, hc.1]; rfl
  refine ⟨fun _ hc => hgives _ _ _ _ hc ⟨fun _ s1 => s1, rfl, fun u => ?_⟩ fun r hr => tagsAfter_vcfg f st hr,
    fun hc => hgives _ _ _ _ hc ⟨fun e s1 => s1.setReg e f.vd
      (BitVec.ofNat 64 (Nat.min (e.reg f.va).toNat (vlmax (tagWidth (tagAt e.st.tags f.vb.toNat))))), rfl, fun u => ?_⟩
      fun r _ => by rw [tagsAfter_none rfl],
    fun hc => hgives _ _ _ _ hc ⟨fun e s1 => s1.setReg e f.vd
      (BitVec.ofNat 64 ((clip2 (e.reg f.va).toNat (e.reg f.vb).toNat (vlmax (tagWidth (tagAt e.st.tags f.vc.toNat)))).1 * 2 ^ 32 +
        (clip2 (e.reg f.va).toNat (e.reg f.vb).toNat (vlmax (tagWidth (tagAt e.st.tags f.vc.toNat)))).2)), rfl, fun u => ?_⟩
      fun r _ => by rw [tagsAfter_none rfl]⟩
  · simp only [State.conclude_done, State.updCtx_updCtx _ _ _ _ (State.strand?_setStrand ..), Context.setReg_zero]
  · refine congrArg (fun x => s.conclude s.cur.slot s.cur.ctx (.vsetl f) 2 true (.done ((s.setStrand s.cur.slot u).updCtx s.cur.slot s.cur.ctx
      (fun c => c.setReg f.vd x)))) ?_
    rw [Env.reg_here, hrun _ hc]
    rfl
  · refine congrArg (fun x => s.conclude s.cur.slot s.cur.ctx (.vsetrc f) 2 true (.done ((s.setStrand s.cur.slot u).updCtx s.cur.slot s.cur.ctx
      (fun c => c.setReg f.vd x)))) ?_
    rw [Env.reg_here, Env.reg_here, hrun _ hc]
    rfl

end Sys2Proof.Machine

/-! # Chapter 24: errors, service, power and bring-up, R366, R367, R370 -/

namespace Sys2Proof.Machine
-- one proof at a time: the memory of proofs in flight together is more than the check has
set_option Elab.async false
open Sys2Proof.Claim

theorem mem_insertIfNew {l : List Nat} {n : Nat} : n ∈ (if l.contains n then l else n :: l) := by
  split
  · exact List.contains_iff_mem.1 ‹_›
  · exact List.mem_cons_self

/-- R366: an error's unit is poisoned. -/
theorem execUncorrectableError_poisons (s : State) {site : ErrorSite} {u : Nat} {p : Place} (h : ErrorSite.unit? site = some u)
    (hp : p.flat.map (· / 64) = some u) :
    ∃ t, exec (.uncorrectableError site) s = .next t ∧ t.poisoned p = true ∧ SameMemories s t := by
  refine ⟨{ s with poison := if s.poison.contains u then s.poison else u :: s.poison }, ?_, ?_, rfl, rfl, rfl, rfl⟩
  · change execUncorrectableError site s = _
    rw [execUncorrectableError, h]
  · obtain ⟨n, hn, hdiv⟩ := Option.map_eq_some_iff.1 hp
    rw [State.poisoned, hn, Option.map_some, Option.getD_some, hdiv]
    exact List.contains_iff_mem.2 mem_insertIfNew

theorem refresh_getD (s : State) {die : Nat} (h : die < 2) : s.refresh.toList.getD die Refresh.blank = s.refresh[die] := by
  rw [List.getD_eq_getElem _ _ (by simpa using h), Vector.getElem_toList]

theorem updRefresh_of (s : State) {die : Nat} (h : die < 2) (f : Refresh → Refresh) :
    s.updRefresh die f = { s with refresh := s.refresh.set die (f s.refresh[die]) } := dif_pos h

theorem errorsServiceAndPower_claim : Claim.ErrorsServiceAndPower := by
  intro s
  refine ⟨fun u hu => ?_, fun u hu => ?_, fun row => ⟨_, rfl, mem_insertIfNew, ⟨rfl, rfl, rfl, rfl⟩, rfl⟩, fun die h bank hbank => ?_,
    fun h => ?_, fun steps hsteps => ⟨_, rfl, ?_, rfl, rfl, rfl, rfl⟩, fun celsius => ⟨fun hlow => ?_, fun hhigh => ?_⟩⟩
  · refine execUncorrectableError_poisons s (if_pos hu) (congrArg some ?_)
    exact Nat.mul_div_cancel_left u (by decide)
  · refine execUncorrectableError_poisons s (if_pos hu) (congrArg some ?_)
    show (2 ^ 64 + 64 * u) / 64 = 2 ^ 58 + u
    omega
  · refine ⟨s.updRefresh die _, State.when_true (decide_eq_true hbank), ?_⟩
    rw [updRefresh_of s h]
    refine ⟨?_, ?_, rfl, rfl, rfl, rfl⟩
    · rw [Vector.getElem_set_self]
      exact mem_insertIfNew
    · rw [Vector.getElem_set_self]
  · have hr := refresh_getD s h
    have hstart : exec .wsRefreshStart s = s.when (!s.refresh[s.cur.unit].busy &&
        decide (s.refresh[s.cur.unit].origin + s.refresh[s.cur.unit].count * refreshPeriod ≤ s.time))
        (s.updRefresh s.cur.unit (fun r => { r with busy := true })) := by
      rw [← hr]
      rfl
    have hend : exec .wsRefreshEnd s = s.when (s.refresh[s.cur.unit].busy &&
        decide (s.refresh[s.cur.unit].origin + s.refresh[s.cur.unit].count * refreshPeriod + refreshLength ≤ s.time))
        (s.updRefresh s.cur.unit (fun r => { r with busy := false, count := r.count + 1 })) := by
      rw [← hr]
      rfl
    refine ⟨fun hidle => ⟨fun hearly => ?_, fun hdue => ?_⟩, fun hbusy => ⟨fun hearly => ?_, fun hdue => ?_⟩⟩
    · rw [hstart, State.when_false]
      rw [decide_eq_false (Nat.not_le.2 (show s.time < _ + _ * refreshPeriod from hearly)), Bool.and_false]
    · rw [hstart, hidle, State.when_true (by rw [decide_eq_true (show _ + _ * refreshPeriod ≤ s.time from hdue)]; rfl), updRefresh_of s h]
      exact ⟨_, rfl, Vector.getElem_set_self .., rfl, rfl, rfl, rfl⟩
    · rw [hend, State.when_false]
      rw [decide_eq_false (Nat.not_le.2 (show s.time < _ + _ * refreshPeriod + refreshLength from hearly)), Bool.and_false]
    · rw [hend, hbusy, State.when_true (by rw [decide_eq_true (show _ + _ * refreshPeriod + refreshLength ≤ s.time from hdue)]; rfl),
        updRefresh_of s h]
      exact ⟨_, rfl, Vector.getElem_set_self .., rfl, rfl, rfl, rfl⟩
  · change max 125 (1750 - 125 * steps) = 125 * (14 - steps)
    omega
  · exact State.when_false (decide_eq_false (Nat.not_le.2 hlow))
  · exact ⟨_, State.when_true (decide_eq_true hhigh), rfl, rfl⟩

theorem bringUp_claim : Claim.BringUp := by
  intro s
  refine ⟨s.broughtUp, rfl, rfl, rfl, rfl, rfl, rfl, rfl, rfl, rfl, rfl, rfl, rfl, fun die h => ?_, List.map_map .., rfl, fun e he => ?_, rfl, rfl,
    rfl, fun k p hk => ?_⟩
  · have hd : s.broughtUp.refresh[die] = { s.refresh[die] with origin := s.time, count := 0, busy := false } := Vector.getElem_map ..
    rw [hd]
    exact ⟨rfl, rfl, rfl⟩
  · obtain ⟨c, -, rfl⟩ := List.mem_map.1 he
    rfl
  · refine ⟨{ p with scan := 0, served := 0 }, ?_, rfl, rfl⟩
    refine (lookup_map_keys (f := fun p => (p.1, { p.2 with scan := 0, served := 0 })) (fun _ => rfl) s.partitions k).trans ?_
    rw [hk]
    rfl

/-- Settles O54: each event changes what it names, and bring-up is the reset state with what it keeps. -/
theorem errorsServiceAndPower : Obligations.ErrorsServiceAndPower := ⟨errorsServiceAndPower_claim, bringUp_claim⟩

end Sys2Proof.Machine

/-! # Chapter 24: the host's apertures, R338, R358, R359 -/

namespace Sys2Proof.Machine
-- one proof at a time: the memory of proofs in flight together is more than the check has
set_option Elab.async false
open Sys2Proof.Claim

/-! ### Device memory as an agent outside the clusters stores to it -/

theorem State.putBytes_dev_frame (s : State) (k pa : Nat) (bs : List Byte) :
    ∃ sh cl, s.putBytes k (.dev pa) bs = { s with dev := s.dev.writeBytes pa bs, shadows := sh, clusters := cl } := by
  obtain ⟨sh, hsh⟩ := State.mirror_frame { s with dev := s.dev.writeBytes pa bs } pa bs
  refine ⟨sh, ?_⟩
  unfold State.putBytes
  dsimp only
  rw [hsh]
  split
  · exact ⟨s.clusters, rfl⟩
  · exact ⟨_, rfl⟩

/-- The addresses from one upward. -/
def addressesFrom (a n : Nat) : List Nat := (List.range n).map (fun i => a + i)

theorem addressesFrom_succ (a n : Nat) : addressesFrom a (n + 1) = a :: addressesFrom (a + 1) n := by
  rw [addressesFrom, addressesFrom, List.range_succ_eq_map, List.map_cons, List.map_map]
  exact congrArg (a :: ·) (List.map_congr_left fun i _ => Nat.add_right_comm a i 1)

theorem State.storeBytes_frame (bs : List Byte) : ∀ (s : State) (a : Nat), ∃ sh cl,
    ((addressesFrom a bs.length).zip bs).foldl (fun (s : State) p => s.putBytes Config.clusters (.dev p.1) [p.2]) s =
      { s with dev := s.dev.writeBytes a bs, shadows := sh, clusters := cl } := by
  induction bs with
  | nil => exact fun s a => ⟨s.shadows, s.clusters, rfl⟩
  | cons b rest ih =>
    intro s a
    obtain ⟨sh, cl, h⟩ := s.putBytes_dev_frame Config.clusters a [b]
    obtain ⟨sh', cl', h'⟩ := ih { s with dev := s.dev.writeBytes a [b], shadows := sh, clusters := cl } (a + 1)
    refine ⟨sh', cl', ?_⟩
    rw [List.length_cons, addressesFrom_succ, List.zip_cons_cons, List.foldl_cons, h, h']
    rfl

/-- A store from outside the clusters to adjoining addresses leaves every other part of the machine but what is kept of device memory. -/
theorem State.storeDevice_frame (s : State) (a : Nat) (bs : List Byte) : ∃ sh cl po,
    s.storeDevice (addressesFrom a bs.length) bs = { s with dev := s.dev.writeBytes a bs, shadows := sh, clusters := cl, poison := po } := by
  obtain ⟨sh, cl, h⟩ := s.storeBytes_frame bs a
  refine ⟨sh, cl, ?_⟩
  rw [State.storeDevice, h, State.heal]
  split
  · exact ⟨s.poison, rfl⟩
  · exact ⟨_, rfl⟩

theorem State.dev_wf {s : State} (h : s.memWf = true) : s.dev.wf = true := by
  simp only [State.memWf, Bool.and_eq_true] at h
  exact h.1.1.1.1

/-! ### The physical function's aperture -/

theorem allSome_map_some {α β : Type} (f : α → Option β) (g : α → β) (l : List α) (h : ∀ x ∈ l, f x = some (g x)) :
    allSome (l.map f) = some (l.map g) := by
  induction l with
  | nil => rfl
  | cons x rest ih =>
    rw [List.map_cons, List.map_cons, h x List.mem_cons_self]
    change (match some (g x), allSome (rest.map f) with | some a, some as => some (a :: as) | _, _ => none) = _
    rw [ih fun y hy => h y (List.mem_cons_of_mem x hy)]

theorem allSome_none {α : Type} (l : List (Option α)) (h : none ∈ l) : allSome l = none := by
  induction l with
  | nil => exact absurd h List.not_mem_nil
  | cons x rest ih =>
    change (match x, allSome rest with | some a, some as => some (a :: as) | _, _ => none) = none
    cases List.mem_cons.1 h with
    | inl hx => rw [← hx]
    | inr hr =>
      rw [ih hr]
      cases x <;> rfl

theorem State.apertureBytes_physical (s : State) {off n : Nat} (h : off + n ≤ Config.hbmBytes) :
    s.apertureBytes 0 off n = some (addressesFrom off n) :=
  allSome_map_some _ _ _ fun i hi => if_pos (by have := List.mem_range.1 hi; omega)

theorem State.apertureBytes_beyond (s : State) {off n : Nat} (h : Config.hbmBytes < off + n) (hn : 0 < n) : s.apertureBytes 0 off n = none :=
  allSome_none _ (List.mem_map.2 ⟨n - 1, List.mem_range.2 (by omega), if_neg (by omega)⟩)

/-! ### The mailbox registers and the notify pages -/

theorem execHostApertureAccess_up {s : State} {func : Nat} (hl : s.linkUp = true) (hf : func ≤ 12) : ¬((!s.linkUp) = true ∨ 12 < func) := by
  rw [hl]
  exact fun h => h.elim (fun hx => Bool.noConfusion hx) (Nat.not_lt.2 hf)

theorem Mailbox.control_toNat (m : Mailbox) :
    m.control.toNat = m.last.toNat * 256 + (if m.irqen then 4 else 0) + (if m.busy then 2 else 0) := by
  have h : (if m.irqen then 4 else 0) + (if m.busy then 2 else 0) ≤ 6 := by
    cases m.irqen <;> cases m.busy <;> decide
  have hlast := m.last.isLt
  rw [Mailbox.control, BitVec.toNat_ofNat]
  exact Nat.mod_eq_of_lt (by omega)

theorem mailbox_insertKey (s : State) (func : Nat) (m : Mailbox) (inlet : List InletEvent) :
    ({ s with mailboxes := insertKey s.mailboxes func m, inlet := inlet } : State).mailbox func = m := by
  simp only [State.mailbox, lookup_insertKey_self, Option.getD_some]

theorem State.notifyAt_page {s : State} {func q : Nat} {x : Queue} (hq : s.queue? q = some x) (hd : x.destroyed = none)
    (hf : func = 0 ∨ func = x.part + 1) : s.notifyAt func (4096 * q) = some (q, x) := by
  have hpage : 4096 * q / 4096 = q := Nat.mul_div_cancel_left q (by decide)
  have hreach : Machine.reaches func x.part = true := by
    unfold Machine.reaches
    rcases hf with rfl | rfl <;> simp
  rw [State.notifyAt, if_neg (not_not.2 (Nat.mul_mod_right 4096 q)), hpage, hq]
  change (if (Machine.reaches func x.part && x.destroyed.isNone) = true then some (q, x) else none) = _
  rw [hreach, hd]
  rfl

theorem State.notify_of {s : State} {q : Nat} {x : Queue} (w : Word) (hq : s.queue? q = some x) (hd : x.destroyed = none) :
    s.notify q w = s.setQueue q { x with notify := w, pending := true } := by
  rw [State.notify, hq]
  change (if x.destroyed.isSome = true then s else _) = _
  rw [hd]
  rfl

/-- Settles O51: what each access of the host comes to, by its kind. -/
theorem hostAccesses : Obligations.HostAccesses := by
  intro s func off hlink hfunc hwf m go
  have hup := execHostApertureAccess_up hlink hfunc
  have hshut (h : s.mailboxOpen = true) : ¬(!s.mailboxOpen) = true := fun hx => absurd h (by simpa using hx)
  have hgo (op : ApertureOp) : go op = execHostApertureAccess func off op s := rfl
  refine ⟨fun n h0 => ⟨fun h => ?_, fun h hn => ?_⟩, fun bs h0 => ⟨fun h => ?_, fun h hn => ?_⟩, fun x hopen => ⟨fun h => ?_, fun h hx hb => ?_, fun h hx hb => ?_⟩,
    fun hopen h => ?_, fun q x w hoff hq hd hf => ⟨?_, ?_⟩⟩
  · rw [hgo, execHostApertureAccess, if_neg hup, h0, s.apertureBytes_physical h]
    exact congrArg (fun l => Host.Outcome.next { s with reply := .data l }) (List.map_map ..)
  · rw [hgo, execHostApertureAccess, if_neg hup, h0, s.apertureBytes_beyond h hn]
  · obtain ⟨sh, cl, po, hs⟩ := s.storeDevice_frame off bs
    refine ⟨s.storeDevice (addressesFrom off bs.length) bs, ?_, ?_⟩
    · rw [hgo, execHostApertureAccess, if_neg hup, h0, s.apertureBytes_physical h]
    · rw [hs]
      refine ⟨fun i b hb => ?_, fun a ha => Memory.read_writeBytes_ne _ _ _ _ ha, rfl, rfl, rfl⟩
      obtain ⟨hi, rfl⟩ := List.getElem?_eq_some_iff.1 hb
      exact Memory.read_writeBytes _ _ _ _ (State.dev_wf hwf) hi
  · rw [hgo, execHostApertureAccess, if_neg hup, h0, s.apertureBytes_beyond h hn]
  · refine ⟨{ s with mailboxes := insertKey s.mailboxes func { s.mailbox func with addr := x &&& 0xFFFFFFFFFFFFFFC0 } }, ?_, ?_, rfl, rfl, rfl, rfl⟩
    · rw [hgo, execHostApertureAccess, if_neg hup, if_neg (hshut hopen), if_pos h]
    · exact congrArg Mailbox.addr (mailbox_insertKey s func _ s.inlet)
  · rw [hgo, execHostApertureAccess, if_neg hup, if_neg (hshut hopen), if_neg (show ¬off = 0 by omega), if_pos h]
    refine congrArg Host.Outcome.next (if_pos ?_)
    exact (Bool.and_eq_true _ _).mpr ⟨hx, hb⟩
  · refine ⟨s.writeControl func x, ?_, ?_⟩
    · rw [hgo, execHostApertureAccess, if_neg hup, if_neg (hshut hopen), if_neg (show ¬off = 0 by omega), if_pos h]
    · have hw : s.writeControl func x = _ := (if_neg (show ¬(bit x 0 && (s.mailbox func).busy) = true by
        rw [show (s.mailbox func).busy = false from hb, Bool.and_false]
        exact Bool.false_ne_true)).trans (if_pos hx)
      rw [hw, mailbox_insertKey]
      exact ⟨rfl, rfl, rfl, rfl, rfl, rfl, rfl, rfl, rfl, rfl⟩
  · refine ⟨{ s with reply := .data (leBytes 8 (s.mailbox func).control.toNat) }, (s.mailbox func).control.toNat, ?_, rfl, ⟨rfl, rfl, rfl, rfl⟩,
      Mailbox.control_toNat _⟩
    rw [hgo, execHostApertureAccess, if_neg hup, if_neg (hshut hopen), if_neg (show ¬off = 0 by omega), if_pos h]
  · refine ⟨s.setQueue q { x with notify := w, pending := true }, ?_, lookup_insertKey_self .., rfl, rfl, rfl, rfl⟩
    rw [hgo, execHostApertureAccess, if_neg hup, hoff, State.notifyAt_page hq hd hf]
    exact congrArg Host.Outcome.next (State.notify_of w hq hd)
  · rw [hgo, execHostApertureAccess, if_neg hup, hoff, State.notifyAt_page hq hd hf]
    rfl

end Sys2Proof.Machine

/-! # Chapter 24: the security of the host link and its loss, R358, R363, R366 -/

namespace Sys2Proof.Machine
-- one proof at a time: the memory of proofs in flight together is more than the check has
set_option Elab.async false
open Sys2Proof.Claim

/-- A walk for the host that fails is no walk any more. -/
theorem State.failHostWaits_walks (s : State) {e : Nat × Walk} (he : e ∈ (s.failHostWaits fun _ => true).walks) : e.2.ats = false := by
  obtain ⟨-, h⟩ := List.mem_filter.1 he
  simpa using h

theorem State.failHostWaits_pageReqs (s : State) : (s.failHostWaits fun _ => true).pageReqs = [] :=
  List.filter_eq_nil_iff.2 fun _ _ => Bool.false_ne_true

/-- R366: the accesses that wait for a walk of the host raise 0x13. -/
theorem State.failHostWaits_walk_faults (s : State) {e : Nat × Walk} (he : e ∈ s.walks) (hats : e.2.ats = true) {who : Requester}
    (hw : who ∈ e.2.who ++ e.2.also) :
    ({ who, page := pageOf e.2.va, cause := .uncorrectable } : XlatFault) ∈ (s.failHostWaits fun _ => true).xlatFaults := by
  have hin : e ∈ s.walks.filter (fun w => w.2.ats && true) := List.mem_filter.2 ⟨he, by rw [hats]; rfl⟩
  exact List.mem_append_left _ (List.mem_append_left _ (List.mem_flatMap.2 ⟨e, hin, List.mem_map.2 ⟨who, hw, rfl⟩⟩))

/-- R366: so do those that wait for a page. -/
theorem State.failHostWaits_page_faults (s : State) {e : Nat × PageReq} (he : e ∈ s.pageReqs) {who : Requester} (hw : who ∈ e.2.who) :
    ({ who, page := e.2.va, cause := .uncorrectable } : XlatFault) ∈ (s.failHostWaits fun _ => true).xlatFaults := by
  have hin : e ∈ s.pageReqs.filter (fun _ => true) := List.mem_filter.2 ⟨he, rfl⟩
  exact List.mem_append_left _ (List.mem_append_right _ (List.mem_flatMap.2 ⟨e, hin, List.mem_map.2 ⟨who, hw, rfl⟩⟩))

/-- Settles O52: the answers are kept under their function, and a lost link fails what waits for the host. -/
theorem hostSecurityAndLink : Obligations.HostSecurityAndLink := by
  intro s func
  refine ⟨⟨_, rfl, lookup_insertKey_self .., rfl, rfl, rfl, rfl, rfl⟩, fun nonce => ⟨_, rfl, rfl, ⟨rfl, rfl, rfl, rfl⟩, lookup_insertKey_self ..⟩,
    fun share => ⟨_, rfl, rfl, ⟨rfl, rfl, rfl, rfl⟩, lookup_insertKey_self ..⟩, fun stream => ⟨_, rfl, mem_insertIfNew, fun k hk => ?_, rfl, rfl, rfl, rfl⟩,
    ⟨_, rfl, rfl, s.failHostWaits_pageReqs, fun e he => s.failHostWaits_walks he, fun e he hats who hw => s.failHostWaits_walk_faults he hats hw,
      fun e he who hw => s.failHostWaits_page_faults he hw, rfl, rfl, rfl, rfl⟩, fun hdown off op => if_pos (.inl ?_)⟩
  · change k ∈ if s.ideFailed.contains stream then s.ideFailed else stream :: s.ideFailed
    split
    · exact hk
    · exact List.mem_cons_of_mem _ hk
  · rw [hdown]
    rfl

/-! # Chapter 24: the fabric, R98, R261, R361, R367 -/

/-- A store of another module to device memory is performed at its home here. -/
theorem State.storeHome_dev (s : State) (a : Nat) (bs : List Byte) : ∃ sh cl po,
    s.storeHome (.dev a) bs = { s with dev := s.dev.writeBytes a bs, shadows := sh, clusters := cl, poison := po } := s.storeDevice_frame a bs

theorem State.homePlace_dev (s : State) {addr : Nat} (h : addr < Config.hbmBytes + Config.tier2Bytes) : s.homePlace addr .store = .ok (.dev addr) :=
  if_pos h

theorem State.homeBytes_dev (s : State) (a n : Nat) : s.homeBytes (.dev a) n = s.dev.readBytes a n := rfl

/-- R98, R361: a store of another module. -/
theorem remoteWrite_outcome {s : State} {m addr : Nat} (hm : lookup s.remotes m = none) {bs : List Byte} (hbs : bs ≠ [])
    (h : addr < Config.hbmBytes + Config.tier2Bytes) : exec (.remoteModuleAccess m addr (.write bs)) s = .next (s.storeHome (.dev addr) bs) := by
  change execRemoteModuleAccess m addr (.write bs) s = _
  rw [execRemoteModuleAccess, hm]
  dsimp only
  rw [s.homePlace_dev h]
  cases bs with
  | nil => exact absurd rfl hbs
  | cons b rest => rfl

/-- R98, R153, R361: its AMOADD. -/
theorem remoteAdd_outcome {s : State} {m addr : Nat} (hm : lookup s.remotes m = none) (x y : Word) (h : addr < Config.hbmBytes + Config.tier2Bytes) :
    exec (.remoteModuleAccess m addr (.amo 0x11 x y)) s =
      .next (s.storeHome (.dev addr) (leBytes 8 (BitVec.ofNat 64 (s.dev.readLE addr 8) + x).toNat)) := by
  change execRemoteModuleAccess m addr (.amo 0x11 x y) s = _
  rw [execRemoteModuleAccess, hm]
  dsimp only
  rw [s.homePlace_dev h]
  rfl

theorem State.longAgo_any {s : State} {since : Nat} (h : s.now < since + 2 ^ 21) {l : List Nat} (hl : ∀ t ∈ l, since ≤ t) : l.any s.longAgo = false := by
  refine List.any_eq_false.2 fun t ht => ?_
  have := hl t ht
  rw [State.longAgo, decide_eq_true_eq]
  omega

/-- R367: what makes a module's path late. -/
def State.pathLate (s : State) (r : RemoteModule) : Bool :=
  (r.owedSince.toList ++ r.askedSince.toList).any s.longAgo || s.ports.any (fun p => p.2.training && s.longAgo p.2.since)

theorem State.pathLate_of {s : State} {r : RemoteModule} {since : Nat} (h : r.owedSince = some since ∨ r.askedSince = some since) (hlate : since + 2 ^ 21 ≤ s.now) :
    s.pathLate r = true := by
  refine Bool.or_eq_true_iff.2 (.inl (List.any_eq_true.2 ⟨since, ?_, decide_eq_true hlate⟩))
  refine List.mem_append.2 (h.imp (fun hr => ?_) fun hr => ?_)
  · exact Option.mem_toList.2 hr
  · exact Option.mem_toList.2 hr

theorem State.not_pathLate {s : State} {r : RemoteModule} {since : Nat} (ho : ∀ t ∈ r.owedSince, since ≤ t) (ha : ∀ t ∈ r.askedSince, since ≤ t)
    (h : s.now < since + 2 ^ 21) (hp : ∀ e ∈ s.ports, e.2.training = true → s.now < e.2.since + 2 ^ 21) : s.pathLate r = false := by
  refine Bool.or_eq_false_iff.2 ⟨State.longAgo_any h fun t ht => ?_, List.any_eq_false.2 fun e he => ?_⟩
  · exact (List.mem_append.1 ht).elim (fun hx => ho t (Option.mem_toList.1 hx)) (fun hx => ha t (Option.mem_toList.1 hx))
  · rw [Bool.and_eq_true, State.longAgo, decide_eq_true_eq]
    rintro ⟨htr, hago⟩
    exact absurd hago (Nat.not_le.2 (hp e he htr))

/-- The machine once a module's path is taken as lost. -/
def State.unreachableNow (s : State) (k : Nat) (r : RemoteModule) : State :=
  { s with
    remotes := insertKey s.remotes k { r with reachable := false }
    creds := s.creds.map (fun c => if c.module = some k then { c with lost := true } else c) }

theorem execModuleUnreachable_eq {s : State} {k : Nat} {r : RemoteModule} (hk : lookup s.remotes k = some r) :
    exec (.moduleUnreachable k) s = s.when (s.pathLate r && r.reachable) (s.unreachableNow k r) := by
  have hr : s.remote k = r := by
    rw [State.remote, hk]
    rfl
  rw [← hr]
  rfl

theorem State.unreachableNow_lost (s : State) {k : Nat} {r : RemoteModule} {c : CredPart} (hc : c ∈ (s.unreachableNow k r).creds) (hm : c.module = some k) :
    c.lost = true := by
  obtain ⟨c0, -, rfl⟩ := List.mem_map.1 hc
  by_cases h0 : c0.module = some k
  · rw [if_pos h0]
  · rw [if_neg h0] at hm
    exact absurd hm h0

theorem State.port_insert (s : State) (n : Nat) (p : Port) : ({ s with ports := insertKey s.ports n p } : State).port n = p := by
  simp only [State.port, lookup_insertKey_self, Option.getD_some]

/-- R367: retraining of a port. -/
theorem execLinkRetrain_eq {s : State} {q : Port} (hu : s.cur.unit < 24) (hq : (if (s.port s.cur.unit).training then
      { s.port s.cur.unit with training := false, inFlight := (s.port s.cur.unit).replay }
    else { s.port s.cur.unit with training := true, since := s.now, inFlight := [] }) = q) :
    exec .linkRetrain s = .next { s with ports := insertKey s.ports s.cur.unit q } := by
  subst hq
  exact State.when_true (decide_eq_true hu)

/-- Settles O53: each request of another module at its home, and what the paths and ports come to. -/
theorem fabricAndModules : Obligations.FabricAndModules := by
  intro s m addr hwf hm
  refine ⟨fun bs hfit hbs => ?_, fun x y hfit => ?_, fun group member data => ?_, fun k r since hk hsince hr => ⟨fun hlate => ?_, fun hearly hports => ?_⟩,
    fun hu => ⟨fun hidle => ⟨?_, ?_⟩, fun htrain => ?_⟩⟩
  · have hpos := List.length_pos_iff.2 hbs
    obtain ⟨sh, cl, po, hs⟩ := s.storeHome_dev addr bs
    refine ⟨_, remoteWrite_outcome hm hbs (by omega), ?_⟩
    rw [hs]
    refine ⟨fun i b hb => ?_, fun a ha => Memory.read_writeBytes_ne _ _ _ _ ha, rfl⟩
    obtain ⟨hi, rfl⟩ := List.getElem?_eq_some_iff.1 hb
    exact Memory.read_writeBytes _ _ _ _ (State.dev_wf hwf) hi
  · obtain ⟨sh, cl, po, hs⟩ := s.storeHome_dev addr (leBytes 8 (BitVec.ofNat 64 (s.dev.readLE addr 8) + x).toNat)
    refine ⟨_, remoteAdd_outcome hm x y (by omega), ?_⟩
    rw [hs]
    have hlen := leBytes_length 8 (BitVec.ofNat 64 (s.dev.readLE addr 8) + x).toNat
    refine ⟨fun i hi => ?_, fun a ha => Memory.read_writeBytes_ne _ _ _ _ (by rwa [hlen])⟩
    exact (Memory.read_writeBytes _ _ _ _ (State.dev_wf hwf) (by rwa [hlen])).trans (leBytes_toNat ..)
  · refine ⟨s.setCredPart { group, member, data, lost := false, here := false, done := false, module := some m }, _, ?_,
      List.mem_append_right _ List.mem_cons_self, rfl, rfl, rfl, rfl, rfl⟩
    change execRemoteModuleAccess m addr (.cred group member data) s = _
    rw [execRemoteModuleAccess, hm]
  · refine ⟨s.unreachableNow k r, _, ?_, lookup_insertKey_self .., rfl, fun c hc hcm => s.unreachableNow_lost hc hcm, rfl⟩
    rw [execModuleUnreachable_eq hk, State.when_true]
    rw [State.pathLate_of (hsince.imp And.left And.left) hlate, hr]
    rfl
  · rw [execModuleUnreachable_eq hk, State.when_false]
    have hnot : s.pathLate r = false := by
      rcases hsince with ⟨ho, ha⟩ | ⟨ha, ho⟩
      · exact State.not_pathLate (fun t ht => (Option.some.inj (ho.symm.trans ht)).le) ha hearly hports
      · exact State.not_pathLate ho (fun t ht => (Option.some.inj (ha.symm.trans ht)).le) hearly hports
    rw [hnot]
    rfl
  · refine ⟨_, State.when_true ?_, s.port_insert .., rfl⟩
    rw [hidle, decide_eq_true hu]
    rfl
  · exact ⟨_, execLinkRetrain_eq hu (if_neg (by rw [hidle]; exact Bool.false_ne_true)), s.port_insert .., rfl⟩
  · exact ⟨_, execLinkRetrain_eq hu (if_pos htrain), s.port_insert .., rfl⟩

end Sys2Proof.Machine

/-! # Chapter 22: packets of a queue that do not stand at their numbers

R338 numbers the packets of a queue in the order in which they are fetched. Several statements bound the packet that they speak of to its number and leave
the queue's other packets free. What follows the end of a packet notes the launches that have become dispatchable by their number, and so
writes over another packet where one stands at the number of another. -/

namespace Sys2Proof.Machine
-- one proof at a time: the memory of proofs in flight together is more than the check has
set_option Elab.async false
open Sys2Proof.Claim Sys2Proof.Tests

/-- A queue with a packet of number 0, and behind it packets of number 2 and 1 that have changed places; the last is a LAUNCH of which the queue holds
nothing back. -/
def strayQueue (p : Packet) : Queue :=
  { queue0 with fetched := 3, notify := 3, packets := [p, packet 2 .nop [] .fetched, { packet 1 .launch [] .windowed with spec := some spec0 }] }

/-- The numbers that the packets of queue 0 bear after an outcome. -/
def numbersAfter (o : Out) : Option (List Nat) :=
  match o with
  | .next t => (t.queue? 0).map (fun x => x.packets.map (·.seq))
  | _ => none

/-- A packet that alone takes a state leaves the numbers of its queue's packets as they are. -/
theorem PacketIs.numbers {t : State} {seq : Nat} {x : Queue} {p : Packet} {now : PacketState} (h : PacketIs t 0 seq x p now) :
    (t.queue? 0).map (fun x => x.packets.map (·.seq)) = some ((x.packets.set seq { p with state := now }).map (·.seq)) := by
  obtain ⟨x', hx', -, hpackets⟩ := h
  have hseq := congrArg (List.map Packet.seq) hpackets
  rw [List.map_map, List.map_map] at hseq
  rw [hx']
  exact congrArg some hseq

/-- So no outcome that moves a packet to another place is one of a packet that alone takes a state. -/
theorem not_packetIs {i : Instr} {s : State} {seq : Nat} {x : Queue} {p : Packet} {now : PacketState}
    (h : numbersAfter (exec i s) ≠ some ((x.packets.set seq { p with state := now }).map (·.seq))) {t : State} (ht : exec i s = .next t) :
    ¬ PacketIs t 0 seq x p now := by
  intro hp
  rw [ht] at h
  exact h (PacketIs.numbers hp)

theorem strayQueue_settled (s : State) (p : Packet) (hq : s.queues = [(0, strayQueue p)]) (hp : ∀ y ∈ (strayQueue p).packets, y.deps = []) : Settled s 0 where
  quiet := by
    intro e he y hy
    rw [hq, List.mem_singleton] at he
    subst he
    rw [State.struck, hp y hy, List.any_nil, Bool.and_false]
  kept := by
    intro e he
    rw [hq, List.mem_singleton] at he
    subst he
    rfl
  number := by decide

theorem strayQueue_undepended (s : State) (p : Packet) (hq : s.queues = [(0, strayQueue p)]) (hp : ∀ y ∈ (strayQueue p).packets, y.deps = []) : Undepended s 0 0 := by
  intro e he y hy
  rw [hq, List.mem_singleton] at he
  subst he
  rw [hp y hy]
  exact List.not_mem_nil

/-- The machine with such a queue. -/
def strayState (p : Packet) : State := queueState (strayQueue p)

theorem strayState_due (p : Packet) (kind : PacketKind) (hseq : p.seq = 0) (hkind : p.kind = kind) (hcore : ((strayState p).coreFor 0 0).isSome = true)
    (hp : ∀ y ∈ (strayQueue p).packets, y.deps = []) : Due (strayState p) 0 0 kind (strayQueue p) p where
  queue := rfl
  packet := rfl
  number := hseq
  kind := hkind
  turn := rfl
  core := hcore
  settled := strayQueue_settled _ p rfl hp

theorem numbersAfter_nop : numbersAfter (exec (.nop 0 0) (strayState (packet 0 .nop [] .fetched))) = some [0, 2, 2] := by decide

/-- Refutes O43: a NOP ends before a queue of which two packets have changed places; the launch at the end is noted by its number, which writes the packet
that stands there over it. -/
theorem not_orderingPackets : ¬ Obligations.OrderingPackets := by
  rintro ⟨hends, -⟩
  have hdue := strayState_due (packet 0 .nop [] .fetched) .nop rfl rfl (by decide) (by decide)
  obtain ⟨t, ht, hp, -⟩ := (hends 0 0 _ _ _).1 hdue rfl
  exact not_packetIs (by rw [numbersAfter_nop]; decide) ht hp

theorem numbersAfter_wsrel : numbersAfter (exec (.wsrel 0 0) (strayState (packet 0 .wsrel [] .fetched))) = some [0, 2, 2] := by decide

/-- Refutes O44: so does a WSREL that is refused. -/
theorem not_weightStoreAndGraphPackets : ¬ Obligations.WeightStoreAndGraphPackets := by
  rintro ⟨hweights, -⟩
  have hdue := strayState_due (packet 0 .wsrel [] .fetched) .wsrel rfl rfl (by decide) (by decide)
  obtain ⟨-, hrel⟩ := hweights 0 0 (strayState (packet 0 .wsrel [] .fetched)) (strayQueue (packet 0 .wsrel [] .fetched)) (packet 0 .wsrel [] .fetched) rfl (by decide)
  obtain ⟨t, ht, hp, -⟩ := (hrel hdue).2 (fun r hr => nomatch hr) (strayQueue_undepended _ _ rfl (by decide))
  exact not_packetIs (by rw [numbersAfter_wsrel]; decide) ht hp

/-- A launch of that queue's first packet whose strands have all retired. -/
def strayLaunch : Launch := { launch0 with words := [{ ordinal := 0, status := 0, cause := 0, flags := 0 }] }

def strayLaunchState : State := { strayState (packet 0 .launch [] .started) with strands := [], launches := [(0, strayLaunch)] }

theorem numbersAfter_launchComplete : numbersAfter (exec (.launchComplete 0) strayLaunchState) = some [0, 2, 2] := by decide

/-- Refutes O47: so does the end of a launch. -/
theorem not_launchCompletes : ¬ Obligations.LaunchCompletes := by
  intro h
  obtain ⟨-, -, hend⟩ := h 0 strayLaunchState strayLaunch rfl
  obtain ⟨t, ht, -, hp⟩ := hend (strayQueue (packet 0 .launch [] .started)) (packet 0 .launch [] .started) (by decide) (by decide) rfl rfl rfl rfl rfl rfl
    (strayQueue_settled _ _ rfl (by decide)) (strayQueue_undepended _ _ rfl (by decide))
  exact not_packetIs (by rw [numbersAfter_launchComplete]; decide) ht hp

/-- That queue's first packet, a LAUNCH that the dispatcher is to refuse. -/
def strayRefused : Packet := { packet 0 .launch (bytesOf 128 [(0, 1, 1)]) .decided with spec := some spec0, refusal := some 3 }

def strayDispatch : State := { strayState strayRefused with strands := [] }

theorem numbersAfter_dispatch : numbersAfter (exec (.dispatch 0 0 0 []) strayDispatch) = some [0, 2, 2] := by decide

theorem strayDispatch_takes : ∃ p, Takes strayDispatch 0 0 0 [] p spec0 ∧ strayDispatch.reasons p ≠ [] :=
  ⟨_, { plan := rfl, alone := rfl, fresh := rfl, group := rfl, task := rfl, sib := rfl, runs := by decide, due := by decide }, by decide⟩

/-- Refutes O46: so does a dispatch that refuses a packet. -/
theorem not_dispatchPlacesStrands : ¬ Obligations.DispatchPlacesStrands := by
  rintro ⟨hplaces, -⟩
  obtain ⟨p, htakes, hreasons⟩ := strayDispatch_takes
  obtain ⟨t, ht, hp, -⟩ := (hplaces 0 0 0 [] strayDispatch p spec0 htakes rfl).1 (strayQueue strayRefused) strayRefused hreasons rfl rfl rfl
    (strayQueue_settled _ _ rfl (by decide)) (strayQueue_undepended _ _ rfl (by decide))
  exact not_packetIs (by rw [numbersAfter_dispatch]; decide) ht hp

end Sys2Proof.Machine

/-! # Chapter 22: launches on their way to the dispatcher, R274, R346, R348 -/

namespace Sys2Proof.Machine
-- one proof at a time: the memory of proofs in flight together is more than the check has
set_option Elab.async false
open Sys2Proof.Claim

theorem State.queue?_of_sansMemory {s t : State} (h : t.sansMemory = s.sansMemory) (q : Nat) : t.queue? q = s.queue? q :=
  (congrArg (fun u : State => lookup u.queues q) h :)

@[simp] theorem State.sansMemory_fwSeen (s : State) (part asid va n : Nat) : (s.fwSeen part asid va n).sansMemory = s.sansMemory := by
  refine (State.sansMemory_foldl _ (fun t i => ?_) _ _).trans (s.sansMemory_fwMark asid va n .load)
  dsimp only
  split
  · exact t.sansMemory_hostReadFor ..
  · rfl

@[simp] theorem State.sansMemory_specSeen (s : State) (x : Queue) (bs : List Byte) : (s.specSeen x bs).sansMemory = s.sansMemory := by
  have h := (State.sansMemory_fwSeen _ x.part x.asid (fieldLE (s.fwRead x.asid (fieldLE bs 16 8) 64) 16 8) 1216).trans
    (State.sansMemory_fwSeen s x.part x.asid (fieldLE bs 16 8) 64)
  unfold State.specSeen
  dsimp only
  split
  · exact h
  · exact (State.sansMemory_fwSeen ..).trans h

theorem State.updPacket_of {s : State} {q seq : Nat} {x : Queue} {p : Packet} (hq : s.queue? q = some x) (hp : x.packets[seq]? = some p)
    (f : Packet → Packet) : s.updPacket q seq f = s.setQueue q (x.setPacket (f p)) := by
  rw [State.updPacket, hq]
  dsimp only
  rw [hp]

theorem State.updPacket_dev (s : State) (q seq : Nat) (f : Packet → Packet) : (s.updPacket q seq f).dev = s.dev := by
  unfold State.updPacket
  split
  · rfl
  · split
    · rfl
    · rfl

/-- A packet updated in its place is what alone differs in its queue. -/
theorem State.updPacket_queue {s : State} {q seq : Nat} {x : Queue} {p : Packet} (hq : s.queue? q = some x) (hp : x.packets[seq]? = some p)
    {f : Packet → Packet} (hf : (f p).seq = seq) : (s.updPacket q seq f).queue? q = some { x with packets := x.packets.set seq (f p) } := by
  rw [State.updPacket_of hq hp, State.queue?, State.setQueue, lookup_insertKey_self, Queue.setPacket, hf]

theorem packetIs_set {t : State} {q seq : Nat} {x : Queue} {p : Packet} {now : PacketState}
    (h : t.queue? q = some { x with packets := x.packets.set seq { p with state := now } }) : PacketIs t q seq x p now := ⟨_, h, rfl, rfl⟩

/-- The first packet of the windows that has a number of a queue is the one packet that has. -/
theorem State.windowed_of {s : State} {q seq : Nat} {p : Packet} (hp : p.seq = seq) (hin : ∃ e ∈ s.queues, (q, p) ∈ s.window e.1)
    (honly : ∀ e ∈ s.queues, ∀ y, (q, y) ∈ s.window e.1 → y.seq = seq → y = p) :
    (s.queues.findSome? (fun e => (s.window e.1).find? (fun m => m.1 == q && m.2.seq == seq))).map (·.2) = some p := by
  obtain ⟨e, he, hm⟩ := hin
  have hsome : (s.queues.findSome? (fun e => (s.window e.1).find? (fun m => m.1 == q && m.2.seq == seq))).isSome = true := by
    rw [List.findSome?_isSome_iff]
    refine ⟨e, he, List.find?_isSome.2 ⟨(q, p), hm, ?_⟩⟩
    rw [hp, beq_self_eq_true, beq_self_eq_true]
    rfl
  obtain ⟨m, hfound⟩ := Option.isSome_iff_exists.1 hsome
  obtain ⟨e', he', hfind⟩ := List.exists_of_findSome?_eq_some hfound
  have hmatch := List.find?_some hfind
  rw [Bool.and_eq_true, beq_iff_eq, beq_iff_eq] at hmatch
  obtain ⟨hq, hseq⟩ := hmatch
  have hmem : (q, m.2) ∈ s.window e'.1 := by
    rw [← hq]
    exact List.mem_of_find?_eq_some hfind
  rw [hfound]
  exact congrArg some (honly e' he' m.2 hmem hseq)

/-- R346: what LAUNCH comes to. -/
theorem execLaunch_enters {s : State} {q seq core : Nat} {x : Queue} {p : Packet} (hq : s.queue? q = some x) (hlive : x.destroyed = none)
    (hcore : s.coreFor q x.part = some core)
    (hfound : (s.queues.findSome? (fun e => (s.window e.1).find? (fun m => m.1 == q && m.2.seq == seq))).map (·.2) = some p) (hstate : p.state = .fetched) :
    exec (.launch q seq) s = .next ((((s.specSeen x p.bytes).logState core q seq [0, q, seq, 1]).updPacket q seq (fun o =>
      { o with state := .windowed, spec := some (s.readSpec x p.prio p.bytes).1, refusal := (s.readSpec x p.prio p.bytes).2 })).beat core) := by
  change execLaunch q seq s = _
  rw [execLaunch, hq]
  dsimp only
  rw [hfound, hcore]
  refine State.when_true ?_
  rw [hstate, hlive]
  rfl

/-- R346, R348: what SIBLAUNCH comes to. -/
theorem execSiblaunch_decided {s : State} {q seq core : Nat} {x : Queue} {p : Packet} (hq : s.queue? q = some x) (hp : x.packets[seq]? = some p)
    (hlive : x.destroyed = none) (hcore : s.coreFor q x.part = some core) (hkind : p.kind = .siblaunch) (hstate : p.state = .fetched) :
    exec (.siblaunch q seq) s =
      .next (((s.logState core q seq [0, q, seq, 3]).updPacket q seq (fun p => { p with state := .decided })).beat core) := by
  change execSiblaunch q seq s = _
  rw [execSiblaunch, hq]
  dsimp only
  rw [hp, hcore]
  refine State.when_true ?_
  rw [hkind, hstate, hlive]
  rfl

/-- R274: a launch that is not spliceable, at its turn, is decided on alone. -/
theorem spliceChoice_alone {s : State} {q seq at_ : Nat} {present : List (Nat × Nat)} {x : Queue} {p : Packet} (hq : s.queue? q = some x)
    (hp : x.packets[seq]? = some p) (hready : p.ready = some (at_, present)) (hstate : p.state = .windowed) (hdue : x.due seq [] = true)
    (hdeps : s.depsMet x p [] = true) (hfirst : s.firstReady x.part at_ = true)
    (hread : ∀ m ∈ s.window q, (m.1, m.2.seq) ∈ present → m.2.state ≠ .fetched) (halone : p.spliceSpec = none) : s.spliceChoice q seq = some (x, none) := by
  have hfetched : ((s.window q).filter (fun m => present.contains (m.1, m.2.seq))).any (fun m => m.2.state == .fetched) = false := by
    refine List.any_eq_false.2 fun m hm => ?_
    obtain ⟨hin, hpresent⟩ := List.mem_filter.1 hm
    rw [beq_iff_eq]
    exact hread m hin (List.contains_iff_mem.1 hpresent)
  rw [State.spliceChoice, hq]
  dsimp only
  rw [hp]
  change (match p.ready.map (fun r => (p, r)) with | none => none | some (p, at_, present) => _) = _
  rw [hready]
  refine (if_neg ?_).trans ?_
  · rw [hstate, hdue, hdeps, hfirst, hfetched]
    decide
  · rw [halone]
    rfl

/-- R274, R348: nor is one decided on that is not dispatchable. -/
theorem spliceChoice_none {s : State} {q seq : Nat} {x : Queue} {p : Packet} (hq : s.queue? q = some x) (hp : x.packets[seq]? = some p)
    (h : p.ready = none ∨ x.due seq [] = false ∨ s.depsMet x p [] = false) : s.spliceChoice q seq = none := by
  rw [State.spliceChoice, hq]
  dsimp only
  rw [hp]
  change (match p.ready.map (fun r => (p, r)) with | none => none | some (p, at_, present) => _) = _
  cases hr : p.ready with
  | none => rfl
  | some r =>
    refine if_pos (.inr ?_)
    rcases h with hnone | hdue | hdeps
    · exact absurd (hr.symm.trans hnone) nofun
    · rw [hdue]
      exact .inl rfl
    · rw [hdeps]
      exact .inr (.inl rfl)

/-- Settles O45: each packet alone takes the state that the row gives it. -/
theorem launchesEnterTheWindow : Obligations.LaunchesEnterTheWindow := by
  intro q seq s x p hq hp hseq hlive
  refine ⟨fun hcore hkind hstate hin honly => ?_, fun hcore hkind hstate => ?_, fun at_ present hready hstate hdue hdeps hfirst hread halone => ?_, fun h => ?_⟩
  · obtain ⟨core, hcore⟩ := Option.isSome_iff_exists.1 hcore
    have hq' : ((s.specSeen x p.bytes).logState core q seq [0, q, seq, 1]).queue? q = some x :=
      (State.queue?_of_sansMemory (s.sansMemory_specSeen x p.bytes) q).trans hq
    refine ⟨_, execLaunch_enters hq hlive hcore (State.windowed_of hseq hin honly) hstate, ?_, State.updPacket_queue hq' hp hseq⟩
    exact State.updPacket_dev ((s.specSeen x p.bytes).logState core q seq [0, q, seq, 1]) ..
  · obtain ⟨core, hcore⟩ := Option.isSome_iff_exists.1 hcore
    refine ⟨_, execSiblaunch_decided hq hp hlive hcore hkind hstate, packetIs_set ?_, ?_⟩
    · exact State.updPacket_queue (s := s.logState core q seq [0, q, seq, 3]) hq hp hseq
    · exact State.updPacket_dev (s.logState core q seq [0, q, seq, 3]) ..
  · have hchoice := spliceChoice_alone hq hp hready hstate hdue hdeps hfirst hread halone
    refine ⟨(s.logState (s.writingCore x.part) q seq [0, q, seq, 3]).updPacket q seq (fun p => { p with state := .decided }), ?_, packetIs_set ?_, ?_⟩
    · change execSpliceDecision q seq s = _
      rw [execSpliceDecision, hchoice]
    · exact State.updPacket_queue (s := s.logState (s.writingCore x.part) q seq [0, q, seq, 3]) hq hp hseq
    · exact State.updPacket_dev (s.logState (s.writingCore x.part) q seq [0, q, seq, 3]) ..
  · change execSpliceDecision q seq s = _
    rw [execSpliceDecision, spliceChoice_none hq hp h]

end Sys2Proof.Machine

/-! # Chapter 22: a fetch, R338, where the list of queues has a number twice -/

namespace Sys2Proof.Machine
-- one proof at a time: the memory of proofs in flight together is more than the check has
set_option Elab.async false
open Sys2Proof.Claim Sys2Proof.Tests

/-- A queue with one packet to be fetched, behind a packet of splice group 5 and a LAUNCH that has faulted, on which the packet will depend; it halts where a
dependence fails. -/
def fetching : Queue :=
  { queue0 with
    ring := 0x5000, version := 1, policy := 2, notify := 1
    packets := [{ packet 0 .nop [] .fetched with group := some 5 }, packet 1 .launch (bytesOf 64 [(0, 1, 1)]) (.ended 2)] }

/-- A second entry of the same number, of which a packet depends on one of the splice group. -/
def shadowing : Queue := { queue0 with policy := 2, fetched := 7, packets := [{ packet 0 .nop [] .fetched with deps := [(1, 0)] }] }

/-- The queue of the splice group's member, which has faulted. -/
def faultedQueue : Queue := { queue0 with packets := [packet 0 .launch [] (.ended 2)] }

/-- The machine with those, a fetch event, and in the ring a LAUNCH that names no packet. -/
def fetchedTwice : State :=
  { mapped (queueState fetching) with
    queues := [(0, fetching), (0, shadowing), (1, faultedQueue)]
    inlet := [.fetch 0]
    groups := [(5, { members := [(1, 0)], vclusters := 1, spliceBytes := 0, shares := [], pairs := [], runs := [], ended := [] })]
    host := { cells := (0x35000, 1) :: (List.range 8).map (fun i => (0x35020 + i, 0xFF)) } }

/-- The number of packets fetched of queue 0 after an outcome. -/
def fetchedAfter (o : Out) : Option Nat :=
  match o with
  | .next t => (t.queue? 0).map (·.fetched)
  | _ => none

theorem fetchedAfter_fetchedTwice : fetchedAfter (exec .queueFetch fetchedTwice) = some 7 := by decide +kernel

theorem fetchedTwice_settled : Settled fetchedTwice 0 where
  quiet := by decide
  kept := by decide
  number := by decide

/-- Refutes O42: the packet fetched halts its queue, whose splice group is given up with it; that strikes a packet of the second entry, which is
halted under the number of the first and takes its place. -/
theorem not_queueFetch : ¬ Obligations.QueueFetch := by
  rintro ⟨-, hfetch⟩
  obtain ⟨-, -, hall⟩ := hfetch fetchedTwice 0 fetching [] rfl rfl rfl rfl (by decide) (by decide)
  obtain ⟨t, x', ht, -, hx', hfetched, -⟩ := hall (by decide) fetchedTwice_settled (by decide) (by decide)
  have hseven := fetchedAfter_fetchedTwice
  rw [ht] at hseven
  obtain ⟨y, hy, hy7⟩ := Option.map_eq_some_iff.1 hseven
  rw [hx', Option.some.injEq] at hy
  rw [← hy, hfetched] at hy7
  exact absurd hy7 (by decide)

end Sys2Proof.Machine

/-! # Chapter 21: the translations that walks fill, R326 to R332 -/

namespace Sys2Proof.Machine
-- one proof at a time: the memory of proofs in flight together is more than the check has
set_option Elab.async false
open Sys2Proof.Claim

/-! ### Tables of numbered entries -/

theorem length_eraseKey {α : Type} {l : List (Nat × α)} {k : Nat} {v : α} (h : lookup l k = some v) : (eraseKey l k).length + 1 = l.length := by
  induction l with
  | nil => exact absurd h nofun
  | cons p rest ih =>
    obtain ⟨j, u⟩ := p
    rw [eraseKey]
    split
    · rfl
    · next hj =>
      rw [lookup, if_neg hj] at h
      exact congrArg Nat.succ (ih h)

theorem dropped_eraseKey {α : Type} {l : List (Nat × α)} {k : Nat} {v : α} (h : lookup l k = some v) : Dropped l (eraseKey l k) k :=
  ⟨length_eraseKey h, fun _ hj => lookup_eraseKey_ne _ hj⟩

/-! ### What stays in a TLB that is filled (R328) -/

theorem mem_dropNth {α : Type} {mine : α → Bool} {x : α} (hx : mine x = false) (l : List α) : ∀ n, x ∈ l → x ∈ dropNth mine n l := by
  induction l with
  | nil => exact fun _ h => h
  | cons y rest ih =>
    intro n h
    rw [dropNth.eq_def]
    dsimp only
    by_cases hy : mine y = true
    · have hrest : x ∈ rest := by
        rcases List.mem_cons.1 h with rfl | h'
        · exact absurd (hx.symm.trans hy) Bool.false_ne_true
        · exact h'
      rw [if_pos hy]
      split
      · exact hrest
      · exact List.mem_cons_of_mem y (ih _ hrest)
    · rw [if_neg hy]
      rcases List.mem_cons.1 h with rfl | h'
      · exact List.mem_cons_self
      · exact List.mem_cons_of_mem y (ih n h')

theorem mem_evictFor {α : Type} {capacity : Nat} {mine : α → Bool} {x : α} (hx : mine x = false) (n : Nat) :
    ∀ (draws : Nat) (l : List α), x ∈ l → x ∈ evictFor capacity mine n draws l := by
  induction n with
  | zero => exact fun _ _ h => h
  | succ n ih =>
    intro draws l h
    refine ih (draws + 1) _ ?_
    split
    · exact h
    · exact mem_dropNth hx l _ h

theorem mem_displace {α : Type} {mine : α → Bool} {x : α} (hx : mine x = false) (draws : Nat) {l : List α} (h : x ∈ l) : x ∈ displace draws mine l := by
  obtain ⟨i, hi, rfl⟩ := List.mem_iff_getElem.1 h
  refine List.mem_filterMap.2 ⟨(i, l[i]), ?_, ?_⟩
  · rw [List.mem_iff_getElem]
    refine ⟨i, by simpa using hi, ?_⟩
    rw [List.getElem_zip, List.getElem_range]
  · rw [hx]
    rfl

/-- An entry that shares no structure with the one filled stays. -/
theorem State.mem_fill {s : State} {e x : TlbEntry} (hx : e.rival x = false) (h : x ∈ s.tlb) : x ∈ (s.fill e).tlb := by
  have hother : (!(x.cluster == e.cluster && x.quad == e.quad && x.asid == e.asid && x.va == e.va && x.size == e.size)) = true := by
    rw [TlbEntry.rival, Bool.and_eq_false_iff] at hx
    rcases hx with hx | hx
    · rw [hx]
      rfl
    · obtain ⟨-, hbank⟩ := Bool.or_eq_false_iff.1 hx
      have hpage : (x.va == e.va && x.size == e.size) = false := by
        by_contra hc
        obtain ⟨hva, hsize⟩ := (Bool.and_eq_true _ _).mp (Bool.not_eq_false _ |>.mp hc)
        rw [beq_iff_eq.1 hva, beq_iff_eq.1 hsize, beq_self_eq_true] at hbank
        exact absurd hbank Bool.noConfusion
      rw [Bool.and_assoc, hpage, Bool.and_false]
      rfl
  have hin : x ∈ s.tlb.filter (fun x =>
      !(x.cluster == e.cluster && x.quad == e.quad && x.asid == e.asid && x.va == e.va && x.size == e.size)) := List.mem_filter.2 ⟨h, hother⟩
  refine List.mem_cons_of_mem e (mem_evictFor hx _ _ _ ?_)
  split
  · exact mem_displace hx _ hin
  · exact hin

theorem State.fill_self (s : State) (e : TlbEntry) : e ∈ (s.fill e).tlb := List.mem_cons_self

/-- Fills of the L2 TLBs of several quads leave the entry of each. -/
theorem State.mem_fillQuads {e : TlbEntry} {quad : Nat} (l : List Nat) : ∀ s : State, ({ e with quad := quad } ∈ s.tlb ∨ quad ∈ l) →
    { e with quad := quad } ∈ (l.foldl (fun (s : State) (q : Nat) => s.fill { e with quad := q }) s).tlb := by
  induction l with
  | nil => exact fun s h => h.resolve_right List.not_mem_nil
  | cons q rest ih =>
    intro s h
    refine ih _ ?_
    by_cases hq : q = quad
    · subst hq
      exact .inl (s.fill_self _)
    · rcases h with h | h
      · refine .inl (State.mem_fill ?_ h)
        rw [TlbEntry.rival, beq_eq_false_iff_ne.2 (Ne.symm hq), Bool.and_false, Bool.false_and]
      · exact .inr ((List.mem_cons.1 h).resolve_left (Ne.symm hq))

/-- Fills of L1 TLBs leave what L2 TLBs hold. -/
theorem State.mem_fillClusters {e x : TlbEntry} (hx : x.cluster = none) (l : List Nat) : ∀ s : State, x ∈ s.tlb →
    x ∈ (l.foldl (fun (s : State) (k : Nat) => s.fill { e with quad := quadOf k, cluster := some k }) s).tlb := by
  induction l with
  | nil => exact fun s h => h
  | cons k rest ih =>
    refine fun s h => ih _ (State.mem_fill ?_ h)
    rw [TlbEntry.rival, hx]
    rfl

theorem State.mem_fillAll {s : State} {w : Walk} {e : TlbEntry} (hq : e.quad = w.quad) (hc : e.cluster = none) : e ∈ (s.fillAll w e).tlb := by
  refine State.mem_fillClusters hc _ _ ?_
  have h := State.mem_fillQuads (e := e) (quad := w.quad) (w.quad :: ((((w.who ++ w.also).filterMap s.requesterCluster).eraseDups).map quadOf)).eraseDups s
    (.inr (List.mem_eraseDups.2 List.mem_cons_self))
  rwa [show ({ e with quad := w.quad } : TlbEntry) = e by rw [← hq]] at h

/-! ### What a fill changes -/

theorem State.foldl_fill_frame (f : Nat → TlbEntry) (l : List Nat) : ∀ s : State, ∃ tlb n,
    l.foldl (fun (s : State) (q : Nat) => s.fill (f q)) s = { s with tlb := tlb, draws := n } := by
  induction l with
  | nil => exact fun s => ⟨s.tlb, s.draws, rfl⟩
  | cons q rest ih =>
    intro s
    obtain ⟨l1, n1, h1⟩ := s.fill_frame (f q)
    obtain ⟨l2, n2, h2⟩ := ih { s with tlb := l1, draws := n1 }
    refine ⟨l2, n2, ?_⟩
    rw [List.foldl_cons, h1, h2]

theorem State.fillAll_frame (s : State) (w : Walk) (e : TlbEntry) : ∃ tlb n, s.fillAll w e = { s with tlb := tlb, draws := n } := by
  unfold State.fillAll
  dsimp only
  generalize ((w.who ++ w.also).filterMap s.requesterCluster).eraseDups = ks
  obtain ⟨l1, n1, h1⟩ := State.foldl_fill_frame (fun q => { e with quad := q }) (w.quad :: ks.map quadOf).eraseDups s
  obtain ⟨l2, n2, h2⟩ := State.foldl_fill_frame (fun k => { e with quad := quadOf k, cluster := some k }) ks { s with tlb := l1, draws := n1 }
  refine ⟨l2, n2, ?_⟩
  rw [h1, h2]

theorem State.fillPath_frame (s : State) (w : Walk) : ∃ cache n, s.fillPath w = { s with walkCache := cache, draws := n } :=
  ⟨(s.fillPath w).walkCache, (s.fillPath w).draws, rfl⟩

/-- A translation filled at a walk's end: the TLBs and the walk cache take it, and the walk is gone. -/
theorem State.fillEnds_frame (s : State) (k : Nat) (w : Walk) (e : TlbEntry) : ∃ tlb cache n,
    ((s.fillPath w).fillAll w e).dropWalk k = { s with tlb := tlb, walkCache := cache, draws := n, walks := eraseKey s.walks k } := by
  obtain ⟨cache, n1, h1⟩ := s.fillPath_frame w
  obtain ⟨tlb, n2, h2⟩ := State.fillAll_frame { s with walkCache := cache, draws := n1 } w e
  refine ⟨tlb, cache, n2, ?_⟩
  rw [h1, h2]
  rfl

/-! ### The marks of a leaf (R332) -/

theorem State.setAD_frame (s : State) (a : Nat) (intent : Intent) : ∃ dev sh cl,
    s.setAD a intent = { s with dev := dev, shadows := sh, clusters := cl } := by
  unfold State.setAD
  dsimp only
  split
  · exact ⟨s.dev, s.shadows, s.clusters, rfl⟩
  · obtain ⟨sh, cl, h⟩ := s.putBytes_dev_frame Config.clusters a (leBytes 8 (withAD (BitVec.ofNat 64 (s.dev.readLE a 8)) intent).toNat)
    exact ⟨_, sh, cl, h⟩

theorem State.foldl_setAD_frame (intent : Intent) (l : List Nat) : ∀ s : State, ∃ dev sh cl,
    l.foldl (fun (s : State) a => s.setAD a intent) s = { s with dev := dev, shadows := sh, clusters := cl } := by
  induction l with
  | nil => exact fun s => ⟨s.dev, s.shadows, s.clusters, rfl⟩
  | cons a rest ih =>
    intro s
    obtain ⟨d1, sh1, cl1, h1⟩ := s.setAD_frame a intent
    obtain ⟨d2, sh2, cl2, h2⟩ := ih { s with dev := d1, shadows := sh1, clusters := cl1 }
    refine ⟨d2, sh2, cl2, ?_⟩
    rw [List.foldl_cons, h1, h2]

theorem withAD_eq_marked (e : Word) (intent : Intent) : withAD e intent = marked e intent := by
  cases intent <;> rfl

theorem leBytes_leNat (bs : List Byte) : leBytes bs.length (leNat bs) = bs := by
  induction bs with
  | nil => rfl
  | cons b rest ih =>
    have hb := b.isLt
    have hhead : BitVec.ofNat 8 (b.toNat + 256 * leNat rest) = b := by
      apply BitVec.eq_of_toNat_eq
      rw [BitVec.toNat_ofNat]
      omega
    have htail : (b.toNat + 256 * leNat rest) / 256 = leNat rest := by omega
    rw [List.length_cons, leNat, leBytes, hhead, htail, ih]

theorem leBytes_readLE (m : Memory) (a : Nat) : leBytes 8 (BitVec.ofNat 64 (m.readLE a 8) : Word).toNat = m.readBytes a 8 := by
  have hlen : (m.readBytes a 8).length = 8 := by rw [Memory.readBytes, List.length_map, List.length_range]
  have hlt := leNat_lt (m.readBytes a 8)
  rw [hlen] at hlt
  have h := leBytes_leNat (m.readBytes a 8)
  rw [hlen] at h
  rw [BitVec.toNat_ofNat, Memory.readLE, Nat.mod_eq_of_lt (show _ < 2 ^ 64 from hlt), h]

/-- The entry holds its bits then, and no other byte of device memory changes. -/
theorem State.setAD_dev {s : State} (hwf : s.dev.wf = true) (a : Nat) (intent : Intent) :
    (∀ i < 8, (s.setAD a intent).dev.read (a + i) = (marked (BitVec.ofNat 64 (s.dev.readLE a 8)) intent).extractLsb' (8 * i) 8) ∧
    (∀ b, b < a ∨ a + 8 ≤ b → (s.setAD a intent).dev.read b = s.dev.read b) := by
  have hlen (x : Word) : (leBytes 8 x.toNat).length = 8 := leBytes_length ..
  rw [← withAD_eq_marked]
  unfold State.setAD
  dsimp only
  split
  · next heq =>
    refine ⟨fun i hi => ?_, fun b _ => rfl⟩
    rw [heq, ← leBytes_toNat 8 _ i (by rwa [hlen])]
    simp only [leBytes_readLE, Memory.readBytes, List.getElem_map, List.getElem_range]
  · obtain ⟨sh, cl, h⟩ := s.putBytes_dev_frame Config.clusters a (leBytes 8 (withAD (BitVec.ofNat 64 (s.dev.readLE a 8)) intent).toNat)
    rw [h]
    refine ⟨fun i hi => ?_, fun b hb => Memory.read_writeBytes_ne _ _ _ _ (by rwa [hlen])⟩
    exact (Memory.read_writeBytes _ _ _ _ hwf (by rwa [hlen])).trans (leBytes_toNat ..)

end Sys2Proof.Machine

/-! # Chapter 21: what a page walk comes to, R326 to R332 -/

namespace Sys2Proof.Machine
-- one proof at a time: the memory of proofs in flight together is more than the check has
set_option Elab.async false
open Sys2Proof.Claim

/-- What a walk that has a walker comes to, by the end of its table walk. -/
def State.walkOutcome (s : State) (k : Nat) (w : Walk) : WalkEnd → State
  | .protection => s.walkFaults k w .protection
  | .notPresent => s.askPage k w
  | .leaf l =>
    if !l.permits w.intent w.priv then s.walkDenied k w
    else if pteTier l.entry = 1 ∧ !takesAts s w.asid then s.walkFaults k w .protection
    else if w.stale then { s with walks := insertKey s.walks k { w with stale := false, startSeq := s.tlbseq.toNat } }
    else if pteTier l.entry = 1 then { s with walks := insertKey s.walks k { w with ats := true } }
    else s.fillLeaf k w l

theorem execPageWalkFill_eq {s : State} {k : Nat} {w : Walk} (h : lookup s.walks k = some w) :
    exec (.pageWalkFill k) s = s.when (!w.ats && s.hasWalker k w) (s.walkOutcome k w (s.walkTable (dieOf (4 * w.quad)) w.asid w.root w.va)) := by
  change execPageWalkFill k s = _
  rw [execPageWalkFill, h]
  rfl

/-- Two states differ in neither host memory nor strands. -/
def SameHostAndStrands (s t : State) : Prop := t.host = s.host ∧ t.strands = s.strands

theorem State.requestPage_frame (s : State) (w : Walk) (who : List Requester) : ∃ reqs, s.requestPage w who = { s with pageReqs := reqs } := by
  unfold State.requestPage
  split
  · exact ⟨_, rfl⟩
  · exact ⟨_, rfl⟩

theorem State.askPage_same (s : State) (k : Nat) (w : Walk) : SameHostAndStrands s (s.askPage k w) := by
  unfold State.askPage
  split
  · dsimp only
    split
    · exact ⟨rfl, rfl⟩
    · obtain ⟨reqs, h⟩ := State.requestPage_frame ((s.dropWalk k).faultFor ((w.who ++ w.also).filter Requester.isProbe) (pageOf w.va) (intentCause w.intent)) w
        ((w.who ++ w.also).filter (fun r => !r.isProbe))
      rw [h]
      exact ⟨rfl, rfl⟩
  · exact ⟨rfl, rfl⟩

/-- What a leaf that needs no host comes to. -/
theorem State.fillLeaf_frame (s : State) (k : Nat) (w : Walk) (l : Leaf) : ∃ tlb cache n,
    s.fillLeaf k w l = { s.markLeaf l w.intent with tlb := tlb, walkCache := cache, draws := n, walks := eraseKey (s.markLeaf l w.intent).walks k } := by
  unfold State.fillLeaf
  exact State.fillEnds_frame ..

theorem State.fillLeaf_same (s : State) (k : Nat) (w : Walk) (l : Leaf) : SameHostAndStrands s (s.fillLeaf k w l) := by
  obtain ⟨tlb, cache, n, h⟩ := s.fillLeaf_frame k w l
  obtain ⟨dev, sh, cl, hm⟩ : ∃ dev sh cl, s.markLeaf l w.intent = { s with dev := dev, shadows := sh, clusters := cl } := s.foldl_setAD_frame ..
  rw [h, hm]
  exact ⟨rfl, rfl⟩

theorem State.walkOutcome_same (s : State) (k : Nat) (w : Walk) (r : WalkEnd) : SameHostAndStrands s (s.walkOutcome k w r) := by
  cases r with
  | protection => exact ⟨rfl, rfl⟩
  | notPresent => exact s.askPage_same k w
  | leaf l =>
    have hfill := s.fillLeaf_same k w l
    rw [State.walkOutcome]
    split
    · exact ⟨rfl, rfl⟩
    split
    · exact ⟨rfl, rfl⟩
    split
    · exact ⟨rfl, rfl⟩
    split
    · exact ⟨rfl, rfl⟩
    · exact hfill

/-! ### Page requests -/

theorem mem_joined {who x : Requester} {ws : List Requester} (h : x = who ∨ x ∈ ws) : x ∈ joined who ws := by
  unfold joined
  split
  · exact h.elim (fun hx => hx ▸ List.contains_iff_mem.1 ‹_›) id
  · exact List.mem_cons.2 h

theorem mem_foldr_joined {who : List Requester} {ws : List Requester} {x : Requester} (h : x ∈ who) : x ∈ who.foldr joined ws := by
  induction who with
  | nil => exact absurd h List.not_mem_nil
  | cons y rest ih => exact mem_joined ((List.mem_cons.1 h).imp id ih)

theorem State.pageReqFor_some {s : State} {asid page n : Nat} {r : PageReq} (h : s.pageReqFor asid page = some (n, r)) :
    (n, r) ∈ s.pageReqs ∧ r.asid = asid ∧ r.va = page := by
  have hp := List.find?_some h
  rw [Bool.and_eq_true, Bool.and_eq_true, beq_iff_eq, beq_iff_eq] at hp
  exact ⟨List.mem_of_find?_eq_some h, hp.1.1, hp.1.2⟩

/-- R331: those who wait are among those of a request for the page, a new one where none is outstanding. -/
theorem State.requestPage_asks (s : State) (w : Walk) (who : List Requester) : ∃ n q, lookup (s.requestPage w who).pageReqs n = some q ∧
    q.asid = w.asid ∧ q.va = pageOf w.va ∧ (∀ x ∈ who, x ∈ q.who) ∧
    (∀ space, (∀ e ∈ s.pageReqs, e.2.asid = w.asid → e.2.va ≠ pageOf w.va) → lookup s.spaces w.asid = some space →
      q.pasid = space.pasid ∧ q.func = space.func ∧ q.last = true ∧ q.intent = w.intent ∧ q.since = s.now ∧ q.who = who) := by
  unfold State.requestPage
  split
  · next n r hr =>
    obtain ⟨hin, hasid, hva⟩ := State.pageReqFor_some hr
    refine ⟨n, _, lookup_insertKey_self .., hasid, hva, fun x hx => mem_foldr_joined hx, fun space hnone _ => ?_⟩
    exact absurd hva (hnone (n, r) hin hasid)
  · refine ⟨_, _, lookup_insertKey_self .., rfl, rfl, fun x hx => hx, fun space _ hspace => ?_⟩
    rw [hspace]
    exact ⟨rfl, rfl, rfl, rfl, rfl, rfl⟩

/-- Where no element of a VLDFF waits, everyone who waits asks. -/
theorem askers {all : List Requester} (h : ∀ slot, .probe slot ∉ all) : all.filter Requester.isProbe = [] ∧ all.filter (fun r => !r.isProbe) = all := by
  have hno (r : Requester) (hr : r ∈ all) : r.isProbe = false := by
    cases r with
    | probe slot => exact absurd hr (h slot)
    | context | lanes | matrix | stream | engine => rfl
  refine ⟨List.filter_eq_nil_iff.2 fun r hr => ?_, List.filter_eq_self.2 fun r hr => ?_⟩
  · rw [hno r hr]
    exact Bool.false_ne_true
  · rw [hno r hr]
    rfl

theorem State.askPage_asks {s : State} {k : Nat} {w : Walk} (hpri : takesPri s w.asid = true) (hall : w.who ++ w.also ≠ [])
    (hprobe : ∀ slot, .probe slot ∉ w.who ++ w.also) : s.askPage k w = (s.dropWalk k).requestPage w (w.who ++ w.also) := by
  obtain ⟨hp, hq⟩ := askers hprobe
  unfold State.askPage
  dsimp only
  rw [if_pos (show ((lookup s.spaces w.asid).map (·.pri)).getD false = true from hpri), hp, hq, if_neg fun h => hall (List.isEmpty_iff.1 h)]
  rfl

theorem intentCause_eq (i : Intent) : intentCause i = causeOf i := by cases i <;> rfl

theorem State.askPage_faults {s : State} {k : Nat} {w : Walk} (hpri : takesPri s w.asid = false) :
    s.askPage k w = s.walkFaults k w (causeOf w.intent) := by
  unfold State.askPage
  rw [← intentCause_eq]
  exact if_neg fun h => absurd (hpri.symm.trans h) Bool.false_ne_true

/-! ### Leaves of device memory -/

theorem State.markLeaf_small {s : State} {l : Leaf} (h : pteC64 l.entry = false) (intent : Intent) : s.markLeaf l intent = s.setAD l.addr intent := by
  have hwhole : s.blockWhole l = false := by
    unfold State.blockWhole
    dsimp only
    rw [h, Bool.and_false, Bool.false_and, Bool.false_and]
  rw [State.markLeaf, State.entriesOf, hwhole]
  rfl

/-- The TLB entry of a device leaf that maps no 64 KiB block. -/
structure DeviceEntry (w : Walk) (l : Leaf) (e : TlbEntry) : Prop where
  quad : e.quad = w.quad
  cluster : e.cluster = none
  asid : e.asid = w.asid
  size : e.size = leafBytes l.level
  va : e.va = w.va / leafBytes l.level * leafBytes l.level
  home : e.home = .device
  pa : e.pa + w.va % leafBytes l.level = ptePA l.entry + w.va % leafBytes l.level
  read : e.read = permRead (ptePerm l.entry)
  write : e.write = permWrite (ptePerm l.entry)
  execute : e.execute = permExec (ptePerm l.entry)
  user : e.user = pteU l.entry

theorem State.fillLeaf_entry {s : State} {k : Nat} {w : Walk} {l : Leaf} (ht : pteTier l.entry = 0) (hc : pteC64 l.entry = false) :
    ∃ e, e ∈ (s.fillLeaf k w l).tlb ∧ DeviceEntry w l e := by
  have hwhole : s.blockWhole l = false := by
    unfold State.blockWhole
    dsimp only
    rw [hc, Bool.and_false, Bool.false_and, Bool.false_and]
  have htarget : l.target w.va = (.device, ptePA l.entry + w.va % leafBytes l.level) := by
    unfold Leaf.target
    dsimp only
    rw [ht]
    rfl
  unfold State.fillLeaf
  dsimp only
  rw [hwhole, htarget]
  refine ⟨_, State.mem_fillAll rfl rfl, rfl, rfl, rfl, rfl, rfl, rfl, ?_, rfl, rfl, rfl, rfl⟩
  change ptePA l.entry + w.va % leafBytes l.level - w.va % leafBytes l.level + w.va % leafBytes l.level = _
  rw [Nat.add_sub_cancel]

/-- Settles O40: each end of a walk, by the branch of its outcome. -/
theorem walksEnd : Obligations.WalksEnd := by
  intro k s w hw
  have hexec := execPageWalkFill_eq hw
  refine ⟨?_, fun hidle => ?_, ?_⟩
  · rw [hexec, State.when]
    split
    · exact ⟨_, rfl, s.walkOutcome_same k w _⟩
    · exact ⟨s, rfl, rfl, rfl⟩
  · rw [hexec, State.when_false]
    rcases hidle with h | h
    · rw [h]
      rfl
    · rw [h, Bool.and_false]
  intro hats hwalker r page denied all
  have hgo : exec (.pageWalkFill k) s = .next (s.walkOutcome k w r) := by
    rw [hexec, State.when_true]
    rw [hats, hwalker]
    rfl
  have hdrop := dropped_eraseKey hw
  refine ⟨fun hr => ?_, fun hr hpri => ?_, fun hr hpri hall hprobe => ?_, fun l hr => ?_⟩
  · rw [hr] at hgo
    exact ⟨_, hgo, hdrop, rfl, rfl, rfl⟩
  · rw [hr] at hgo
    refine ⟨_, hgo, ?_⟩
    rw [State.walkOutcome, State.askPage_faults hpri]
    exact ⟨hdrop, rfl, rfl, rfl⟩
  · rw [hr, State.walkOutcome, State.askPage_asks hpri hall hprobe] at hgo
    obtain ⟨n, q, hq⟩ := (s.dropWalk k).requestPage_asks w (w.who ++ w.also)
    refine ⟨_, n, q, hgo, ?_⟩
    obtain ⟨reqs, hreqs⟩ := (s.dropWalk k).requestPage_frame w (w.who ++ w.also)
    rw [hreqs] at hq ⊢
    exact ⟨hdrop, rfl, rfl, hq⟩
  · rw [hr, State.walkOutcome] at hgo
    refine ⟨fun hperm => ?_, fun hperm htier hno => ?_, fun hperm hhost hstale => ?_, fun hperm htier hyes hstale => ?_, ?_⟩
    · rw [hperm, if_pos (show (!false) = true from rfl)] at hgo
      exact ⟨_, hgo, hdrop, rfl, rfl, rfl⟩
    · rw [hperm, if_neg (show ¬(!true) = true by decide), if_pos ⟨htier, by rw [hno]; rfl⟩] at hgo
      exact ⟨_, hgo, hdrop, rfl, rfl, rfl⟩
    · rw [hperm, if_neg (show ¬(!true) = true by decide), if_neg (fun h => by rw [hhost h.1] at h; exact absurd h.2 (by decide)), if_pos hstale] at hgo
      exact ⟨_, _, hgo, lookup_insertKey_self .., rfl, rfl, rfl⟩
    · rw [hperm, if_neg (show ¬(!true) = true by decide), if_neg (fun h => by rw [hyes] at h; exact absurd h.2 (by decide)), if_neg (by rw [hstale]; decide), if_pos htier] at hgo
      exact ⟨_, hgo, lookup_insertKey_self .., rfl, rfl⟩
    · intro hperm htier hc hstale hwf size
      have htier1 : pteTier l.entry ≠ 1 := by
        rw [htier]
        decide
      rw [hperm, if_neg (show ¬(!true) = true by decide), if_neg (fun h => htier1 h.1), if_neg (by rw [hstale]; decide), if_neg htier1] at hgo
      obtain ⟨e, he, hentry⟩ := State.fillLeaf_entry (s := s) (k := k) (w := w) htier hc
      obtain ⟨hset, hrest⟩ := State.setAD_dev (State.dev_wf hwf) l.addr w.intent
      obtain ⟨tlb, cache, n, hfill⟩ := s.fillLeaf_frame k w l
      obtain ⟨dev, sh, cl, hmark⟩ := s.setAD_frame l.addr w.intent
      rw [hmark] at hset hrest
      rw [State.markLeaf_small hc, hmark] at hfill
      refine ⟨_, e, hgo, ?_⟩
      rw [hfill] at he ⊢
      exact ⟨hdrop, rfl, he, hentry.quad, hentry.cluster, hentry.asid, hentry.size, hentry.va, hentry.home, hentry.pa, hentry.read, hentry.write,
        hentry.execute, hentry.user, hset, hrest⟩

end Sys2Proof.Machine

/-! # Chapter 21: what the host answers, R330 and R331 -/

namespace Sys2Proof.Machine
-- one proof at a time: the memory of proofs in flight together is more than the check has
set_option Elab.async false
open Sys2Proof.Claim

/-! ### ATS completions -/

theorem grantedLog_le {log2 : Nat} (h : 12 ≤ log2) : grantedLog log2 ≤ log2 := by
  unfold grantedLog
  split
  · assumption
  split
  · assumption
  split
  · assumption
  · exact h

/-- Bytes of the page that a host's completion fills. -/
def State.grantedBytes (s : State) (l : Leaf) (log2 : Nat) : Nat :=
  if l.level == 5 && pteC64 l.entry && !s.blockWhole l then 4096 else 2 ^ grantedLog log2

theorem State.grantedBytes_dvd (s : State) (l : Leaf) {log2 : Nat} (h : 12 ≤ log2) : s.grantedBytes l log2 ∣ 2 ^ log2 := by
  unfold State.grantedBytes
  split
  · exact Nat.pow_dvd_pow 2 h
  · exact Nat.pow_dvd_pow 2 (grantedLog_le h)

/-- An address and the page of it lie as far apart in a larger block. -/
theorem mod_of_page {size block va : Nat} (hb : size ∣ block) : va / size * size % block + (va - va / size * size) = va % block := by
  obtain ⟨n, rfl⟩ := hb
  have hin : va % size ≤ va % (size * n) := by
    rw [Nat.mod_mul]
    exact Nat.le_add_right ..
  have hsub : va - va / size * size = va % size := by
    rw [Nat.mul_comm]
    exact (Nat.mod_eq_sub_mul_div).symm
  have hpage : va / size * size % (size * n) = size * (va / size % n) := by
    rw [Nat.mul_comm, Nat.mul_mod_mul_left]
  rw [hsub, hpage, Nat.mod_mul, Nat.add_comm]

/-- The leaves that a completion marks. -/
def State.grantedMarks (s : State) (l : Leaf) (log2 : Nat) : List Nat :=
  if s.blockWhole l && decide (65536 ≤ s.grantedBytes l log2) then l.group else [l.addr]

/-- The machine with those marked. -/
def State.grantMarked (s : State) (w : Walk) (l : Leaf) (log2 : Nat) : State :=
  (s.grantedMarks l log2).foldl (fun (s : State) a => s.setAD a w.intent) s

/-- The entry that a completion fills. -/
def State.hostEntry (s : State) (w : Walk) (l : Leaf) (pa log2 : Nat) (read write : Bool) : TlbEntry :=
  let va := w.va / s.grantedBytes l log2 * s.grantedBytes l log2
  { quad := w.quad, asid := w.asid, va, size := s.grantedBytes l log2
    home := .host
    pa := pa / 2 ^ log2 * 2 ^ log2 + va % 2 ^ log2
    read := permRead (ptePerm l.entry)
    write := permWrite (ptePerm l.entry)
    execute := permExec (ptePerm l.entry)
    user := pteU l.entry
    dirty := (s.grantedMarks l log2).all (fun a => pteD (BitVec.ofNat 64 ((s.grantMarked w l log2).dev.readLE a 8)))
    hostRead := read
    hostWrite := write }

/-- R330: what a completion that comes in time comes to. -/
theorem execAtsCompletion_timely {k pa log2 : Nat} {read write : Bool} {s : State} {w : Walk} {l : Leaf} (hw : lookup s.walks k = some w)
    (hats : w.ats = true) (hlog : 12 ≤ log2) (hr : s.walkTable (dieOf (4 * w.quad)) w.asid w.root w.va = .leaf l) (ht : pteTier l.entry = 1)
    (hp : l.permits w.intent w.priv = true) (hs : w.stale = false) :
    exec (.atsCompletion k pa log2 read write) s = .next (if !hostGrants read write w.intent then (s.grantMarked w l log2).askPage k w
      else (((s.grantMarked w l log2).fillPath w).fillAll w (s.hostEntry w l pa log2 read write)).dropWalk k) := by
  have hgo : (w.ats && decide (12 ≤ log2)) = true := by
    rw [hats, decide_eq_true hlog]
    rfl
  have htimely : ¬(w.stale || pteTier l.entry != 1 || !l.permits w.intent w.priv) = true := by
    rw [hs, ht, hp]
    decide
  change execAtsCompletion k pa log2 read write s = _
  rw [execAtsCompletion, hw]
  dsimp only
  rw [State.when_true hgo, show dieOfQuad w.quad = dieOf (4 * w.quad) from rfl, hr]
  exact congrArg Host.Outcome.next (if_neg htimely)

/-- R330, R334: one that an invalidation has overtaken makes the walk start again. -/
theorem execAtsCompletion_stale {k pa log2 : Nat} {read write : Bool} {s : State} {w : Walk} (hw : lookup s.walks k = some w) (hats : w.ats = true)
    (hlog : 12 ≤ log2) (hs : w.stale = true) : exec (.atsCompletion k pa log2 read write) s =
      .next { s with walks := insertKey s.walks k { w with ats := false, stale := false, startSeq := s.tlbseq.toNat } } := by
  have hgo : (w.ats && decide (12 ≤ log2)) = true := by
    rw [hats, decide_eq_true hlog]
    rfl
  change execAtsCompletion k pa log2 read write s = _
  rw [execAtsCompletion, hw]
  dsimp only
  rw [State.when_true hgo]
  refine congrArg Host.Outcome.next ?_
  cases s.walkTable (dieOfQuad w.quad) w.asid w.root w.va with
  | leaf l => exact if_pos (by rw [hs]; rfl)
  | notPresent => rfl
  | protection => rfl

theorem hostTranslations_claim : Claim.HostTranslations := by
  intro k pa log2 read write s w hw hats hlog i
  refine ⟨fun hs => ⟨_, execAtsCompletion_stale hw hats hlog hs, lookup_insertKey_self .., rfl, rfl⟩, fun l hr ht hp hs => ?_⟩
  have hexec := execAtsCompletion_timely (pa := pa) (read := read) (write := write) hw hats hlog hr ht hp hs
  obtain ⟨dev, sh, cl, hmark⟩ := s.foldl_setAD_frame w.intent (s.grantedMarks l log2)
  change s.grantMarked w l log2 = _ at hmark
  refine ⟨fun hg => ?_, fun hg hpri => ?_⟩
  · rw [if_neg (by rw [hg]; decide)] at hexec
    have hin := State.mem_fillAll (s := (s.grantMarked w l log2).fillPath w) (e := s.hostEntry w l pa log2 read write) (w := w) rfl rfl
    obtain ⟨tlb, cache, n, hfill⟩ := State.fillEnds_frame (s.grantMarked w l log2) k w (s.hostEntry w l pa log2 read write)
    have hpos : 0 < s.grantedBytes l log2 := Nat.pos_of_dvd_of_pos (s.grantedBytes_dvd l hlog) (Nat.two_pow_pos _)
    refine ⟨_, _, hexec, ?_, hin, rfl, rfl, rfl, rfl, rfl, rfl, Nat.div_mul_le_self .., Nat.lt_div_mul_add hpos, ?_, fun h5 hc hwhole => if_pos ?_⟩
    · rw [hfill, hmark]
      exact dropped_eraseKey hw
    · rw [State.hostEntry, Nat.add_assoc, mod_of_page (s.grantedBytes_dvd l hlog)]
    · rw [h5, hc, hwhole]
      rfl
  · rw [if_pos (by rw [hg]; rfl)] at hexec
    refine ⟨_, hexec, ?_⟩
    rw [State.askPage_faults (by rw [hmark]; exact hpri), hmark]
    exact ⟨dropped_eraseKey hw, rfl, rfl⟩

/-! ### Invalidations -/

theorem State.foldl_invalidate (l : List Invalidation) : ∀ s : State, ∃ t, l.foldl State.invalidate s = t ∧
    t.tlbseq = s.tlbseq + BitVec.ofNat 64 l.length ∧ t.dev = s.dev ∧ t.atsOwed = s.atsOwed ∧ t.atsSent = s.atsSent ∧
    ∀ e, e ∈ t.tlb ↔ e ∈ s.tlb ∧ ∀ i ∈ l, i.held e = false := by
  induction l with
  | nil =>
    refine fun s => ⟨s, rfl, (BitVec.add_zero _).symm, rfl, rfl, rfl, fun e => ⟨fun h => ⟨h, fun i hi => absurd hi List.not_mem_nil⟩, And.left⟩⟩
  | cons i rest ih =>
    intro s
    obtain ⟨t, ht, hseq, hdev, howed, hsent, htlb⟩ := ih (s.invalidate i)
    refine ⟨t, ht, ?_, hdev, howed, hsent, fun e => ?_⟩
    · rw [hseq, show (s.invalidate i).tlbseq = s.tlbseq + 1 from rfl, BitVec.add_assoc, List.length_cons, BitVec.ofNat_add, BitVec.add_comm 1]
      rfl
    · rw [htlb, show (s.invalidate i).tlb = s.tlb.filter (fun e => !i.held e) from rfl, List.mem_filter, List.forall_mem_cons, Bool.not_eq_true', and_assoc]

theorem held_page {asid at_ : Nat} {e : TlbEntry} :
    (Invalidation.page asid at_).held e = false ↔ ¬(e.asid = asid ∧ e.va ≤ at_ ∧ at_ < e.va + e.size) := by
  rw [← Bool.not_eq_true]
  simp [Invalidation.held, and_assoc]

theorem State.sendAts_frame (s : State) : ∃ owed sent, s.sendAts = { s with atsOwed := owed, atsSent := sent } := by
  unfold State.sendAts
  dsimp only
  split
  · exact ⟨s.atsOwed, s.atsSent, rfl⟩
  · exact ⟨_, _, rfl⟩

/-- R330: a completion for which nothing is left to wait is sent at once. -/
theorem State.sendAts_only (s : State) (x : AtsInval) (h : s.atsOwed = [x]) (hx : x.chunks = []) :
    s.sendAts.atsOwed = [] ∧ s.sendAts.atsSent = x :: s.atsSent := by
  have hdue : s.chunksLeft x.chunks = false := by
    rw [hx]
    rfl
  unfold State.sendAts
  dsimp only
  rw [h, List.filter_cons_of_pos (by rw [hdue]; rfl), List.filter_nil, if_neg (by simp), List.filter_cons_of_neg (by rw [hdue]; exact Bool.false_ne_true)]
  exact ⟨rfl, rfl⟩

/-- The invalidations of the pages that an ATS invalidation covers. -/
def coveredPages (asid pages : Nat) (va : Word) : List Invalidation :=
  (List.range pages).map (fun i => Invalidation.page asid ((pageOf va.toNat + 4096 * i) % 2 ^ 64))

theorem execAtsInvalidation_eq {s : State} {pasid func asid : Nat} (h : s.spaceOf pasid func = some asid) (va : Word) (pages : Nat) :
    exec (.atsInvalidation pasid func va pages) s = .next (({ (coveredPages asid pages va).foldl State.invalidate s with
      atsOwed := s.atsOwed ++ [{ pasid, func, va := pageOf va.toNat, pages, chunks := ((coveredPages asid pages va).flatMap s.oldChunks).eraseDups }] } : State).sendAts) := by
  change execAtsInvalidation pasid func va pages s = _
  rw [execAtsInvalidation, h]
  rfl

/-! ### Page responses -/

theorem State.foldl_report_frame (l : List Nat) : ∀ s : State, ∃ inlet, l.foldl State.report s = { s with inlet := inlet } := by
  induction l with
  | nil => exact fun s => ⟨s.inlet, rfl⟩
  | cons q rest ih =>
    intro s
    obtain ⟨inlet, h⟩ := ih (s.report q)
    exact ⟨inlet, h⟩

theorem execPriResponse_success {s : State} {req : Nat} {r : PageReq} (h : lookup s.pageReqs req = some r) :
    ∃ inlet, exec (.priResponse req .success) s = .next { s with pageReqs := eraseKey s.pageReqs req, inlet := inlet } := by
  obtain ⟨inlet, hi⟩ := State.foldl_report_frame
    ((r.who.filterMap { s with pageReqs := eraseKey s.pageReqs req }.requesterQueue).eraseDups) { s with pageReqs := eraseKey s.pageReqs req }
  refine ⟨inlet, ?_⟩
  change execPriResponse req .success s = _
  rw [execPriResponse, h]
  exact congrArg Host.Outcome.next hi

theorem execPriResponse_failure {s : State} {req : Nat} {r : PageReq} (h : lookup s.pageReqs req = some r) {answer : PriAnswer} (ha : answer ≠ .success) :
    ∃ inlet, exec (.priResponse req answer) s = .next { s.failRequest req r with inlet := inlet } := by
  obtain ⟨inlet, hi⟩ := State.foldl_report_frame ((r.who.filterMap (s.failRequest req r).requesterQueue).eraseDups) (s.failRequest req r)
  refine ⟨inlet, ?_⟩
  change execPriResponse req answer s = _
  rw [execPriResponse, h]
  cases answer with
  | success => exact absurd rfl ha
  | invalidRequest => exact congrArg Host.Outcome.next hi
  | responseFailure => exact congrArg Host.Outcome.next hi

theorem failRequest_faults (s : State) (req : Nat) (r : PageReq) : FaultsFor s (s.failRequest req r) r.who r.va (causeOf r.intent) := by
  refine ⟨?_, rfl, rfl⟩
  rw [← intentCause_eq]
  rfl

theorem hostInvalidationsAndPages_claim : Claim.HostInvalidationsAndPages := by
  intro s
  refine ⟨fun pasid func pages asid va hspace => ?_, fun req r hr => ⟨?_, fun answer ha => ?_, fun space hspace => ⟨fun h => ?_, fun hpos hlate => ?_⟩⟩⟩
  · obtain ⟨t, ht, hseq, hdev, -, hsent, htlb⟩ := State.foldl_invalidate (coveredPages asid pages va) s
    refine ⟨_, execAtsInvalidation_eq hspace va pages, ?_⟩
    rw [ht]
    obtain ⟨owed, sent, hframe⟩ := State.sendAts_frame { t with
      atsOwed := s.atsOwed ++ [{ pasid, func, va := pageOf va.toNat, pages, chunks := ((coveredPages asid pages va).flatMap s.oldChunks).eraseDups }] }
    refine ⟨?_, ?_, fun hnone hstreams => ?_, fun e => ?_⟩
    · rw [hframe]
      refine hseq.trans ?_
      rw [coveredPages, List.length_map, List.length_range]
    · rw [hframe]
      exact hdev
    · have hchunks : ((coveredPages asid pages va).flatMap s.oldChunks).eraseDups = [] := by
        rw [List.flatMap_eq_nil_iff.2 fun i _ => State.oldChunks_nil i hstreams]
        rfl
      rw [hchunks, hnone, ← hsent]
      exact State.sendAts_only _ _ rfl rfl
    · rw [hframe]
      refine (htlb e).trans (and_congr_right fun _ => ?_)
      rw [coveredPages, List.forall_mem_map]
      exact forall_congr' fun i => imp_congr List.mem_range held_page
  · obtain ⟨inlet, h⟩ := execPriResponse_success hr
    exact ⟨_, h, dropped_eraseKey hr, rfl, rfl⟩
  · obtain ⟨inlet, h⟩ := execPriResponse_failure hr ha
    exact ⟨_, h, dropped_eraseKey hr, failRequest_faults s req r⟩
  · change execPriTimeout req s = _
    rw [execPriTimeout, hr]
    refine State.when_false ?_
    rw [hspace]
    change (decide (0 < space.pritmo * 2 ^ 20) && decide (space.pritmo * 2 ^ 20 ≤ s.now - r.since)) = false
    rcases h with h | h
    · rw [h, Nat.zero_mul]
      rfl
    · rw [decide_eq_false (Nat.not_le.2 h), Bool.and_false]
  · refine ⟨s.failRequest req r, ?_, dropped_eraseKey hr, failRequest_faults s req r⟩
    change execPriTimeout req s = _
    rw [execPriTimeout, hr]
    refine State.when_true ?_
    rw [hspace]
    change (decide (0 < space.pritmo * 2 ^ 20) && decide (space.pritmo * 2 ^ 20 ≤ s.now - r.since)) = true
    rw [decide_eq_true hlate, decide_eq_true (Nat.mul_pos hpos (Nat.two_pow_pos 20))]
    rfl

/-- Settles O41: completions by their grant, invalidations page by page, and the ends of page requests. -/
theorem hostTranslations : Obligations.HostTranslations := ⟨hostTranslations_claim, hostInvalidationsAndPages_claim⟩

end Sys2Proof.Machine

/-! # The ends of waits: R14, R32, R240, R244, R246, R278, R279, R322 -/

namespace Sys2Proof.Machine
-- one proof at a time: the memory of proofs in flight together is more than the check has
set_option Elab.async false
open Sys2Proof.Claim

/-! ### A wait's event goes on with the instruction that waits -/

/-- An event that takes waits of a kind and knows the instruction that waits is that instruction. -/
theorem State.wake_of {s : State} {st : Strand} {k : Wait} {i : Instr} {since : Nat} (h : WaitsIn s st k i since) {kind : Wait → Bool}
    {run : Instr → Option (State → Out)} {f : State → Out} (hk : kind k = true) (hf : run i = some f) : s.wake kind run = f s := by
  obtain ⟨hhere, hwaits, hissues, hboundary⟩ := h
  rw [State.wake, hhere]
  dsimp only
  rw [show (st.ctx s.cur.ctx).wait = some { kind := k, since, instr := some i } from hwaits]
  refine (if_neg ?_).trans ?_
  · rw [hk, hissues]
    decide
  · rw [hboundary]
    change (match run i with | some f => f s | none => _) = f s
    rw [hf]

/-- With nothing in the VQ no gated load of the lanes is overdue. -/
theorem execWatermarkTimeout_eq {s : State} {st : Strand} (h : s.strand? s.cur.slot = some st) (hvq : st.vq = []) :
    exec .watermarkTimeout s = s.wakeWatermark true := by
  have hnone : st.gatedTooLong s.now = none := by
    rw [Strand.gatedTooLong, Strand.nextEntry, hvq]
    rfl
  change execWatermarkTimeout s = _
  rw [execWatermarkTimeout, h]
  dsimp only
  rw [hnone]

/-- R14: a wait at a queue goes on with its QPUSH, QPOP or BQ. -/
theorem queueWaitEnd_goesOn {s : State} {st : Strand} {q : Nat} {i : Instr} {since : Nat} (h : WaitsIn s st (.queue q) i since)
    (hi : (∃ d r, i = .qpop d r) ∨ (∃ d r, i = .qpush d r) ∨ ∃ r off, i = .bq r off) : exec .queueWaitEnd s = exec i s := by
  change execQueueWaitEnd s = _
  rw [execQueueWaitEnd]
  rcases hi with ⟨d, r, rfl⟩ | ⟨d, r, rfl⟩ | ⟨r, off, rfl⟩
  · exact State.wake_of (f := execQpop d r) h rfl rfl
  · exact State.wake_of (f := execQpush d r) h rfl rfl
  · exact State.wake_of (f := execBq r off) h rfl rfl

theorem wakeWatermark_goesOn {s : State} {st : Strand} {w n : Nat} {f : YsF} {since : Nat} (limited : Bool)
    (h : WaitsIn s st (.watermark w n) (.wmwait f) since) (hn : limited = true → 0 < n) : s.wakeWatermark limited = exec (.wmwait f) s := by
  rw [State.wakeWatermark]
  refine State.wake_of (f := execWmwait f) h ?_ rfl
  cases limited with
  | false => rfl
  | true => exact decide_eq_true (hn rfl)

theorem watermarkTimeout_goesOn {s : State} {st : Strand} {w n : Nat} {f : YsF} {since : Nat} (h : WaitsIn s st (.watermark w n) (.wmwait f) since)
    (hn : 0 < n) (hvq : st.vq = []) : exec .watermarkTimeout s = exec (.wmwait f) s := by
  rw [execWatermarkTimeout_eq h.here hvq]
  exact wakeWatermark_goesOn true h fun _ => hn

theorem barwaitWake_goesOn {s : State} {st : Strand} {f : YsF} {since : Nat} (h : WaitsIn s st .barrier (.barwait f) since) :
    exec .barwaitWake s = exec (.barwait f) s := by
  change execBarwaitWake s = _
  rw [execBarwaitWake]
  exact State.wake_of (f := execBarwait f) h rfl rfl

theorem wfeTimeout_goesOn {s : State} {st : Strand} {n : Nat} {f : YsF} {since : Nat} (h : WaitsIn s st (.wfe n) (.wfe f) since) (hn : 0 < n) :
    exec .wfeTimeout s = exec (.wfe f) s := by
  change execWfeTimeout s = _
  rw [execWfeTimeout]
  exact State.wake_of (f := execWfe f) h (decide_eq_true hn) rfl

theorem kendRetire_goesOn {s : State} {st : Strand} {f : YsF} {since : Nat} (h : WaitsIn (asExecute s) st .kend (.kend f) since) :
    exec .kendRetire s = exec (.kend f) (asExecute s) := by
  change execKendRetire s = _
  rw [execKendRetire]
  exact State.wake_of (f := execKend f) h rfl rfl

theorem spliceRegionFree_goesOn {s : State} {st : Strand} {f : YsF} {since : Nat} (h : WaitsIn (asExecute s) st .region (.splpt f) since) :
    exec .spliceRegionFree s = exec (.splpt f) (asExecute s) := by
  change execSpliceRegionFree s = _
  rw [execSpliceRegionFree]
  exact State.wake_of (f := execSplpt f) h rfl rfl

theorem spliceGateProceed_goesOn {s : State} {st : Strand} {d a : Reg} {off : BitVec 13} {since : Nat} (h : WaitsIn s st .gate (.ldd d a off) since) :
    exec .spliceGateProceed s = exec (.ldd d a off) s := by
  change execSpliceGateProceed s = _
  rw [execSpliceGateProceed]
  exact State.wake_of (f := execLdd d a off) h rfl rfl

theorem waitingInstructionGoesOn_claim : Claim.WaitingInstructionGoesOn := by
  intro s st since
  exact ⟨fun d q r h => queueWaitEnd_goesOn h (.inl ⟨d, r, rfl⟩), fun d q r h => queueWaitEnd_goesOn h (.inr (.inl ⟨d, r, rfl⟩)),
    fun q r off h => queueWaitEnd_goesOn h (.inr (.inr ⟨r, off, rfl⟩)), fun w n f h => wakeWatermark_goesOn false h nofun,
    fun w n f h hn hvq => watermarkTimeout_goesOn h hn hvq, fun f h => barwaitWake_goesOn h, fun n f h hn => wfeTimeout_goesOn h hn,
    fun f h => kendRetire_goesOn h, fun f h => spliceRegionFree_goesOn h, fun d a off h => spliceGateProceed_goesOn h⟩

/-! ### Ends in full -/

/-- A strand none of whose registers is pending stands with any registers. -/
theorem stands_of_none_pending {s : State} {st : Strand} (h : s.strand? s.cur.slot = some st) (hp : st.pending = []) (regs : List Reg) :
    Stands s st regs := ⟨h, fun _ _ _ => hp ▸ List.not_mem_nil⟩

theorem atMostImx_of_bare {c : Context} (h : Bare c) : AtMostImx c := by
  rw [AtMostImx, h]
  rfl

theorem atMostZeroImx_of_bare {c : Context} (h : Bare c) : AtMostZeroImx c := by
  rw [AtMostZeroImx, h]
  rfl

theorem imm32_of_bare {c : Context} (h : Bare c) (x : BitVec 32) : imm32 c x = x.setWidth 64 := by
  rw [imm32, show c.prefixes = none from h]
  rfl

/-- The limit of a WMWAIT without an IMX. -/
theorem limit_of_bare {c : Context} (h : Bare c) (x : BitVec 32) (limit : Nat) :
    (if imm32 c x = 0 then limit else (imm32 c x).toNat) = if x = 0 then limit else x.toNat := by
  have hnat : (imm32 c x).toNat = x.toNat := by
    rw [imm32_of_bare h, BitVec.toNat_setWidth_of_le (by decide)]
  have hzero : imm32 c x = 0 ↔ x = 0 := by
    rw [← BitVec.toNat_inj, ← BitVec.toNat_inj, hnat]
    exact Iff.rfl
  rw [hnat]
  exact if_congr hzero rfl rfl

theorem waitEndsInFull_claim : Claim.WaitEndsInFull := by
  intro s st since hb hvq hpend c
  refine ⟨fun d q x rest h hpop hq => ?_, fun f p w n h hword hheld hreads => ?_, fun f bs h halign hheld hread hgood hphase => ?_,
    fun f h hpriv hpre hcan hpos hlate => ?_⟩
  · obtain ⟨-, hpops, -⟩ := queuesAreFirstInFirstOut_claim d q 0 s st
    obtain ⟨t, st', ht, hmoved, hsame, -⟩ := hpops (stands_of_none_pending h.here hpend _) hb hpop x rest hq
    exact ⟨t, st', (queueWaitEnd_goesOn h (.inl ⟨d, q, rfl⟩)).trans ht, hmoved, hsame⟩
  · obtain ⟨hat, hends, hexpires, -⟩ := watermarkWaits_claim f s st p (stands_of_none_pending h.here hpend _) (atMostImx_of_bare hb) hword hheld hreads
    refine ⟨hat, fun hle => (wakeWatermark_goesOn false h nofun).trans (hends hle), fun hlt hw hn hlimit hlate => ?_⟩
    rw [← limit_of_bare hb] at hlimit
    subst hw
    exact (watermarkTimeout_goesOn h hn hvq).trans (hexpires hlt ⟨_, h.waits, congrArg _ hlimit, hlimit ▸ hn, hlimit ▸ hlate⟩)
  · obtain ⟨-, hends⟩ := barrierWait_claim f s st bs (stands_of_none_pending h.here hpend _) (atMostZeroImx_of_bare hb)
    obtain ⟨-, hturned, -⟩ := hends halign hheld hread
    exact (barwaitWake_goesOn h).trans (hturned hgood hphase)
  · have hlimit : 0 < 1024 * f.imm.toNat := Nat.mul_pos (by decide) hpos
    obtain ⟨-, hends, -⟩ := waitForEvent_claim f s st (stands_of_none_pending h.here hpend _) hb hpriv
    have hunasked : ¬((running s st).preempt.isSome = true ∨ (running s st).cancel.isSome = true) := by
      rw [hpre, hcan]
      decide
    exact (wfeTimeout_goesOn h hlimit).trans (hends hunasked _ h.waits rfl hlimit hlate)

/-! ### Ends of the execute context's waits -/

theorem State.kendGate_frame (s : State) (st : Strand) : ∃ groups, s.kendGate st = { s with groups := groups } := by
  unfold State.kendGate
  split
  · exact ⟨s.groups, rfl⟩
  · split
    · exact ⟨s.groups, rfl⟩
    · exact ⟨_, rfl⟩

/-- R240: the execute context's KEND, with an access context that goes on, ends that context alone. -/
theorem State.kendDone_execute {s : State} {slot : Nat} {st : Strand} (h : s.strand? slot = some st) (hlive : lives st.access) (hcan : st.exec.cancelled = false)
    (hyield : st.exec.yielded = false) :
    (s.kendDone slot .execute).strand? slot = some (st.setCtx .execute { (st.exec.advance (st.exec.pc + 8)) with retired := true, engineErrors := [] }) := by
  obtain ⟨hret, hcan', hyield'⟩ := hlive
  obtain ⟨groups, hgate⟩ := s.kendGate_frame st
  have hgone {t : State} (ht : t.strand? slot = some (st.setCtx .execute { (st.exec.advance (st.exec.pc + 8)) with retired := true, engineErrors := [] })) :
      (t.contextGone slot).strand? slot = some (st.setCtx .execute { (st.exec.advance (st.exec.pc + 8)) with retired := true, engineErrors := [] }) := by
    rw [State.contextGone_yielded ht]
    · exact ht
    · exact (Bool.and_eq_false_iff).2 (.inr hret)
    · change (st.exec.cancelled || (st.exec.yielded && st.exec.cancel.isSome)) = false
      rw [hcan, hyield]
      rfl
    · change (st.access.cancelled || (st.access.yielded && st.access.cancel.isSome)) = false
      rw [hcan', hyield']
      rfl
    · change ((st.exec.yielded || true) && (st.access.yielded || st.access.retired)) = false
      rw [hyield', hret, Bool.or_false, Bool.and_false]
  rw [State.kendDone, h]
  refine hgone ?_
  dsimp only
  rw [if_neg (show ¬(CtxId.execute = CtxId.access) by decide), if_pos (show CtxId.execute = CtxId.execute from rfl), hgate]
  split
  · exact lookup_insertKey_self ..
  · exact lookup_insertKey_self ..

theorem State.seen_dev (s : State) (k : Nat) (p : Place) (bs : List Byte) : (s.seen k p bs).dev = s.dev := by
  unfold State.seen
  split
  · dsimp only
    split <;> rfl
  · rfl

theorem State.readMissed_dev (s : State) (k pa n : Nat) (alloc : Bool) : (s.readMissed k pa n alloc).2.dev = s.dev := by
  unfold State.readMissed
  dsimp only
  split
  · exact s.seen_dev ..
  · exact s.seen_dev ..

/-- A place of this module, or of another, of which L1 holds no copy: it gives the bytes at its home, and device memory stays. -/
theorem State.readPlace_noLines {s : State} {k n : Nat} {p : Place} (use : L1Line → Bool) (alloc : Bool) (hl1 : (s.cluster k).l1 = [])
    (hp : isHost p = false) :
    (s.readPlace k p n use alloc).1 = (List.range n).map (fun i => byteAt s (above p i)) ∧ (s.readPlace k p n use alloc).2.dev = s.dev := by
  have hhome (h : HomeOnly s k n p) := State.readPlace_home use alloc h
  cases p with
  | dev pa =>
    obtain ⟨hbytes, hsame⟩ := hhome (fun l hl => absurd hl (hl1 ▸ List.not_mem_nil))
    refine ⟨hbytes, ?_⟩
    unfold State.readPlace
    dsimp only
    rw [hl1]
    change (s.readMissed k pa n alloc).2.dev = s.dev
    exact State.readMissed_dev ..
  | scratch j off => exact ⟨(hhome trivial).1, rfl⟩
  | ws die off => exact ⟨homeBytes_eq s (.ws die off) n, rfl⟩
  | host a => exact absurd hp nofun
  | remote m a =>
    refine ⟨homeBytes_eq s (.remote m a) n, ?_⟩
    unfold State.readPlace State.farRead
    dsimp only
    split <;> rfl

theorem executeWaitsEnd_claim : Claim.ExecuteWaitsEnd := by
  intro s st since hb hvq hpend hctx hun
  have hrun : running s st = st.exec := by
    rw [running, hctx]
    rfl
  have hexecute : asExecute s = s := by
    unfold asExecute
    rw [← hctx]
  have hbare : Bare (running s st) := hrun ▸ hb
  have hunasked : Unasked (running s st) := hrun ▸ hun
  refine ⟨fun f h hdrained hacks hlive => ?_, fun f gid place g h hmx hgroup hg => ?_, fun d a off p h => ?_⟩
  · have hissues := h.issues
    rw [hctx] at hissues
    simp only [Strand.issues, Bool.and_eq_true, beq_iff_eq, Bool.not_eq_true'] at hissues
    obtain ⟨⟨⟨⟨hlife, -⟩, -⟩, hcan⟩, hyield⟩ := hissues
    have hgo : exec .kendRetire s = exec (.kend f) s := by
      have hw : WaitsIn (asExecute s) st .kend (.kend f) since := hexecute.symm ▸ h
      exact (kendRetire_goesOn hw).trans (congrArg (execKend f) hexecute)
    have hexec : exec (.kend f) s = .next (s.kendDone s.cur.slot .execute) := by
      change execKend f s = _
      rw [execKend, State.issue_ys _ _ (stands_of_none_pending h.here hpend []) (atMostZeroImx_of_bare hbare)]
      change _ = s.conclude s.cur.slot s.cur.ctx (.kend f) 2 false (.instead (s.kendDone s.cur.slot .execute))
      refine congrArg (s.conclude s.cur.slot s.cur.ctx (.kend f) 2 false) ((if_neg ?_).trans ?_)
      · exact fun hx => absurd (hctx.symm.trans hx) (by decide)
      · have hin : (Env.here s st).c.inKend = true := by
          rw [Context.inKend, show (Env.here s st).c.wait = _ from h.waits]
          rfl
        rw [if_pos hin]
        refine if_pos ?_
        rw [hacks, show s.drained (Env.here s st).slot (Env.here s st).st = true from hdrained]
        rfl
    exact ⟨_, _, hgo.trans hexec, State.kendDone_execute h.here hlive hcan hyield, rfl, rfl, rfl, hlife⟩
  · have hgo : exec .spliceRegionFree s = exec (.splpt f) s := by
      have hw : WaitsIn (asExecute s) st .region (.splpt f) since := hexecute.symm ▸ h
      exact (spliceRegionFree_goesOn hw).trans (congrArg (execSplpt f) hexecute)
    have hexec : exec (.splpt f) s = s.conclude s.cur.slot s.cur.ctx (.splpt f) 2 false (s.stripBoundary (Env.here s st) gid place) := by
      change execSplpt f s = _
      rw [execSplpt, State.issue_ys _ _ (stands_of_none_pending h.here hpend []) (atMostZeroImx_of_bare hbare)]
      have hnone : s.takeRequest (Env.here s st).slot (Env.here s st).ctx true = none :=
        State.takeRequest_none h.here hunasked.1 hunasked.2 true
      rw [hnone]
      refine (congrArg (s.conclude s.cur.slot s.cur.ctx (.splpt f) 2 false) ((if_neg ?_).trans ?_))
      · exact fun hx => absurd (hctx.symm.trans hx) (by decide)
      · rw [show (Env.here s st).st.group = some (gid, place) from hgroup]
    have hempty : ¬(!((Env.here s st).st.vq.isEmpty && ((s.cluster (clusterOf (Env.here s st).slot)).matrixOf (Env.here s st).slot).isEmpty)) = true := by
      rw [show (Env.here s st).st.vq = [] from hvq, show (s.cluster (clusterOf (Env.here s st).slot)).matrixOf (Env.here s st).slot = [] from hmx]
      decide
    rw [hgo, hexec, State.stripBoundary, hg]
    refine ⟨fun hle => ?_, fun hlt hcounted hfree => ?_⟩
    · refine (congrArg (s.conclude s.cur.slot s.cur.ctx (.splpt f) 2 false) ((if_neg hempty).trans (if_pos hle))).trans ?_
      exact conclude_passes _ rfl
    · refine (congrArg (s.conclude s.cur.slot s.cur.ctx (.splpt f) 2 false) ((if_neg hempty).trans ((if_neg (Nat.not_le.2 hlt)).trans ?_))).trans
        (conclude_updStrand _ 2 (fun u => { u with splpts := u.splpts + 1, counted := false }))
      have hfree' : ((lookup s.groups gid).getD g).regionHeld place st.vcluster = false := by
        rw [hg]
        exact hfree
      rw [if_pos (show (Env.here s st).st.counted = true from hcounted)]
      exact if_neg fun hx => absurd (hfree'.symm.trans hx) Bool.false_ne_true
  · intro va halign hreads hhost hl1
    have hnov : st.novHeld s.cur.ctx = false := by
      rw [Strand.novHeld, hvq]
      exact Bool.and_false _
    have hexec := loadsComplete_claim off 0 0 (.ofPlain .ldd off 8 false) (by simp [loadsOf]) d a s st p (stands_of_none_pending h.here hpend _)
      (loadTakes_of_atMostImx _ (atMostImx_of_bare hbare))
    have hva : ((running s st).reg a + immediate (running s st) off).toNat = va := by
      rw [hrun, immediate, show st.exec.prefixes = none from hb]
      rfl
    have horder : (Claim.orderOf (running s st) 0).getLsbD 0 = false := by
      rw [Claim.orderOf, atMostImx_mattr (atMostImx_of_bare hbare)]
      decide
    dsimp only [Load.ofPlain] at hexec
    rw [hva, horder] at hexec
    have hexec := hexec halign hnov hreads
    obtain ⟨l, n, hcached⟩ := s.cacheTranslation_frame (agent s st) va
    obtain ⟨hbytes, hdev⟩ := State.readPlace_noLines (s := s.cacheTranslation (agent s st) va) (k := clusterOf s.cur.slot) (n := 8) (p := p)
      (fun _ => !false) (cacheOf (running s st) != 1) (by rw [hcached]; exact hl1) hhost
    have hsans : ((s.cacheTranslation (agent s st) va).readPlace (clusterOf s.cur.slot) p 8 (fun _ => !false) (cacheOf (running s st) != 1)).2.sansMemory = s.sansMemory :=
      (State.sansMemory_readPlace ..).trans (State.sansMemory_cacheTranslation ..)
    generalize (s.cacheTranslation (agent s st) va).readPlace (clusterOf s.cur.slot) p 8 (fun _ => !false) (cacheOf (running s st) != 1) = got
      at hbytes hdev hsans hexec
    have hexec : exec (.ldd d a off) s = .next (complete got.2 1 (fun c => c.setReg d (BitVec.ofNat 64 (leNat got.1)))) := hexec
    simp only [byteAt_cacheTranslation] at hbytes
    have hread : BitVec.ofNat 64 (leNat got.1) = doubleAt s p := by
      rw [hbytes]
      rfl
    refine ⟨_, _, (spliceGateProceed_goesOn h).trans hexec, complete_strand 1 _ hsans h.here, ?_, fun r => ?_, ?_⟩
    · rw [hrun, hctx]
      exact (Context.advance_pc ..)
    · have hreg := reg_setCtx_setReg s st d (BitVec.ofNat 64 (leNat got.1)) ((running s st).pc + BitVec.ofNat 64 (4 * 1)) r
      rw [hrun] at hreg ⊢
      rw [hread, running, hctx] at hreg
      rw [hctx, hread]
      exact hreg
    · exact (State.updCtx_dev ..).trans (hdev.trans (by rw [hcached]))

/-- Settles O36: a wait's event is exec of the instruction that waits, whose statements then say what it comes to. -/
theorem waitsEnd : Obligations.WaitsEnd := ⟨waitingInstructionGoesOn_claim, waitEndsInFull_claim, executeWaitsEnd_claim⟩

end Sys2Proof.Machine

/-! # Chapters 2 and 9: what the head of a VQ comes to when it is performed, R17, R19, R74 -/

namespace Sys2Proof.Machine
-- one proof at a time: the memory of proofs in flight together is more than the check has
set_option Elab.async false
open Sys2Proof.Claim

/-! ## Performing an instruction -/

/-- An instruction being performed that no stream has a part in. -/
def State.runOn (s : State) (slot : Nat) (st : Strand) (e : VqEntry) : Run :=
  { s := s.setStrand slot st, slot, st, e, p := plan e.instr e.tags e.g }

theorem Strand.inputDest_unbound {st : Strand} (p : Plan) (h : ∀ k < 8, st.stream k = none) : st.inputDest p = none := by
  refine List.find?_eq_none.2 fun k hk => ?_
  rw [h k (List.mem_range.1 hk)]
  exact Bool.false_ne_true

/-- R69, R78: with tags that fit and nothing to pop, the instruction is performed from where its entry stands. -/
theorem State.perform_unclaimed {s : State} {slot : Nat} {st : Strand} {e : VqEntry} (put : VqEntry → Strand → Strand) (body : Run → Perf)
    (hput : put e st = st) (hbad : (plan e.instr e.tags e.g).bad = none) (hc : e.claims = []) (hu : ∀ k < 8, st.stream k = none) :
    s.perform slot st e put body = body (s.runOn slot st e) := by
  have he : ({ e with claims := [] } : VqEntry) = e := by rw [← hc]
  unfold State.perform
  dsimp only
  rw [hbad, hc]
  simp only [List.findSome?_nil, Strand.inputDest_unbound _ hu, List.any_nil, Bool.false_eq_true, if_false, Strand.takeAll, List.foldl_nil, he,
    hput]
  rfl

theorem modifyAt_zero {α : Type} (f : α → α) (x : α) (l : List α) : modifyAt f 0 (x :: l) = f x :: l := rfl

theorem Strand.updEntry_head {st : Strand} {e : VqEntry} {rest : List VqEntry} (f : VqEntry → VqEntry) (h : st.vq = e :: rest) :
    st.updEntry 0 f = { st with vq := f e :: rest } := by
  rw [Strand.updEntry, h, modifyAt_zero]

theorem State.finishEnd_running {s : State} {slot : Nat} {st : Strand} (h : s.strand? slot = some st) (hend : st.ending = none) :
    s.finishEnd slot = s := by
  simp only [State.finishEnd, h, hend]

/-! ## The head of a VQ -/

/-- What an instruction of the VQ other than a bind of a stream does once it is performed. -/
def Run.fromQueue (r : Run) : Perf := ((r.compute.or r.memory).or r.matrix).getD (.done r.s)

theorem VqEntry.eta_instr {e : VqEntry} {i : Instr} (hi : e.instr = i) : e = { e with instr := i } := by rw [← hi]

/-- An entry at the head is performed from where it stands; `hform` says of its instruction that it binds no stream. -/
theorem State.performEntry_head {s : State} {st : Strand} {e : VqEntry} {rest : List VqEntry} {i : Instr} {p : Perf} (hat : AtHead s st e rest)
    (hi : e.instr = i) (hbad : (plan e.instr e.tags e.g).bad = none)
    (hform : ∀ e : VqEntry, s.performEntry s.cur.slot st 0 { e with instr := i } =
      s.perform s.cur.slot st { e with instr := i } (fun e' st' => st'.updEntry 0 (fun _ => e')) Run.fromQueue)
    (hp : (s.runOn s.cur.slot st e).fromQueue = p) : s.performEntry s.cur.slot st 0 e = p := by
  have he := VqEntry.eta_instr hi
  refine ((congrArg (s.performEntry s.cur.slot st 0) he).trans ((hform e).trans (congrArg
    (fun e => s.perform s.cur.slot st e (fun e' st' => st'.updEntry 0 (fun _ => e')) Run.fromQueue) he.symm))).trans
      ((State.perform_unclaimed _ _ ?_ hbad hat.unclaimed hat.unbound).trans hp)
  rw [Strand.updEntry_head _ hat.head, ← hat.head]

theorem Run.fromQueue_compute {r : Run} {p : Perf} (h : r.compute = some p) : r.fromQueue = p := by
  rw [Run.fromQueue, h]
  rfl

theorem Run.eta_instr {r : Run} {i : Instr} (hi : r.e.instr = i) : r = { r with e := { r.e with instr := i } } := by rw [← hi]

/-- R17, R18, R23: the entry at the head may start. -/
theorem State.mayStart_head {s : State} {st : Strand} {e : VqEntry} {rest : List VqEntry} (hat : AtHead s st e rest)
    (hq : isMatrixQueue e.instr = false) (hr : isRepartition e.instr = false) : s.mayStart s.cur.slot st 0 e = true := by
  have hwork : s.behindMatrix s.cur.slot st e = false := by
    simp only [State.behindMatrix, State.matrixWork, hat.matrix, List.filter_nil, List.any_nil]
  simp only [State.mayStart, hat.runs, hat.sound, hat.stays, hat.starts, hq, hr, hat.lanes, hat.whole, hwork]
  simp

theorem Strand.nextEntry_head {s : State} {st : Strand} {e : VqEntry} {rest : List VqEntry} (hat : AtHead s st e rest) :
    st.nextEntry = some (0, e) := by
  simp only [Strand.nextEntry, hat.head, List.findIdx?_cons, bne_iff_ne.2 hat.fresh, if_true]
  rfl

theorem execVqEntryStart_head {s : State} {st : Strand} {e : VqEntry} {rest : List VqEntry} (hat : AtHead s st e rest)
    (hq : isMatrixQueue e.instr = false) (hr : isRepartition e.instr = false) :
    exec .vqEntryStart s = s.settleEntry s.cur.slot st 0 e (s.performEntry s.cur.slot st 0 e) := by
  change execVqEntryStart s = _
  simp only [execVqEntryStart, hat.here, Strand.nextEntry_head hat, State.mayStart_head hat hq hr, hr, Bool.not_true, Bool.false_eq_true, if_false]

/-- R17, R74: an entry at the head that has been performed is complete, and VSTART is 0. -/
theorem State.settleEntry_done {s t : State} {slot : Nat} {st u : Strand} {e : VqEntry} {rest : List VqEntry}
    (hr : isRepartition e.instr = false) (ht : t.strand? slot = some u) (hend : u.ending = none) (hvq : u.vq = e :: rest) :
    s.settleEntry slot st 0 e (.done t) = .next (t.setStrand slot { u with vq := e.finished :: rest, vstart := 0 }) := by
  unfold State.settleEntry
  dsimp only
  rw [State.updStrand_of _ _ ht, Strand.updEntry_head _ hvq, hr]
  exact congrArg Host.Outcome.next (State.finishEnd_running (State.strand?_setStrand ..) hend)

/-! ## The results of the lanes for a scalar register -/

theorem Run.src_unclaimed {r : Run} (h : r.e.claims = []) (x w i : Nat) : r.src x w i = r.st.elem x w i := by
  unfold Run.src
  rw [h]
  rfl

theorem Strand.elem_lt (st : Strand) (x w i : Nat) : st.elem x w i < 2 ^ w := Nat.mod_lt _ (Nat.two_pow_pos w)

theorem tagWidth_pos (t : Tag) : 0 < tagWidth t := by
  revert t
  decide

/-- R184: an element extended as its tag says. -/
theorem extendTo_eq (t : Tag) {x : Nat} (h : x < 2 ^ tagWidth t) : extendTo t x = BitVec.ofInt 64 (integerAt t x) := by
  unfold extendTo isSigned integerAt
  by_cases ht : t.toNat ≤ 4
  · have hw := tagWidth_pos t
    rw [decide_eq_true ht, if_pos rfl, if_pos ht, signedOf, signedAt, Nat.mod_eq_of_lt h]
    by_cases hx : x < 2 ^ (tagWidth t - 1)
    · rw [if_pos hx]
      exact congrArg _ (if_neg fun hc => absurd hc.2 (not_le.2 hx))
    · rw [if_neg hx]
      exact congrArg _ ((if_pos ⟨hw.ne', not_lt.1 hx⟩).trans (by rw [Nat.cast_pow]; rfl))
  · rw [decide_eq_false ht, if_neg Bool.false_ne_true, if_neg ht, Nat.mod_eq_of_lt h, BitVec.ofInt_natCast]

/-- R19: a scalar result of the head goes to the read queue, and its entry is complete. -/
theorem scalar_atHead {s : State} {st : Strand} {e : VqEntry} {rest : List VqEntry} (hat : AtHead s st e rest) (d : Reg) (x : Word)
    (hq : isMatrixQueue e.instr = false) (hr : isRepartition e.instr = false)
    (hp : s.performEntry s.cur.slot st 0 e = (s.runOn s.cur.slot st e).scalar d x) :
    ∃ u st', exec .vqEntryStart s = .next u ∧ HeadDone s e rest u st' ∧ st'.v = st.v ∧
      st'.reads = st.reads ++ [{ reg := d.toNat, value := x }] :=
  ⟨_, { st.sendRead d x with vq := e.finished :: rest, vstart := 0 },
    (execVqEntryStart_head hat hq hr).trans ((congrArg _ hp).trans
      (State.settleEntry_done (u := st.sendRead d x) hr (State.strand?_setStrand ..) hat.stays hat.head)),
    ⟨State.strand?_setStrand .., rfl, rfl⟩, rfl, rfl⟩

theorem Run.compute_vget {r : Run} {f : VxC} (hi : r.e.instr = .vget f) :
    r.compute = some (r.scalar f.vd (if r.offset f < vlmax (tagWidth (r.tag f.va)) then
      extendTo (r.tag f.va) (r.src f.va.toNat (tagWidth (r.tag f.va)) (r.offset f)) else 0)) :=
  congrArg Run.compute (Run.eta_instr hi)

/-- R73, R190: the active set bits of a register. -/
theorem Run.actives_set {r : Run} {f : VxC} (hc : r.e.claims = []) (hn : r.p.n ≤ 16384) :
    ((r.actives f.m f.mi).filter (fun i => r.src f.va.toNat 1 i == 1)).length = (List.range r.p.n).countP (fun i =>
      decide (r.st.vstart.toNat ≤ i) && (!f.m || (velem (r.st.vreg 0) 1 i == 1) != f.mi) && velem (r.st.vreg f.va.toNat) 1 i == 1) := by
  rw [Run.actives, List.filter_filter, ← List.countP_eq_length_filter]
  refine List.countP_congr fun i hi => ?_
  have hlt : i < 16384 := (List.mem_range.1 hi).trans_le hn
  have hv : vlmax 1 = 16384 := rfl
  rw [Run.src_unclaimed hc, Strand.elem, hv, Nat.div_eq_of_lt hlt, Nat.mod_eq_of_lt hlt, Run.act, decide_eq_true (List.mem_range.1 hi),
    Bool.true_and, Bool.and_comm]
  rfl

theorem Run.compute_vpopm {r : Run} {f : VxC} (hi : r.e.instr = .vpopm f) :
    r.compute = some (r.scalar f.vd
      (BitVec.ofNat 64 ((r.actives f.m f.mi).filter (fun i => r.src f.va.toNat 1 i == 1)).length)) :=
  congrArg Run.compute (Run.eta_instr hi)

/-- Settles O31: the oldest result arrives by a write of its register alone. -/
theorem scalarResultsArrive : Obligations.ScalarResultsArrive := by
  intro f s st e rest
  refine ⟨fun hat hi => ?_, fun hat hi => ?_, fun x more h hreads hx => ?_⟩
  · intro t w k
    have hp := State.performEntry_head hat hi (by rw [hi]; rfl) (fun _ => rfl) (Run.fromQueue_compute (Run.compute_vget hi))
    rw [Run.src_unclaimed hat.unclaimed, extendTo_eq _ (Strand.elem_lt ..)] at hp
    obtain ⟨u, st', hu, hd, hv, hreads⟩ := scalar_atHead hat _ _ (by rw [hi]; rfl) (by rw [hi]; rfl) hp
    exact ⟨u, st', _, hu, hd, hv, hreads, rfl⟩
  · intro n counts
    have hp := State.performEntry_head hat hi (by rw [hi]; rfl) (fun _ => rfl) (Run.fromQueue_compute (Run.compute_vpopm hi))
    have hn : (s.runOn s.cur.slot st e).p.n = n := by
      change (plan e.instr e.tags e.g).n = n
      rw [hi]
      rfl
    rw [Run.actives_set hat.unclaimed (hn ▸ Nat.min_le_right ..), hn] at hp
    exact scalar_atHead hat _ _ (by rw [hi]; rfl) (by rw [hi]; rfl) hp
  · have hr : (BitVec.ofNat 5 x.reg).toNat = x.reg := by rw [BitVec.toNat_ofNat]; exact Nat.mod_eq_of_lt hx
    refine ⟨_, { st with exec := st.exec.setReg (BitVec.ofNat 5 x.reg) x.value, pending := st.pending.erase x.reg, reads := more }, ?_,
      State.strand?_setStrand .., sameOutside_setStrand .., rfl, rfl, fun r => ?_⟩
    · change execSyncReadArrival s = _
      simp only [execSyncReadArrival, h, hreads]
    · refine (Context.reg_setReg ..).trans (if_congr (and_congr_left' ?_) rfl rfl)
      exact BitVec.toNat_inj.symm.trans (by rw [hr])

end Sys2Proof.Machine

/-! # Chapter 11: the matrix array, TCLR and the effect of a repartition, R24, R218, R223 and R236 -/

namespace Sys2Proof.Machine
-- one proof at a time: the memory of proofs in flight together is more than the check has
set_option Elab.async false
open Sys2Proof.Claim

/-- R18, R218, R24: the first entry of the matrix queue is that of the turn's slot, whose turn it is, and may start. -/
structure AtArray (s : State) (st : Strand) (q : MqEntry) (rest : List MqEntry) : Prop where
  here : s.strand? s.cur.slot = some st
  runs : st.life = .running
  sound : st.fault = none
  stays : st.ending = none
  starts : st.startsNone s.now = false
  lanes : 0 < (s.lanes s.cur.slot).2
  turn : (s.cluster (clusterOf s.cur.slot)).mqNext = s.cur.slot % 4
  queue : (s.cluster (clusterOf s.cur.slot)).mq = q :: rest
  idle : ∀ x ∈ (s.cluster (clusterOf s.cur.slot)).mq, x.entry.progress ≠ .waiting
  slot : q.slot = s.cur.slot
  fresh : q.entry.progress ≠ .done
  unclaimed : q.entry.claims = []
  admitted : (s.cluster (clusterOf s.cur.slot)).repartition = none ∨ q.entry.marked = true
  unbound : ∀ j < 8, st.stream j = none

theorem slot_of_clusterOf (slot : Nat) : 4 * clusterOf slot + slot % 4 = slot := Nat.div_add_mod ..

theorem State.readyMatrix_first {s : State} {st : Strand} {q : MqEntry} {rest : List MqEntry} (h : AtArray s st q rest) :
    s.readyMatrix s.cur.slot = some (st, 0, q.entry) := by
  have hnext : (s.cluster (clusterOf s.cur.slot)).nextMatrix s.cur.slot = some (0, q.entry) := by
    have hq : (q.slot == s.cur.slot && q.entry.progress != .done) = true :=
      (Bool.and_eq_true _ _).mpr ⟨beq_iff_eq.2 h.slot, bne_iff_ne.2 h.fresh⟩
    rw [Cluster.nextMatrix, h.queue, List.findIdx?_cons, if_pos hq]
    rfl
  have hpart : s.beforePart s.cur.slot st 0 q.entry = true := by
    rcases h.admitted with hp | hp
    · simp only [State.beforePart, hp, Option.isNone_none, Bool.true_or]
    · simp only [State.beforePart, hp, Bool.or_true, Bool.true_or]
  simp only [State.readyMatrix, h.here, hnext, h.runs, h.sound, h.stays, h.starts, h.lanes, hpart]
  simp

theorem State.nextForArray_first {s : State} {st : Strand} {q : MqEntry} {rest : List MqEntry} (h : AtArray s st q rest) :
    s.nextForArray (clusterOf s.cur.slot) = some (s.cur.slot % 4, st, 0, q.entry) := by
  have hidle : (s.cluster (clusterOf s.cur.slot)).mq.find? (fun q => q.entry.progress == .waiting) = none :=
    List.find?_eq_none.2 fun x hx hw => h.idle x hx (beq_iff_eq.1 hw)
  have horder : (List.range 4).map (fun i => (s.cur.slot % 4 + i) % 4) =
      s.cur.slot % 4 :: [1, 2, 3].map (fun i => (s.cur.slot % 4 + i) % 4) := by
    rw [show List.range 4 = 0 :: [1, 2, 3] from rfl, List.map_cons, Nat.add_zero, Nat.mod_mod]
  unfold State.nextForArray
  dsimp only
  rw [hidle, h.turn]
  dsimp only
  rw [horder, List.findSome?_cons, slot_of_clusterOf, State.readyMatrix_first h]
  rfl

theorem Cluster.updMatrix_first {c : Cluster} {q : MqEntry} {rest : List MqEntry} (f : VqEntry → VqEntry) (h : c.mq = q :: rest) :
    c.updMatrix 0 f = { c with mq := { q with entry := f q.entry } :: rest } := by
  rw [Cluster.updMatrix, h, modifyAt_zero]

/-- R218: the cluster's array has turned to the next of its strands. -/
def State.turned (s : State) : State :=
  s.setCluster (clusterOf s.cur.slot) { s.cluster (clusterOf s.cur.slot) with mqNext := (s.cur.slot % 4 + 1) % 4 }

theorem State.turned_mq {s : State} {st : Strand} {q : MqEntry} {rest : List MqEntry} (h : AtArray s st q rest) :
    (s.turned.cluster (clusterOf s.cur.slot)).mq = q :: rest := by
  rw [State.turned, State.cluster_setCluster]
  exact h.queue

/-- An entry at the head of the matrix queue, being performed. -/
def State.arrayRun (s : State) (st : Strand) (e : VqEntry) : Run :=
  { s.turned.runOn s.cur.slot st e with s := (s.turned.setStrand s.cur.slot st).updMatrix (clusterOf s.cur.slot) 0 (fun _ => e) }

theorem State.arrayRun_cluster {s : State} {st : Strand} {q : MqEntry} {rest : List MqEntry} (h : AtArray s st q rest) :
    (s.arrayRun st q.entry).s.cluster (clusterOf s.cur.slot) = s.turned.cluster (clusterOf s.cur.slot) := by
  have hq := Cluster.updMatrix_first (fun _ => q.entry) (State.turned_mq h)
  rw [← State.turned_mq h] at hq
  exact (State.cluster_setCluster ..).trans hq

/-- R218: the array performs the first entry of its queue, and marks it complete. -/
theorem execMatrixQueueStart_first {s t : State} {st u : Strand} {q : MqEntry} {rest : List MqEntry} (h : AtArray s st q rest)
    (hbad : (plan q.entry.instr q.entry.tags q.entry.g).bad = none) (hp : (s.arrayRun st q.entry).matrix = some (.done t))
    (hmq : (t.cluster (clusterOf s.cur.slot)).mq = q :: rest) (ht : t.strand? s.cur.slot = some u) (hu : u.ending = none) :
    exec .matrixQueueStart s = .next (t.setCluster (clusterOf s.cur.slot)
      { t.cluster (clusterOf s.cur.slot) with mq := { q with entry := q.entry.finished } :: rest }) := by
  have hbody : s.turned.perform s.cur.slot st q.entry (fun _ st' => st') (fun r =>
      (({ r with s := r.s.updMatrix (clusterOf s.cur.slot) 0 (fun _ => r.e) } : Run).matrix).getD (.done r.s)) = .done t :=
    (State.perform_unclaimed _ _ rfl hbad h.unclaimed h.unbound).trans (congrArg (Option.getD · _) hp)
  have hstart : exec .matrixQueueStart s = settleMatrix s.cur.slot st 0 q.entry (.done t) := by
    change execMatrixQueueStart s = _
    unfold execMatrixQueueStart
    dsimp only
    rw [State.nextForArray_first h]
    dsimp only
    rw [slot_of_clusterOf]
    exact congrArg (settleMatrix s.cur.slot st 0 q.entry) hbody
  rw [hstart, settleMatrix, State.updMatrix, Cluster.updMatrix_first _ hmq]
  exact congrArg Host.Outcome.next (State.finishEnd_running ht hu)

theorem Run.matrix_mzero {r : Run} {f : MxF} (hi : r.e.instr = .mzero f) :
    r.matrix = some (.done (r.s.setStrand r.slot (r.raised (r.st.setTile f.acc.toNat (Vector.replicate 128 accZero)) []))) :=
  congrArg Run.matrix (Run.eta_instr hi)

theorem Run.matrix_tclr {r : Run} {f : MxF} (hi : r.e.instr = .tclr f) (hw : r.s.wholeCluster (clusterOf r.slot) = true) :
    r.matrix = some (.done (r.s.setCluster (clusterOf r.slot) { r.s.cluster (clusterOf r.slot) with forest := none })) :=
  (congrArg Run.matrix (Run.eta_instr hi)).trans (congrArg some (if_pos hw))

theorem Strand.raise_frame (st : Strand) (lane : Nat) (f : Flags) :
    (st.raise lane f).v = st.v ∧ (st.raise lane f).tiles = st.tiles ∧ (st.raise lane f).ending = st.ending := by
  unfold Strand.raise
  split <;> exact ⟨rfl, rfl, rfl⟩

/-- R223: MZERO at the head of the matrix queue. -/
theorem mzero_atArray {s : State} {st : Strand} {q : MqEntry} {rest : List MqEntry} {f : MxF} (h : AtArray s st q rest)
    (hi : q.entry.instr = .mzero f) :
    ∃ t st', exec .matrixQueueStart s = .next t ∧ (t.cluster (clusterOf s.cur.slot)).mq = { q with entry := q.entry.finished } :: rest ∧
      (t.cluster (clusterOf s.cur.slot)).mqNext = (s.cur.slot % 4 + 1) % 4 ∧ t.dev = s.dev ∧ t.strand? s.cur.slot = some st' ∧
      st'.v = st.v ∧ st'.tiles = st.tiles.set f.acc.toNat (Vector.replicate 128 accZero) := by
  obtain ⟨hv, htiles, hending⟩ := Strand.raise_frame (st.setTile f.acc.toNat (Vector.replicate 128 accZero))
    (s.arrayRun st q.entry).lanes.1 0
  have hs := execMatrixQueueStart_first h (by rw [hi]; rfl) (Run.matrix_mzero (r := s.arrayRun st q.entry) hi)
    ((congrArg Cluster.mq (State.arrayRun_cluster h)).trans (State.turned_mq h)) (State.strand?_setStrand ..) (hending.trans h.stays)
  refine ⟨_, _, hs, ?_, ?_, rfl, State.strand?_setStrand .., hv, htiles⟩
  · rw [State.cluster_setCluster]
  · rw [State.cluster_setCluster]
    refine (congrArg Cluster.mqNext (State.arrayRun_cluster h)).trans ?_
    rw [State.turned, State.cluster_setCluster]

/-- R236: TCLR at the head of the matrix queue. -/
theorem tclr_atArray {s : State} {st : Strand} {q : MqEntry} {rest : List MqEntry} {f : MxF} (h : AtArray s st q rest)
    (hi : q.entry.instr = .tclr f) (hw : (s.setStrand s.cur.slot st).wholeCluster (clusterOf s.cur.slot) = true) :
    ∃ t, exec .matrixQueueStart s = .next t ∧ (t.cluster (clusterOf s.cur.slot)).mq = { q with entry := q.entry.finished } :: rest ∧
      (t.cluster (clusterOf s.cur.slot)).mqNext = (s.cur.slot % 4 + 1) % 4 ∧ t.dev = s.dev ∧
      (t.cluster (clusterOf s.cur.slot)).forest = none := by
  have hs := execMatrixQueueStart_first h (by rw [hi]; rfl) (Run.matrix_tclr (r := s.arrayRun st q.entry) hi hw)
    ((congrArg Cluster.mq (State.cluster_setCluster ..)).trans ((congrArg Cluster.mq (State.arrayRun_cluster h)).trans (State.turned_mq h)))
    (State.strand?_setStrand ..) h.stays
  refine ⟨_, hs, ?_, ?_, rfl, ?_⟩
  · rw [State.cluster_setCluster]
  · rw [State.cluster_setCluster]
    refine (congrArg Cluster.mqNext (State.cluster_setCluster ..)).trans ((congrArg Cluster.mqNext (State.arrayRun_cluster h)).trans ?_)
    rw [State.turned, State.cluster_setCluster]
  · rw [State.cluster_setCluster]
    exact congrArg Cluster.forest (State.cluster_setCluster ..)

/-- R24: the repartition takes effect, and the instruction that asked for it is complete. -/
theorem repartitionEffect_eq {s : State} {r : Repartition} {st : Strand} {e : VqEntry} {vq : List VqEntry} {k : Nat}
    (hr : (s.cluster k).repartition = some r) (h : s.strand? (4 * k + r.by_) = some st) (hvq : st.vq = e :: vq)
    (he : isRepartition e.instr = true) (hb : s.beforeDone k = true) :
    s.repartitionEffect k = (s.setCluster k { s.cluster k with mode := r.mode, repartition := none }).setStrand (4 * k + r.by_)
      { st with vq := e.finished :: vq } := by
  unfold State.repartitionEffect
  dsimp only
  rw [hr]
  refine (if_pos hb).trans ((State.updStrand_of (s.setCluster k _) _ h).trans (congrArg ((s.setCluster k _).setStrand _) ?_))
  rw [Strand.updEntry_head _ hvq, hvq]
  exact if_pos he

/-- Settles O33: MZERO and TCLR by what the array makes of the head of its queue, the repartition by its effect. -/
theorem matrixAndRepartition : Obligations.MatrixAndRepartition := by
  intro f s st q rest slot k c ready finished
  have hat : ready → AtArray s st q rest := by
    rintro ⟨h1, h2, h3, h4, h5, h6, h7, h8, h9, h10, h11, h12, h13, h14⟩
    exact ⟨h1, h2, h3, h4, h5, h6, h7, h8, h9, h10, h11, h12, h13, h14⟩
  refine ⟨fun hready hi hlen => ?_, fun hready hi hw => ?_, fun r e vq hr h hvq he hb => ?_⟩
  · obtain ⟨t, st', ht, hmq, hnext, hdev, hst, hv, htiles⟩ := mzero_atArray (hat hready) hi
    refine ⟨t, st', ht, ⟨hmq, hnext, hdev⟩, hst, hv, fun i h tile htile => ?_, fun j hj => ?_⟩
    · rw [htiles, List.getElem?_set_self hlen] at htile
      obtain rfl := Option.some.inj htile
      exact Vector.getElem_replicate ..
    · rw [htiles, List.getElem?_set_ne hj.symm]
  · obtain ⟨t, ht, hmq, hnext, hdev, hf⟩ := tclr_atArray (hat hready) hi hw
    exact ⟨t, ht, ⟨hmq, hnext, hdev⟩, hf⟩
  · refine ⟨_, { st with vq := e.finished :: vq }, congrArg Host.Outcome.next (repartitionEffect_eq hr h hvq he hb), ?_, ?_,
      State.strand?_setStrand .., rfl, rfl, rfl⟩ <;> rw [State.cluster_setStrand, State.cluster_setCluster]

end Sys2Proof.Machine

/-! # Chapter 2: a placed strand, R37, whose launch is in no spliced group where it says it is -/

namespace Sys2Proof.Machine
-- one proof at a time: the memory of proofs in flight together is more than the check has
set_option Elab.async false
open Sys2Proof.Claim Sys2Proof.Tests

/-- A placed strand that names a spliced group. -/
def groupedStrand : Strand := { strand with life := .placed, group := some (0, 0) }

/-- Its launch, in no group, of which another strand of that group waits, pre-empted. -/
def ungroupedLaunch : Launch := { launch0 with preempted := [groupedStrand] }

def placedAlone : State := { at_ groupedStrand .execute with launches := [(0, ungroupedLaunch)] }

theorem placedAlone_waits : exec .strandStart placedAlone = .next placedAlone := by
  change execStrandStart placedAlone = _
  have hmay : placedAlone.mayRun ungroupedLaunch groupedStrand = false := by decide
  change placedAlone.when (placedAlone.startsNext ungroupedLaunch groupedStrand && placedAlone.mayRun ungroupedLaunch groupedStrand) (placedAlone.run 0) = _
  rw [hmay, Bool.and_false]
  rfl

/-- Refutes O39: what a placed strand waits for is said of its launch's group, and the model reads the strand's own. -/
theorem not_strandsStartAndResume : ¬ Obligations.StrandsStartAndResume := by
  rintro ⟨hstart, -⟩
  obtain ⟨hstarts, -⟩ := hstart placedAlone groupedStrand ungroupedLaunch rfl rfl
  obtain ⟨t, ht, hrun, -⟩ := hstarts rfl (by decide) rfl rfl
  rw [placedAlone_waits] at ht
  obtain rfl := Host.Outcome.next.inj ht
  exact absurd (congrArg Strand.life (Option.some.inj hrun)) (by decide)

end Sys2Proof.Machine

/-! # Chapter 20: traps taken between instructions, R258, R311, R315 and R316 -/

namespace Sys2Proof.Machine
-- one proof at a time: the memory of proofs in flight together is more than the check has
set_option Elab.async false
open Sys2Proof.Claim

/-! ## What entering a trap leaves -/

theorem Context.counted_eq (c : Context) (issuing : Bool) : ∃ n, c.counted issuing = { c with issues := n } := by
  unfold Context.counted
  split
  · exact ⟨_, rfl⟩
  · exact ⟨c.issues, rfl⟩

theorem State.freezeFrame_fault {s : State} {slot : Nat} {st st' : Strand} (imprecise : Bool) (tpc : Word) (h : s.strand? slot = some st)
    (h' : (s.freezeFrame slot imprecise tpc).strand? slot = some st') : st'.fault = st.fault := by
  by_cases hf : st.frame.isSome = true
  · rw [State.freezeFrame_held _ _ h hf, h] at h'
    rw [Option.some.inj h']
  · unfold State.freezeFrame at h'
    rw [h] at h'
    dsimp only at h'
    rw [if_neg hf, State.strand?_setStrand] at h'
    rw [← Option.some.inj h']
    exact (apply_ite Strand.fault _ _ _).trans (ite_self _)

theorem State.recordFault_dev {s : State} (st : Strand) (cause : Cause) (h : s.recorders = []) : (s.recordFault st cause).dev = s.dev := by
  have hrec (part kind : Nat) (data : List Nat) : s.record part kind data = s := by
    unfold State.record
    rw [h]
    rfl
  unfold State.recordFault
  split_ifs
  · rfl
  · split
    · rfl
    · dsimp only
      split
      · rw [hrec]
      · rfl

/-- R309: what a trap leaves of its strand where it finds its context in none. -/
theorem State.enterTrap_strand {s : State} {slot : Nat} {st : Strand} {id : CtxId} (t : Trap) (h : s.strand? slot = some st)
    (hi : (st.ctx id).intrap = false) :
    ∃ st' g, (s.enterTrap slot id t).strand? slot = some st' ∧ st'.ctx id = Context.trapped { st.ctx id with g } t ∧
      st'.ctx (otherCtx id) = st.ctx (otherCtx id) ∧ st'.fault = st.fault := by
  have hrec : ((s.recordFault st t.cause).abandon (.context slot id)).strand? slot = some st :=
    (State.strand?_of_sansMemory (s.sansMemory_recordFault st t.cause) _).trans h
  cases id with
  | access =>
    rw [State.enterTrap_access h hi, State.updCtx_of _ _ _ hrec]
    exact ⟨_, st.access.g, State.strand?_setStrand .., rfl, rfl, rfl⟩
  | execute =>
    obtain ⟨st', g, hst', hexec, haccess⟩ := State.freezeFrame_strand t.imprecise t.tpc hrec
    have hfault := State.freezeFrame_fault _ _ hrec hst'
    rw [State.enterTrap_execute h hi, State.updCtx_of _ _ _ hst']
    exact ⟨_, g, State.strand?_setStrand .., congrArg (Context.trapped · t) hexec, haccess, hfault⟩

theorem State.enterTrap_dev {s : State} {slot : Nat} {st : Strand} {id : CtxId} (t : Trap) (h : s.strand? slot = some st)
    (hi : (st.ctx id).intrap = false) : (s.enterTrap slot id t).dev = (s.recordFault st t.cause).dev := by
  cases id with
  | access => rw [State.enterTrap_access h hi, State.updCtx_dev]; rfl
  | execute =>
    rw [State.enterTrap_execute h hi, State.updCtx_dev]
    exact (((s.recordFault st t.cause).abandon (.context slot .execute)).freezeFrame_memories slot t.imprecise t.tpc).1

/-- R309: a trap taken between instructions, of a context in none. -/
theorem State.asyncTrap_strand {s : State} {slot : Nat} {st : Strand} {id : CtxId} (cause : Cause) (tval : Word) (charge : Option (Word × Nat))
    (limit issuing : Bool) (h : s.strand? slot = some st) (hi : (st.ctx id).intrap = false) :
    ∃ st', (s.asyncTrap slot id cause tval charge limit issuing).strand? slot = some st' ∧
      Entered ((st.ctx id).counted issuing) (st'.ctx id) cause.code false tval (st.ctx id).start ∧
      (st'.ctx id).engineErrors = (st.ctx id).engineErrors ∧ (st'.ctx id).preempt = (st.ctx id).preempt ∧
      (s.recorders = [] → (s.asyncTrap slot id cause tval charge limit issuing).dev = s.dev) ∧
      (cause = .preemption → (s.asyncTrap slot id cause tval charge limit issuing).dev = s.dev) := by
  obtain ⟨n, hn⟩ := Context.counted_eq (st.ctx id) issuing
  have hs : (s.updCtx slot id (fun c => c.counted issuing)).strand? slot = some (st.setCtx id ((st.ctx id).counted issuing)) := by
    rw [State.updCtx_of _ _ _ h, State.strand?_setStrand]
  have hc : (st.setCtx id ((st.ctx id).counted issuing)).ctx id = { st.ctx id with issues := n } := by rw [Strand.ctx_setCtx, hn]
  have hi' : ((st.setCtx id ((st.ctx id).counted issuing)).ctx id).intrap = false := by rw [hc]; exact hi
  obtain ⟨t, hcause, hvector, himprecise, htval, htpc, hdef⟩ : ∃ t : Trap, t.cause = cause ∧ t.vector = false ∧ t.imprecise = false ∧
      t.tval = tval ∧ t.tpc = (st.ctx id).start ∧
      s.asyncTrap slot id cause tval charge limit issuing = (s.updCtx slot id (fun c => c.counted issuing)).enterTrap slot id t := by
    unfold State.asyncTrap
    rw [h]
    exact ⟨_, rfl, rfl, rfl, rfl, rfl, rfl⟩
  rw [hdef]
  obtain ⟨st', g, hst', hctx, -, -⟩ := State.enterTrap_strand t hs hi'
  refine ⟨st', hst', ?_, ?_, ?_, fun hr => ?_, fun hp => ?_⟩
  · rw [hctx, hc, hn]
    have hentered := entered_trapped { st.ctx id with issues := n } g t himprecise
    rwa [hcause, hvector, htval, htpc] at hentered
  · rw [hctx, hc]; rfl
  · rw [hctx, hc]; rfl
  · exact (State.enterTrap_dev _ hs hi').trans ((State.recordFault_dev _ _ ((State.updCtx_recorders ..).trans hr)).trans (State.updCtx_dev ..))
  · refine (State.enterTrap_dev _ hs hi').trans (Eq.trans ?_ (State.updCtx_dev s slot id (fun c => c.counted issuing)))
    exact congrArg State.dev (if_pos (.inl (hcause.trans hp)))

/-! ## The traps that no instruction raises -/

/-- R309, R311: the lanes' fault, taken. -/
theorem State.impreciseTrap_strand {s : State} {slot : Nat} {st : Strand} {f : ImpreciseFault} (h : s.strand? slot = some st)
    (hi : st.exec.intrap = false) (hf : st.fault = some f) :
    ∃ st', (s.impreciseTrap slot).strand? slot = some st' ∧ EnteredImprecisely (interrupted st.exec) st'.exec f ∧ st'.fault = none ∧
      st'.access = st.access ∧ (s.recorders = [] → (s.impreciseTrap slot).dev = s.dev) := by
  obtain ⟨n, hn⟩ := Context.counted_eq st.exec false
  obtain ⟨t, u, hdef, hcause, hvector, himprecise, htval, htpc, hexec, haccess, hfault⟩ : ∃ (t : Trap) (u : Strand),
      s.impreciseTrap slot = (s.setStrand slot u).enterTrap slot .execute t ∧ t.cause = f.cause ∧ t.vector = true ∧
      t.imprecise = true ∧ t.tval = f.tval ∧ t.tpc = st.exec.start ∧
      u.exec = st.exec.counted false ∧ u.access = st.access ∧ u.fault = none := by
    unfold State.impreciseTrap
    rw [h]
    dsimp only
    rw [hf]
    dsimp only
    rw [State.updCtx_of _ _ _ (State.strand?_setStrand ..), State.setStrand_setStrand]
    exact ⟨_, _, rfl, rfl, rfl, rfl, rfl, rfl, rfl, rfl, rfl⟩
  have hs : (s.setStrand slot u).strand? slot = some u := State.strand?_setStrand ..
  have hi' : (u.ctx .execute).intrap = false := by
    change u.exec.intrap = false
    rw [hexec, hn]
    exact hi
  obtain ⟨st', g, hst', hctx, hother, hfault'⟩ := State.enterTrap_strand t hs hi'
  rw [hdef]
  refine ⟨st', hst', ?_, hfault'.trans hfault, hother.trans haccess,
    fun hr => (State.enterTrap_dev t hs hi').trans (State.recordFault_dev _ _ hr)⟩
  change st'.exec = Context.trapped { u.exec with g } t at hctx
  rw [hctx, hexec, interrupted, hn]
  exact ⟨rfl, htpc, congrArg Cause.code hcause, hvector, htval, rfl, rfl, rfl, rfl, himprecise, rfl⟩

theorem Context.counted_errors (c : Context) (rest : List (Cause × Word × Nat)) (b : Bool) :
    ({ c with engineErrors := rest } : Context).counted b = { c.counted b with engineErrors := rest } := by
  unfold Context.counted
  dsimp only
  cases b || (c.wait.map Waiting.issued).getD false <;> rfl

/-- A context whose pre-emption request is served. -/
def Context.served (c : Context) : Context := { c with preempt := none, serving := c.reason :: c.serving }

theorem Context.counted_served (c : Context) (b : Bool) : c.served.counted b = (c.counted b).served := by
  unfold Context.counted
  change (if b || (c.wait.map Waiting.issued).getD false then _ else _) = _
  cases b || (c.wait.map Waiting.issued).getD false <;> rfl

theorem Context.midSequence_bare {c : Context} (h : c.prefixes = none) : c.midSequence = false := by
  rw [Context.midSequence, h]
  rfl

theorem Context.start_bare {c : Context} (h : c.prefixes = none) : c.start = c.pc := by
  rw [Context.start, h]
  rfl

theorem Strand.issues_of {st : Strand} {id : CtxId} (hlife : st.life = .running) (hend : st.ending = none) (hc : lives (st.ctx id)) :
    st.issues id = true := by
  obtain ⟨hretired, hcancelled, hyielded⟩ := hc
  simp only [Strand.issues, hlife, hend, hretired, hcancelled, hyielded]
  rfl

theorem execImpreciseTrap_of {s : State} {st : Strand} {f : ImpreciseFault} (h : s.strand? s.cur.slot = some st)
    (hissues : st.issues .execute = true) (hf : st.fault = some f) (hm : st.exec.midSequence = false) (hb : s.arrayBusy s.cur.slot = false) :
    exec .impreciseTrap s = .next (s.impreciseTrap s.cur.slot) := by
  change execImpreciseTrap s = _
  simp only [execImpreciseTrap, h, hissues, hf, hm, hb]
  rfl

/-- R258: the oldest error of an engine command is what a boundary takes first. -/
theorem State.boundary_error {s : State} {slot : Nat} {id : CtxId} {st : Strand} {cause : Cause} {va : Word} {strip : Nat}
    {rest : List (Cause × Word × Nat)} (h : s.strand? slot = some st) (hp : (st.ctx id).prefixes = none)
    (he : (st.ctx id).engineErrors = (cause, va, strip) :: rest) (hidle : id = .execute → s.arrayBusy slot = false) :
    s.boundary slot id = some ((s.updCtx slot id (fun c => { c with engineErrors := rest })).asyncTrap slot id cause va (some (va, strip))
      false false) := by
  unfold State.boundary
  rw [h]
  dsimp only
  rw [Context.midSequence_bare hp, if_neg Bool.false_ne_true, he]
  exact congrArg some (if_neg fun hb => Bool.false_ne_true ((hidle hb.1).symm.trans hb.2))

theorem execEngineErrorDelivery_of {s t : State} {st : Strand} (h : s.strand? s.cur.slot = some st)
    (he : (st.ctx s.cur.ctx).engineErrors ≠ []) (hissues : st.issues s.cur.ctx = true) (hb : s.boundary s.cur.slot s.cur.ctx = some t) :
    exec .engineErrorDelivery s = .next t := by
  change execEngineErrorDelivery s = _
  unfold execEngineErrorDelivery
  rw [h]
  dsimp only
  split
  · contradiction
  · rw [hissues, hb]
    rfl

theorem Strand.overdue_of {st : Strand} {c : Context} {now since : Nat} (hl : st.canlimit ≠ 0) (hsince : st.canlimit.toNat ≤ now - since)
    (hc : c.cancel = some since ∨ c.preempt = some since) : st.overdue c now = true := by
  have hd : decide (st.canlimit.toNat ≤ now - since) = true := decide_eq_true hsince
  rw [Strand.overdue, bne_iff_ne.2 hl, Bool.true_and]
  rcases hc with hc | hc <;> rw [hc, Option.map_some, hd, Option.getD_some]
  · exact Bool.true_or _
  · exact Bool.or_true _

/-- R32, R212: the waits that a long request may end at once. -/
theorem State.waitsLong_of {s : State} {w : Waiting} (h : LongWait s w) : s.waitsLong s.cur.slot s.cur.ctx w = true := by
  rcases h with ⟨q, h⟩ | ⟨n, m, h⟩ | h | h | ⟨r, h⟩ | ⟨n, h⟩ | ⟨k, h⟩ | ⟨h, p, hp, hw⟩ <;> rw [State.waitsLong, h]
  exact List.any_eq_true.2 ⟨p, hp, List.contains_iff_mem.2 hw⟩

theorem State.mayStop_of {s : State} {st : Strand}
    (h : (∃ w, (st.ctx s.cur.ctx).wait = some w ∧ LongWait s w) ∨ ((∀ w, (st.ctx s.cur.ctx).wait = some w → w.kind ≠ .translation) ∧
      ¬ (s.cur.ctx = .execute ∧ ((∃ e ∈ st.vq, e.progress = .waiting) ∨ s.arrayBusy s.cur.slot = true)))) :
    s.mayStop s.cur.slot s.cur.ctx st = true := by
  unfold State.mayStop
  dsimp only
  rcases h with ⟨w, hw, hlong⟩ | ⟨hw, hidle⟩
  · rw [hw]
    exact (Bool.or_eq_true _ _).mpr (.inl (State.waitsLong_of hlong))
  · have hi : (!(s.cur.ctx == .execute && (st.vq.any (fun e => e.progress == .waiting) || s.arrayBusy s.cur.slot))) = true := by
      refine (congrArg (!·) (eq_false_of_ne_true fun hb => hidle ?_)).trans rfl
      obtain ⟨hx, hb⟩ := (Bool.and_eq_true _ _).mp hb
      refine ⟨beq_iff_eq.1 hx, ((Bool.or_eq_true _ _).mp hb).imp (fun ha => ?_) id⟩
      obtain ⟨e, he, hp⟩ := List.any_eq_true.1 ha
      exact ⟨e, he, beq_iff_eq.1 hp⟩
    split
    · exact hi
    next w hsome => exact (Bool.or_eq_true _ _).mpr (.inr ((Bool.and_eq_true _ _).mpr ⟨bne_iff_ne.2 (hw w hsome), hi⟩))

/-- R316: what an overdue context that may be stopped does. -/
theorem execCancelLimitStop_of {s : State} {st : Strand} (h : s.strand? s.cur.slot = some st) (hissues : st.issues s.cur.ctx = true)
    (hover : st.overdue (st.ctx s.cur.ctx) s.now = true) (hp : (st.ctx s.cur.ctx).prefixes = none)
    (hstop : s.mayStop s.cur.slot s.cur.ctx st = true) :
    exec .cancelLimitStop s = if (st.ctx s.cur.ctx).cancel.isSome then .next (s.takeCancel s.cur.slot s.cur.ctx)
      else .next (if s.cur.ctx = .execute ∧ s.arrayBusy s.cur.slot then s else s.takePreempt s.cur.slot s.cur.ctx true false) := by
  change execCancelLimitStop s = _
  unfold execCancelLimitStop
  dsimp only
  rw [h]
  dsimp only
  rw [hissues, hover, Context.midSequence_bare hp, hstop]
  rfl

/-- R315: a pre-emption that is taken whatever IE holds. -/
theorem State.takePreempt_strand {s : State} {slot : Nat} {st : Strand} {id : CtxId} (h : s.strand? slot = some st)
    (hi : (st.ctx id).intrap = false) (hp : (st.ctx id).prefixes = none) :
    ∃ st', (s.takePreempt slot id true false).strand? slot = some st' ∧
      Entered (interrupted (st.ctx id)) (st'.ctx id) 0x10 false ((st.ctx id).reason.setWidth 64) (st.ctx id).pc ∧
      (st'.ctx id).preempt = none ∧ (s.takePreempt slot id true false).dev = s.dev := by
  have hdef : s.takePreempt slot id true false = (s.setStrand slot (st.setCtx id (st.ctx id).served)).asyncTrap slot id .preemption
      (zext (st.ctx id).reason) none true false := by
    unfold State.takePreempt
    rw [h]
    exact congrArg (State.asyncTrap · slot id .preemption (zext (st.ctx id).reason) none true false) (State.updCtx_of _ _ _ h)
  obtain ⟨st', hst', hentered, -, hpre, -, hdev⟩ := State.asyncTrap_strand (id := id) .preemption (zext (st.ctx id).reason) none true false
    (State.strand?_setStrand s slot (st.setCtx id (st.ctx id).served)) (by rw [Strand.ctx_setCtx]; exact hi)
  rw [Strand.ctx_setCtx] at hentered hpre
  rw [Context.counted_served, Context.start_bare (c := (st.ctx id).served) hp] at hentered
  rw [hdef]
  exact ⟨st', hst', hentered, hpre, hdev rfl⟩

/-- R242: a cancel taken by one context while the other goes on. -/
theorem State.takeCancel_strand {s : State} {slot : Nat} {st : Strand} {id : CtxId} (h : s.strand? slot = some st)
    (ho : lives (st.ctx (otherCtx id))) :
    ∃ st', s.takeCancel slot id = s.setStrand slot st' ∧ (st'.ctx id).cancelled = true ∧ (st'.ctx id).cancel = none ∧
      (st'.ctx id).pc = (st.ctx id).pc ∧ st'.life = st.life := by
  obtain ⟨hretired, hcancelled, hyielded⟩ := ho
  unfold State.takeCancel
  rw [h]
  dsimp only
  have hother : ((if id = .execute then { st with canpc := (st.ctx id).start } else st).setCtx id
      { st.ctx id with cancel := none, preempt := none, cancelled := true, wait := none, prefixes := none }).ctx (otherCtx id) =
      st.ctx (otherCtx id) := by
    cases id <;> rfl
  rw [hother, hcancelled, hretired, hyielded]
  refine ⟨_, if_neg Bool.false_ne_true, ?_⟩
  cases id <;> exact ⟨rfl, rfl, rfl, rfl⟩

theorem State.self_mem_preemptedWith {s : State} {slot : Nat} {st : Strand} (h : s.strand? slot = some st) :
    slot ∈ s.preemptedWith slot := by
  unfold State.preemptedWith
  rw [h]
  refine List.mem_map.2 ⟨(slot, st), List.mem_filter.2 ⟨lookup_mem h, ?_⟩, rfl⟩
  simp only [beq_self_eq_true, Bool.true_or]

theorem Context.request_of {c : Context} (reason : BitVec 8) (now : Nat) (hc : lives c) (hp : c.preempt = none) :
    c.request reason now = { c with preempt := some now, reason } := by
  obtain ⟨hretired, hcancelled, hyielded⟩ := hc
  refine if_neg ?_
  rw [hretired, hcancelled, hyielded, hp]
  exact Bool.false_ne_true

/-- R35: a strand that goes by itself is pre-empted alone, however often its slot is listed. -/
theorem State.preemptedWith_alone {s : State} {slot : Nat} {st : Strand} (h : s.strand? slot = some st)
    (hcohort : ∀ l, s.launch? st.launch = some l → l.spec.cohort = false) (hgroup : st.group = none) :
    ∀ k ∈ s.preemptedWith slot, k = slot := by
  have hc : ((s.launch? st.launch).map (·.spec.cohort)).getD false = false := by
    cases hl : s.launch? st.launch with
    | none => rfl
    | some l => exact hcohort l hl
  have hlist : s.preemptedWith slot = (s.strands.filter (fun p => p.1 == slot)).map (·.1) := by
    unfold State.preemptedWith
    rw [h]
    simp only [hc, hgroup, Option.isSome_none, Bool.false_and, Bool.or_false]
  rw [hlist]
  intro k hk
  obtain ⟨p, hp, rfl⟩ := List.mem_map.1 hk
  exact beq_iff_eq.1 (List.mem_filter.1 hp).2

theorem eraseDups_of_all {l : List Nat} {k : Nat} (hk : k ∈ l) (h : ∀ x ∈ l, x = k) : l.eraseDups = [k] := by
  cases l with
  | nil => exact absurd hk List.not_mem_nil
  | cons x rest =>
    obtain rfl := h x List.mem_cons_self
    have hrest : rest.filter (fun b => !b == x) = [] :=
      List.filter_eq_nil_iff.2 fun y hy hne => by simp [h y (List.mem_cons_of_mem _ hy)] at hne
    rw [List.eraseDups_cons, hrest]
    rfl

theorem State.preemptAll_alone {s : State} {slot : Nat} {st : Strand} (reason : BitVec 8) (h : s.strand? slot = some st)
    (hcohort : ∀ l, s.launch? st.launch = some l → l.spec.cohort = false) (hgroup : st.group = none) :
    s.preemptAll [slot] reason = s.requestPreempt slot reason := by
  rw [State.preemptAll, List.flatMap_cons, List.flatMap_nil, List.append_nil, eraseDups_of_all (State.self_mem_preemptedWith h)
    (State.preemptedWith_alone h hcohort hgroup)]
  rfl

/-- R315, R349: the firmware's request. -/
theorem preemptRequest_claim {s : State} {st : Strand} (h : s.strand? s.cur.slot = some st) (hlife : st.life = .running) (reason : BitVec 8) :
    (3 < reason.toNat ∨ (reason = 0 ∧ s.outranked s.cur.slot = false) → exec (.preemptRequest s.cur.slot reason) s = .next s) ∧
    (reason.toNat ≤ 3 → (reason = 0 → s.outranked s.cur.slot = true) → (∀ l, s.launch? st.launch = some l → l.spec.cohort = false) →
      st.group = none → lives st.exec → lives st.access → st.exec.preempt = none → st.access.preempt = none →
      ∃ t st', exec (.preemptRequest s.cur.slot reason) s = .next t ∧ t.strand? s.cur.slot = some st' ∧
        st' = { st with exec := { st.exec with preempt := some s.now, reason }, access := { st.access with preempt := some s.now, reason } } ∧
        SameOutside s t) := by
  have hdef : exec (.preemptRequest s.cur.slot reason) s =
      s.when (decide (reason.toNat ≤ 3) && (reason != 0 || (s.preemptedWith s.cur.slot).all s.outranked)) (s.preemptAll [s.cur.slot] reason) := by
    change execPreemptRequest s.cur.slot reason s = _
    rw [execPreemptRequest]
  rw [hdef]
  constructor
  · rintro (hlarge | ⟨rfl, hnot⟩)
    · exact State.when_false (by rw [decide_eq_false (not_le.2 hlarge), Bool.false_and])
    · refine State.when_false ((congrArg (_ && ·) ?_).trans (Bool.and_false _))
      refine eq_false_of_ne_true fun hall => ?_
      have hself := List.all_eq_true.1 (show (s.preemptedWith s.cur.slot).all s.outranked = true from hall) s.cur.slot
        (State.self_mem_preemptedWith h)
      exact Bool.false_ne_true (hnot.symm.trans hself)
  · intro hsmall hout hcohort hgroup hx ha hxp hap
    have hall := State.preemptedWith_alone h hcohort hgroup
    have hallow : (reason != 0 || (s.preemptedWith s.cur.slot).all s.outranked) = true := by
      by_cases h0 : reason = 0
      · refine (Bool.or_eq_true _ _).mpr (.inr (List.all_eq_true.2 fun k hk => ?_))
        rw [hall k hk]
        exact hout h0
      · exact (Bool.or_eq_true _ _).mpr (.inl (bne_iff_ne.2 h0))
    rw [State.when_true (by rw [decide_eq_true hsmall, hallow]; rfl), State.preemptAll_alone reason h hcohort hgroup, State.requestPreempt,
      State.updStrand_of _ _ h, if_neg (by rw [hlife]; nofun),
      Context.request_of reason s.now hx hxp, Context.request_of reason s.now ha hap]
    exact ⟨_, _, rfl, State.strand?_setStrand .., rfl, sameOutside_setStrand ..⟩

/-- Settles O37: each trap as its boundary takes it. -/
theorem hardwareTraps : Obligations.HardwareTraps := by
  intro s st h hlife hend c idle started reached
  refine ⟨fun f hl hi hm hb hf => ?_, fun cause va strip rest hl hi hp hidle he => ?_,
    fun since hl hi hp hidle hreached hcan hpre hlimit hsince => ?_, fun since hl ho hp hreached hcan hlimit hsince => ?_,
    preemptRequest_claim h hlife⟩
  · obtain ⟨st', hst', hrest⟩ := State.impreciseTrap_strand h hi hf
    exact ⟨_, st', execImpreciseTrap_of h (Strand.issues_of hlife hend hl) hf hm hb, hst', hrest⟩
  · have hgo := execEngineErrorDelivery_of h (by rw [show (st.ctx s.cur.ctx).engineErrors = _ from he]; nofun)
      (Strand.issues_of hlife hend hl) (State.boundary_error h hp he hidle)
    rw [State.updCtx_of _ _ _ h] at hgo
    obtain ⟨st', hst', hentered, herrors, -, hdev, -⟩ := State.asyncTrap_strand (id := s.cur.ctx) cause va (some (va, strip)) false false
      (State.strand?_setStrand s s.cur.slot (st.setCtx s.cur.ctx { c with engineErrors := rest })) (by rw [Strand.ctx_setCtx]; exact hi)
    rw [Strand.ctx_setCtx] at hentered herrors
    rw [Context.counted_errors, Context.start_bare (c := { c with engineErrors := rest }) hp] at hentered
    exact ⟨_, st', hgo, hst', hentered, herrors, hdev⟩
  · have hgo := execCancelLimitStop_of h (Strand.issues_of hlife hend hl) (Strand.overdue_of hlimit hsince (.inr hpre)) hp
      (State.mayStop_of hreached)
    rw [show (st.ctx s.cur.ctx).cancel = none from hcan, Option.isSome_none, if_neg Bool.false_ne_true,
      if_neg (fun hb => Bool.false_ne_true ((hidle hb.1).symm.trans hb.2))] at hgo
    obtain ⟨st', hst', hrest⟩ := State.takePreempt_strand h hi hp
    exact ⟨_, st', hgo, hst', hrest⟩
  · have hgo := execCancelLimitStop_of h (Strand.issues_of hlife hend hl) (Strand.overdue_of hlimit hsince (.inl hcan)) hp
      (State.mayStop_of hreached)
    rw [show (st.ctx s.cur.ctx).cancel = some since from hcan, Option.isSome_some, if_pos rfl] at hgo
    obtain ⟨st', hdef, hcancelled, hcancel, hpc, hlife'⟩ := State.takeCancel_strand (id := s.cur.ctx) h
      (by cases hid : s.cur.ctx <;> rw [other, hid] at ho <;> exact ho)
    rw [hdef] at hgo
    exact ⟨_, st', hgo, State.strand?_setStrand .., hcancelled, hcancel, hpc, hlife'.trans hlife, rfl⟩

end Sys2Proof.Machine

/-! # Chapter 22: DESTROYQ, R353, where the list of queues has a number twice -/

namespace Sys2Proof.Machine
-- one proof at a time: the memory of proofs in flight together is more than the check has
set_option Elab.async false
open Sys2Proof.Claim Sys2Proof.Tests

/-- A DESTROYQ of queue 0, which has no packet, and of whose number the list has a second entry. -/
def destroysTwice : State := { asked 1 2 [(8, 8, 0), (16, 8, 1)] with queues := [(0, queue0), (0, queue0)] }

/-- What queue 0 says of its destruction after an outcome. -/
def destroyedAfter (o : Out) : Option (Option Nat) :=
  match o with
  | .next t => (t.queue? 0).map (·.destroyed)
  | _ => none

theorem destroyedAfter_destroysTwice : destroyedAfter (exec .destroyq destroysTwice) = some none := by decide +kernel

/-- Refutes O48: the queue, empty, is forgotten at once, and the second entry is found under its number, not destroyed. -/
theorem not_queueCommands : ¬ Obligations.QueueCommands := by
  rintro ⟨-, hcommands⟩
  obtain ⟨-, hdestroy⟩ := hcommands destroysTwice (by decide)
  obtain ⟨-, hall⟩ := hdestroy ⟨rfl, rfl, rfl, rfl, by decide, rfl⟩
  obtain ⟨t, ht, -, hdestroyed⟩ := hall queue0 (by decide) rfl rfl (.inr rfl) (by decide) (by decide) (by decide) (by decide)
    (fun k p h => by simp [queue0] at h)
  have hnone := destroyedAfter_destroysTwice
  rw [ht] at hnone
  obtain ⟨y, hy, hynone⟩ := Option.map_eq_some_iff.1 hnone
  exact Option.some_ne_none _ ((hdestroyed y hy).1.symm.trans hynone)

end Sys2Proof.Machine

/-! # Chapters 22 and 24: how a firmware command ends, R359; KEYINSTALL, FWLOAD, RECCFG and REPLAY, R363 to R369 -/

namespace Sys2Proof.Machine
-- one proof at a time: the memory of proofs in flight together is more than the check has
set_option Elab.async false
open Sys2Proof.Claim

/-! ## The answer -/

/-- The results of a command, n of them, written (R359). -/
def Memory.withResults (m : Memory) (base n : Nat) (results : List Nat) : Memory :=
  (List.range n).foldl (fun (m : Memory) i => m.writeLE (base + 8 * i) 8 (results.getD i 0)) m

theorem Memory.withResults_succ (m : Memory) (base n : Nat) (results : List Nat) :
    m.withResults base (n + 1) results = (m.withResults base n results).writeLE (base + 8 * n) 8 (results.getD n 0) := by
  rw [withResults, List.range_succ, List.foldl_append]
  rfl

theorem Memory.wf_withResults {m : Memory} (h : m.wf = true) (base n : Nat) (results : List Nat) : (m.withResults base n results).wf = true := by
  induction n with
  | zero => exact h
  | succ n ih =>
    rw [withResults_succ]
    exact wf_writeLE _ _ _ _ ih

theorem Memory.read_writeLE {m : Memory} (h : m.wf = true) (a n x : Nat) {i : Nat} (hi : i < n) :
    (m.writeLE a n x).read (a + i) = BitVec.ofNat 8 (x / 2 ^ (8 * i)) := by
  have hi' : i < (leBytes n x).length := (leBytes_length n x).symm ▸ hi
  rw [writeLE, read_writeBytes _ _ _ _ h hi', leBytes_getElem, Nat.pow_mul]

theorem Memory.read_writeLE_ne (m : Memory) {a n x b : Nat} (h : b < a ∨ a + n ≤ b) : (m.writeLE a n x).read b = m.read b :=
  read_writeBytes_ne _ _ _ _ ((leBytes_length n x).symm ▸ h)

theorem Memory.read_withResults {m : Memory} (h : m.wf = true) (base : Nat) (results : List Nat) {n i j : Nat} (hj : j < n) (hi : i < 8) :
    (m.withResults base n results).read (base + 8 * j + i) = BitVec.ofNat 8 (results.getD j 0 / 2 ^ (8 * i)) := by
  induction n with
  | zero => exact absurd hj (Nat.not_lt_zero j)
  | succ n ih =>
    rw [withResults_succ]
    rcases Nat.lt_succ_iff_lt_or_eq.1 hj with hlt | rfl
    · rw [read_writeLE_ne _ (.inl (by omega))]
      exact ih hlt
    · exact read_writeLE (wf_withResults h ..) _ _ _ hi

theorem State.host_wf {s : State} (h : s.memWf = true) : s.host.wf = true := by
  simp only [State.memWf, Bool.and_eq_true] at h
  exact h.1.2

/-- R359: what the end of a command leaves in its mailbox and its block. -/
theorem answered_endCommand {s u : State} (core status : Nat) (results : List Nat) (hm : u.mailboxes = s.mailboxes) (hwf : u.host.wf = true) :
    Answered s ((u.endCommand s.cur.unit status results).beat core) status results := by
  have hbox : u.mailbox s.cur.unit = s.mailbox s.cur.unit := congrArg (fun l => (lookup l s.cur.unit).getD Mailbox.blank) hm
  have hend : ((u.endCommand s.cur.unit status results).beat core).mailbox s.cur.unit =
      { s.mailbox s.cur.unit with busy := false, last := BitVec.ofNat 8 status } := by
    rw [← hbox]
    exact congrArg (Option.getD · Mailbox.blank) (lookup_insertKey_self ..)
  have hhost : ((u.endCommand s.cur.unit status results).beat core).host =
      (u.host.withResults ((s.mailbox s.cur.unit).blockAt.toNat + 8) results.length results).writeLE
        ((s.mailbox s.cur.unit).blockAt.toNat + 2) 2 status := by
    rw [← hbox]
    rfl
  refine ⟨congrArg Mailbox.busy hend, congrArg Mailbox.last hend, fun i hi => ?_, fun j x hx i hi => ?_⟩
  · rw [hhost]
    exact Memory.read_writeLE (Memory.wf_withResults hwf ..) _ _ _ hi
  · obtain ⟨hj, -⟩ := List.getElem?_eq_some_iff.1 hx
    rw [hhost, Memory.read_writeLE_ne _ (.inr (by omega)), Memory.read_withResults hwf _ _ hj hi, List.getD_eq_getElem?_getD, hx]
    rfl

/-! ## The command -/

/-- R360: a function other than the physical one may issue a command. -/
def everyFunction (cmd : Nat) : Bool := !((listed.find? (fun c => c.1 == cmd)).map (·.2)).getD false

/-- R359, R360: a command that its function may issue is carried out. -/
theorem State.command_of {s : State} {cmd status : Nat} {results : List Nat} {t : Nat → State}
    {body : Nat → Mailbox → Nat → Option (Nat × List Nat × State)} (ha : Asked s cmd) (hf : s.cur.unit = 0 ∨ everyFunction cmd = true)
    (hb : ∀ core, body s.cur.unit (s.mailbox s.cur.unit) core = some (status, results, t core)) :
    ∃ core, s.command cmd body =
      .next ((if status = 0 then t core else (t core).endCommand s.cur.unit status results).beat core) := by
  obtain ⟨core, hcore⟩ := Option.isSome_iff_exists.1 ha.core
  have hgo : ¬((!(s.mailbox s.cur.unit).busy) = true ∨ (s.mailbox s.cur.unit).cmd ≠ cmd ∨ (!zeroBytes (s.mailbox s.cur.unit).block 4 4) = true ∨
      s.commandHeld s.cur.unit = true) := by
    rw [ha.busy, ha.code, ha.reserved, ha.free]
    simp
  have hissue : ¬(s.cur.unit ≠ 0 ∧ ((listed.find? (fun c => c.1 == cmd)).map (·.2)).getD false = true) := by
    rintro ⟨hne, hpf⟩
    rcases hf with h0 | hf
    · exact hne h0
    · rw [everyFunction, hpf] at hf
      exact Bool.false_ne_true hf
  refine ⟨core, ?_⟩
  unfold State.command
  dsimp only
  rw [hcore]
  dsimp only
  rw [if_neg hgo, if_neg ha.goes, if_neg hissue, hb]

/-- The end of a command, as far as its answer does not say it. -/
theorem State.command_ends {s : State} {cmd status : Nat} {results : List Nat} {t : Nat → State} {P : State → Prop}
    {body : Nat → Mailbox → Nat → Option (Nat × List Nat × State)} (ha : Asked s cmd) (hf : s.cur.unit = 0 ∨ everyFunction cmd = true)
    (hb : ∀ core, body s.cur.unit (s.mailbox s.cur.unit) core = some (status, results, t core)) (h0 : status ≠ 0)
    (hm : ∀ core, (t core).mailboxes = s.mailboxes) (hwf : ∀ core, (t core).host.wf = true)
    (hP : ∀ core u, u = ((t core).endCommand s.cur.unit status results).beat core → Answered s u status results → P u) :
    ∃ u, s.command cmd body = .next u ∧ P u := by
  obtain ⟨core, hc⟩ := State.command_of ha hf hb
  rw [if_neg h0] at hc
  exact ⟨_, hc, hP core _ rfl (answered_endCommand core status results (hm core) (hwf core))⟩

/-- A command that is refused, or drew a number before. -/
theorem State.command_refuses {s u : State} {cmd status : Nat} {body : Nat → Mailbox → Nat → Option (Nat × List Nat × State)} (ha : Asked s cmd)
    (hf : s.cur.unit = 0 ∨ everyFunction cmd = true) (hwf : s.memWf = true) (hu : u = s ∨ u = s.drawn)
    (hb : ∀ core, body s.cur.unit (s.mailbox s.cur.unit) core = some (status, [], u)) (h0 : status ≠ 0) :
    ∃ t, s.command cmd body = .next t ∧ OnlyAnswered s t status := by
  refine State.command_ends (t := fun _ => u) ha hf hb h0 ?_ ?_ ?_ <;> rcases hu with rfl | rfl
  · exact fun _ => rfl
  · exact fun _ => rfl
  · exact fun _ => State.host_wf hwf
  · exact fun _ => State.host_wf hwf
  · rintro core u rfl hanswer
    exact ⟨hanswer, rfl, rfl, rfl, rfl, rfl, rfl, rfl, rfl, rfl, rfl⟩
  · rintro core u rfl hanswer
    exact ⟨hanswer, rfl, rfl, rfl, rfl, rfl, rfl, rfl, rfl, rfl, rfl⟩

/-! ## Keys and images -/

theorem State.recoverCore_frame (s : State) (n : Nat) :
    (s.recoverCore n).mailboxes = s.mailboxes ∧ (s.recoverCore n).host = s.host ∧ (s.recoverCore n).root = s.root := by
  unfold State.recoverCore
  dsimp only
  split
  · exact ⟨rfl, rfl, rfl⟩
  · split
    · split <;> exact ⟨rfl, rfl, rfl⟩
    · exact ⟨rfl, rfl, rfl⟩

theorem State.foldl_recoverCore_frame (l : List Nat) : ∀ s : State,
    (l.foldl (fun (s : State) n => s.recoverCore n) s).mailboxes = s.mailboxes ∧
      (l.foldl (fun (s : State) n => s.recoverCore n) s).host = s.host ∧
      (l.foldl (fun (s : State) n => s.recoverCore n) s).root = s.root := by
  induction l with
  | nil => exact fun _ => ⟨rfl, rfl, rfl⟩
  | cons n rest ih =>
    intro s
    obtain ⟨hm, hh, hr⟩ := ih (s.recoverCore n)
    obtain ⟨hm', hh', hr'⟩ := s.recoverCore_frame n
    exact ⟨hm.trans hm', hh.trans hh', hr.trans hr'⟩

theorem set_any_enabled {l : List KeySlot} {k : Nat} {x : KeySlot} (hk : k < l.length) (hx : x.enabled = true) :
    (l.set k x).any (·.enabled) = true :=
  List.any_eq_true.2 ⟨x, List.mem_set hk x, hx⟩

theorem keyinstall_claim {s : State} (hwf : s.memWf = true) (h0 : s.cur.unit = 0) (ha : Asked s 0x20) :
    let slot := operandOf s 0
    let key := s.host.readBytes (operandOf s 1) 1952
    let signed := fun (key : List Byte) =>
      s.root.accepts (leBytes 8 slot ++ key ++ leBytes 8 (operandOf s 3)) (s.host.readBytes (operandOf s 2) 3309)
    (slot = 1 ∨ slot = 2 ∨ slot = 3 → operandOf s 1 ≠ 0 → operandOf s 3 = s.root.installCounter + 1 → slot < s.root.keys.length →
      if signed key = true then
        ∃ t, exec .keyinstall s = .next t ∧ Answered s t 1 [] ∧ t.root.installCounter = s.root.installCounter + 1 ∧
          t.root.keys[slot]? = some { key, enabled := true } ∧ ∀ j, j ≠ slot → t.root.keys[j]? = s.root.keys[j]?
      else answers s .keyinstall 2) ∧
    (operandOf s 1 ≠ 0 → (slot = 0 ∨ 3 < slot ∨ operandOf s 3 ≠ s.root.installCounter + 1) → answers s .keyinstall 2) := by
  intro slot key signed
  have hen (h1 : operandOf s 1 ≠ 0) : (operandOf s 1 == 0) = false := beq_eq_false_iff_ne.2 h1
  have hop (n : Nat) : (s.mailbox s.cur.unit).operand n = operandOf s n := rfl
  refine ⟨fun hslot h1 h3 hlen => ?_, fun h1 hbad => ?_⟩
  · split
    next hs =>
      change ∃ t, execKeyinstall s = _ ∧ _
      unfold execKeyinstall
      refine State.command_ends (results := []) (status := 1) (t := fun core => { s.logState core 0 0 [7, slot] with
        root := { s.root with keys := s.root.keys.set slot { key, enabled := true }, installCounter := s.root.installCounter + 1 } })
        ha (.inl h0) (fun core => ?_) Nat.one_ne_zero (fun _ => rfl) (fun _ => State.host_wf hwf) ?_
      · simp only [hop, hen h1, Bool.false_eq_true, if_false, Bool.not_false, Bool.false_or]
        have hany := set_any_enabled (x := { key, enabled := true }) hlen rfl
        have hrange : decide (slot < 4) = true ∧ (slot != 0) = true := by rcases hslot with h | h | h <;> rw [h] <;> exact ⟨rfl, rfl⟩
        refine if_pos ((Bool.and_eq_true _ _).mpr ⟨(Bool.and_eq_true _ _).mpr ⟨(Bool.and_eq_true _ _).mpr ⟨(Bool.and_eq_true _ _).mpr hrange, hs⟩,
          beq_iff_eq.2 h3⟩, hany⟩)
      · rintro core u rfl hanswer
        exact ⟨hanswer, rfl, List.getElem?_set_self hlen, fun j hj => List.getElem?_set_ne hj.symm⟩
    next hs =>
      change ∃ t, execKeyinstall s = _ ∧ _
      unfold execKeyinstall
      refine State.command_refuses ha (.inl h0) hwf (.inl rfl) (fun core => ?_) (by decide)
      simp only [hop, hen h1, Bool.false_eq_true, if_false]
      refine if_neg fun hc => hs ?_
      simp only [Bool.and_eq_true] at hc
      exact hc.1.1.2
  · change ∃ t, execKeyinstall s = _ ∧ _
    unfold execKeyinstall
    refine State.command_refuses ha (.inl h0) hwf (.inl rfl) (fun core => ?_) (by decide)
    simp only [hop, hen h1, Bool.false_eq_true, if_false, Bool.false_or]
    refine if_neg fun hc => ?_
    simp only [Bool.and_eq_true, decide_eq_true_eq, bne_iff_ne, beq_iff_eq] at hc
    obtain ⟨⟨⟨⟨hlow, hpos⟩, -⟩, hcount⟩, -⟩ := hc
    rcases hbad with h | h | h
    · exact hpos h
    · exact absurd hlow (not_lt.2 h)
    · exact h hcount

/-- An accepted image, measured and installed. -/
def State.imageInstalled (s : State) (core kind : Nat) (image : List Byte) : State :=
  { (s.logState core 0 0 [8, kind]).drawn with root := s.root.install kind image }

/-- What an image takes the place of: firmware in the cores named, a supervisor for launches to come (R365). -/
def State.imageTakes (s : State) (kind mask : Nat) : State :=
  if kind = 0 then ((List.range 12).filter (fun n => (BitVec.ofNat 12 mask).getLsbD n)).foldl (fun (s : State) n => s.recoverCore n) s
  else if kind = 1 then
    { s with
      partitions := s.partitions.map (fun p =>
        let set := Config.supervisor (s.draws + p.1)
        (p.1, { p.2 with tvec := set.1, tscratch := set.2.1, canlimit := set.2.2 }))
      draws := s.draws + 12 }
  else s

theorem State.imageTakes_frame (s : State) (kind mask : Nat) : (s.imageTakes kind mask).mailboxes = s.mailboxes ∧
    (s.imageTakes kind mask).host = s.host ∧ (s.imageTakes kind mask).root = s.root := by
  unfold State.imageTakes
  split
  · exact State.foldl_recoverCore_frame _ s
  · split <;> exact ⟨rfl, rfl, rfl⟩

theorem fwload_claim {s : State} (hwf : s.memWf = true) (h0 : s.cur.unit = 0) (ha : Asked s 0x21) :
    let kind := operandOf s 0
    let image := Config.imageBytes s.draws (operandOf s 1)
    (3 < kind → answers s .fwload 3) ∧
    (kind ≤ 3 → if s.root.admits kind image = true then
        ∃ t, exec .fwload s = .next t ∧ Answered s t 1 [] ∧ t.root = s.root.install kind image
      else answers s .fwload 2) := by
  intro kind image
  refine ⟨fun hk => ?_, fun hk => ?_⟩
  · change ∃ t, execFwload s = _ ∧ _
    unfold execFwload
    exact State.command_refuses ha (.inl h0) hwf (.inl rfl) (fun core => if_pos hk) (by decide)
  · split
    next hadmits =>
      have hframe (core : Nat) := (s.imageInstalled core kind image).imageTakes_frame kind (operandOf s 2)
      change ∃ t, execFwload s = _ ∧ _
      unfold execFwload
      refine State.command_ends (status := 1) (results := [])
        (t := fun core => (s.imageInstalled core kind image).imageTakes kind (operandOf s 2)) ha (.inl h0)
        (fun core => (if_neg (not_lt.2 hk)).trans (if_neg (Bool.not_eq_true _ ▸ (congrArg (!·) hadmits))))
        Nat.one_ne_zero (fun core => (hframe core).1) (fun core => (congrArg Memory.wf (hframe core).2.1).trans (State.host_wf hwf)) ?_
      rintro core u rfl hanswer
      exact ⟨hanswer, (hframe core).2.2⟩
    next hnot =>
      change ∃ t, execFwload s = _ ∧ _
      unfold execFwload
      exact State.command_refuses ha (.inl h0) hwf (.inr rfl)
        (fun core => (if_neg (not_lt.2 hk)).trans (if_pos (congrArg (!·) (eq_false_of_ne_true hnot)))) (by decide)

/-! ## The recorder -/

theorem reccfg_claim {s : State} (hwf : s.memWf = true) (h0 : s.cur.unit = 0) (ha : Asked s 0x30) :
    let part := operandOf s 0
    let base := operandOf s 1
    let size := operandOf s 2
    let fits := (lookup s.partitions part).isSome = true ∧ Config.hbmBytes ≤ base ∧ base + size ≤ Config.hbmBytes + Config.tier2Bytes
    (fits → ∃ t r, exec .reccfg s = .next t ∧ Answered s t 1 [] ∧ lookup t.recorders part = some r ∧ r.base = base ∧ r.size = size ∧
      r.records = [] ∧ ∀ k, k ≠ part → lookup t.recorders k = lookup s.recorders k) ∧
    (¬ fits → answers s .reccfg 2) := by
  intro part base size fits
  refine ⟨fun hfits => ?_, fun hnot => ?_⟩
  · have hgo : ¬((lookup s.partitions part).isNone = true ∨ base < Config.hbmBytes ∨ Config.hbmBytes + Config.tier2Bytes < base + size) := by
      obtain ⟨hpart, hlow, hhigh⟩ := hfits
      rintro (h | h | h)
      · exact Option.isSome_iff_ne_none.1 hpart (Option.isNone_iff_eq_none.1 h)
      · exact absurd hlow (not_le.2 h)
      · exact absurd hhigh (not_le.2 h)
    suffices h : ∃ t, exec .reccfg s = .next t ∧ ∃ r, Answered s t 1 [] ∧ lookup t.recorders part = some r ∧ r.base = base ∧ r.size = size ∧
        r.records = [] ∧ ∀ k, k ≠ part → lookup t.recorders k = lookup s.recorders k by
      obtain ⟨t, ht, r, hr⟩ := h
      exact ⟨t, r, ht, hr⟩
    change ∃ t, execReccfg s = _ ∧ _
    unfold execReccfg
    refine State.command_ends (status := 1) (results := []) (t := fun core => { s.logState core 0 0 [9, part] with
      recorders := insertKey s.recorders part
        { base, size, nextIndex := ((lookup s.recorders part).map (·.nextIndex)).getD 0, records := [] } })
      ha (.inl h0) (fun core => if_neg hgo) Nat.one_ne_zero (fun _ => rfl) (fun _ => State.host_wf hwf) ?_
    rintro core u rfl hanswer
    exact ⟨_, hanswer, lookup_insertKey_self .., rfl, rfl, rfl, fun k hk => lookup_insertKey_ne _ _ hk⟩
  · change ∃ t, execReccfg s = _ ∧ _
    unfold execReccfg
    refine State.command_refuses ha (.inl h0) hwf (.inl rfl) (fun core => if_pos ?_) (by decide)
    by_contra hc
    rw [not_or, not_or, not_lt, not_lt] at hc
    obtain ⟨hpart, hrange⟩ := hc
    exact hnot ⟨Option.isSome_iff_ne_none.2 fun h => hpart (Option.isNone_iff_eq_none.2 h), hrange⟩

/-- R369: a replay that has ended, before its mailbox is answered. -/
def State.replayEnded (s : State) (core part : Nat) : State :=
  { s.logState core 0 0 [10, part] with replaying := eraseKey s.replaying part }

theorem queue?_haltQueues {s : State} {part q : Nat} {x : Queue} (h : s.queue? q = some x) (hp : x.part = part) :
    ∃ x', (s.haltQueues part).queue? q = some x' ∧ x'.halted = some 0 := by
  refine ⟨{ x with halted := some 0 }, ?_, rfl⟩
  have hx : lookup s.queues q = some x := h
  refine (lookup_map_keys ?_ s.queues q).trans ?_
  · exact fun _ => rfl
  · rw [hx]
    exact congrArg some (if_pos hp)

/-- R369: a replay of some records that begins. -/
def State.replayBegun (s : State) (part : Nat) (records : List (Nat × Nat × List Nat)) : State :=
  { s with replaying := insertKey s.replaying part { func := s.cur.unit, records, shift := [], diverged := none } }

theorem replay_claim {s : State} (hwf : s.memWf = true) (h0 : s.cur.unit = 0) (ha : Asked s 0x31) :
    let part := operandOf s 0
    (lookup s.replaying part = none → lookup s.recorders part = none → answers s .replay 2) ∧
    (∀ rec, lookup s.replaying part = none → lookup s.recorders part = some rec → s.idle part = true → operandOf s 1 ≤ operandOf s 2 →
      (∃ x ∈ rec.records, operandOf s 1 ≤ x.1 ∧ x.1 ≤ operandOf s 2) →
      ∃ t r, exec .replay s = .next t ∧ t.mailboxes = s.mailboxes ∧ lookup t.replaying part = some r ∧ r.diverged = none ∧ t.host = s.host ∧
        r.records = rec.records.filter (fun x => decide (operandOf s 1 ≤ x.1) && decide (x.1 ≤ operandOf s 2))) ∧
    (∀ r, lookup s.replaying part = some r → r.func = 0 →
      (r.diverged = none → r.records = [] → ∃ t, exec .replay s = .next t ∧ Answered s t 1 [] ∧ Dropped s.replaying t.replaying part ∧
        t.queues = s.queues) ∧
      (∀ index, r.diverged = some index → ∃ t, exec .replay s = .next t ∧ Answered s t 5 [index] ∧ Dropped s.replaying t.replaying part ∧
        ∀ q x, s.queue? q = some x → x.part = part → ∃ x', t.queue? q = some x' ∧ x'.halted = some 0)) := by
  intro part
  refine ⟨fun hnone hrec => ?_, fun rec hnone hrec hidle hrange hsome => ?_, fun r hr hfunc => ⟨fun hdiv hrecords => ?_, fun index hdiv => ?_⟩⟩
  · change lookup s.replaying ((s.mailbox s.cur.unit).operand 0) = none at hnone
    change lookup s.recorders ((s.mailbox s.cur.unit).operand 0) = none at hrec
    change ∃ t, execReplay s = _ ∧ _
    unfold execReplay
    refine State.command_refuses ha (.inl h0) hwf (.inl rfl) (fun core => ?_) (by decide)
    dsimp only
    rw [hnone]
    dsimp only
    rw [hrec]
    rfl
  · have hfilter : (rec.records.filter (fun x => decide (operandOf s 1 ≤ x.1) && decide (x.1 ≤ operandOf s 2))).isEmpty = false := by
      obtain ⟨x, hx, hlow, hhigh⟩ := hsome
      refine List.isEmpty_eq_false_iff_exists_mem.2 ⟨x, List.mem_filter.2 ⟨hx, ?_⟩⟩
      rw [decide_eq_true hlow, decide_eq_true hhigh]
      rfl
    have hgo : ¬((!s.idle part) = true ∨ operandOf s 2 < operandOf s 1) := by
      rw [hidle]
      exact not_or.2 ⟨Bool.false_ne_true, not_lt.2 hrange⟩
    change lookup s.replaying ((s.mailbox s.cur.unit).operand 0) = none at hnone
    change lookup s.recorders ((s.mailbox s.cur.unit).operand 0) = some rec at hrec
    suffices h : ∃ core, execReplay s = .next ((s.replayBegun part
        (rec.records.filter (fun x => decide (operandOf s 1 ≤ x.1) && decide (x.1 ≤ operandOf s 2)))).beat core) by
      obtain ⟨core, hc⟩ := h
      exact ⟨_, _, hc, rfl, lookup_insertKey_self .., rfl, rfl, rfl⟩
    unfold execReplay
    refine State.command_of (status := 0) (results := []) (t := fun _ => s.replayBegun part _) ha (.inl h0) (fun core => ?_)
    dsimp only
    rw [hnone]
    dsimp only
    rw [hrec]
    exact (if_neg hgo).trans (if_neg (hfilter ▸ Bool.false_ne_true))
  · have hdropped := dropped_eraseKey hr
    change lookup s.replaying ((s.mailbox s.cur.unit).operand 0) = some r at hr
    change ∃ t, execReplay s = _ ∧ _
    unfold execReplay
    refine State.command_ends (status := 1) (results := []) (t := fun core => s.replayEnded core part) ha (.inl h0) (fun core => ?_)
      Nat.one_ne_zero (fun _ => rfl) (fun _ => State.host_wf hwf) ?_
    · dsimp only
      rw [hr]
      dsimp only
      rw [hdiv, hrecords]
      exact if_neg (not_not.2 (hfunc.trans h0.symm))
    · rintro core u rfl hanswer
      exact ⟨hanswer, hdropped, rfl⟩
  · have hdropped := dropped_eraseKey hr
    change lookup s.replaying ((s.mailbox s.cur.unit).operand 0) = some r at hr
    change ∃ t, execReplay s = _ ∧ _
    unfold execReplay
    refine State.command_ends (status := 5) (results := [index]) (t := fun core => (s.replayEnded core part).haltQueues part) ha (.inl h0)
      (fun core => ?_) (by decide) (fun _ => rfl) (fun _ => State.host_wf hwf) ?_
    · dsimp only
      rw [hr]
      dsimp only
      rw [hdiv]
      exact if_neg (not_not.2 (hfunc.trans h0.symm))
    · rintro core u rfl hanswer
      exact ⟨hanswer, hdropped, fun q x hx hp => queue?_haltQueues (s := s.replayEnded core part) hx hp⟩

/-- Settles O50: each command by its body's branch, and by what the end of a command leaves. -/
theorem rootAndRecorderCommands : Obligations.RootAndRecorderCommands :=
  ⟨fun _ hwf h0 => ⟨keyinstall_claim hwf h0, fwload_claim hwf h0⟩, fun _ hwf h0 => ⟨reccfg_claim hwf h0, replay_claim hwf h0⟩⟩

end Sys2Proof.Machine

/-! # Chapters 21, 22 and 24: BINDAS, UNBINDAS, PARTCFG and RETIRECL, R323, R354, R362 and R367 -/

namespace Sys2Proof.Machine
-- one proof at a time: the memory of proofs in flight together is more than the check has
set_option Elab.async false
open Sys2Proof.Claim

/-! ## Address spaces -/

/-- log 39: a number that is free is found, wherever the search begins. -/
theorem freeFrom_free {start bound : Nat} {taken : Nat → Bool} (h : ∃ n < bound, taken n = false) :
    ∃ n, freeFrom start bound taken = some n ∧ n < bound ∧ taken n = false := by
  obtain ⟨n, hn, hfree⟩ := h
  have hpos : 0 < bound := Nat.zero_lt_of_lt hn
  cases hf : freeFrom start bound taken with
  | some m =>
    obtain ⟨i, -, hi⟩ := List.mem_map.1 (List.mem_of_find?_eq_some hf)
    refine ⟨m, rfl, hi ▸ Nat.mod_lt _ hpos, ?_⟩
    exact (Bool.not_eq_true' _).mp (List.find?_some (p := fun n => !taken n) hf)
  | none =>
    refine absurd (List.find?_eq_none.1 hf n (List.mem_map.2 ⟨(n + (bound - start % bound)) % bound, List.mem_range.2 (Nat.mod_lt _ hpos), ?_⟩))
      (by rw [hfree]; simp)
    have hs := Nat.mod_lt start hpos
    rw [Nat.add_mod, Nat.mod_mod, ← Nat.add_mod, ← Nat.mod_add_mod, show start % bound + (n + (bound - start % bound)) = n + bound by omega,
      Nat.add_mod_right, Nat.mod_eq_of_lt hn]

theorem reaches_of {func part : Nat} (h : func = 0 ∨ func = part + 1) : reaches func part = true :=
  (Bool.or_eq_true _ _).mpr (h.imp beq_iff_eq.2 beq_iff_eq.2)

theorem bindas_claim {s : State} (hwf : s.memWf = true) (ha : Asked s 3) :
    (parseSpace ((s.mailbox s.cur.unit).block.drop 16) = none → answers s .bindas 3) ∧
    (∀ r, parseSpace ((s.mailbox s.cur.unit).block.drop 16) = some r → operandOf s 0 = r.pasid → s.cur.unit = 0 ∨ s.cur.unit = r.part + 1 →
      (s.spaceOf r.pasid r.func ≠ none → answers s .bindas 2) ∧
      (s.spaceOf r.pasid r.func = none → (∃ a < 65536, a ≠ 0 ∧ lookup s.spaces a = none) →
        ∃ t a, exec .bindas s = .next t ∧ 0 < a ∧ a < 65536 ∧ lookup s.spaces a = none ∧ lookup t.spaces a = some r ∧
          (∀ k, k ≠ a → lookup t.spaces k = lookup s.spaces k) ∧ Answered s t 1 [a])) := by
  refine ⟨fun hnone => ?_, fun r hr hpasid hfunc => ⟨fun hbound => ?_, fun hnew hfree => ?_⟩⟩
  · change ∃ t, execBindas s = _ ∧ _
    unfold execBindas
    refine State.command_refuses ha (.inr (by decide)) hwf (.inl rfl) (fun core => ?_) (by decide)
    rw [hnone]
    rfl
  · have hb : (s.spaceOf r.pasid r.func).isNone = false := eq_false_of_ne_true fun h => hbound (Option.isNone_iff_eq_none.1 h)
    change ∃ t, execBindas s = _ ∧ _
    unfold execBindas
    refine State.command_refuses ha (.inr (by decide)) hwf (.inl rfl) (fun core => ?_) (by decide)
    rw [hr]
    dsimp only
    rw [hb, Bool.and_false, if_neg Bool.false_ne_true]
    exact if_neg (not_not.2 hpasid)
  · obtain ⟨a, hfrom, hlt, htaken⟩ := freeFrom_free (start := Config.pick s.draws % 65536)
      (taken := fun a => a == 0 || (lookup s.spaces a).isSome)
      (hfree.imp fun a h => ⟨h.1, by rw [h.2.2, beq_eq_false_iff_ne.2 h.2.1]; rfl⟩)
    obtain ⟨hne, hlook⟩ := Bool.or_eq_false_iff.1 htaken
    suffices h : ∃ t, exec .bindas s = .next t ∧ lookup t.spaces a = some r ∧ (∀ k, k ≠ a → lookup t.spaces k = lookup s.spaces k) ∧
        Answered s t 1 [a] by
      obtain ⟨t, ht, hrest⟩ := h
      exact ⟨t, a, ht, Nat.pos_of_ne_zero (beq_eq_false_iff_ne.1 hne), hlt, Option.not_isSome_iff_eq_none.1 (Bool.eq_false_iff.1 hlook), hrest⟩
    change ∃ t, execBindas s = _ ∧ _
    unfold execBindas
    refine State.command_ends (status := 1) (results := [a])
      (t := fun core => { (s.logState core 0 0 [4, a, 1]).drawn with spaces := insertKey s.spaces a r })
      ha (.inr (by decide)) (fun core => ?_) Nat.one_ne_zero (fun _ => rfl) (fun _ => State.host_wf hwf) ?_
    · rw [hr]
      dsimp only
      rw [reaches_of hfunc, hnew, Option.isNone_none, Bool.and_true, if_pos rfl, hfrom]
      exact if_neg (not_not.2 hpasid)
    · rintro core u rfl hanswer
      exact ⟨lookup_insertKey_self .., fun k hk => lookup_insertKey_ne _ _ hk, hanswer⟩

theorem unbindas_claim {s : State} (hwf : s.memWf = true) (ha : Asked s 4) :
    (lookup s.spaces (operandOf s 0) = none → answers s .unbindas 2) ∧
    (∀ r, lookup s.spaces (operandOf s 0) = some r → s.cur.unit = 0 ∨ s.cur.unit = r.part + 1 →
      ((∃ e ∈ s.queues, e.1 < queueNumbers ∧ e.2.asid = operandOf s 0) → answers s .unbindas 2) ∧
      ((∀ e ∈ s.queues, e.2.asid ≠ operandOf s 0) → ∃ t, exec .unbindas s = .next t ∧ Answered s t 1 [] ∧
        Dropped s.spaces t.spaces (operandOf s 0) ∧ t.tlbseq = s.tlbseq + 1 ∧ ∀ e, e ∈ t.tlb ↔ e ∈ s.tlb ∧ e.asid ≠ operandOf s 0)) := by
  have hop : (s.mailbox s.cur.unit).operand 0 = operandOf s 0 := rfl
  refine ⟨fun hnone => ?_, fun r hr hfunc => ⟨fun hused => ?_, fun hunused => ?_⟩⟩
  · change ∃ t, execUnbindas s = _ ∧ _
    unfold execUnbindas
    refine State.command_refuses ha (.inr (by decide)) hwf (.inl rfl) (fun core => ?_) (by decide)
    dsimp only
    rw [hop, hnone]
    rfl
  · have hany : s.queues.any (fun q => decide (q.1 < queueNumbers) && q.2.asid == operandOf s 0) = true := by
      obtain ⟨e, he, hlow, hasid⟩ := hused
      exact List.any_eq_true.2 ⟨e, he, (Bool.and_eq_true _ _).mpr ⟨decide_eq_true hlow, beq_iff_eq.2 hasid⟩⟩
    change ∃ t, execUnbindas s = _ ∧ _
    unfold execUnbindas
    refine State.command_refuses ha (.inr (by decide)) hwf (.inl rfl) (fun core => ?_) (by decide)
    dsimp only
    rw [hop, hr]
    exact if_pos ((Bool.or_eq_true _ _).mpr (.inr hany))
  · have hany : s.queues.any (fun q => decide (q.1 < queueNumbers) && q.2.asid == operandOf s 0) = false := by
      refine eq_false_of_ne_true fun h => ?_
      obtain ⟨e, he, hq⟩ := List.any_eq_true.1 h
      exact hunused e he (beq_iff_eq.1 ((Bool.and_eq_true _ _).mp hq).2)
    change ∃ t, execUnbindas s = _ ∧ _
    unfold execUnbindas
    refine State.command_ends (status := 1) (results := [])
      (t := fun core => ({ s.logState core 0 0 [4, operandOf s 0, 0] with spaces := eraseKey s.spaces (operandOf s 0) } : State).invalidate
        (.space (operandOf s 0)))
      ha (.inr (by decide)) (fun core => ?_) Nat.one_ne_zero (fun _ => rfl) (fun _ => State.host_wf hwf) ?_
    · dsimp only
      rw [hop, hr]
      dsimp only
      rw [reaches_of hfunc, hany]
      rfl
    · rintro core u rfl hanswer
      refine ⟨hanswer, dropped_eraseKey hr, rfl, fun e => ?_⟩
      refine List.mem_filter.trans (and_congr_right' ?_)
      exact (Bool.not_eq_true' _).to_iff.trans beq_eq_false_iff_ne

/-! ## Pre-emption of many strands -/

theorem State.requestPreempt_frame (s : State) (k : Nat) (reason : BitVec 8) :
    (s.requestPreempt k reason).mailboxes = s.mailboxes ∧ (s.requestPreempt k reason).host = s.host ∧
      (s.requestPreempt k reason).partitions = s.partitions ∧ (s.requestPreempt k reason).clusters = s.clusters ∧
      (s.requestPreempt k reason).now = s.now :=
  ⟨State.updStrand_mailboxes .., State.updStrand_host .., State.updStrand_partitions .., State.updStrand_clusters .., State.updStrand_now ..⟩

theorem State.foldl_requestPreempt_frame (reason : BitVec 8) (l : List Nat) : ∀ s : State,
    let t := l.foldl (fun (s : State) k => s.requestPreempt k reason) s
    t.mailboxes = s.mailboxes ∧ t.host = s.host ∧ t.partitions = s.partitions ∧ t.clusters = s.clusters ∧ t.now = s.now := by
  induction l with
  | nil => exact fun _ => ⟨rfl, rfl, rfl, rfl, rfl⟩
  | cons k rest ih =>
    intro s
    obtain ⟨h1, h2, h3, h4, h5⟩ := ih (s.requestPreempt k reason)
    obtain ⟨g1, g2, g3, g4, g5⟩ := s.requestPreempt_frame k reason
    exact ⟨h1.trans g1, h2.trans g2, h3.trans g3, h4.trans g4, h5.trans g5⟩

/-- A strand whose execute context has been asked, at a cycle, to be pre-empted for a reason. -/
def AskedAway (s : State) (slot now : Nat) (reason : BitVec 8) : Prop :=
  ∃ st, s.strand? slot = some st ∧ st.exec.preempt = some now ∧ st.exec.reason = reason

theorem Context.request_asked {c : Context} {now since : Nat} (reason : BitVec 8) (h : c.preempt = some since) : c.request reason now = c := by
  refine if_pos ?_
  rw [h, Option.isSome_some, Bool.or_true]

theorem AskedAway.requestPreempt {s : State} {slot now : Nat} {reason : BitVec 8} (h : AskedAway s slot now reason) (k : Nat) :
    AskedAway (s.requestPreempt k reason) slot now reason := by
  obtain ⟨st, hst, hpre, hreason⟩ := h
  by_cases hk : slot = k
  · subst hk
    refine ⟨_, State.strand?_updStrand _ _ hst, ?_⟩
    split
    · exact ⟨hpre, hreason⟩
    · rw [Context.request_asked reason hpre]
      exact ⟨hpre, hreason⟩
  · exact ⟨st, (State.strand?_updStrand_ne _ _ hk).trans hst, hpre, hreason⟩

/-- R315: the request reaches every strand of a list that is there to take it. -/
theorem State.foldl_requestPreempt_asks {slot : Nat} {st : Strand} (reason : BitVec 8) (hlife : st.life ≠ .retired) (hlives : lives st.exec)
    (hpre : st.exec.preempt = none) (l : List Nat) : ∀ s : State,
    (s.strand? slot = some st ∧ slot ∈ l) ∨ AskedAway s slot s.now reason →
      AskedAway (l.foldl (fun (s : State) k => s.requestPreempt k reason) s) slot s.now reason := by
  induction l with
  | nil => exact fun s h => h.elim (fun h => absurd h.2 List.not_mem_nil) id
  | cons k rest ih =>
    intro s h
    have hnow : (s.requestPreempt k reason).now = s.now := State.updStrand_now ..
    refine hnow ▸ ih (s.requestPreempt k reason) ?_
    rw [hnow]
    rcases h with ⟨hst, hmem⟩ | h
    · by_cases hk : slot = k
      · subst hk
        refine .inr ⟨_, State.strand?_updStrand _ _ hst, ?_⟩
        rw [if_neg hlife, Context.request_of reason s.now hlives hpre]
        exact ⟨rfl, rfl⟩
      · exact .inl ⟨(State.strand?_updStrand_ne _ _ hk).trans hst, (List.mem_cons.1 hmem).resolve_left hk⟩
    · exact .inr (h.requestPreempt k)

/-! ## Partitions and clusters -/

theorem State.applyPart_frame (s : State) (r : PartRecord) :
    (s.applyPart r).mailboxes = s.mailboxes ∧ (s.applyPart r).host = s.host ∧ ∃ p, (s.applyPart r).partitions = insertKey s.partitions r.part p ∧
      p.stackGroups = r.stackGroups ∧ p.ports = r.ports ∧ p.wsBanks = r.wsBanks := by
  refine ⟨(State.foldl_requestPreempt_frame 2 _ _).1, (State.foldl_requestPreempt_frame 2 _ _).2.1, _,
    (State.foldl_requestPreempt_frame 2 _ _).2.2.1, rfl, rfl, rfl⟩

theorem partcfg_claim {s : State} (hwf : s.memWf = true) (h0 : s.cur.unit = 0) (ha : Asked s 0x10) :
    (parsePart ((s.mailbox 0).block.drop 8) = none → answers s .partcfg 3) ∧
    (∀ r, parsePart ((s.mailbox 0).block.drop 8) = some r →
      (s.partOk r = false → answers s .partcfg 2) ∧
      (s.partOk r = true → ∃ t p, exec .partcfg s = .next t ∧ Answered s t 1 [] ∧ lookup t.partitions r.part = some p ∧
        p.stackGroups = r.stackGroups ∧ p.ports = r.ports ∧ p.wsBanks = r.wsBanks ∧
        ∀ k, k ≠ r.part → lookup t.partitions k = lookup s.partitions k)) := by
  rw [← h0]
  refine ⟨fun hnone => ?_, fun r hr => ⟨fun hbad => ?_, fun hok => ?_⟩⟩
  · change ∃ t, execPartcfg s = _ ∧ _
    unfold execPartcfg
    refine State.command_refuses ha (.inl h0) hwf (.inl rfl) (fun core => ?_) (by decide)
    rw [hnone]
    rfl
  · change ∃ t, execPartcfg s = _ ∧ _
    unfold execPartcfg
    refine State.command_refuses ha (.inl h0) hwf (.inl rfl) (fun core => ?_) (by decide)
    rw [hr]
    exact if_neg (hbad ▸ Bool.false_ne_true)
  · suffices h : ∃ t, exec .partcfg s = .next t ∧ ∃ p, Answered s t 1 [] ∧ lookup t.partitions r.part = some p ∧
        p.stackGroups = r.stackGroups ∧ p.ports = r.ports ∧ p.wsBanks = r.wsBanks ∧
        ∀ k, k ≠ r.part → lookup t.partitions k = lookup s.partitions k by
      obtain ⟨t, ht, p, hp⟩ := h
      exact ⟨t, p, ht, hp⟩
    have hframe (core : Nat) := (s.logState core 0 0 [5, r.part]).applyPart_frame r
    change ∃ t, execPartcfg s = _ ∧ _
    unfold execPartcfg
    refine State.command_ends (status := 1) (results := []) (t := fun core => (s.logState core 0 0 [5, r.part]).applyPart r)
      ha (.inl h0) (fun core => ?_) Nat.one_ne_zero (fun core => (hframe core).1)
      (fun core => (congrArg Memory.wf (hframe core).2.1).trans (State.host_wf hwf)) ?_
    · rw [hr]
      exact if_pos hok
    · rintro core u rfl hanswer
      obtain ⟨-, -, p, hparts, hrest⟩ := hframe core
      obtain ⟨hstacks, hports, hbanks⟩ := hrest
      exact ⟨p, hanswer, (congrArg (lookup · r.part) hparts).trans (lookup_insertKey_self ..), hstacks, hports, hbanks,
        fun k hk => (congrArg (lookup · k) hparts).trans (lookup_insertKey_ne _ _ hk)⟩

theorem State.preemptAll_asks {s : State} {slot : Nat} {st : Strand} {slots : List Nat} (reason : BitVec 8) (h : s.strand? slot = some st)
    (hlife : st.life ≠ .retired) (hlives : lives st.exec) (hpre : st.exec.preempt = none) (hmem : slot ∈ slots) :
    AskedAway (s.preemptAll slots reason) slot s.now reason :=
  State.foldl_requestPreempt_asks reason hlife hlives hpre _ s
    (.inl ⟨h, List.mem_eraseDups.2 (List.mem_flatMap.2 ⟨slot, hmem, State.self_mem_preemptedWith h⟩)⟩)

/-- R367: a cluster out of service. -/
def State.outOfService (s : State) (k : Nat) : State := s.setCluster k { s.cluster k with inService := false }

/-- R367: what RETIRECL leaves where no launch is a cohort. -/
theorem State.retireCluster_of {s : State} (k : Nat) (hcohort : ∀ e ∈ s.launches, e.2.spec.cohort = false) :
    s.retireCluster k = (s.outOfService k).preemptAll
      ((((s.outOfService k).clusterStrands k).filter (fun p : Nat × Strand => p.2.life != .retired)).map (·.1)) 3 := by
  have hunfit (f : Nat × Launch → Bool) (g : Nat × Launch → Bool) : s.launches.filter (fun l => l.2.spec.cohort && f l && g l) = [] := by
    refine List.filter_eq_nil_iff.2 fun l hl => ?_
    rw [hcohort l hl]
    exact Bool.false_ne_true
  unfold State.retireCluster
  dsimp only
  rw [State.setCluster_launches, hunfit, List.map_nil, List.foldl_nil]
  refine congrArg (fun l : List (Nat × Strand) => (s.outOfService k).preemptAll (l.map (·.1)) 3) (List.filter_congr fun p _ => ?_)
  rw [List.contains_nil, Bool.not_false, Bool.and_true]

theorem State.retireCluster_frame {s : State} (k : Nat) (hcohort : ∀ e ∈ s.launches, e.2.spec.cohort = false) :
    (s.retireCluster k).mailboxes = s.mailboxes ∧ (s.retireCluster k).host = s.host ∧
      (∀ j, (s.retireCluster k).cluster j = (s.outOfService k).cluster j) ∧
      ∀ slot st, s.strand? slot = some st → clusterOf slot = k → st.life ≠ .retired → lives st.exec → st.exec.preempt = none →
        AskedAway (s.retireCluster k) slot s.now 3 := by
  rw [State.retireCluster_of k hcohort]
  obtain ⟨hm, hh, -, hc, -⟩ := State.foldl_requestPreempt_frame 3
    (((((s.outOfService k).clusterStrands k).filter (fun p : Nat × Strand => p.2.life != .retired)).map (·.1)).flatMap
      (s.outOfService k).preemptedWith).eraseDups (s.outOfService k)
  refine ⟨hm, hh, fun j => congrArg (fun l => (lookup l j).getD Cluster.blank) hc, fun slot st hst hk hlife hlives hpre => ?_⟩
  refine State.preemptAll_asks (s := s.outOfService k) 3 hst hlife hlives hpre ?_
  exact List.mem_map.2 ⟨(slot, st), List.mem_filter.2 ⟨List.mem_filter.2 ⟨lookup_mem hst, beq_iff_eq.2 hk⟩, bne_iff_ne.2 hlife⟩, rfl⟩

/-- The answer of a command changes no strand. -/
theorem State.strand?_endCommand_beat (s : State) (func status : Nat) (results : List Nat) (core slot : Nat) :
    ((s.endCommand func status results).beat core).strand? slot = s.strand? slot := rfl

theorem retirecl_claim {s : State} (hwf : s.memWf = true) (h0 : s.cur.unit = 0) (ha : Asked s 0x11) :
    (192 ≤ operandOf s 0 → answers s .retirecl 3) ∧
    (operandOf s 0 < 192 → (∀ e ∈ s.launches, e.2.spec.cohort = false) → ∃ t, exec .retirecl s = .next t ∧ Answered s t 1 [] ∧
      (t.cluster (operandOf s 0)).inService = false ∧ (∀ j, j ≠ operandOf s 0 → t.cluster j = s.cluster j) ∧
      ∀ slot st, s.strand? slot = some st → clusterOf slot = operandOf s 0 → st.life ≠ .retired → lives st.exec → st.exec.preempt = none →
        ∃ st', t.strand? slot = some st' ∧ st'.exec.preempt = some s.now ∧ st'.exec.reason = 3) := by
  refine ⟨fun hlarge => ?_, fun hsmall hcohort => ?_⟩
  · change ∃ t, execRetirecl s = _ ∧ _
    unfold execRetirecl
    exact State.command_refuses ha (.inl h0) hwf (.inl rfl) (fun core => if_pos hlarge) (by decide)
  · have hframe (core : Nat) := State.retireCluster_frame (s := s.logState core 0 0 [6, operandOf s 0]) (operandOf s 0) hcohort
    change ∃ t, execRetirecl s = _ ∧ _
    unfold execRetirecl
    refine State.command_ends (status := 1) (results := [])
      (t := fun core => (s.logState core 0 0 [6, operandOf s 0]).retireCluster (operandOf s 0))
      ha (.inl h0) (fun core => if_neg (not_le.2 hsmall)) Nat.one_ne_zero (fun core => (hframe core).1)
      (fun core => (congrArg Memory.wf (hframe core).2.1).trans (State.host_wf hwf)) ?_
    rintro core u rfl hanswer
    obtain ⟨-, -, hcluster, hasks⟩ := hframe core
    refine ⟨hanswer, ?_, fun j hj => ?_, fun slot st hst hk hlife hlives hpre => ?_⟩
    · change (((s.logState core 0 0 [6, operandOf s 0]).retireCluster (operandOf s 0)).cluster (operandOf s 0)).inService = false
      rw [hcluster, State.outOfService, State.cluster_setCluster]
    · change ((s.logState core 0 0 [6, operandOf s 0]).retireCluster (operandOf s 0)).cluster j = s.cluster j
      rw [hcluster, State.outOfService, State.cluster_setCluster_ne _ _ hj]
      rfl
    · obtain ⟨st', hst', hasked⟩ := hasks slot st hst hk hlife hlives hpre
      exact ⟨st', (State.strand?_endCommand_beat ..).trans hst', hasked⟩

/-- Settles O49: each command by its body's branch, and by what the end of a command leaves. -/
theorem spaceAndPartitionCommands : Obligations.SpaceAndPartitionCommands :=
  ⟨fun _ hwf => ⟨bindas_claim hwf, unbindas_claim hwf⟩, fun _ hwf h0 => ⟨partcfg_claim hwf h0, retirecl_claim hwf h0⟩⟩

end Sys2Proof.Machine

/-! # Chapter 10: the stream units, R211, R212 and R216 -/

namespace Sys2Proof.Machine
-- one proof at a time: the memory of proofs in flight together is more than the check has
set_option Elab.async false
open Sys2Proof.Claim

theorem Strand.stream_setStream {st : Strand} {k : Nat} (x : Option Stream) (hk : k < 8) : (st.setStream k x).stream k = x := by
  unfold Strand.setStream Strand.stream
  rw [dif_pos hk]
  simp [List.getD_eq_getElem?_getD]

theorem Strand.stream_setStream_ne {st : Strand} {k j : Nat} (x : Option Stream) (hj : j ≠ k) : (st.setStream k x).stream j = st.stream j := by
  unfold Strand.setStream Strand.stream
  split
  · simp [List.getD_eq_getElem?_getD, hj.symm]
  · rfl

theorem Strand.setStream_v (st : Strand) (k : Nat) (x : Option Stream) : (st.setStream k x).v = st.v := by
  unfold Strand.setStream
  split <;> rfl

/-- R211: the pattern of a slot is read ahead. -/
theorem execStreamPatternRead_of {s : State} {st : Strand} {x : Stream} (h : s.strand? s.cur.slot = some st) (hx : st.stream s.cur.unit = some x)
    (hlife : st.life = .running) (hfault : x.readFault = none) (hout : x.output = false) (hsource : x.source = .pattern)
    (hframe : st.frame = none) :
    ((4 ≤ x.chunks.length ∨ x.total ≤ x.arrived) → exec .streamPatternRead s = .next s) ∧
    (x.chunks.length < 4 → x.arrived < x.total →
      let a := agentOf s.cur.slot st st.exec.priv (.stream s.cur.slot s.cur.unit)
      let addresses := (List.range (min x.chunk (x.elements - x.arrived * x.chunk))).map (fun j => x.address (x.arrived * x.chunk + j))
      exec .streamPatternRead s = s.streamEnd s.cur.slot a st x (fun y st => st.setStream s.cur.unit (some y))
        (fun d => { x.pin a.asid addresses (fun page => x.lastUse page / x.chunk) with
          arrived := x.arrived + 1, chunks := x.chunks ++ [(x.arrived, d)] })
        (s.streamRead x (fun va n s => s.loadVA a st st.strip .load va n (fun _ => true) x.alloc) (addresses.map (fun va => (va, false))))) := by
  have hready : (x.output || x.source != .pattern || x.readFault.isSome || st.frame.isSome || st.life != .running) = false := by
    rw [hout, hsource, hfault, hframe, hlife]
    rfl
  change (_ → execStreamPatternRead s = _) ∧ (_ → _ → execStreamPatternRead s = _)
  unfold execStreamPatternRead
  dsimp only
  rw [h]
  dsimp only
  rw [hx]
  dsimp only
  rw [hready, Bool.false_or]
  refine ⟨fun hnone => if_pos ((Bool.or_eq_true _ _).mpr (hnone.symm.imp decide_eq_true decide_eq_true)), fun hroom hmore => ?_⟩
  rw [decide_eq_false (not_le.2 hmore), decide_eq_false (not_le.2 hroom)]
  exact if_neg Bool.false_ne_true

/-- R212: the data of a slot's oldest SFEED. -/
theorem execStreamChunkArrival_of {s : State} {st : Strand} {x : Stream} {va : Word} {n : Nat} {pages : List HeldPage}
    {rest : List (Word × Nat × List HeldPage)} (h : s.strand? s.cur.slot = some st) (hx : st.stream s.cur.unit = some x)
    (hlife : st.life = .running) (hfault : x.readFault = none) (hfeed : x.feeding = (va, n, pages) :: rest) :
    exec .streamChunkArrival s = s.streamEnd s.cur.slot (agentOf s.cur.slot st st.access.priv (.stream s.cur.slot s.cur.unit)) st x
      (fun y st => st.setStream s.cur.unit (some y))
      (fun d => { x with arrived := x.arrived + 1, chunks := x.chunks ++ [(x.arrived, d)], feeding := rest })
      (s.streamRead x (fun va n s1 => s1.loadFed (agentOf s.cur.slot st st.access.priv (.stream s.cur.slot s.cur.unit)) st x pages va n)
        ((List.range n).map (fun (j : Nat) => ((va.toNat + j * x.width / 8) % 2 ^ 64, j % 2 == 1)))) := by
  have hfed : st.fed s.cur.unit = some (x, fun z (st : Strand) => st.setStream s.cur.unit (some z)) := by
    simp only [Strand.fed, hx, hfeed, List.isEmpty_cons, Bool.false_eq_true, if_false]
  have hready : (x.readFault.isSome || st.life != .running) = false := by
    rw [hfault, hlife]
    rfl
  change execStreamChunkArrival s = _
  unfold execStreamChunkArrival
  dsimp only
  rw [h]
  dsimp only
  rw [hfed]
  dsimp only
  rw [hfeed]
  dsimp only
  rw [hready, if_neg Bool.false_ne_true]

/-- What a strand whose read has ended becomes, and what the machine keeps. -/
theorem streamEnd_ok {s s1 : State} {slot : Nat} {a : Agent} {st : Strand} {x : Stream} {put : Stream → Strand → Strand}
    {got : List Word → Stream} {r : Res (List Word × State)} {d : List Word} (hr : r = .ok (d, s1)) (hst : s1.strand? slot = some st) :
    ∃ t, s.streamEnd slot a st x put got r = .next t ∧ t.strand? slot = some (put (got d) st) ∧ t.dev = s1.dev :=
  hr ▸ ⟨_, rfl, State.strand?_updStrand _ _ hst, State.updStrand_dev ..⟩

theorem State.strand?_dropXlatFaults (s : State) (who : Requester) (k : Nat) : (s.dropXlatFaults who).strand? k = s.strand? k := rfl

theorem State.dev_dropXlatFaults (s : State) (who : Requester) : (s.dropXlatFaults who).dev = s.dev := rfl

theorem streamEnd_fault {s : State} {slot : Nat} {a : Agent} {st : Strand} {x : Stream} {put : Stream → Strand → Strand}
    {got : List Word → Stream} {r : Res (List Word × State)} {c : Cause} {va : Nat} (hr : r = .fault c va) (hst : s.strand? slot = some st) :
    ∃ t, s.streamEnd slot a st x put got r = .next t ∧
      t.strand? slot = some (put { x with readFault := some (c, BitVec.ofNat 64 va) } st) ∧ t.dev = s.dev :=
  hr ▸ ⟨_, rfl, (State.strand?_dropXlatFaults ..).trans (State.strand?_updStrand _ _ hst),
    (State.dev_dropXlatFaults ..).trans (State.updStrand_dev ..)⟩

/-- Settles O35: the ends of a read of the unit. -/
theorem streamUnits : Obligations.StreamUnits := by
  intro s st x slot k h hlife hk hx hfault a
  refine ⟨fun hout hsource hframe => ?_, fun va n pages rest hfeed d s1 hread hst => ?_⟩
  · intro read first addresses
    obtain ⟨hidle, hreads⟩ := execStreamPatternRead_of h hx hlife hfault hout hsource hframe
    refine ⟨hidle, fun hroom hmore => ?_⟩
    have hgo := hreads hroom hmore
    dsimp only at hgo
    rw [List.map_map] at hgo
    refine ⟨fun d s1 hread hst => ?_, fun cause va hread => ?_⟩
    · obtain ⟨t, ht, hk', hdev⟩ := streamEnd_ok hread hst
      exact ⟨t, _, _, hgo.trans ht, hk', Strand.stream_setStream _ hk, rfl, rfl, rfl, Strand.setStream_v .., hdev⟩
    · obtain ⟨t, ht, hk', hdev⟩ := streamEnd_fault hread h
      exact ⟨t, _, _, hgo.trans ht, hk', Strand.stream_setStream _ hk, rfl, rfl, hdev⟩
  · obtain ⟨t, ht, hk', hdev⟩ := streamEnd_ok hread hst
    exact ⟨t, _, _, (execStreamChunkArrival_of h hx hlife hfault hfeed).trans ht, hk', Strand.stream_setStream _ hk, rfl, rfl, rfl, hdev⟩

end Sys2Proof.Machine

/-! # Chapter 9: element-wise integer and bitwise instructions, R42 and R71 to R76, R168 to R173 -/

namespace Sys2Proof.Machine
-- one proof at a time: the memory of proofs in flight together is more than the check has
set_option Elab.async false
open Sys2Proof.Claim

/-! ## Elements of a register -/

theorem tagWidth_dvd (t : Tag) : tagWidth t ∣ 64 := by
  revert t
  decide

theorem element_place {w m : Nat} (hm : 64 = m * w) (h0 : 0 < w) (i : Nat) : i * w / 64 = i / m ∧ i * w % 64 = i % m * w := by
  rw [hm]
  exact ⟨Nat.mul_div_mul_right i m h0, Nat.mul_mod_mul_right w i m⟩

theorem testBit_velem (r : VReg) (w i b : Nat) :
    (velem r w i).testBit b = (decide (b < w) && (vgroup r (i * w / 64)).getLsbD (i * w % 64 + b)) := by
  rw [velem, Nat.testBit_mod_two_pow, Nat.testBit_div_two_pow, Nat.add_comm]
  rfl

/-- Bit b of the word in which an element of w bits has been written at bit a. -/
theorem getLsbD_put (old : Word) {w a : Nat} (x b : Nat) (hb : b < 64) :
    ((old &&& ~~~(BitVec.ofNat 64 ((2 ^ w - 1) * 2 ^ a))) ||| BitVec.ofNat 64 (x % 2 ^ w * 2 ^ a)).getLsbD b =
      if a ≤ b ∧ b - a < w then x.testBit (b - a) else old.getLsbD b := by
  simp only [BitVec.getLsbD_or, BitVec.getLsbD_and, BitVec.getLsbD_not, BitVec.getLsbD_ofNat, Nat.testBit_mul_two_pow,
    Nat.testBit_two_pow_sub_one, Nat.testBit_mod_two_pow, hb, decide_true, Bool.true_and]
  by_cases ha : a ≤ b <;> by_cases hw : b - a < w <;> simp [ha, hw]

theorem velem_vput {r : VReg} {w i j : Nat} (x : Nat) (hw : w ∣ 64) (h0 : 0 < w) (hi : i < 16384 / w) :
    velem (vput r w i x) w j = if j = i then x % 2 ^ w else velem r w j := by
  obtain ⟨m, hm⟩ := hw
  rw [Nat.mul_comm] at hm
  have hm0 : 0 < m := Nat.pos_of_mul_pos_right (hm ▸ (by decide : 0 < 64))
  have hcount : 16384 / w = 256 * m := by
    rw [show 16384 = 256 * m * w by rw [Nat.mul_assoc, ← hm]]
    exact Nat.mul_div_cancel _ h0
  rw [hcount, Nat.mul_comm] at hi
  have hgroup : i / m < 256 := Nat.div_lt_of_lt_mul hi
  obtain ⟨hid, him⟩ := element_place hm h0 i
  obtain ⟨hjd, hjm⟩ := element_place hm h0 j
  have hfit : j % m * w + w ≤ 64 := by
    rw [hm, ← Nat.succ_mul]
    exact Nat.mul_le_mul_right w (Nat.mod_lt j hm0)
  have hput : vput r w i x = r.set (i / m) ((r[i / m] &&& ~~~(BitVec.ofNat 64 ((2 ^ w - 1) * 2 ^ (i % m * w)))) |||
      BitVec.ofNat 64 (x % 2 ^ w * 2 ^ (i % m * w))) := by
    unfold vput
    simp only [hid, him]
    rw [dif_pos hgroup]
  refine Nat.eq_of_testBit_eq fun b => ?_
  rw [testBit_velem, hput, hjd, hjm, apply_ite (Nat.testBit · b), Nat.testBit_mod_two_pow, testBit_velem, hjd, hjm]
  by_cases hb : b < w
  · rw [decide_eq_true hb, Bool.true_and, Bool.true_and, Bool.true_and]
    by_cases hg : i / m = j / m
    · have hr : vgroup (r.set (i / m) ((r[i / m] &&& ~~~(BitVec.ofNat 64 ((2 ^ w - 1) * 2 ^ (i % m * w)))) |||
          BitVec.ofNat 64 (x % 2 ^ w * 2 ^ (i % m * w)))) (j / m) = ((vgroup r (j / m)) &&& ~~~(BitVec.ofNat 64 ((2 ^ w - 1) * 2 ^ (i % m * w)))) |||
          BitVec.ofNat 64 (x % 2 ^ w * 2 ^ (i % m * w)) := by
        simp only [vgroup, ← hg, hgroup, dif_pos, Vector.getElem_set_self]
      rw [hr, getLsbD_put _ _ _ (by omega)]
      by_cases hji : j = i
      · rw [hji, if_pos ⟨Nat.le_add_right .., by omega⟩, if_pos rfl, Nat.add_sub_cancel_left]
      · rw [if_neg hji, if_neg]
        rintro ⟨hle, hlt⟩
        have hmod : j % m ≠ i % m := fun h => hji (by rw [← Nat.div_add_mod j m, ← Nat.div_add_mod i m, hg, h])
        rcases Nat.lt_or_gt_of_ne hmod with h | h
        · have := Nat.mul_le_mul_right w (Nat.succ_le_of_lt h)
          rw [Nat.succ_mul] at this
          omega
        · have := Nat.mul_le_mul_right w (Nat.succ_le_of_lt h)
          rw [Nat.succ_mul] at this
          omega
    · rw [if_neg (fun h => hg (by rw [h]))]
      simp only [vgroup, Vector.getElem_set_ne _ _ hg]
  · rw [decide_eq_false hb, Bool.false_and, Bool.false_and, Bool.false_and, ite_self]

theorem Strand.vreg_setVreg {st : Strand} {r : Nat} (x : VReg) (hr : r < 32) (k : Nat) :
    (st.setVreg r x).vreg k = if k = r then x else st.vreg k := by
  unfold Strand.setVreg Strand.vreg
  rw [dif_pos hr]
  by_cases hk : k < 32
  · simp only [hk, dif_pos, Vector.getElem_set, eq_comm]
  · rw [dif_neg hk, dif_neg hk, if_neg fun (h : k = r) => hk (h ▸ hr)]

/-- The strand with other vector registers. -/
def Strand.withV (st : Strand) (v : Vector VReg 32) : Strand := { st with v := v }

theorem Strand.setVreg_eq (st : Strand) (r : Nat) (x : VReg) : st.setVreg r x = st.withV (st.setVreg r x).v := by
  unfold Strand.setVreg
  split <;> rfl

theorem Strand.elem_low {st : Strand} {r w i : Nat} (hi : i < 16384 / w) : st.elem r w i = velem (st.vreg r) w i := by
  rw [Strand.elem, vlmax, Nat.div_eq_of_lt hi, Nat.mod_eq_of_lt hi]
  rfl

theorem Strand.setElem_low {st : Strand} {r w i x : Nat} (hi : i < 16384 / w) : st.setElem r w i x = st.setVreg r (vput (st.vreg r) w i x) := by
  rw [Strand.setElem, vlmax, Nat.div_eq_of_lt hi, Nat.mod_eq_of_lt hi]
  rfl

/-- What the elements of a list written into one register leave: the strand's other fields and registers, and the other elements. -/
theorem Strand.setElems_register {r w : Nat} (g : Nat → Nat) (hr : r < 32) (hw : w ∣ 64) (h0 : 0 < w) :
    ∀ (l : List Nat) (st : Strand), (∀ i ∈ l, i < 16384 / w) → ∃ v, st.setElems r w (l.map fun i => (i, g i)) = st.withV v ∧
      (∀ k ≠ r, (st.withV v).vreg k = st.vreg k) ∧
      ∀ j < 16384 / w, velem ((st.withV v).vreg r) w j = if j ∈ l then g j % 2 ^ w else velem (st.vreg r) w j
  | [], st, _ => ⟨st.v, rfl, fun _ _ => rfl, fun _ _ => rfl⟩
  | i :: l, st, hl => by
    obtain ⟨v, hv, hother, helem⟩ := Strand.setElems_register g hr hw h0 l (st.setElem r w i (g i))
      fun j hj => hl j (List.mem_cons_of_mem _ hj)
    have hi := hl i List.mem_cons_self
    rw [Strand.setElem_low hi] at hv hother helem
    refine ⟨v, ?_, fun k hk => ?_, fun j hj => ?_⟩
    · rw [← Strand.setElem_low hi] at hv
      refine Eq.trans hv ?_
      rw [Strand.setElem_low hi, Strand.setVreg_eq]
      rfl
    · exact (hother k hk).trans ((Strand.vreg_setVreg _ hr k).trans (if_neg hk))
    · refine (helem j hj).trans ?_
      rw [Strand.vreg_setVreg _ hr, if_pos rfl, velem_vput _ hw h0 hi]
      by_cases hji : j = i
      · simp [hji]
      · simp [hji]

/-! ## The end of an element-wise instruction -/

theorem Strand.raise_zero (st : Strand) (lane : Nat) : st.raise lane 0 = st := by
  unfold Strand.raise
  split
  next h =>
    have hz : st.laneFlags[lane] ||| 0 = st.laneFlags[lane] := BitVec.or_zero
    exact congrArg (fun l => ({ st with laneFlags := l } : Strand)) ((congrArg (st.laneFlags.set lane · h) hz).trans (Vector.set_getElem_self h))
  · rfl

theorem trapping_zero (m : Flags) : trapping 0 m = 0 :=
  (congrArg (· &&& (0x5C : Flags)) BitVec.zero_and).trans BitVec.zero_and

/-- R22: elements whose results raise no flag, computed with no draw. -/
theorem Run.sweep_quiet {r : Run} {group : Nat → Nat} {f : Nat → Nat → Nat × Flags} (hf : ∀ i, (f i 0).2 = 0) :
    ∀ (l : List Nat), r.sweep l group false f = { st := r.st, out := l.map fun i => (i, (f i 0).1), trap := none } := by
  have hone : ∀ out i, r.one group false f { st := r.st, out, trap := none } i =
      { st := r.st, out := out ++ [(i, (f i 0).1)], trap := none } := by
    intro out i
    unfold Run.one
    simp only [Bool.false_and, Option.isSome_none, Bool.false_eq_true, if_false, hf, Strand.raise_zero, trapping_zero, if_true]
  intro l
  have : ∀ out, l.foldl (r.one group false f) { st := r.st, out, trap := none } =
      { st := r.st, out := out ++ l.map fun i => (i, (f i 0).1), trap := none } := by
    induction l with
    | nil => intro out; rw [List.map_nil, List.append_nil]; rfl
    | cons i l ih => intro out; rw [List.foldl_cons, hone, ih, List.append_assoc]; rfl
  exact this []

theorem Strand.outputs_unbound {st : Strand} (h : ∀ k < 8, st.stream k = none) : st.outputs = [] := by
  refine List.filterMap_eq_nil_iff.2 fun k hk => ?_
  have := h k (List.mem_range.1 hk)
  rw [Strand.stream] at this
  rw [this]

theorem Strand.tooLong_unbound {st : Strand} (outs : List Emit) (h : ∀ k < 8, st.stream k = none) : st.tooLong outs = none := by
  refine List.find?_eq_none.2 fun k hk => ?_
  rw [h k (List.mem_range.1 hk)]
  exact Bool.false_ne_true

theorem State.heal_nil (s : State) : s.heal [] = s := by
  unfold State.heal
  split
  · rfl
  · have : s.poison.filter (fun u => !(List.range 64).all fun i => ([] : List (Nat × Nat)).any fun q =>
        decide (q.1 ≤ 64 * u + i) && decide (64 * u + i < q.1 + q.2)) = s.poison := List.filter_eq_self.2 fun _ _ => rfl
    rw [this]

theorem Run.healed_unbound {r : Run} (s : State) (h : ∀ k < 8, r.st.stream k = none) : r.healed s = s := by
  unfold Run.healed
  split
  · rfl
  · refine (congrArg s.heal (List.flatMap_eq_nil_iff.2 fun k hk => ?_)).trans s.heal_nil
    rw [h k (List.mem_range.1 hk)]

theorem Run.closed_unbound {r : Run} (s : State) (h : ∀ k < 8, r.st.stream k = none) : r.closed s = s := by
  unfold Run.closed
  rw [Strand.outputs_unbound h]
  rfl

/-- R162, R213: results of which nothing is emitted are written at once. -/
theorem Run.finish_unbound {r : Run} {upTo : (Nat → Bool) → Strand × Option (Nat × Flags)} {outs : List Emit} {x : Strand}
    (h : ∀ k < 8, r.st.stream k = none) (hx : upTo (fun _ => true) = (x, none)) (hs : x.streams = r.st.streams) :
    r.finish upTo outs = .done (r.s.setStrand r.slot x) := by
  have hstream : ∀ k < 8, x.stream k = none := fun k hk => by
    rw [Strand.stream, hs]
    exact h k hk
  have hlist : ∀ outs, x.emitList outs = [] := fun outs => by
    rw [Strand.emitList, Strand.outputs_unbound hstream]
    rfl
  unfold Run.finish
  rw [Strand.tooLong_unbound _ h]
  simp only [hx, hlist, Run.emit, Run.healed_unbound _ h, Run.closed_unbound _ h]

theorem Run.src_low {r : Run} (h : r.e.claims = []) (x w i : Nat) : r.src x w i = r.st.elem x w i := Run.src_unclaimed h x w i

/-- R73: which elements are active. -/
theorem Run.mem_actives {r : Run} (m mi : Bool) (i : Nat) : i ∈ r.actives m mi ↔ activeAt r.st r.p.n m mi i := by
  rw [Run.actives, List.mem_filter, List.mem_range, activeAt, Run.act, Strand.active]
  cases m <;> cases mi <;> simp

/-- An instruction at the head of the VQ that writes elements of one register and does nothing else. -/
theorem written_atHead {s : State} {st : Strand} {e : VqEntry} {rest : List VqEntry} (hat : AtHead s st e rest) {d : Reg} {w : Nat}
    {l : List Nat} {g : Nat → Nat} (hq : isMatrixQueue e.instr = false) (hr : isRepartition e.instr = false) (hw : w ∣ 64) (h0 : 0 < w)
    (hl : ∀ i ∈ l, i < 16384 / w) (hlt : ∀ i ∈ l, g i < 2 ^ w)
    (hp : s.performEntry s.cur.slot st 0 e = .done (s.setStrand s.cur.slot (st.setElems d.toNat w (l.map fun i => (i, g i))))) :
    ∃ u st', exec .vqEntryStart s = .next u ∧ HeadDone s e rest u st' ∧ SameOutside s u ∧
      (∀ i < 16384 / w, (i ∈ l → st'.elem d.toNat w i = g i) ∧ (i ∉ l → st'.elem d.toNat w i = st.elem d.toNat w i)) ∧
      (∀ r < 32, r ≠ d.toNat → st'.vreg r = st.vreg r) ∧ st'.exec = st.exec ∧ st'.tiles = st.tiles := by
  obtain ⟨v, hv, hother, helem⟩ := Strand.setElems_register g d.isLt hw h0 l st hl
  rw [hv] at hp
  refine ⟨_, _, (execVqEntryStart_head hat hq hr).trans ((congrArg _ hp).trans
    (State.settleEntry_done (u := st.withV v) hr (State.strand?_setStrand ..) hat.stays hat.head)), ⟨State.strand?_setStrand .., rfl, rfl⟩,
    ?_, fun i hi => ?_, fun r _ hr => hother r hr, rfl, rfl⟩
  · rw [State.setStrand_setStrand]
    exact sameOutside_setStrand ..
  · have he : Strand.elem { st.withV v with vq := e.finished :: rest, vstart := 0 } d.toNat w i = velem ((st.withV v).vreg d.toNat) w i :=
      Strand.elem_low hi
    rw [he, helem i hi, Strand.elem_low hi]
    exact ⟨fun h => (if_pos h).trans (Nat.mod_eq_of_lt (hlt i h)), fun h => if_neg h⟩

/-- R22, R162: an element-wise instruction whose results raise no flag, at the head of the VQ. -/
theorem elementwise_atHead {s : State} {st : Strand} {e : VqEntry} {rest : List VqEntry} (hat : AtHead s st e rest) {f : VxC} {w n : Nat}
    {g : Nat → Nat → Nat × Flags} (hq : isMatrixQueue e.instr = false) (hr : isRepartition e.instr = false) (hw : w ∣ 64) (h0 : 0 < w)
    (hpn : (plan e.instr e.tags e.g).n = n) (hn : n ≤ 16384 / w) (hg : ∀ i, (g i 0).2 = 0) (hlt : ∀ i, (g i 0).1 < 2 ^ w)
    (hp : s.performEntry s.cur.slot st 0 e =
      (s.runOn s.cur.slot st e).elementwise f w ((s.runOn s.cur.slot st e).actives f.m f.mi) false g) :
    ∃ u st', exec .vqEntryStart s = .next u ∧ HeadDone s e rest u st' ∧ SameOutside s u ∧
      (∀ i < 16384 / w, (activeAt st n f.m f.mi i → st'.elem f.vd.toNat w i = (g i 0).1) ∧
        (¬ activeAt st n f.m f.mi i → st'.elem f.vd.toNat w i = st.elem f.vd.toNat w i)) ∧
      (∀ r < 32, r ≠ f.vd.toNat → st'.vreg r = st.vreg r) ∧ st'.exec = st.exec ∧ st'.tiles = st.tiles := by
  have hactive : ∀ i, i ∈ (s.runOn s.cur.slot st e).actives f.m f.mi ↔ activeAt st n f.m f.mi i := fun i => by
    rw [Run.mem_actives, ← hpn]
    rfl
  have hl : ∀ i ∈ (s.runOn s.cur.slot st e).actives f.m f.mi, i < 16384 / w := fun i hi => ((hactive i).1 hi).1.trans_le hn
  obtain ⟨v, hv, -⟩ := Strand.setElems_register (fun i => (g i 0).1) f.vd.isLt hw h0 _ st hl
  simp only [← hactive]
  refine written_atHead hat hq hr hw h0 hl (fun i _ => hlt i) (hp.trans ((Run.finish_unbound (x := st.withV v) hat.unbound ?_ rfl).trans
    (congrArg Perf.done ((State.setStrand_setStrand ..).trans (congrArg _ hv.symm)))))
  rw [List.filter_true, Run.sweep_quiet hg, ← hv]
  rfl

end Sys2Proof.Machine

/-! # Chapter 9: the results of element-wise integer and bitwise instructions, R168 to R173 -/

namespace Sys2Proof.Machine
-- one proof at a time: the memory of proofs in flight together is more than the check has
set_option Elab.async false
open Sys2Proof.Claim

/-! ## Sources -/

theorem twoBits_cases : ∀ b : BitVec 2, b = 0 ∨ b = 1 ∨ b = 2 ∨ b = 3 := by decide

/-- R76: what stands past an end, by EDGE. -/
theorem Run.edge_eq (b : BitVec 2) (x y : Nat) :
    (match b.toNat with | 0 => 0 | 1 => x | _ => y) = if b = 0 then 0 else if b = 1 then x else y := by
  rcases twoBits_cases b with rfl | rfl | rfl | rfl <;> rfl

theorem Run.neighbour_unclaimed {r : Run} (h : r.e.claims = []) (code : BitVec 2) (x : Reg) (w i : Nat) :
    r.neighbour code x.toNat w i = sourceAt r.st r.e code x w r.p.n i := by
  unfold Run.neighbour sourceAt
  simp only [Run.src_unclaimed h, ← Run.edge_eq]
  rcases twoBits_cases code with rfl | rfl | rfl | rfl <;> rfl

/-- R76: a source element is one of the register's, or zero. -/
theorem sourceAt_lt (st : Strand) (e : VqEntry) (code : BitVec 2) (r : Reg) (w n i : Nat) : sourceAt st e code r w n i < 2 ^ w := by
  have hpick : ∀ {p q : Prop} [Decidable p] [Decidable q] {x y z : Nat}, x < 2 ^ w → y < 2 ^ w → z < 2 ^ w →
      (if p then x else if q then y else z) < 2 ^ w := by
    intro p q _ _ x y z hx hy hz
    split
    · exact hx
    · split <;> assumption
  have helem := Strand.elem_lt st r.toNat w
  have hedge : ∀ j, (if e.edge = 0 then 0 else if e.edge = 1 then st.elem r.toNat w j else st.elem r.toNat w i) < 2 ^ w := fun j =>
    hpick (Nat.two_pow_pos w) (helem j) (helem i)
  refine hpick ?_ ?_ (helem i)
  · split
    · exact helem _
    · exact hedge _
  · split
    · exact helem _
    · exact hedge _

theorem secondAt_lt (st : Strand) (e : VqEntry) (f : VxC) (w n i : Nat) : secondAt st e f w n i < 2 ^ w := by
  unfold secondAt
  split
  · exact Nat.mod_lt _ (Nat.two_pow_pos w)
  · exact sourceAt_lt ..

theorem Run.srcB_unclaimed {r : Run} (h : r.e.claims = []) (f : VxC) (w i : Nat) : r.srcB f w i = secondAt r.st r.e f w r.p.n i :=
  ite_congr rfl (fun _ => rfl) fun _ => Run.neighbour_unclaimed h ..

/-! ## Integers -/

theorem signedOf_of_lt {w x : Nat} (h0 : 0 < w) (h : x < 2 ^ w) : signedOf w x = signedAt w x := by
  rw [signedOf, signedAt, Nat.mod_eq_of_lt h]
  by_cases hx : x < 2 ^ (w - 1)
  · rw [if_pos hx]
    exact if_neg fun hc => absurd hc.2 (not_le.2 hx)
  · rw [if_neg hx]
    exact (if_pos ⟨h0.ne', not_lt.1 hx⟩).trans (by rw [Nat.cast_pow]; rfl)

theorem intVal_of_lt {t : Tag} {x : Nat} (h : x < 2 ^ tagWidth t) : intVal t x = integerAt t x := by
  unfold intVal integerAt isSigned
  rw [signedOf_of_lt (tagWidth_pos t) h, Nat.mod_eq_of_lt h]
  simp only [decide_eq_true_eq]

/-- R41: an element's value and its bits agree modulo 2 to its width. -/
theorem integerAt_modEq (t : Tag) (x : Nat) : integerAt t x ≡ x [ZMOD ((2 ^ tagWidth t : Nat) : Int)] := by
  unfold integerAt signedAt
  split
  · split
    · exact Int.ModEq.refl _
    · rw [Nat.cast_pow]
      exact Int.modEq_iff_dvd.2 ⟨1, by push_cast; ring⟩
  · exact Int.ModEq.refl _

theorem wrapOf_natCast {w n : Nat} {x : Int} (h : x ≡ n [ZMOD ((2 ^ w : Nat) : Int)]) : wrapOf w x = n % 2 ^ w := by
  rw [wrapOf, h, ← Int.natCast_mod, Int.toNat_natCast]

/-- R42: without saturation an integer result is taken modulo 2 to the width, and raises no flag. -/
theorem intResult_wraps {t : Tag} {x : Int} {n : Nat} (h : x ≡ n [ZMOD ((2 ^ tagWidth t : Nat) : Int)]) :
    intResult t false x = (n % 2 ^ tagWidth t, 0) := by
  rw [← wrapOf_natCast h]
  unfold intResult toRange
  dsimp only
  split <;> rfl

/-! ## One element -/

theorem arithElem_integer {i : Instr} {t : Tag} {rm : BitVec 3} {sat : Bool} {a b c r : Nat} {x y : Nat × Flags} (ht : t.toNat ≤ 8)
    (h : arithElem i t rm sat a b c r = if isInt t then x else y) : arithElem i t rm sat a b c r = x :=
  h.trans (if_pos (decide_eq_true ht))

theorem arithRounds_integer (i : Instr) {t : Tag} (ht : t.toNat ≤ 8) : arithRounds i t = false := by
  have : ∀ t : Tag, t.toNat ≤ 8 → isFloat t = false := by decide
  exact congrArg (· && _) (this t ht)

/-- R168, R169: what an arithmetic instruction gives for two integer elements. -/
def IntegerElement (mk : VxC → Instr) (res : Tag → Nat → Nat → Nat) : Prop :=
  ∀ f t rm a b c x, t.toNat ≤ 8 → a < 2 ^ tagWidth t → b < 2 ^ tagWidth t →
    arithElem (mk f) t rm false a b c x = (res t a b, 0) ∧ res t a b < 2 ^ tagWidth t

theorem integerElement_vadd : IntegerElement .vadd fun t a b => (a + b) % 2 ^ tagWidth t := by
  intro f t rm a b c x ht ha hb
  refine ⟨(arithElem_integer ht rfl).trans (intResult_wraps ?_), Nat.mod_lt _ (Nat.two_pow_pos _)⟩
  rw [intVal_of_lt ha, intVal_of_lt hb, Nat.cast_add]
  exact (integerAt_modEq t a).add (integerAt_modEq t b)

theorem integerElement_vsub : IntegerElement .vsub fun t a b => (a + 2 ^ tagWidth t - b) % 2 ^ tagWidth t := by
  intro f t rm a b c x ht ha hb
  refine ⟨(arithElem_integer ht rfl).trans (intResult_wraps ?_), Nat.mod_lt _ (Nat.two_pow_pos _)⟩
  rw [intVal_of_lt ha, intVal_of_lt hb, Nat.cast_sub (hb.le.trans (Nat.le_add_left ..)), Nat.cast_add, Int.add_sub_assoc,
    Int.sub_eq_add_neg, Int.sub_eq_add_neg]
  refine (integerAt_modEq t a).add (((integerAt_modEq t b).neg).trans ?_)
  exact Int.modEq_iff_dvd.2 ⟨1, by ring⟩

theorem integerElement_vmul : IntegerElement .vmul fun t a b => a * b % 2 ^ tagWidth t := by
  intro f t rm a b c x ht ha hb
  refine ⟨(arithElem_integer ht rfl).trans (intResult_wraps ?_), Nat.mod_lt _ (Nat.two_pow_pos _)⟩
  rw [intVal_of_lt ha, intVal_of_lt hb, Nat.cast_mul]
  exact (integerAt_modEq t a).mul (integerAt_modEq t b)

theorem integerElement_vmin : IntegerElement .vmin fun t a b => if integerAt t a ≤ integerAt t b then a else b := by
  intro f t rm a b c x ht ha hb
  refine ⟨(arithElem_integer ht rfl).trans ?_, by dsimp only; split <;> assumption⟩
  rw [intVal_of_lt ha, intVal_of_lt hb]

theorem integerElement_vmax : IntegerElement .vmax fun t a b => if integerAt t a ≤ integerAt t b then b else a := by
  intro f t rm a b c x ht ha hb
  refine ⟨(arithElem_integer ht rfl).trans ?_, by dsimp only; split <;> assumption⟩
  rw [intVal_of_lt ha, intVal_of_lt hb]

/-- R173: what a bitwise instruction or a shift gives for two elements. -/
def BitElement (mk : VxC → Instr) (res : Tag → Nat → Nat → Nat) : Prop :=
  ∀ f t a b, a < 2 ^ tagWidth t → b < 2 ^ tagWidth t → bitElem (mk f) (tagWidth t) a b = res t a b ∧ res t a b < 2 ^ tagWidth t

theorem bitElement_vand : BitElement .vand fun _ a b => a &&& b := by
  intro f t a b ha hb
  refine ⟨?_, Nat.and_lt_two_pow a hb⟩
  change (BitVec.ofNat (tagWidth t) a &&& BitVec.ofNat (tagWidth t) b).toNat = a &&& b
  rw [BitVec.toNat_and, BitVec.toNat_ofNat, BitVec.toNat_ofNat, Nat.mod_eq_of_lt ha, Nat.mod_eq_of_lt hb]

theorem bitElement_vor : BitElement .vor fun _ a b => a ||| b := by
  intro f t a b ha hb
  refine ⟨?_, Nat.or_lt_two_pow ha hb⟩
  change (BitVec.ofNat (tagWidth t) a ||| BitVec.ofNat (tagWidth t) b).toNat = a ||| b
  rw [BitVec.toNat_or, BitVec.toNat_ofNat, BitVec.toNat_ofNat, Nat.mod_eq_of_lt ha, Nat.mod_eq_of_lt hb]

theorem bitElement_vxor : BitElement .vxor fun _ a b => a ^^^ b := by
  intro f t a b ha hb
  refine ⟨?_, Nat.xor_lt_two_pow ha hb⟩
  change (BitVec.ofNat (tagWidth t) a ^^^ BitVec.ofNat (tagWidth t) b).toNat = a ^^^ b
  rw [BitVec.toNat_xor, BitVec.toNat_ofNat, BitVec.toNat_ofNat, Nat.mod_eq_of_lt ha, Nat.mod_eq_of_lt hb]

theorem bitElement_vshl : BitElement .vshl fun t a b => a * 2 ^ (b % tagWidth t) % 2 ^ tagWidth t := by
  intro f t a b ha hb
  refine ⟨?_, Nat.mod_lt _ (Nat.two_pow_pos _)⟩
  change (BitVec.ofNat (tagWidth t) a <<< (b % tagWidth t)).toNat = _
  rw [BitVec.toNat_shiftLeft, BitVec.toNat_ofNat, Nat.mod_eq_of_lt ha, Nat.shiftLeft_eq]

theorem bitElement_vshr : BitElement .vshr fun t a b => a / 2 ^ (b % tagWidth t) := by
  intro f t a b ha hb
  refine ⟨?_, (Nat.div_le_self ..).trans_lt ha⟩
  change (BitVec.ofNat (tagWidth t) a >>> (b % tagWidth t)).toNat = _
  rw [BitVec.toNat_ushiftRight, BitVec.toNat_ofNat, Nat.mod_eq_of_lt ha, Nat.shiftRight_eq_div_pow]

/-! ## The instructions at the head of the VQ -/

/-- What the statement says of one instruction. -/
def ElementResult (op : (VxC → Instr) × (Tag → Bool) × (Tag → Nat → Nat → Nat)) : Prop :=
  ∀ (f : VxC) (s : State) (st : Strand) (e : VqEntry) (rest : List VqEntry), AtHead s st e rest →
    e.instr = op.1 f → f.sat = false → (plan e.instr e.tags e.g).bad = none →
    let t := tagAt e.tags f.va.toNat
    let w := tagWidth t
    let n := lengthOf e f.gl w
    op.2.1 t = true →
      ∃ u st', exec .vqEntryStart s = .next u ∧ HeadDone s e rest u st' ∧ SameOutside s u ∧
        (∀ i < 16384 / w,
          (activeAt st n f.m f.mi i → st'.elem f.vd.toNat w i = op.2.2 t (sourceAt st e f.na f.va w n i) (secondAt st e f w n i)) ∧
          (¬ activeAt st n f.m f.mi i → st'.elem f.vd.toNat w i = st.elem f.vd.toNat w i)) ∧
        (∀ r < 32, r ≠ f.vd.toNat → st'.vreg r = st.vreg r) ∧ st'.exec = st.exec ∧ st'.tiles = st.tiles

/-- An instruction of the compute form is one that `run` performs from the VQ. -/
structure ElementForm (mk : VxC → Instr) (run : Run → VxC → Perf) : Prop where
  queue : ∀ f, isMatrixQueue (mk f) = false
  part : ∀ f, isRepartition (mk f) = false
  performs : ∀ (s : State) st (e : VqEntry) f, s.performEntry s.cur.slot st 0 { e with instr := mk f } =
    s.perform s.cur.slot st { e with instr := mk f } (fun e' st' => st'.updEntry 0 (fun _ => e')) Run.fromQueue
  computes : ∀ (r : Run) f, Run.compute { r with e := { r.e with instr := mk f } } = some (run { r with e := { r.e with instr := mk f } } f)
  counts : ∀ f tags g, (plan (mk f) tags g).n = len1 g f.gl (vlmax (tagWidth (tagAt tags f.va.toNat)))

theorem ElementForm.head {mk : VxC → Instr} {run : Run → VxC → Perf} (hform : ElementForm mk run) {f : VxC} {s : State} {st : Strand}
    {e : VqEntry} {rest : List VqEntry} (hat : AtHead s st e rest) (hi : e.instr = mk f) (hbad : (plan e.instr e.tags e.g).bad = none) :
    s.performEntry s.cur.slot st 0 e = run (s.runOn s.cur.slot st e) f := by
  have hr : s.runOn s.cur.slot st e = { s.runOn s.cur.slot st e with e := { (s.runOn s.cur.slot st e).e with instr := mk f } } :=
    Run.eta_instr hi
  refine State.performEntry_head hat hi hbad (fun e => hform.performs s st e f) (Run.fromQueue_compute ?_)
  exact (congrArg Run.compute hr).trans ((hform.computes _ f).trans (congrArg (fun r => some (run r f)) hr.symm))

theorem ElementForm.result {mk : VxC → Instr} {run : Run → VxC → Perf} {admits : Tag → Bool} {res : Tag → Nat → Nat → Nat}
    (hform : ElementForm mk run)
    (hrun : ∀ r f, r.e.instr = mk f → f.sat = false → admits (r.tag f.va) = true → ∃ g,
      run r f = r.elementwise f (tagWidth (r.tag f.va)) (r.actives f.m f.mi) false g ∧
      ∀ i, let a := r.neighbour f.na f.va.toNat (tagWidth (r.tag f.va)) i
        let b := r.srcB f (tagWidth (r.tag f.va)) i
        a < 2 ^ tagWidth (r.tag f.va) → b < 2 ^ tagWidth (r.tag f.va) → g i 0 = (res (r.tag f.va) a b, 0) ∧
          res (r.tag f.va) a b < 2 ^ tagWidth (r.tag f.va)) :
    ElementResult (mk, admits, res) := by
  intro f s st e rest hat hi hsat hbad t w n ht
  obtain ⟨g, hp, hg⟩ := hrun (s.runOn s.cur.slot st e) f hi hsat ht
  have hn : (plan e.instr e.tags e.g).n = n := by
    rw [hi, hform.counts]
    rfl
  have hsource : ∀ i, (s.runOn s.cur.slot st e).neighbour f.na f.va.toNat w i = sourceAt st e f.na f.va w n i := fun i =>
    (Run.neighbour_unclaimed hat.unclaimed ..).trans (hn ▸ rfl)
  have hsecond : ∀ i, (s.runOn s.cur.slot st e).srcB f w i = secondAt st e f w n i := fun i =>
    (Run.srcB_unclaimed hat.unclaimed ..).trans (hn ▸ rfl)
  have hres : ∀ i, g i 0 = (res t (sourceAt st e f.na f.va w n i) (secondAt st e f w n i), 0) ∧
      res t (sourceAt st e f.na f.va w n i) (secondAt st e f w n i) < 2 ^ w := fun i => by
    have h := hg i
    rw [show tagWidth ((s.runOn s.cur.slot st e).tag f.va) = w from rfl, hsource, hsecond] at h
    exact h (sourceAt_lt ..) (secondAt_lt ..)
  obtain ⟨u, st', hu, hd, ho, helem, hrest⟩ := elementwise_atHead hat (f := f) (hi ▸ hform.queue f) (hi ▸ hform.part f) (tagWidth_dvd t)
    (tagWidth_pos t) hn (Nat.min_le_right ..) (fun i => by rw [(hres i).1]) (fun i => by
      rw [(hres i).1]
      exact (hres i).2)
    ((hform.head hat hi hbad).trans hp)
  refine ⟨u, st', hu, hd, ho, fun i hiw => ⟨fun h => ?_, (helem i hiw).2⟩, hrest⟩
  exact ((helem i hiw).1 h).trans (by rw [(hres i).1])

theorem elementResult_integer {mk : VxC → Instr} {res : Tag → Nat → Nat → Nat} (hform : ElementForm mk Run.arith)
    (helem : IntegerElement mk res) : ElementResult (mk, fun t => decide (t.toNat ≤ 8), res) := by
  refine hform.result fun r f hi hsat ht => ⟨fun i x => arithElem (mk f) (r.tag f.va) r.e.rm false
    (r.neighbour f.na f.va.toNat (tagWidth (r.tag f.va)) i) (r.srcB f (tagWidth (r.tag f.va)) i)
    (r.src f.vc.toNat (tagWidth (r.tag f.va)) i) x, ?_, fun i ha hb => helem f _ _ _ _ _ _ (of_decide_eq_true ht) ha hb⟩
  unfold Run.arith
  dsimp only
  rw [arithRounds_integer _ (of_decide_eq_true ht), hi, hsat]

theorem elementResult_bitwise {mk : VxC → Instr} {res : Tag → Nat → Nat → Nat} (hform : ElementForm mk Run.bitwise)
    (helem : BitElement mk res) : ElementResult (mk, fun _ => true, res) := by
  refine hform.result fun r f hi _ _ => ⟨fun i _ => (bitElem (mk f) (tagWidth (r.tag f.va))
    (r.neighbour f.na f.va.toNat (tagWidth (r.tag f.va)) i) (r.srcB f (tagWidth (r.tag f.va)) i), 0), ?_,
    fun i ha hb => ⟨congrArg (·, _) (helem f _ _ _ ha hb).1, (helem f _ _ _ ha hb).2⟩⟩
  unfold Run.bitwise
  dsimp only
  rw [hi]

/-- Settles O29: each instruction sweeps the active elements of its register, and no result of the integer and bitwise ones raises a flag. -/
theorem vectorElementResults : Obligations.VectorElementResults := by
  suffices h : ∀ op ∈ elementOps, ElementResult op from h
  simp only [elementOps, List.forall_mem_cons]
  refine ⟨elementResult_integer ?_ integerElement_vadd, elementResult_integer ?_ integerElement_vsub,
    elementResult_integer ?_ integerElement_vmul, elementResult_integer ?_ integerElement_vmin, elementResult_integer ?_ integerElement_vmax,
    elementResult_bitwise ?_ bitElement_vand, elementResult_bitwise ?_ bitElement_vor, elementResult_bitwise ?_ bitElement_vxor,
    elementResult_bitwise ?_ bitElement_vshl, elementResult_bitwise ?_ bitElement_vshr, fun _ h => absurd h List.not_mem_nil⟩
  all_goals exact ⟨fun _ => rfl, fun _ => rfl, fun _ _ _ _ => rfl, fun _ _ => rfl, fun _ _ _ => rfl⟩

end Sys2Proof.Machine

/-! # Chapters 5 and 10: reads that find what memory holds in the L1, and stream descriptors, R91, R209 -/

namespace Sys2Proof.Machine
-- one proof at a time: the memory of proofs in flight together is more than the check has
set_option Elab.async false
open Sys2Proof.Claim

/-! ## A cluster whose L1 holds what device memory does -/

/-- The machine with other clusters. -/
def State.withClusters (s : State) (c : List (Nat × Cluster)) : State := { s with clusters := c }

/-- R91: every byte that the L1 of a cluster holds is that of device memory. -/
def State.Coherent (s : State) (k : Nat) : Prop := ∀ l ∈ (s.cluster k).l1, ∀ b ∈ l.cells, b.2 = s.dev.read b.1

theorem L1Line.copy_coherent {l : L1Line} {m : Memory} (h : ∀ b ∈ l.cells, b.2 = m.read b.1) {pa n : Nat} {bs : List Byte}
    (hc : l.copy pa n = some bs) : bs = m.readBytes pa n := by
  unfold L1Line.copy at hc
  rw [Memory.readBytes]
  generalize List.range n = r at hc ⊢
  induction r generalizing bs with
  | nil => exact (Option.some.inj hc).symm
  | cons i r ih =>
    rw [List.map_cons, List.foldr_cons] at hc
    split at hc
    · next x xs hx hxs =>
      rw [← Option.some.inj hc, List.map_cons, ← ih hxs]
      exact congrArg (· :: xs) (h _ (lookup_mem hx))
    · exact absurd hc nofun

theorem State.Coherent.keeps {s : State} {k : Nat} (h : s.Coherent k) {c : Cluster}
    (hc : ∀ l ∈ c.l1, l ∈ (s.cluster k).l1 ∨ ∃ pa, l = s.freshLine pa) : (s.setCluster k c).Coherent k := by
  intro l hl b hb
  rw [State.cluster_setCluster] at hl
  rcases hc l hl with hl | ⟨pa, rfl⟩
  · exact h l hl b hb
  · obtain ⟨i, -, rfl⟩ := List.mem_map.1 hb
    rfl

theorem State.seen_coherent {s : State} {k : Nat} (h : s.Coherent k) (pa : Nat) (bs : List Byte) :
    ∃ c, s.seen k (.dev pa) bs = s.withClusters c ∧ (s.withClusters c).Coherent k := by
  unfold State.seen
  dsimp only
  split
  · exact ⟨_, rfl, h.keeps fun l hl => .inl (List.mem_of_mem_filter hl)⟩
  · exact ⟨s.clusters, rfl, h⟩

/-- R91: whichever line serves a read, it gives what stands at the home, and the L1 goes on holding that. -/
theorem State.readPlace_coherent {s : State} {k pa n : Nat} (use : L1Line → Bool) (alloc : Bool) (h : s.Coherent k) :
    ∃ c, s.readPlace k (.dev pa) n use alloc = (s.dev.readBytes pa n, s.withClusters c) ∧ (s.withClusters c).Coherent k := by
  unfold State.readPlace
  dsimp only
  split
  · next i hi =>
    have hheld : (((s.cluster k).l1[i]?).bind (fun l => l.copy pa n)).getD (s.dev.readBytes pa n) = s.dev.readBytes pa n := by
      cases hc : ((s.cluster k).l1[i]?).bind (fun l => l.copy pa n) with
      | none => rfl
      | some bs =>
        obtain ⟨l, hl, hbs⟩ := Option.bind_eq_some_iff.1 hc
        exact L1Line.copy_coherent (h l (List.mem_of_getElem? hl)) hbs
    rw [hheld, if_pos rfl]
    split
    · exact ⟨s.clusters, rfl, h⟩
    · refine ⟨_, rfl, h.keeps fun l hl => .inl ?_⟩
      rcases List.mem_append.1 hl with hl | hl
      · exact List.mem_of_mem_take hl
      · exact List.mem_of_mem_drop (List.mem_of_mem_filter hl)
  · unfold State.readMissed
    obtain ⟨c, hs, hc⟩ := s.seen_coherent h pa (s.dev.readBytes pa n)
    dsimp only
    rw [hs]
    split
    · refine ⟨_, rfl, hc.keeps fun l hl => ?_⟩
      rcases List.mem_cons.1 hl with rfl | hl
      · exact .inr ⟨pa, rfl⟩
      · exact .inl hl
    · exact ⟨c, rfl, hc⟩

/-! ## What does not depend on the clusters -/

theorem State.resolve_withClusters {s : State} {a : Agent} {va pa : Nat} {i : Intent} (c : List (Nat × Cluster))
    (h : s.resolve a va i = .ok (.dev pa)) : (s.withClusters c).resolve a va i = .ok (.dev pa) := by
  by_cases hva : Config.scratchBase ≤ va
  · unfold State.resolve at h
    rw [if_pos hva] at h
    split at h
    · exact absurd h nofun
    · split at h <;> exact absurd h nofun
  · refine Eq.trans ?_ h
    unfold State.resolve
    rw [if_neg hva, if_neg hva]
    rfl

theorem State.cacheTranslation_withClusters {s : State} {a : Agent} {va : Nat} (c : List (Nat × Cluster)) (h : s.cacheTranslation a va = s) :
    (s.withClusters c).cacheTranslation a va = s.withClusters c := by
  have hswap : (s.withClusters c).cacheTranslation a va = (s.cacheTranslation a va).withClusters c := by
    have htr : (s.withClusters c).translation a.cluster a.asid va = s.translation a.cluster a.asid va := rfl
    unfold State.cacheTranslation
    rw [htr]
    split
    · split <;> rfl
    · rfl
  rw [hswap, h]

/-! ## The descriptor of a stream -/

/-- R209: a doubleword of the descriptor is read with its translation at hand, and is not a fault. -/
theorem State.readDescriptor_step {s : State} {st : Strand} {va pa : Nat} {c : List (Nat × Cluster)} (hx : s.cur.ctx = .execute)
    (hr : Reads s st va 8 (.dev pa)) (hct : s.cacheTranslation (agent s st) va = s)
    (hc : (s.withClusters c).Coherent (clusterOf s.cur.slot)) :
    ∃ c', (s.withClusters c).loadVA (agent s st) st st.strip .load va 8 (fun _ => true) true =
        .ok (s.dev.readBytes pa 8, s.withClusters c') ∧ (s.withClusters c').Coherent (clusterOf s.cur.slot) := by
  obtain ⟨helided, hroute, hplace, hpoison, hreach⟩ := hr
  have hkind : kindOf s .load = .load := by rw [kindOf, hx]; rfl
  obtain ⟨c', hread, hc'⟩ := State.readPlace_coherent (pa := pa) (n := 8) (fun _ => true) true hc
  refine ⟨c', (State.loadVA_memory (s := s.withClusters c) (p := .dev pa) _ _ helided (hkind ▸ hroute) (State.resolve_withClusters c hplace)
    hpoison hreach).trans (congrArg Res.ok ?_), hc'⟩
  exact (congrArg (fun t => State.readPlace t _ _ _ _ _) (State.cacheTranslation_withClusters c hct)).trans hread

theorem State.readDescriptor_dev {s : State} {st : Strand} {at_ : Nat} {place : Nat → Nat} (hx : s.cur.ctx = .execute) (hal : at_ % 8 = 0)
    (hl1 : (s.cluster (clusterOf s.cur.slot)).l1 = [])
    (hr : ∀ j < 8, Reads s st ((at_ + 8 * j) % 2 ^ 64) 8 (.dev (place j)) ∧
      s.cacheTranslation (agent s st) ((at_ + 8 * j) % 2 ^ 64) = s) :
    ∃ c, s.readDescriptor (agent s st) st at_ =
      .ok ((List.range 8).flatMap (fun j => s.dev.readBytes (place j) 8), s.withClusters c) := by
  have hfold : ∀ (l : List Nat) (bs : List Byte) (c : List (Nat × Cluster)), (∀ j ∈ l, j < 8) →
      (s.withClusters c).Coherent (clusterOf s.cur.slot) →
      ∃ c', l.foldl (fun (acc : Res (List Byte × State)) (j : Nat) => acc.bind (fun p =>
        (p.2.loadVA (agent s st) st st.strip .load ((at_ + 8 * j) % 2 ^ 64) 8 (fun _ => true) true).map
          (fun q => (p.1 ++ q.1, q.2)))) (.ok (bs, s.withClusters c)) =
        .ok (bs ++ l.flatMap (fun j => s.dev.readBytes (place j) 8), s.withClusters c') := by
    intro l
    induction l with
    | nil => exact fun bs c _ _ => ⟨c, by rw [List.flatMap_nil, List.append_nil]; rfl⟩
    | cons j l ih =>
      intro bs c hl hc
      obtain ⟨hj, hct⟩ := hr j (hl j List.mem_cons_self)
      obtain ⟨c1, hload, hc1⟩ := State.readDescriptor_step hx hj hct hc
      obtain ⟨c2, hrest⟩ := ih (bs ++ s.dev.readBytes (place j) 8) c1 (fun i hi => hl i (List.mem_cons_of_mem _ hi)) hc1
      refine ⟨c2, ?_⟩
      rw [List.foldl_cons, List.flatMap_cons, ← List.append_assoc, ← hrest]
      refine congrArg (fun x => List.foldl _ x l) ?_
      exact congrArg (Res.map (fun q : List Byte × State => (bs ++ q.1, q.2))) hload
  obtain ⟨c, hc⟩ := hfold (List.range 8) [] s.clusters (fun j hj => List.mem_range.1 hj) (fun l hl => absurd hl (hl1 ▸ List.not_mem_nil))
  refine ⟨c, ?_⟩
  unfold State.readDescriptor
  rw [if_neg (not_not.2 hal)]
  exact hc

end Sys2Proof.Machine

/-! # Chapter 10: VBIND, VUNBIND, SFEED and VPREF, R205, R209, R212, R214 -/

namespace Sys2Proof.Machine
-- one proof at a time: the memory of proofs in flight together is more than the check has
set_option Elab.async false
open Sys2Proof.Claim

/-! ## The stream of a slot as the commits so far leave it -/

theorem Strand.committedStream_queued {st : Strand} {l : List VqEntry} {e : VqEntry} {x : Stream} {k : Nat} (hvq : st.vq = l ++ [e])
    (hframe : st.frame = none) (hslot : slotNamed e.instr = some k) (hp : (e.progress != .done) = true) (hb : e.bind = some x) :
    st.committedStream k = some x := by
  have hwork : ∃ q, st.slotWork k = q ++ [e] := by
    unfold Strand.slotWork
    rw [hvq, hframe]
    dsimp only
    rw [List.append_nil, List.filter_append]
    refine ⟨_, congrArg (List.filter _ l ++ ·) (List.filter_cons_of_pos ?_)⟩
    rw [hslot, hp, hb, beq_self_eq_true]
    rfl
  obtain ⟨q, hq⟩ := hwork
  unfold Strand.committedStream
  rw [hq, List.getLast?_concat]
  exact hb

theorem Strand.slotWork_none {st : Strand} (hvq : st.vq = []) (hframe : st.frame = none) (k : Nat) : st.slotWork k = [] := by
  unfold Strand.slotWork
  rw [hvq, hframe]
  rfl

theorem Strand.committedStream_idle {st : Strand} (hvq : st.vq = []) (hframe : st.frame = none) (k : Nat) : st.committedStream k = st.stream k := by
  unfold Strand.committedStream
  rw [Strand.slotWork_none hvq hframe]
  rfl

theorem Strand.setCommitted_idle {st : Strand} (hvq : st.vq = []) (hframe : st.frame = none) (k : Nat) (x : Stream) :
    st.setCommitted k x = st.setStream k (some x) := by
  unfold Strand.setCommitted
  rw [Strand.slotWork_none hvq hframe]
  rfl

/-- The strand with other stream slots. -/
def Strand.withStreams (st : Strand) (l : Vector (Option Stream) 8) : Strand := { st with streams := l }

theorem Strand.setStream_eq (st : Strand) (k : Nat) (x : Option Stream) : st.setStream k x = st.withStreams (st.setStream k x).streams := by
  unfold Strand.setStream
  split <;> rfl

theorem Strand.lt_of_stream {st : Strand} {k : Nat} {x : Stream} (h : st.stream k = some x) : k < 8 := by
  rw [Strand.stream, List.getD_eq_getElem?_getD] at h
  by_contra hk
  rw [List.getElem?_eq_none (by rw [Vector.length_toList]; omega)] at h
  exact absurd h nofun

/-! ## VBIND -/

/-- R209: the commit of a VBIND, from a state in which its descriptor has been read. -/
theorem vbind_commits {s s1 : State} {st : Strand} (f : VxM) (x : VqEntry → Stream) (fault : Option (Cause × Word))
    (hx : s.cur.ctx = .execute) (hframe : st.frame = none) :
    ∃ t st' seq, s.conclude s.cur.slot s.cur.ctx (.vbind f) 2 true (.done (s1.setStrand s.cur.slot ((Env.here s st).committed (.vbind f)
        (resolved st (.vbind f)) (fun e => { e with bind := some (x e), bindFault := fault })))) = .next t ∧
      Committed s st (.vbind f) t st' ∧ st'.committedStream f.va.toNat = some (x seq) ∧ st'.v = st.v ∧ st'.streams = st.streams ∧ t.dev = s1.dev := by
  have hrun : running s st = st.exec := by rw [running, hx]; rfl
  rw [State.conclude_done, State.updCtx_of _ _ _ (State.strand?_setStrand ..), State.setStrand_setStrand, hx]
  refine ⟨_, _, (Env.here s st).entry (.vbind f) [], rfl, ⟨State.strand?_setStrand .., List.map_append.trans rfl,
    ⟨_, List.getLast?_concat .., rfl, congrArg Context.pc hrun, congrArg Context.g hrun, rfl, rfl, rfl, rfl⟩, rfl, rfl, rfl⟩,
    Strand.committedStream_queued (l := st.vq) rfl hframe rfl rfl rfl, rfl, rfl, rfl⟩

theorem execVbind_reads {s s1 : State} {st : Strand} {f : VxM} {bs : List Byte} (h : s.strand? s.cur.slot = some st)
    (hb : Bare (running s st)) (hc : Commits s st (.vbind f)) (hnov : st.novHeld .execute = false)
    (hread : s.readDescriptor (agent s st) st (st.exec.reg f.gbase).toNat = .ok (bs, s1)) :
    exec (.vbind f) s = s.conclude s.cur.slot s.cur.ctx (.vbind f) 2 true (.done (s1.setStrand s.cur.slot ((Env.here s st).committed (.vbind f)
      (resolved st (.vbind f)) (fun e => { e with
        bind := some { (bindOf bs f (tagWidth (tagAt st.tags f.vd.toNat)) st.vbypass).1 with born := e.seq }
        bindFault := (bindOf bs f (tagWidth (tagAt st.tags f.vd.toNat)) st.vbypass).2 })))) := by
  have hrun : running s st = st.exec := by rw [running, hc.1]; rfl
  change execVbind f s = _
  rw [execVbind, State.commitChecked_commits _ _ h (hrun ▸ hb) hc]
  refine congrArg (s.conclude s.cur.slot s.cur.ctx (.vbind f) 2 true) ?_
  rw [Env.st_here, Env.ctx_here, Env.agent_here, Env.reg_here, hrun, hread, hc.1, hnov]
  exact if_neg Bool.false_ne_true

/-! ## VUNBIND -/

theorem State.strand?_sweepPages (s : State) (k : Nat) : s.sweepPages.strand? k = s.strand? k := rfl

theorem State.dev_unbind (s : State) (who : Requester) (k : Nat) (f : Strand → Strand) : (((s.abandon who).updStrand k f).sweepPages).dev = s.dev :=
  State.updStrand_dev (s.abandon who) k f

theorem vunbind_claim {f : VxM} {s : State} {st : Strand} {e : VqEntry} {rest : List VqEntry} (h : s.strand? s.cur.slot = some st)
    (hvq : st.vq = e :: rest) (hp : e.progress ≠ .done) (hlife : st.life = .running) (hfault : st.fault = none) (hend : st.ending = none)
    (hstart : st.startsNone s.now = false) (hlanes : 0 < (s.lanes s.cur.slot).2) (hrep : (s.cluster (clusterOf s.cur.slot)).repartition = none)
    (hmx : (s.cluster (clusterOf s.cur.slot)).matrixOf s.cur.slot = []) (hi : e.instr = .vunbind f) (hk : f.va.toNat < 8) :
    ∃ t st', exec .vqEntryStart s = .next t ∧ HeadDone s e rest t st' ∧ st'.stream f.va.toNat = none ∧
      (∀ j, j ≠ f.va.toNat → st'.stream j = st.stream j) ∧ st'.v = st.v ∧ t.dev = s.dev := by
  have hnext : st.nextEntry = some (0, e) := by
    simp only [Strand.nextEntry, hvq, List.findIdx?_cons, bne_iff_ne.2 hp, if_true]
    rfl
  have hwork : s.behindMatrix s.cur.slot st e = false := by
    simp only [State.behindMatrix, State.matrixWork, hmx, List.filter_nil, List.any_nil]
  have hrepart : isRepartition e.instr = false := by rw [hi]; rfl
  have hmay : s.mayStart s.cur.slot st 0 e = true := by
    have hqueue : isMatrixQueue e.instr = false := by rw [hi]; rfl
    simp only [State.mayStart, hlife, hfault, hend, hstart, hqueue, hrepart, hlanes, hrep, hwork]
    simp
  have hperf : s.performEntry s.cur.slot st 0 e = s.performUnbind s.cur.slot f :=
    congrArg (s.performEntry s.cur.slot st 0) (VqEntry.eta_instr hi)
  have hexec : exec .vqEntryStart s = s.settleEntry s.cur.slot st 0 e (s.performEntry s.cur.slot st 0 e) := by
    change execVqEntryStart s = _
    simp only [execVqEntryStart, h, hnext, hmay, hrepart, Bool.not_true, Bool.false_eq_true, if_false]
  have hst := (State.strand?_sweepPages _ s.cur.slot).trans
    (State.strand?_updStrand (s.abandon (.stream s.cur.slot f.va.toNat)) (fun st => st.setStream f.va.toNat none) h)
  have hsame := st.setStream_eq f.va.toNat none
  refine ⟨_, _, hexec.trans ((congrArg _ hperf).trans (State.settleEntry_done hrepart hst ?_ ?_)), ⟨State.strand?_setStrand .., rfl, rfl⟩,
    Strand.stream_setStream _ hk, fun j hj => Strand.stream_setStream_ne _ hj, Strand.setStream_v .., State.dev_unbind ..⟩
  · exact (congrArg Strand.ending hsame :).trans hend
  · exact (congrArg Strand.vq hsame :).trans hvq

/-! ## The pages of a span -/

theorem collect_all {α β : Type} {f : α → Res β} {g : α → β} (l : List α) (h : ∀ x ∈ l, f x = .ok (g x)) : collect l f = .ok (l.map g) := by
  have hfold : ∀ (l : List α) (ys : List β), (∀ x ∈ l, f x = .ok (g x)) →
      l.foldl (fun (acc : Res (List β)) (x : α) => acc.bind (fun ys => (f x).map (fun y => ys ++ [y]))) (.ok ys) = .ok (ys ++ l.map g) := by
    intro l
    induction l with
    | nil => exact fun ys _ => by rw [List.map_nil, List.append_nil]; rfl
    | cons x l ih =>
      intro ys hl
      rw [List.foldl_cons, List.map_cons, List.append_cons, ← ih (ys ++ [g x]) fun y hy => hl y (List.mem_cons_of_mem _ hy)]
      refine congrArg (fun r => List.foldl _ r l) ?_
      exact congrArg (Res.map fun y => ys ++ [y]) (hl x List.mem_cons_self)
  exact hfold l [] h

/-- R212: with every page's translation at hand, a span is translated. -/
theorem State.translateSpan_all {s : State} {a : Agent} {va n : Nat} {place : Nat → Place}
    (h : ∀ p ∈ pagesOf va n, s.resolve a p .load = .ok (place p)) : s.translateSpan a va n = .ok ((pagesOf va n).map (s.pageUsed a)) := by
  refine collect_all _ fun p hp => ?_
  rw [h p hp]

theorem agent_held (s : State) (st : Strand) : (agent s st).held = [] := by
  unfold agent Strand.agent
  dsimp only
  split <;> rfl

theorem State.translationFor_none {s : State} {a : Agent} (hheld : a.held = []) (va : Nat) :
    s.translationFor a va = s.translation a.cluster a.asid va := by
  rw [State.translationFor, hheld]
  rfl

theorem State.translation_covers {s : State} {cluster asid va : Nat} {e : TlbEntry} (h : s.translation cluster asid va = some e) :
    e.covers (quadOf cluster) asid va = true := by
  rcases Option.or_eq_some_iff.1 h with h | ⟨-, h⟩
  · have := List.find?_some h
    exact (Bool.and_eq_true_iff.1 this).2
  · have := List.find?_some h
    exact (Bool.and_eq_true_iff.1 this).2

/-- R326: below the scratchpad window nothing resolves without a translation. -/
theorem State.resolve_translated {s : State} {a : Agent} {va : Nat} {i : Intent} {p : Place} (hheld : a.held = [])
    (hva : va < Config.scratchBase) (h : s.resolve a va i = .ok p) : ∃ e, s.translation a.cluster a.asid va = some e := by
  refine Option.ne_none_iff_exists'.1 fun hn => ?_
  unfold State.resolve at h
  rw [if_neg (not_le.2 hva), State.translationFor_none hheld, hn] at h
  split at h <;> exact absurd h nofun

/-- R100, R215: the page of an access that resolves, with the translation it used. -/
theorem State.pageUsed_covers {s : State} {a : Agent} {va : Nat} {i : Intent} {p : Place} (hheld : a.held = []) (h : s.resolve a va i = .ok p) :
    (s.pageUsed a va).covers a.asid va = true ∧ (s.pageUsed a va).old = [] ∧
      (va < Config.scratchBase → s.translation a.cluster a.asid va = some (s.pageUsed a va).entry) := by
  by_cases hva : Config.scratchBase ≤ va
  · refine ⟨?_, rfl, fun hlt => absurd hva (not_le.2 hlt)⟩
    unfold State.pageUsed HeldPage.covers
    dsimp only
    rw [if_pos hva]
    have hpage : pageOf va ≤ va ∧ va < pageOf va + 4096 := by
      unfold pageOf
      omega
    simp only [Option.getD_none, beq_self_eq_true, hpage, decide_true, Bool.and_self]
  · obtain ⟨e, he⟩ := State.resolve_translated hheld (not_le.1 hva) h
    have hentry : (s.pageUsed a va).entry = e := by
      unfold State.pageUsed
      dsimp only
      rw [if_neg hva, State.translationFor_none hheld, he]
      rfl
    have hcov := State.translation_covers he
    simp only [TlbEntry.covers, Bool.and_eq_true] at hcov
    refine ⟨?_, rfl, fun _ => hentry ▸ he⟩
    rw [HeldPage.covers, hentry, hcov.1.1.2, hcov.1.2, hcov.2]
    rfl

/-! ## SFEED -/

theorem execSfeed_access {s : State} {st : Strand} {f : VxM} (h : s.strand? s.cur.slot = some st) (hb : Bare (running s st))
    (hx : s.cur.ctx = .access) :
    exec (.sfeed f) s = s.conclude s.cur.slot s.cur.ctx (.sfeed f) 2 true (s.feed (Env.here s st) f) := by
  change execSfeed f s = _
  rw [execSfeed, State.issue_bare _ _ _ _ h hb (fun _ _ hr => absurd hr List.not_mem_nil) (fun hu => absurd hu Bool.false_ne_true)]
  exact congrArg (s.conclude s.cur.slot s.cur.ctx (.sfeed f) 2 true) (if_pos hx)

/-- R212: a slot that no SFEED feeds any more. -/
theorem State.feed_refuses {s : State} {st : Strand} {f : VxM}
    (h : st.committedStream f.va.toNat = none ∨ ∃ x, st.committedStream f.va.toNat = some x ∧ (x.source ≠ .sfeed ∨ x.ended = true)) :
    s.feed (Env.here s st) f = .trap .streamProtocol (slotTval f.va.toNat) s := by
  unfold State.feed
  dsimp only
  rw [Env.st_here]
  rcases h with h | ⟨x, h, hx⟩
  · rw [h]
  · rw [h]
    refine if_pos ((Bool.or_eq_true _ _).mpr (hx.imp bne_iff_ne.2 id))

/-- R212: what an SFEED does for a slot that it feeds. -/
theorem State.feed_of {s : State} {st : Strand} {f : VxM} {x : Stream} (h : st.committedStream f.va.toNat = some x)
    (hsource : x.source = .sfeed) (hended : x.ended = false) :
    s.feed (Env.here s st) f =
      if 4 ≤ x.chunks.length + x.feeding.length then .wait (.feed f.va.toNat) s
      else if min ((running s st).reg f.gl).toNat x.chunk = 0 then
        .done (s.updStrand s.cur.slot (fun (st : Strand) => st.setCommitted f.va.toNat { x with ended := true }))
      else if x.width ≠ 4 ∧ ((running s st).reg f.gbase).toNat % (x.width / 8) ≠ 0 then .trap .misaligned ((running s st).reg f.gbase) s
      else
        ((s.spanCheck st ((running s st).reg f.gbase).toNat (ceilDiv (min ((running s st).reg f.gl).toNat x.chunk * x.width) 8)).bind (fun _ =>
          s.translateSpan (agent s st) ((running s st).reg f.gbase).toNat
            (ceilDiv (min ((running s st).reg f.gl).toNat x.chunk * x.width) 8))).act (Env.here s st) s (fun pages =>
          .done (s.updStrand s.cur.slot (fun (u : Strand) => u.setCommitted f.va.toNat { x.pin st.asid.toNat
            (pagesOf ((running s st).reg f.gbase).toNat (ceilDiv (min ((running s st).reg f.gl).toNat x.chunk * x.width) 8))
            (fun _ => x.arrived + x.feeding.length) with
            feeding := x.feeding ++ [((running s st).reg f.gbase, min ((running s st).reg f.gl).toNat x.chunk, pages)] }))) := by
  unfold State.feed
  dsimp only
  rw [Env.st_here, h]
  dsimp only
  rw [hsource, hended]
  exact if_neg Bool.false_ne_true

theorem State.spanCheck_ok {s : State} {st : Strand} {va n : Nat} (he : s.readsElided st va n = false)
    (hr : s.route st 0 .other va n = .memory) : s.spanCheck st va n = .ok () := by
  unfold State.spanCheck
  rw [if_neg (fun h => absurd (he.symm.trans h.2) Bool.false_ne_true)]
  unfold State.writeCheck
  split
  · rfl
  · rw [hr]

/-- What an SFEED of the access context that has changed its stream leaves. -/
theorem sfeed_done {s : State} {st : Strand} {i : Instr} {k : Nat} (y : Stream) (h : s.strand? s.cur.slot = some st) (hx : s.cur.ctx = .access)
    (hvq : st.vq = []) (hframe : st.frame = none) (hk : k < 8) :
    ∃ t st', s.conclude s.cur.slot s.cur.ctx i 2 true (.done (s.updStrand s.cur.slot (fun st => st.setCommitted k y))) = .next t ∧
      t.strand? s.cur.slot = some st' ∧ st'.committedStream k = some y ∧ (∀ j, j ≠ k → st'.stream j = st.stream j) ∧
      st'.access.pc = (running s st).pc + 8 ∧ (∀ r, st'.access.reg r = (running s st).reg r) ∧ st'.exec = st.exec ∧ t.dev = s.dev := by
  have hrun : running s st = st.access := by rw [running, hx]; rfl
  have hsame := st.setStream_eq k (some y)
  rw [State.conclude_done, hx, State.updStrand_of _ _ h, Strand.setCommitted_idle hvq hframe, hrun,
    State.updCtx_of _ _ _ (State.strand?_setStrand ..)]
  generalize hu : st.setStream k (some y) = u at *
  have haccess : u.access = st.access := (congrArg Strand.access hsame :)
  refine ⟨_, _, rfl, State.strand?_setStrand .., ?_, fun j hj => ?_, ?_, fun r => ?_, (congrArg Strand.exec hsame :), rfl⟩
  · refine (Strand.committedStream_idle ((congrArg Strand.vq hsame :).trans hvq) ((congrArg Strand.frame hsame :).trans hframe) k).trans ?_
    rw [← hu]
    exact Strand.stream_setStream _ hk
  · change u.stream j = st.stream j
    rw [← hu]
    exact Strand.stream_setStream_ne _ hj
  · exact (congrArg (fun c : Context => c.pc + 8) haccess :)
  · exact (congrArg (fun c : Context => c.reg r) haccess :)

/-! ## VPREF -/

/-- R205: a prefetch changes the lines of L1s alone. -/
theorem State.prefetch_keeps {α : Type} (g : State → α) (hg : ∀ s k c, g (s.setCluster k c) = g s) (s : State) (a : Agent) (base : Nat)
    (pitch : Int) (len : Word) (cache : BitVec 3) (vbypass : BitVec 25) : g (s.prefetch a base pitch len cache vbypass) = g s := by
  have hfold : ∀ (f : State → Nat → State), (∀ s j, g (f s j) = g s) → ∀ (l : List Nat) s, g (l.foldl f s) = g s := by
    intro f hf l
    induction l with
    | nil => exact fun _ => rfl
    | cons j l ih => exact fun s => (ih (f s j)).trans (hf s j)
  unfold State.prefetch
  lift_lets
  intro cols rows fills
  split
  · rfl
  · refine hfold _ (fun s row => hfold _ (fun s j => ?_) _ s) _ s
    split
    · split
      · rfl
      · exact hg ..
    · rfl

theorem vpref_claim {s : State} {st : Strand} {f : VxM} (h : s.strand? s.cur.slot = some st) (hb : Bare (running s st))
    (hx : s.cur.ctx = .access) :
    ∃ t st', exec (.vpref f) s = .next t ∧ t.strand? s.cur.slot = some st' ∧ st'.access.pc = (running s st).pc + 8 ∧ st'.exec = st.exec ∧
      (∀ r, st'.access.reg r = (running s st).reg r) ∧ t.dev = s.dev ∧ t.host = s.host ∧ t.tlb = s.tlb := by
  have hrun : running s st = st.access := by rw [running, hx]; rfl
  have hexec : exec (.vpref f) s = s.conclude s.cur.slot s.cur.ctx (.vpref f) 2 true (.done (s.prefetch (agent s st)
      ((running s st).reg f.gbase).toNat ((running s st).reg f.gstride).toInt ((running s st).reg f.gl) f.cache st.vbypass)) := by
    change execVpref f s = _
    rw [execVpref, if_pos hx,
      State.issue_bare _ _ _ _ h hb (fun _ _ hr => absurd hr List.not_mem_nil) (fun hu => absurd hu Bool.false_ne_true)]
    rfl
  have hkeep {α : Type} (g : State → α) (hg : ∀ s k c, g (s.setCluster k c) = g s) := State.prefetch_keeps g hg s (agent s st)
    ((running s st).reg f.gbase).toNat ((running s st).reg f.gstride).toInt ((running s st).reg f.gl) f.cache st.vbypass
  have hst := (hkeep (fun s => s.strand? s.cur.slot) fun _ _ _ => rfl).trans h
  have hslot := hkeep (fun s => s.cur.slot) fun _ _ _ => rfl
  have hdev := hkeep State.dev fun _ _ _ => rfl
  have hhost := hkeep State.host fun _ _ _ => rfl
  have htlb := hkeep State.tlb fun _ _ _ => rfl
  rw [hexec, State.conclude_done, hx, hrun]
  rw [hrun] at hst hslot hdev hhost htlb
  generalize s.prefetch (agent s st) (st.access.reg f.gbase).toNat (st.access.reg f.gstride).toInt (st.access.reg f.gl) f.cache st.vbypass = s1 at *
  rw [hslot] at hst
  rw [State.updCtx_of _ _ _ hst]
  exact ⟨_, _, rfl, State.strand?_setStrand .., rfl, rfl, fun _ => rfl, hdev, hhost, htlb⟩

/-- Settles O34: a VBIND's entry holds its stream, and a slot's commands change the stream that the commits so far leave in it. -/
theorem streamCommands : Obligations.StreamCommands := by
  intro f s st k c
  refine ⟨fun h hb hc hnov bs s1 hread => ?_, fun h hb hc hnov hl1 hal place hr => ?_,
    fun e rest h hvq hp _ hlife hfault hend hstart hlanes hrep hmx hi hk =>
      vunbind_claim h hvq hp hlife hfault hend hstart hlanes hrep hmx hi hk,
    fun h hb hx hvq hframe => ⟨fun x hcom hsource hended => ?_, fun hno => ?_⟩, fun h hb hx => vpref_claim h hb hx⟩
  · obtain ⟨t, st', seq, hnext, hcom, hstream, hv, hstreams, -⟩ := vbind_commits (s1 := s1) f _ _ hc.1 hc.2.2.1
    exact ⟨t, st', _, (execVbind_reads h hb hc hnov hread).trans hnext, hcom, hstream, rfl, rfl, rfl, rfl, hv, hstreams⟩
  · obtain ⟨cl, hread⟩ := State.readDescriptor_dev hc.1 hal hl1 hr
    obtain ⟨t, st', seq, hnext, hcom, hstream, hv, hstreams, hdev⟩ := vbind_commits (s1 := s.withClusters cl) f _ _ hc.1 hc.2.2.1
    exact ⟨t, st', _, (execVbind_reads h hb hc hnov hread).trans hnext, hcom, hstream, rfl, rfl, rfl, rfl, rfl, rfl, rfl, rfl, rfl, rfl, rfl,
      rfl, hv, hstreams, hdev⟩
  · have hexec := (execSfeed_access (f := f) h hb hx).trans (congrArg _ (State.feed_of hcom hsource hended))
    have hk : k < 8 := Strand.lt_of_stream ((Strand.committedStream_idle hvq hframe k).symm.trans hcom)
    refine ⟨fun hfull => ?_, fun hroom hzero => ?_, fun hroom hcount hchunk => ?_⟩
    · rw [hexec, if_pos hfull, State.conclude_wait _ _ _ _ _ _ _ rfl, hx]
    · rw [if_neg (Nat.not_le.2 hroom), if_pos (by rw [show (running s st).reg f.gl = 0 from hzero]; exact Nat.zero_min _)] at hexec
      obtain ⟨t, st', hnext, hst, hcom', -, hpc, -⟩ := sfeed_done { x with ended := true } h hx hvq hframe hk
      exact ⟨t, st', _, hexec.trans hnext, hst, hcom', rfl, hpc⟩
    · intro va n bytes
      have hn : n ≠ 0 := Nat.pos_iff_ne_zero.1 (Nat.lt_min.2 ⟨Nat.pos_of_ne_zero fun h0 => hcount (BitVec.eq_of_toNat_eq h0), hchunk⟩)
      rw [if_neg (Nat.not_le.2 hroom), if_neg hn] at hexec
      refine ⟨fun hw hmis => ?_, fun hok hbytes hel hroute place hres => ?_⟩
      · rw [hexec, if_pos ⟨hw, hmis⟩, State.conclude_trap]
        exact (trapsIn_self ..).symm
      · have hspan : ((s.spanCheck st va bytes).bind fun _ => s.translateSpan (agent s st) va bytes) =
            .ok ((pagesOf va bytes).map (s.pageUsed (agent s st))) := by
          rw [State.spanCheck_ok hel hroute]
          exact State.translateSpan_all hres
        rw [if_neg (fun hc => hok.elim hc.1 hc.2)] at hexec
        replace hexec := hexec.trans (congrArg (fun r => s.conclude s.cur.slot s.cur.ctx (.sfeed f) 2 true (Res.act r (Env.here s st) s _)) hspan)
        obtain ⟨t, st', hnext, hst, hcom', hothers, hpc, hregs, hexec', hdev⟩ := sfeed_done _ h hx hvq hframe hk
        refine ⟨t, st', _, _, hexec.trans hnext, hst, hcom', rfl, fun p hp => ?_, rfl, hothers, hpc, hregs, hexec', hdev⟩
        obtain ⟨hcov, hold, hentry⟩ := State.pageUsed_covers (agent_held s st) (hres p hp)
        refine ⟨_, List.mem_map_of_mem hp, hcov, hold, fun hlt => ?_⟩
        rw [← agent_cluster s st]
        exact hentry hlt
  · rw [execSfeed_access h hb hx, State.feed_refuses hno, State.conclude_trap]
    exact (trapsIn_self ..).symm

end Sys2Proof.Machine

/-! # Chapter 20: a vector frame's bytes, R314, R357 -/

namespace Sys2Proof.Machine
-- one proof at a time: the memory of proofs in flight together is more than the check has
set_option Elab.async false
open Sys2Proof.Claim Sys2Proof.Tests

/-! ## Fields of adjoining pieces -/

theorem fieldLE_append_left {a b : List Byte} {o n : Nat} (h : o + n ≤ a.length) : fieldLE (a ++ b) o n = fieldLE a o n := by
  rw [fieldLE, fieldLE, List.drop_append_of_le_length (by omega), List.take_append_of_le_length (by rw [List.length_drop]; omega)]

theorem fieldLE_append_right {a b : List Byte} {o n m : Nat} (h : a.length + o = m) : fieldLE (a ++ b) m n = fieldLE b o n := by
  rw [fieldLE, fieldLE, ← h, List.drop_append]
  rw [List.drop_eq_nil_of_le (Nat.le_add_right ..), Nat.add_sub_cancel_left, List.nil_append]

theorem fieldLE_all {a : List Byte} {n : Nat} (h : a.length = n) : fieldLE a 0 n = leNat a := by
  rw [fieldLE, List.drop_zero, ← h, List.take_length]

/-- A field that is one of the pieces that bytes are made of. -/
theorem fieldLE_flatten : ∀ (l : List (List Byte)) (i : Nat) (h : i < l.length),
    fieldLE l.flatten ((l.take i).map List.length).sum l[i].length = leNat l[i]
  | _ :: _, 0, _ => (fieldLE_append_left (Nat.zero_add _).le).trans (fieldLE_all rfl)
  | _ :: l, i + 1, h => (fieldLE_append_right rfl).trans (fieldLE_flatten l i (Nat.lt_of_succ_lt_succ h))

theorem fieldLE_piece {bs : List Byte} (l : List (List Byte)) (i : Nat) {o n x : Nat} (hbs : bs = l.flatten) (h : i < l.length)
    (ho : ((l.take i).map List.length).sum = o) (hn : l[i].length = n) (hx : leNat l[i] = x) : fieldLE bs o n = x := by
  rw [hbs, ← ho, ← hn, ← hx]
  exact fieldLE_flatten l i h

theorem fieldLE_take {a : List Byte} {m o n : Nat} (h : o + n ≤ m) : fieldLE (a.take m) o n = fieldLE a o n := by
  rw [fieldLE, fieldLE, List.drop_take, List.take_take, Nat.min_eq_left (by omega)]

theorem fieldLE_drop (a : List Byte) (m o n : Nat) : fieldLE (a.drop m) o n = fieldLE a (m + o) n := by
  rw [fieldLE, fieldLE, List.drop_drop]

theorem leNat_one {x : Nat} (h : x < 256) : leNat (leBytes 1 x) = x := by
  rw [leNat_leBytes]
  exact Nat.mod_eq_of_lt h

theorem leNat_two {x : Nat} (h : x < 65536) : leNat (leBytes 2 x) = x := by
  rw [leNat_leBytes]
  exact Nat.mod_eq_of_lt h

/-! ## The layout -/

/-- The fields of a frame's header, one after the other. -/
def framePieces (f : Frame) (streams : Bool) : List (List Byte) :=
  [leBytes 2 1, [1], [0], leBytes 4 (frameSize (f.queued.length + f.matrix.length) streams), leBytes 2 f.queued.length,
    leBytes 1 f.matrix.length, leBytes 1 (flagAt f.vimprecise 0 + flagAt streams 1), List.replicate 4 0, leBytes 8 f.vcommit.toNat,
    leBytes 1 f.mode.toNat, List.replicate 39 0]

/-- A lane's word as it lies in memory. -/
def wordBytes (w : Half) : List Byte := leBytes 4 w.toNat

theorem frameBytes_eq (f : Frame) (streams : Bool) (body : Nat → Byte) :
    frameBytes f streams body = (framePieces f streams).flatten ++ (f.sr.toList.flatMap wordBytes ++ (List.replicate 192 0 ++
      (List.range (frameSize (f.queued.length + f.matrix.length) streams - 512)).map body)) := by
  have hcell : ([1, 0] : List Byte) = [1] ++ [0] := rfl
  simp only [frameBytes, framePieces, hcell, List.flatten_cons, List.flatten_nil, List.append_assoc, List.append_nil]
  rfl

theorem frameSize_eq (f : Frame) (streams : Bool) : frameSize (f.queued.length + f.matrix.length) streams = Claim.sizeOf f streams := rfl

theorem frameBytes_length (f : Frame) (streams : Bool) (body : Nat → Byte) : (frameBytes f streams body).length = Claim.sizeOf f streams := by
  rw [frame_length, frameSize_eq, Claim.sizeOf]
  omega

theorem fieldLE_words (v : Vector Half 64) (l : Nat) (h : l < 64) : fieldLE (v.toList.flatMap wordBytes) (4 * l) 4 = v[l].toNat := by
  have hlen : ∀ k, ((((v.toList.map wordBytes).take k).map List.length)).sum = 4 * min k 64 := by
    intro k
    rw [← List.map_take, List.map_map, List.map_congr_left (g := fun _ => 4) (fun w _ => leBytes_length 4 w.toNat), List.map_const',
      List.sum_replicate, List.length_take, Vector.length_toList, smul_eq_mul, Nat.mul_comm]
  refine fieldLE_piece (v.toList.map wordBytes) l List.flatMap_def (by simpa using h) ?_ ?_ ?_
  · rw [hlen, Nat.min_eq_left h.le]
  · rw [List.getElem_map]
    exact leBytes_length 4 _
  · rw [List.getElem_map, Vector.getElem_toList]
    exact (leNat_leBytes 4 _).trans (Nat.mod_eq_of_lt (v[l]).isLt)

/-- R357: the fields of a frame of at most 96 instructions are what they say. -/
theorem frameBytes_layout {f : Frame} {streams : Bool} (body : Nat → Byte) (h : f.queued.length + f.matrix.length ≤ 96) :
    Layout (frameBytes f streams body) f streams body := by
  have hhead : (framePieces f streams).flatten.length = 64 := by
    simp only [framePieces, List.flatten_cons, List.flatten_nil, List.length_append, leBytes_length, List.length_cons, List.length_nil,
      List.length_replicate]
  have hfield (i : Nat) {o n x : Nat} (hi : i < 11)
      (ho : (((framePieces f streams).take i).map List.length).sum = o) (hn : ((framePieces f streams)[i]'hi).length = n)
      (hx : leNat ((framePieces f streams)[i]'hi) = x) (hon : o + n ≤ 64) : fieldLE (frameBytes f streams body) o n = x := by
    rw [frameBytes_eq, fieldLE_append_left (hhead.symm ▸ hon)]
    exact fieldLE_piece _ i rfl hi ho hn hx
  have hsize : Claim.sizeOf f streams < 65536 := by
    unfold Claim.sizeOf
    split <;> omega
  refine ⟨hfield 0 (by decide) rfl rfl rfl (by decide), hfield 1 (by decide) rfl rfl rfl (by decide),
    hfield 3 (by decide) rfl rfl ?_ (by decide), hfield 4 (by decide) rfl rfl (leNat_two (by omega)) (by decide),
    hfield 5 (by decide) rfl rfl (leNat_one (by omega)) (by decide), hfield 6 (by decide) rfl rfl ?_ (by decide),
    hfield 8 (by decide) rfl rfl ?_ (by decide), hfield 9 (by decide) rfl rfl (leNat_one (by omega)) (by decide), fun l hl => ?_,
    fun i hi => frame_body f streams body i (by omega)⟩
  · refine (leNat_leBytes 4 _).trans ?_
    rw [frameBytes_length, frameSize_eq]
    exact Nat.mod_eq_of_lt (hsize.trans (by decide))
  · refine (leNat_one ?_).trans ?_ <;> cases f.vimprecise <;> cases streams <;> decide
  · exact (leNat_leBytes 8 _).trans (Nat.mod_eq_of_lt f.vcommit.isLt)
  · have hwords : (f.sr.toList.flatMap wordBytes).length = 256 := words_length f.sr
    rw [frameBytes_eq, fieldLE_append_right (o := 4 * l) (by rw [hhead]), fieldLE_append_left (by rw [hwords]; omega)]
    exact fieldLE_words f.sr l hl

end Sys2Proof.Machine

/-! # Chapter 20: VFSAVE, R313, R314 -/

namespace Sys2Proof.Machine
-- one proof at a time: the memory of proofs in flight together is more than the check has
set_option Elab.async false
open Sys2Proof.Claim

/-! ## Bytes stored one by one -/

theorem State.journalBytes_of_strands {s t : State} (h : t.strands = s.strands) (cluster k : Nat) :
    t.journalBytes cluster k = s.journalBytes cluster k := by
  unfold State.journalBytes State.strand?
  rw [h]

theorem Cluster.scratchPut_spliceBytes (bs : List Byte) : ∀ (c : Cluster) (off : Nat), (c.scratchPut off bs).spliceBytes = c.spliceBytes := by
  induction bs with
  | nil => exact fun _ _ => rfl
  | cons b rest ih => exact fun c off => ih _ (off + 1)

theorem State.spliceBytes_setCluster (s : State) (k : Nat) {c : Cluster} (h : c.spliceBytes = (s.cluster k).spliceBytes) (j : Nat) :
    ((s.setCluster k c).cluster j).spliceBytes = (s.cluster j).spliceBytes := by
  by_cases hj : j = k
  · rw [hj, State.cluster_setCluster, h]
  · rw [State.cluster_setCluster_ne _ _ hj]

theorem State.spliceBytes_putBytes (s : State) (k : Nat) (p : Place) (bs : List Byte) (j : Nat) :
    ((s.putBytes k p bs).cluster j).spliceBytes = (s.cluster j).spliceBytes := by
  cases p with
  | scratch i off => exact s.spliceBytes_setCluster i (Cluster.scratchPut_spliceBytes ..) j
  | dev pa =>
    have hcl (m : State) : ((m.mirror pa bs).cluster j).spliceBytes = (m.cluster j).spliceBytes := by
      unfold State.mirror
      split <;> rfl
    have hset (m : State) (hm : (m.cluster j).spliceBytes = (s.cluster j).spliceBytes) (l : List L1Line) :
        ((if (m.cluster k).l1.isEmpty then m else m.setCluster k { m.cluster k with l1 := l }).cluster j).spliceBytes =
          (s.cluster j).spliceBytes := by
      split
      · exact hm
      · refine Eq.trans (m.spliceBytes_setCluster k ?_ j) hm
        rfl
    exact hset (({ s with dev := s.dev.writeBytes pa bs } : State).mirror pa bs) (hcl _) _
  | ws die off =>
    unfold State.putBytes
    dsimp only
    split <;> rfl
  | host | remote => rfl

theorem State.tlb_putBytes (s : State) (k : Nat) (p : Place) (bs : List Byte) : (s.putBytes k p bs).tlb = s.tlb := by
  cases p with
  | dev pa =>
    obtain ⟨sh, cl, h⟩ := s.putBytes_dev_frame k pa bs
    rw [h]
  | ws die off =>
    unfold State.putBytes
    dsimp only
    split <;> rfl
  | scratch | host | remote => rfl

/-- What the translation of an address rests on. -/
theorem State.resolve_congr {s t : State} (htlb : t.tlb = s.tlb) (hs : t.sansMemory = s.sansMemory)
    (hsplice : ∀ j, (t.cluster j).spliceBytes = (s.cluster j).spliceBytes) (a : Agent) (va : Nat) (i : Intent) :
    t.resolve a va i = s.resolve a va i := by
  have hfaults : t.xlatFaults = s.xlatFaults := (congrArg State.xlatFaults hs :)
  have hregions : t.regions = s.regions := (congrArg State.regions hs :)
  have hdenied : ∀ k off, t.scratchDenied k off = s.scratchDenied k off := fun k off => by
    rw [State.scratchDenied, State.scratchDenied, State.spliceStart, State.spliceStart, hsplice,
      State.journalBytes_of_strands (State.strands_of_sansMemory hs)]
  have hdev : ∀ pa, t.devicePlace a pa i = s.devicePlace a pa i := fun pa => by
    unfold State.devicePlace State.wsPlace
    rw [hregions]
  have htrans : t.translationFor a va = s.translationFor a va := by
    unfold State.translationFor State.translation
    rw [htlb]
  unfold State.resolve
  simp only [hfaults, hdenied, hdev, htrans]

theorem State.unreachable_putBytes (s : State) (k : Nat) (p : Place) (bs : List Byte) (q : Place) :
    (s.putBytes k p bs).unreachable q = s.unreachable q := by
  have hlink : (s.putBytes k p bs).linkUp = s.linkUp := (congrArg State.linkUp (s.sansMemory_putBytes k p bs) :)
  have hremote : ∀ m, ((s.putBytes k p bs).remote m).reachable = (s.remote m).reachable := by
    intro m
    cases p with
    | remote j pa =>
      unfold State.putBytes
      change ((lookup (insertKey s.remotes j _) m).getD _).reachable = _
      by_cases hm : m = j
      · rw [hm, lookup_insertKey_self]
        rfl
      · rw [lookup_insertKey_ne _ _ hm]
        rfl
    | dev pa =>
      obtain ⟨sh, cl, h⟩ := s.putBytes_dev_frame k pa bs
      rw [h]
      rfl
    | ws die off =>
      unfold State.putBytes
      dsimp only
      split <;> rfl
    | scratch | host => rfl
  unfold State.unreachable
  rw [hlink]
  cases q with
  | remote m _ => exact congrArg (!·) (hremote m)
  | dev | scratch | ws | host => rfl

theorem State.ws_putBytes {s : State} (k : Nat) {p : Place} (bs : List Byte) (hp : ∀ die off, p ≠ .ws die off) : (s.putBytes k p bs).ws = s.ws := by
  cases p with
  | dev pa =>
    obtain ⟨sh, cl, h⟩ := s.putBytes_dev_frame k pa bs
    rw [h]
  | ws die off => exact absurd rfl (hp die off)
  | scratch | host | remote => rfl

/-- R335, R357: bytes stored one by one, each where its address translates: the last that goes to a place stands there. -/
theorem State.storeBytes_stored {a : Agent} {k : Nat} (bs : List Byte) : ∀ (s : State) (va : Nat) (place : Nat → Place), s.memWf = true →
    (∀ i < bs.length, s.resolve a ((va + i) % 2 ^ 64) .store = .ok (place i) ∧ s.unreachable (place i) = false) →
    ∃ t, s.storeBytes a k va bs = .ok t ∧ t.sansMemory = s.sansMemory ∧ t.ws = s.ws ∧
      (∀ i < bs.length, ∀ q, place i = q → (∀ j < bs.length, i < j → place j ≠ q) → byteAt t q = bs.getD i 0) ∧
      ∀ q, (∀ i < bs.length, place i ≠ q) → byteAt t q = byteAt s q := by
  induction bs with
  | nil => exact fun s va place _ _ => ⟨s, rfl, rfl, rfl, fun _ hi => absurd hi (Nat.not_lt_zero _), fun _ _ => rfl⟩
  | cons b rest ih =>
    intro s va place hwf hplace
    obtain ⟨hres, hreach⟩ := hplace 0 (Nat.zero_lt_succ _)
    rw [Nat.add_zero] at hres
    have hne := State.resolve_store_ne_ws rfl hres
    obtain ⟨t, hstore, hsans, hws, hlast, hother⟩ := ih (s.putBytes k (place 0) [b]) (va + 1) (fun i => place (i + 1))
      (State.memWf_putBytes _ _ _ _ hwf) fun i hi => by
        obtain ⟨h, hr⟩ := hplace (i + 1) (Nat.succ_lt_succ hi)
        refine ⟨?_, (State.unreachable_putBytes ..).trans hr⟩
        rw [State.resolve_congr (s.tlb_putBytes ..) (s.sansMemory_putBytes ..) (s.spliceBytes_putBytes _ _ _), Nat.add_assoc, Nat.add_comm 1 i]
        exact h
    have hfirst : byteAt (s.putBytes k (place 0) [b]) (place 0) = b := by
      have h := byteAt_putBytes k (place 0) [b] hwf hne 0 (Nat.zero_lt_one)
      rwa [above_zero] at h
    refine ⟨t, ?_, hsans.trans (s.sansMemory_putBytes ..), hws.trans (State.ws_putBytes _ _ hne), fun i hi q hq hafter => ?_, fun q hq => ?_⟩
    · unfold State.storeBytes
      rw [hres]
      dsimp only
      rw [hreach]
      exact (if_neg Bool.false_ne_true).trans hstore
    · cases i with
      | zero =>
        rw [hother q fun j hj => hafter (j + 1) (Nat.succ_lt_succ hj) (Nat.succ_pos j), ← hq, hfirst]
        rfl
      | succ i => exact hlast i (Nat.lt_of_succ_lt_succ hi) q hq fun j hj hij => hafter (j + 1) (Nat.succ_lt_succ hj) (Nat.succ_lt_succ hij)
    · rw [hother q fun i hi => hq (i + 1) (Nat.succ_lt_succ hi)]
      refine byteAt_putBytes_ne _ _ _ _ _ fun i hi => ?_
      rw [Nat.lt_one_iff.1 hi, above_zero]
      exact (hq 0 (Nat.zero_lt_succ _)).symm

theorem State.heal_keeps (s : State) (spans : List (Nat × Nat)) :
    (s.heal spans).sansMemory = s.sansMemory ∧ (s.heal spans).dev = s.dev ∧ (s.heal spans).host = s.host ∧ (s.heal spans).ws = s.ws := by
  unfold State.heal
  split <;> exact ⟨rfl, rfl, rfl, rfl⟩

/-- R366: so is a structure, whose whole units stop being poisoned. -/
theorem State.storeSpan_stored {s : State} {a : Agent} {va : Nat} {bs : List Byte} {place : Nat → Place} (k : Nat) (hwf : s.memWf = true)
    (hplace : ∀ i < bs.length, s.resolve a ((va + i) % 2 ^ 64) .store = .ok (place i) ∧ s.unreachable (place i) = false) :
    ∃ t, s.storeSpan a k va bs = .ok t ∧ t.sansMemory = s.sansMemory ∧ t.ws = s.ws ∧ Stored .dev place bs s.dev t.dev ∧
      Stored .host place bs s.host t.host := by
  obtain ⟨t, hstore, hsans, hws, hlast, hother⟩ := State.storeBytes_stored (k := k) bs s va place hwf hplace
  have hdev : Stored .dev place bs s.dev t.dev := ⟨fun i hi q hq hj => hlast i hi (.dev q) hq hj, fun q hq => hother (.dev q) hq⟩
  have hhost : Stored .host place bs s.host t.host := ⟨fun i hi q hq hj => hlast i hi (.host q) hq hj, fun q hq => hother (.host q) hq⟩
  unfold State.storeSpan
  rw [hstore]
  rw [Res.map, Res.bind]
  split
  · exact ⟨t, rfl, hsans, hws, hdev, hhost⟩
  · obtain ⟨hs, hd, hh, hw⟩ := t.heal_keeps ((List.range bs.length).filterMap (fun i => t.storedSpan a ((va + i) % 2 ^ 64) 1))
    exact ⟨_, rfl, hs.trans hsans, hw.trans hws, hd ▸ hdev, hh ▸ hhost⟩

/-! ## The frame that is stored -/

theorem State.frameToSave_bound (s : State) (st : Strand) : (s.frameToSave (env s st)).2 = anyBound st.streams := by
  unfold State.frameToSave
  dsimp only
  split <;> rfl

theorem State.frameToSave_held {s : State} {st : Strand} {h : Frame} (hf : st.frame = some h) :
    (s.frameToSave (env s st)).1 = { h with
      queued := h.queued.map VqEntry.stored, matrix := h.matrix.map VqEntry.stored
      streams := st.streams, mode := (s.cluster (clusterOf s.cur.slot)).mode } := by
  unfold State.frameToSave
  dsimp only
  rw [show (env s st).st.frame = some h from hf]
  rfl

theorem State.frameToSave_none {s : State} {st : Strand} (hf : st.frame = none) :
    (s.frameToSave (env s st)).1 = { queued := [], matrix := [], pending := [], sr := st.sr, vimprecise := (running s st).vimprecise
                                     vcommit := st.charged.getD (running s st).tpc, mode := (s.cluster (clusterOf s.cur.slot)).mode
                                     vstart := st.vstart, streams := st.streams, owner := (st.launch, st.ordinal) } := by
  unfold State.frameToSave
  dsimp only
  rw [show (env s st).st.frame = none from hf]
  rfl

theorem stored_instr (l : List VqEntry) : (l.map VqEntry.stored).map (·.instr) = l.map (·.instr) := by
  rw [List.map_map]
  rfl

/-! ## The instruction -/

/-- The strand once its frame is stored (R313). -/
def Strand.released (st : Strand) (fr : Frame) : Strand :=
  { st with frame := none, charged := none, away := st.away ++ (fr.queued ++ fr.matrix).map (·.seq) }

/-- The machine once a frame is saved (log 16). -/
def State.savedIn (s1 : State) (k : Nat) (fr : Frame) : State := ({ s1 with frames := insertKey s1.frames k fr } : State).drawn

theorem State.savedIn_keeps (s1 : State) (k : Nat) (fr : Frame) : (s1.savedIn k fr).strands = s1.strands ∧ (s1.savedIn k fr).cur = s1.cur ∧
    (s1.savedIn k fr).dev = s1.dev ∧ (s1.savedIn k fr).host = s1.host ∧ (s1.savedIn k fr).ws = s1.ws := ⟨rfl, rfl, rfl, rfl, rfl⟩

theorem execVfsave_access {s : State} {st : Strand} {f : YsF} (h : Stands s st [f.gd, f.ga]) (hb : Bare (running s st)) (hx : s.cur.ctx = .access) :
    exec (.vfsave f) s = traps s .illegalInstruction (word0 (.vfsave f)) := by
  have hword : (running s st).firstWord (.vfsave f) = word0 (.vfsave f) := by
    rw [Context.firstWord, show (running s st).prefixes = none from hb]
    rfl
  change execVfsave f s = _
  rw [execVfsave, State.issue_bare _ _ _ _ h.1 hb h.2 fun hu => absurd hu (by rw [hx]; decide), ← hword]
  refine (congrArg (s.conclude s.cur.slot s.cur.ctx (.vfsave f) 2 false) (if_pos hx)).trans ?_
  exact (State.conclude_trap ..).trans (trapsIn_self ..).symm

/-- The checks of a VFSAVE of the execute context (R107, R313). -/
theorem execVfsave_checks {s : State} {st : Strand} {f : YsF} (h : Stands s st [f.gd, f.ga]) (hb : Bare (running s st)) (hx : s.cur.ctx = .execute)
    (hpriv : (running s st).priv = true) :
    (((running s st).reg f.ga).toNat % 256 ≠ 0 → exec (.vfsave f) s = traps s .misaligned ((running s st).reg f.ga)) ∧
    (((running s st).reg f.ga).toNat % 256 = 0 → s.heldBack (env s st) none = false → s.repartitioning s.cur.slot = false →
      ∀ (fr : Frame) (bytes : List Byte) (s1 : State), (s.frameToSave (env s st)).1 = fr →
      frameBytes fr (anyBound st.streams) (Config.frameBody s.draws) = bytes →
      s.route st 0 .other ((running s st).reg f.ga).toNat bytes.length = .memory →
      s.storeSpan (agent s st) (agent s st).cluster ((running s st).reg f.ga).toNat bytes = .ok s1 →
      exec (.vfsave f) s = s.conclude s.cur.slot s.cur.ctx (.vfsave f) 2 false (.done (((s1.savedIn s.draws fr).updStrand s.cur.slot
        (fun st => st.released fr)).setReg (env s st) f.gd (BitVec.ofNat 64 bytes.length)))) := by
  change (_ → execVfsave f s = _) ∧ (_ → _ → _ → ∀ fr bytes s1, _ → _ → _ → _ → execVfsave f s = _)
  rw [execVfsave, State.issue_bare _ _ _ _ h.1 hb h.2 fun _ => hpriv]
  have hctx : ¬ s.cur.ctx = .access := by
    rw [hx]
    decide
  refine ⟨fun hva => ?_, fun hva hheld hrep fr bytes s1 hfr hbytes hroute hstore => ?_⟩
  · refine (congrArg (s.conclude s.cur.slot s.cur.ctx (.vfsave f) 2 false) ((if_neg hctx).trans (if_pos hva))).trans ?_
    exact (State.conclude_trap ..).trans (trapsIn_self ..).symm
  · refine congrArg (s.conclude s.cur.slot s.cur.ctx (.vfsave f) 2 false) ((if_neg hctx).trans ((if_neg (not_not.2 hva)).trans
      ((if_neg (fun hc => absurd (hheld.symm.trans hc) Bool.false_ne_true)).trans
        ((if_neg (fun hc => absurd (hrep.symm.trans hc) Bool.false_ne_true)).trans ?_))))
    have hcheck : s.writeCheck st ((running s st).reg f.ga).toNat bytes.length = .ok () := by
      unfold State.writeCheck
      rw [hroute]
      split <;> rfl
    have hsync : ((s.writeCheck st ((running s st).reg f.ga).toNat bytes.length).bind (fun _ =>
        s.storeSpan (agent s st) (agent s st).cluster ((running s st).reg f.ga).toNat bytes)) = .ok s1 := by
      rw [hcheck]
      exact hstore
    have hsave : s.frameToSave (Env.here s st) = (fr, anyBound st.streams) := Prod.ext hfr (s.frameToSave_bound st)
    rw [hsave]
    change (Res.sync ((s.writeCheck st ((running s st).reg f.ga).toNat (frameBytes fr (anyBound st.streams) (Config.frameBody s.draws)).length).bind
      fun _ => s.storeSpan (agent s st) (agent s st).cluster ((running s st).reg f.ga).toNat (frameBytes fr (anyBound st.streams)
        (Config.frameBody s.draws))) (env s st) s f.gd fun s1 => .done (((State.savedIn s1 s.draws fr).updStrand s.cur.slot
          (fun st => st.released fr)).setReg (env s st) f.gd (BitVec.ofNat 64 (frameBytes fr (anyBound st.streams)
            (Config.frameBody s.draws)).length))) = _
    rw [hbytes, hsync]
    rfl

theorem vectorFrameSave_claim : Claim.VectorFrameSave := by
  intro f s st h hb c va bound fr bytes
  have hlen : bytes.length = Claim.sizeOf fr bound := frameBytes_length ..
  refine ⟨fun hx => execVfsave_access h hb hx, fun hx hpriv hva => (execVfsave_checks h hb hx hpriv).1 hva, fun fr0 hf => ?_, fun hf => ?_, ?_, ?_,
    hlen, fun hq => frameBytes_layout _ hq, fun hx hpriv hva hheld hrep hroute hwf place hplace => ?_⟩
  · have hfr : fr = _ := State.frameToSave_held hf
    rw [hfr]
    exact ⟨stored_instr _, stored_instr _, rfl, rfl, rfl, rfl, rfl⟩
  · have hfr : fr = _ := State.frameToSave_none hf
    rw [hfr]
    exact ⟨rfl, rfl, rfl, rfl, rfl, rfl⟩
  · cases hf : st.frame with
    | none => exact (congrArg Frame.mode (State.frameToSave_none hf) :)
    | some fr0 => exact (congrArg Frame.mode (State.frameToSave_held hf) :)
  · cases hf : st.frame with
    | none => exact (congrArg Frame.owner (State.frameToSave_none hf) :)
    | some fr0 => exact (congrArg Frame.owner (State.frameToSave_held hf) :)
  · obtain ⟨t, hstore, hsans, hws, hdev, hhost⟩ := State.storeSpan_stored (agent s st).cluster hwf hplace
    have hexec := (execVfsave_checks h hb hx hpriv).2 hva hheld hrep fr bytes t rfl rfl hroute hstore
    obtain ⟨hstrands, hcur, hdev', hhost', hws'⟩ := t.savedIn_keeps s.draws fr
    generalize t.savedIn s.draws fr = u at *
    have hst : (u.updStrand s.cur.slot (fun st => st.released fr)).strand? s.cur.slot = some (st.released fr) :=
      State.strand?_updStrand _ _ (Eq.trans (congrArg (lookup · s.cur.slot) (hstrands.trans (State.strands_of_sansMemory hsans))) h.1)
    have hcur' : (u.updStrand s.cur.slot (fun st => st.released fr)).cur = s.cur :=
      (State.updStrand_cur ..).trans (hcur.trans (State.cur_of_sansMemory hsans))
    have hdone := hexec.trans (conclude_gives (st := st.released fr) (.vfsave f) f.gd (BitVec.ofNat 64 bytes.length) hcur' hst)
    have hmem {α : Type} (g : State → α) (hg : ∀ s k c, g (State.updStrand s k c) = g s) :
        g (complete (u.updStrand s.cur.slot (fun st => st.released fr)) 2 (fun c => c.setReg f.gd (BitVec.ofNat 64 bytes.length))) = g u :=
      (hg ..).trans (hg ..)
    refine ⟨_, _, hdone, (congrArg (fun c : Current => State.strand? (State.updCtx _ c.slot c.ctx _) s.cur.slot) hcur').trans
      (State.strand?_updCtx _ _ _ hst), ?_⟩
    rw [hmem State.dev State.updStrand_dev, hmem State.host State.updStrand_host, hmem State.ws State.updStrand_ws, hdev', hhost', hws']
    have hc : (st.released fr).ctx .execute = c := by
      change st.exec = running s st
      rw [running, hx]
      rfl
    have hregs := reg_setCtx_setReg s (st.released fr) f.gd (BitVec.ofNat 64 bytes.length)
      ((running s (st.released fr)).pc + BitVec.ofNat 64 (4 * 2))
    simp only [running, hx] at hregs ⊢
    exact ⟨rfl, hdev, hhost, hws, rfl, rfl, rfl, congrArg (fun c : Context => c.pc + 8) hc, fun r => (hregs r).trans (by rw [hc])⟩

end Sys2Proof.Machine

/-! # Chapter 20: VFLOAD, R313, R314 -/

namespace Sys2Proof.Machine
-- one proof at a time: the memory of proofs in flight together is more than the check has
set_option Elab.async false
open Sys2Proof.Claim

/-! ## A structure read as doublewords -/

theorem list_eq_range_getD (l : List Byte) {n : Nat} (h : l.length = n) : l = (List.range n).map (fun i => l.getD i 0) := by
  refine List.ext_getElem (by rw [List.length_map, List.length_range, h]) fun i h1 h2 => ?_
  rw [List.getElem_map, List.getElem_range, List.getD_eq_getElem _ _ h1]

/-- A structure whose doublewords can all be read is read. -/
theorem State.readObject_bytes {s : State} {st : Strand} {va : Nat} : ∀ (m : Nat) (bs : List Byte), bs.length = 8 * m →
    (∀ j < m, ∃ p, Reads s st ((va + 8 * j) % 2 ^ 64) 8 p ∧ ∀ i < 8, byteAt s (above p i) = bs.getD (8 * j + i) 0) →
    s.readObject (env s st) va (8 * m) = .ok bs := by
  have hread : ∀ j (g : List Byte), g.length = 8 →
      (∃ p, Reads s st ((va + 8 * j) % 2 ^ 64) 8 p ∧ ∀ i < 8, byteAt s (above p i) = g.getD i 0) →
      ∀ bs : List Byte, (s.loadVA (agent s st) st st.strip (kindOf s .load) ((va + 8 * j) % 2 ^ 64) 8 (fun _ => false) false).map
        (fun r => bs ++ r.1) = .ok (bs ++ g) := by
    rintro j g hg ⟨p, ⟨he, hr, hp, hpo, hun⟩, hb⟩ bs
    rw [State.loadVA_memory (fun _ => false) false he hr hp hpo hun]
    refine congrArg (fun l => Res.ok (bs ++ l)) ((State.readPlace_noCopy ..).trans ?_)
    rw [list_eq_range_getD g hg]
    exact List.map_congr_left fun i hi => by rw [byteAt_cacheTranslation, hb i (List.mem_range.1 hi)]
  intro m
  induction m with
  | zero => exact fun bs hlen _ => by rw [List.length_eq_zero_iff.1 hlen]; rfl
  | succ m ih =>
    intro bs hlen hbs
    have hprev := ih (bs.take (8 * m)) (by rw [List.length_take]; omega) fun j hj => by
      obtain ⟨p, hp, hb⟩ := hbs j (Nat.lt_succ_of_lt hj)
      refine ⟨p, hp, fun i hi => (hb i hi).trans ?_⟩
      rw [List.getD_eq_getElem?_getD, List.getD_eq_getElem?_getD, List.getElem?_take_of_lt (by omega)]
    have hnext := hread m (bs.drop (8 * m)) (by rw [List.length_drop]; omega) (by
      obtain ⟨p, hp, hb⟩ := hbs m (Nat.lt_succ_self m)
      refine ⟨p, hp, fun i hi => (hb i hi).trans ?_⟩
      rw [List.getD_eq_getElem?_getD, List.getD_eq_getElem?_getD, List.getElem?_drop]) (bs.take (8 * m))
    rw [List.take_append_drop] at hnext
    unfold State.readObject at hprev ⊢
    rw [Nat.mul_div_cancel_left _ (by decide)] at hprev ⊢
    rw [List.range_succ, List.foldl_append, hprev]
    exact hnext

/-- So is a part of one. -/
theorem State.readObject_part {s : State} {st : Strand} {va n : Nat} {bs : List Byte} (hlen : bs.length = 8 * n)
    (h : ∀ j < n, ∃ p, Reads s st ((va + 8 * j) % 2 ^ 64) 8 p ∧ ∀ i < 8, byteAt s (above p i) = bs.getD (8 * j + i) 0) {a m : Nat} (ham : a + m ≤ n) :
    s.readObject (env s st) (va + 8 * a) (8 * m) = .ok ((bs.drop (8 * a)).take (8 * m)) := by
  refine State.readObject_bytes m _ ?_ fun j hj => ?_
  · rw [List.length_take, List.length_drop, hlen, ← Nat.mul_sub, Nat.min_eq_left (Nat.mul_le_mul_left 8 (Nat.le_sub_of_add_le' ham))]
  · obtain ⟨p, hp, hb⟩ := h (a + j) ((Nat.add_lt_add_left hj a).trans_le ham)
    rw [Nat.mul_add, ← Nat.add_assoc] at hp
    refine ⟨p, hp, fun i hi => (hb i hi).trans ?_⟩
    rw [List.getD_eq_getElem?_getD, List.getD_eq_getElem?_getD, List.getElem?_take_of_lt (by omega), List.getElem?_drop, Nat.mul_add, Nat.add_assoc]

/-! ## The frame that is found -/

theorem Frame.size_eq (f : Frame) : f.size = Claim.sizeOf f (anyBound f.streams) := rfl

/-- Log 16: the frame whose body stands in memory, where no other frame has the same. -/
theorem State.savedFrame_own {s : State} {owner : Nat × Nat} {k : Nat} {fr : Frame} {header body : List Byte} (hmem : (k, fr) ∈ s.frames)
    (howner : fr.owner = owner) (hsize : fr.size = body.length + 512) (hbody : (List.range body.length).map (Config.frameBody k) = body)
    (huniq : ∀ x ∈ s.frames, x.2.size = body.length + 512 → (List.range body.length).map (Config.frameBody x.1) = body → x.2 = fr) :
    s.savedFrame owner header body = some fr := by
  unfold State.savedFrame
  dsimp only
  generalize hl : (s.frames.filter (fun p => p.2.size == body.length + 512 &&
    (List.range body.length).map (Config.frameBody p.1) == body)).reverse = l
  have hall : ∀ x ∈ l, x.2 = fr := by
    intro x hx
    rw [← hl, List.mem_reverse, List.mem_filter, Bool.and_eq_true, beq_iff_eq, beq_iff_eq] at hx
    exact huniq x hx.1 hx.2.1 hx.2.2
  have hin : (k, fr) ∈ l.filter (fun p => p.2.owner == owner) := by
    rw [List.mem_filter, ← hl, List.mem_reverse, List.mem_filter, Bool.and_eq_true, beq_iff_eq, beq_iff_eq]
    exact ⟨⟨hmem, hsize, hbody⟩, beq_iff_eq.2 howner⟩
  split
  · next p hp => exact congrArg some (hall p (List.mem_of_mem_filter (List.mem_of_find?_eq_some hp)))
  · cases hown : l.filter (fun p => p.2.owner == owner) with
    | nil => exact absurd (hown ▸ hin) List.not_mem_nil
    | cons p rest =>
      have hp : p ∈ l := List.mem_of_mem_filter (hown ▸ List.mem_cons_self)
      exact congrArg some (hall p hp)

theorem State.foreignEmpty_own {s : State} {owner : Nat × Nat} {k : Nat} {fr : Frame} (hmem : (k, fr) ∈ s.frames) (howner : fr.owner = owner)
    (hsize : fr.size = 512) : s.foreignEmpty owner fr.sr = false := by
  unfold State.foreignEmpty
  dsimp only
  refine Bool.and_eq_false_imp.2 fun _ => List.all_eq_false.2 ⟨(k, fr), List.mem_filter.2 ⟨hmem, ?_⟩, ?_⟩
  · rw [hsize, beq_self_eq_true, beq_self_eq_true]
    rfl
  · rw [howner, bne_self_eq_false]
    exact Bool.false_ne_true

/-! ## The frame that is loaded -/

/-- The strand that holds a loaded frame of q instructions (R313, R314). -/
def Strand.loaded (st : Strand) (f : Frame) (q : Nat) (words : Vector Half 64) : Strand :=
  { st with
    sr := words
    streams := if st.streams.toList.any (·.isSome) then st.streams else f.streams
    frame := if 0 < q then some { f with sr := words, streams := Vector.replicate 8 none } else none
    savedPins := []
    away := st.away.filter (fun n => !(f.queued ++ f.matrix).any (fun x => x.seq == n)) }

/-- The lane words that lie behind a frame's header. -/
def laneWords (b : List Byte) : Vector Half 64 := Vector.ofFn (fun l => BitVec.ofNat 32 (fieldLE b (4 * l.val) 4))

/-- The header is one that R314 admits for a strand that holds no frame. -/
def HeaderFits (h : List Byte) (mode : BitVec 2) : Prop :=
  fieldLE h 2 1 % 2 ≠ 0 ∧ fieldLE h 0 2 = 1 ∧ fieldLE h 4 4 % 256 = 0 ∧ 512 ≤ fieldLE h 4 4 ∧ fieldLE h 4 4 ≤ 0x4000 ∧ fieldLE h 24 1 = mode.toNat

theorem State.loadFrame_of {s : State} {st : Strand} {va : Nat} {h b : List Byte} (hread : s.readObject (env s st) va 64 = .ok h)
    (hfits : HeaderFits h (s.cluster (clusterOf s.cur.slot)).mode) (hframe : st.frame = none)
    (hbody : s.readObject (env s st) (va + 64) (fieldLE h 4 4 - 64) = .ok b) :
    (fieldLE h 4 4 = 512 → s.foreignEmpty (st.launch, st.ordinal) (laneWords b) = false →
      s.loadFrame (env s st) va = .ok ((s.noteRead (agent s st) va (fieldLE h 4 4)).updStrand s.cur.slot (fun st =>
        { st with sr := laneWords b }))) ∧
    (∀ f, fieldLE h 4 4 ≠ 512 → s.savedFrame (st.launch, st.ordinal) h (b.drop 448) = some f → f.owner = (st.launch, st.ordinal) →
      s.loadFrame (env s st) va = .ok ((s.noteRead (agent s st) va (fieldLE h 4 4)).setStrand s.cur.slot
        (st.loaded f (fieldLE h 8 2 + fieldLE h 10 1) (laneWords b)))) := by
  obtain ⟨hv, hversion, hmod, hlow, hhigh, hmode⟩ := hfits
  have hbad : ¬ (fieldLE h 0 2 ≠ 1 ∨ fieldLE h 4 4 % 256 ≠ 0 ∨ fieldLE h 4 4 < 512 ∨ 0x4000 < fieldLE h 4 4 ∨ (env s st).st.frame.isSome = true ∨
      fieldLE h 24 1 ≠ (s.cluster (clusterOf s.cur.slot)).mode.toNat) := by
    rw [show (env s st).st.frame = none from hframe]
    simp [hversion, hmod, hmode, Nat.not_lt.2 hlow, Nat.not_lt.2 hhigh]
  unfold State.loadFrame
  rw [hread]
  refine ⟨fun h512 hforeign => ?_, fun f h512 hsaved howner => ?_⟩
  · refine (if_neg hv).trans ((if_neg hbad).trans ?_)
    rw [hbody]
    refine (if_neg fun hc => absurd (hforeign.symm.trans hc.2) Bool.false_ne_true).trans (if_pos h512)
  · refine (if_neg hv).trans ((if_neg hbad).trans ?_)
    rw [hbody]
    refine (if_neg fun hc => h512 hc.1).trans ((if_neg h512).trans ?_)
    change (match s.savedFrame (st.launch, st.ordinal) h (b.drop 448) with | none => _ | some f => _) = _
    rw [hsaved]
    exact if_neg (not_not.2 howner)

theorem State.loadFrame_invalid {s : State} {st : Strand} {va : Nat} {h : List Byte} (hread : s.readObject (env s st) va 64 = .ok h)
    (hv : fieldLE h 2 1 % 2 = 0) : s.loadFrame (env s st) va = .ok (s.noteRead (agent s st) va 64) := by
  unfold State.loadFrame
  rw [hread]
  exact if_pos hv

theorem State.cur_noteRead (s : State) (a : Agent) (va n : Nat) : (s.noteRead a va n).cur = s.cur :=
  State.cur_of_sansMemory (s.sansMemory_noteRead a va n)

theorem State.loadFrame_cur {s t : State} {e : Env} {va : Nat} (h : s.loadFrame e va = .ok t) : t.cur = s.cur := by
  have hg : (s.loadFrame e va).Gives (fun t => t.cur = s.cur) := by
    refine Res.gives_bind (Res.gives_any _) fun hd _ => ?_
    split
    · exact State.cur_noteRead ..
    · dsimp only
      split
      · trivial
      · refine Res.gives_bind (Res.gives_any _) fun b _ => ?_
        split
        · trivial
        · split
          · exact (State.updStrand_cur ..).trans (State.cur_noteRead ..)
          · split
            · trivial
            · split
              · trivial
              · exact State.cur_noteRead s ..
  rw [h] at hg
  exact hg

/-! ## The instruction -/

theorem execVfload_of {s : State} {st : Strand} {f : YsF} (h : Stands s st [f.ga]) (hb : Bare (running s st)) (hpriv : (running s st).priv = true)
    (hx : s.cur.ctx = .execute) (hva : ((running s st).reg f.ga).toNat % 256 = 0) :
    exec (.vfload f) s = s.conclude s.cur.slot s.cur.ctx (.vfload f) 2 false
      (if !(st.vq.isEmpty && ((s.cluster (clusterOf s.cur.slot)).matrixOf s.cur.slot).isEmpty) then .wait .frame s
        else (s.loadFrame (env s st) ((running s st).reg f.ga).toNat).sync (env s st) s 0 .done) := by
  change execVfload f s = _
  rw [execVfload, State.issue_bare _ _ _ _ h.1 hb h.2 fun _ => hpriv]
  refine congrArg (s.conclude s.cur.slot s.cur.ctx (.vfload f) 2 false) ((if_neg ?_).trans (if_neg (not_not.2 hva)))
  change ¬ s.cur.ctx = .access
  rw [hx]
  decide

theorem execVfload_loads {s t : State} {st : Strand} {f : YsF} (h : Stands s st [f.ga]) (hb : Bare (running s st)) (hpriv : (running s st).priv = true)
    (hx : s.cur.ctx = .execute) (hva : ((running s st).reg f.ga).toNat % 256 = 0) (hvq : st.vq = [])
    (hmx : (s.cluster (clusterOf s.cur.slot)).matrixOf s.cur.slot = []) (hload : s.loadFrame (env s st) ((running s st).reg f.ga).toNat = .ok t) :
    exec (.vfload f) s = .next (complete t 2 (fun c => c)) := by
  rw [execVfload_of h hb hpriv hx hva, hvq, hmx, if_neg (by decide), hload, Res.sync_ok, conclude_passes _ (State.loadFrame_cur hload)]

theorem strand?_complete {s t : State} {st : Strand} (words : Nat) (f : Context → Context) (hcur : t.cur = s.cur)
    (h : t.strand? s.cur.slot = some st) : (complete t words f).strand? s.cur.slot =
      some (st.setCtx s.cur.ctx ((f (running s st)).advance ((running s st).pc + BitVec.ofNat 64 (4 * words)))) := by
  rw [complete, hcur]
  exact State.strand?_updCtx _ _ _ h

theorem anyBound_false {v w : Vector (Option Stream) 8} (hv : anyBound v = false) (hw : anyBound w = false) : v = w := by
  have hnone {u : Vector (Option Stream) 8} (hu : anyBound u = false) (i : Nat) (hi : i < 8) : u[i] = none := by
    have := List.any_eq_false.1 hu u[i] (by simp)
    simpa using this
  exact Vector.ext fun i hi => (hnone hv i hi).trans (hnone hw i hi).symm

theorem laneWords_eq {bytes : List Byte} {v : Vector Half 64} (h : ∀ l (hl : l < 64), fieldLE bytes (64 + 4 * l) 4 = v[l].toNat) :
    laneWords (bytes.drop 64) = v := by
  refine Vector.ext fun l hl => ?_
  rw [laneWords, Vector.getElem_ofFn, fieldLE_drop, h l hl]
  exact BitVec.ofNat_toNat 32 _

/-- R314: how long a frame of at most 96 instructions is. -/
theorem sizeOf_eq {fr : Frame} {b : Bool} (hq : fr.queued.length + fr.matrix.length ≤ 96) :
    ∃ n ≤ 50, Claim.sizeOf fr b = 512 + 256 * n ∧ (n = 0 → fr.queued.length + fr.matrix.length = 0 ∧ b = false) := by
  refine ⟨(fr.queued.length + fr.matrix.length + 1) / 2 + if b then 2 else 0, ?_, ?_, ?_⟩
  · split <;> omega
  · rw [Claim.sizeOf, Nat.mul_add, ← Nat.add_assoc]
    cases b <;> rfl
  · intro h
    cases b
    · exact ⟨by simpa using h, rfl⟩
    · exact absurd h (Nat.succ_ne_zero _)

/-- The opaque bytes of a frame are its body's (log 16). -/
theorem layout_opaque {bytes : List Byte} {fr : Frame} {b : Bool} {body : Nat → Byte} (h : Layout bytes fr b body) :
    (List.range (bytes.drop 512).length).map body = bytes.drop 512 := by
  obtain ⟨-, -, -, -, -, -, -, -, -, hopaque⟩ := h
  have hlen : (bytes.drop 512).length = bytes.length - 512 := List.length_drop
  refine Eq.trans (List.map_congr_left fun i hi => ?_) (list_eq_range_getD (bytes.drop 512) rfl).symm
  rw [← hopaque i (hlen ▸ List.mem_range.1 hi), List.getD_eq_getElem?_getD, List.getD_eq_getElem?_getD, List.getElem?_drop]

/-- The strand holds the frame again: its instructions and pending registers, its lane words, and its stream slots where none have stayed. -/
def Strand.Reloaded (st u : Strand) (fr : Frame) : Prop :=
  u.sr = fr.sr ∧
    (0 < fr.queued.length + fr.matrix.length → ∃ g, u.frame = some g ∧ g.queued = fr.queued ∧ g.matrix = fr.matrix ∧
      g.pending = fr.pending ∧ g.vcommit = fr.vcommit ∧ g.vimprecise = fr.vimprecise) ∧
    (fr.queued.length + fr.matrix.length = 0 → u.frame = none) ∧
    u.streams = (if anyBound st.streams then st.streams else fr.streams) ∧ u.vq = st.vq ∧ u.v = st.v ∧ u.exec = st.exec

theorem Strand.reloaded_loaded (st : Strand) (fr : Frame) : st.Reloaded (st.loaded fr (fr.queued.length + fr.matrix.length) fr.sr) fr :=
  ⟨rfl, fun hpos => ⟨_, if_pos hpos, rfl, rfl, rfl, rfl, rfl⟩, fun hzero => if_neg (by rw [hzero]; exact lt_irrefl 0), rfl, rfl, rfl, rfl⟩

/-- A frame without a body only gives its lane words. -/
theorem Strand.reloaded_words {st : Strand} {fr : Frame} (hframe : st.frame = none) (hq : fr.queued.length + fr.matrix.length = 0)
    (hb : anyBound fr.streams = false) : st.Reloaded { st with sr := fr.sr } fr := by
  refine ⟨rfl, fun hpos => absurd hq (Nat.pos_iff_ne_zero.1 hpos), fun _ => hframe, ?_, rfl, rfl, rfl⟩
  split
  · rfl
  · next hs => exact anyBound_false (Bool.eq_false_of_not_eq_true hs) hb

/-- R314: the machine once a frame that a VFSAVE of the strand has stored is loaded. -/
theorem loadFrame_stored {s : State} {st : Strand} {va k : Nat} {fr : Frame} {bytes : List Byte} (h : s.strand? s.cur.slot = some st)
    (hmem : (k, fr) ∈ s.frames)
    (howner : fr.owner = (st.launch, st.ordinal)) (hmode : fr.mode = (s.cluster (clusterOf s.cur.slot)).mode) (hframe : st.frame = none)
    (hq : fr.queued.length + fr.matrix.length ≤ 96) (hlen : bytes.length = Claim.sizeOf fr (anyBound fr.streams))
    (hlay : Layout bytes fr (anyBound fr.streams) (Config.frameBody k))
    (huniq : 512 < bytes.length → ∀ x ∈ s.frames, Claim.sizeOf x.2 (anyBound x.2.streams) = bytes.length →
      (∀ i < bytes.length - 512, Config.frameBody x.1 i = Config.frameBody k i) → x.2 = fr)
    (hread : ∀ j < bytes.length / 8, ∃ p, Reads s st ((va + 8 * j) % 2 ^ 64) 8 p ∧ ∀ i < 8, byteAt s (above p i) = bytes.getD (8 * j + i) 0) :
    ∃ t u, s.loadFrame (env s st) va = .ok t ∧ t.strand? s.cur.slot = some u ∧ st.Reloaded u fr := by
  obtain ⟨n, hn, hform, hzero⟩ := sizeOf_eq (b := anyBound fr.streams) hq
  have hbytes : bytes.length = 512 + 256 * n := hlen.trans hform
  have hdouble : bytes.length = 8 * (64 + 32 * n) := hbytes.trans (by rw [Nat.mul_add, ← Nat.mul_assoc])
  rw [hdouble, Nat.mul_div_cancel_left _ (by decide)] at hread
  have hopaque := layout_opaque hlay
  obtain ⟨hver, hvalid, hsize, hnq, hnm, -, -, hmo, hwords, -⟩ := hlay
  have hfield : ∀ o n, o + n ≤ 64 → fieldLE (bytes.take 64) o n = fieldLE bytes o n := fun o n hon => fieldLE_take hon
  have hhead : s.readObject (env s st) va 64 = .ok (bytes.take 64) := State.readObject_part (a := 0) (m := 8) hdouble hread (by omega)
  have hrest : s.readObject (env s st) (va + 64) (fieldLE (bytes.take 64) 4 4 - 64) = .ok (bytes.drop 64) := by
    have hpart := State.readObject_part (a := 8) (m := 56 + 32 * n) hdouble hread (by omega)
    have hsub : 8 * (56 + 32 * n) = bytes.length - 64 := by omega
    rw [hsub, List.take_of_length_le List.length_drop.le] at hpart
    rw [hfield 4 4 (by decide), hsize]
    exact hpart
  have hfits : HeaderFits (bytes.take 64) (s.cluster (clusterOf s.cur.slot)).mode := by
    rw [HeaderFits, hfield 2 1 (by decide), hfield 0 2 (by decide), hfield 4 4 (by decide), hfield 24 1 (by decide), hver, hvalid, hsize, hmo, hmode,
      hbytes]
    exact ⟨by decide, rfl, by omega, Nat.le_add_right .., by omega, rfl⟩
  obtain ⟨hempty, hfull⟩ := State.loadFrame_of hhead hfits hframe hrest
  rw [hfield 4 4 (by decide), hsize, laneWords_eq hwords] at hempty hfull
  have hst : (s.noteRead (agent s st) va bytes.length).strand? s.cur.slot = some st :=
    (State.strand?_of_sansMemory (State.sansMemory_noteRead ..) _).trans h
  by_cases h0 : n = 0
  · have h512 : bytes.length = 512 := by rw [hbytes, h0]
    obtain ⟨hq0, hb0⟩ := hzero h0
    exact ⟨_, _, hempty h512 (State.foreignEmpty_own hmem howner (hlen.symm.trans h512)), State.strand?_updStrand _ _ hst,
      Strand.reloaded_words hframe hq0 hb0⟩
  · have hlong : 512 < bytes.length := hbytes ▸ Nat.lt_add_of_pos_right (Nat.mul_pos (by decide) (Nat.pos_of_ne_zero h0))
    have hblen : (bytes.drop 512).length + 512 = bytes.length := by rw [List.length_drop, Nat.sub_add_cancel hlong.le]
    have hsaved : s.savedFrame (st.launch, st.ordinal) (bytes.take 64) ((bytes.drop 64).drop 448) = some fr := by
      rw [List.drop_drop]
      refine State.savedFrame_own hmem howner (hlen.symm.trans hblen.symm) hopaque fun x hx hxs hxb => huniq hlong x hx (hxs.trans hblen) fun i hi => ?_
      rw [← List.length_drop] at hi
      exact List.map_inj_left.1 (hxb.trans hopaque.symm) i (List.mem_range.2 hi)
    have hload := hfull fr hlong.ne' hsaved howner
    rw [hfield 8 2 (by decide), hfield 10 1 (by decide), hnq, hnm] at hload
    exact ⟨_, _, hload, State.strand?_setStrand .., st.reloaded_loaded fr⟩

theorem vectorFrameLoad_claim : Claim.VectorFrameLoad := by
  intro f s st h hb hpriv hx c va hva
  refine ⟨fun hvq hmx => ⟨fun hd hread hv => execVfload_loads h hb hpriv hx hva hvq hmx (State.loadFrame_invalid hread hv),
    fun t hload => execVfload_loads h hb hpriv hx hva hvq hmx hload, ?_⟩, fun hvq => ?_⟩
  · intro k fr bytes hmem howner hmode hframe hq bound hlen hlay huniq hread
    obtain ⟨t, u, hload, hu, hsr, hheld, hnone, hstreams, huvq, huv, hexec⟩ :=
      loadFrame_stored h.1 hmem howner hmode hframe hq hlen hlay huniq hread
    refine ⟨_, _, execVfload_loads h hb hpriv hx hva hvq hmx hload, strand?_complete 2 _ (State.loadFrame_cur hload) hu, ?_⟩
    have hc : u.exec = c := by
      change u.exec = running s st
      rw [hexec, running, hx]
      rfl
    simp only [running, hx]
    exact ⟨hsr, hheld, hnone, hstreams, huvq.trans hvq, huv, congrArg (fun c : Context => c.pc + 8) hc, fun r => (congrArg (fun c : Context => c.reg r) hc :)⟩
  · have hwait : (!(st.vq.isEmpty && ((s.cluster (clusterOf s.cur.slot)).matrixOf s.cur.slot).isEmpty)) = true := by
      rw [List.isEmpty_eq_false_iff.2 hvq]
      rfl
    rw [execVfload_of h hb hpriv hx hva, hwait, if_pos rfl, State.conclude_wait _ _ _ _ _ _ _ rfl, hx]

/-- Settles O21: the bytes that a VFSAVE stores are the frame's layout, by which a VFLOAD finds the frame again. -/
theorem vectorFrames : Obligations.VectorFrames := ⟨vectorFrameSave_claim, vectorFrameLoad_claim⟩

end Sys2Proof.Machine

/-! # Chapter 10: vector loads, R194 to R198 -/

namespace Sys2Proof.Machine
-- one proof at a time: the memory of proofs in flight together is more than the check has
set_option Elab.async false
open Sys2Proof.Claim

/-! ## Elements whose translation the L1 TLB holds -/

/-- A load of n bytes that is an ordinary access of device memory, its translation in the L1 TLB of the agent's cluster. -/
structure DeviceRead (s : State) (st : Strand) (strip : Nat) (a : Agent) (va n pa : Nat) (e : TlbEntry) : Prop where
  present : s.readsElided st va n = false
  direct : s.route st strip .load va n = .memory
  sound : s.poisoned (.dev pa) = false
  place : s.resolve a va .load = .ok (.dev pa)
  below : va < Config.scratchBase
  found : s.translation a.cluster a.asid va = some e
  listed : e ∈ s.tlb
  mine : e.cluster = some a.cluster

/-- No two entries of a cluster's L1 TLB map one address. -/
def OneEntry (s : State) (k : Nat) : Prop :=
  ∀ x ∈ s.tlb, ∀ y ∈ s.tlb, x.cluster = some k → y.cluster = x.cluster → x.quad = y.quad → x.asid = y.asid →
    x.va ≤ y.va → y.va < x.va + x.size → x = y

/-- Pages of which the L1 TLB of the agent's cluster holds the translation, none swapped since. -/
def L1Pages (s : State) (a : Agent) (l : List HeldPage) : Prop :=
  ∀ h ∈ l, h.old = [] ∧ h.entry ∈ s.tlb ∧ h.entry.cluster = some a.cluster ∧ h.entry.quad = quadOf a.cluster

/-- What an access resolves to device memory without a fill, the L1 TLB translates. -/
theorem DeviceRead.of_cached {s : State} {st : Strand} {strip : Nat} {a : Agent} {va n pa : Nat} (hheld : a.held = [])
    (hpresent : s.readsElided st va n = false) (hdirect : s.route st strip .load va n = .memory) (hsound : s.poisoned (.dev pa) = false)
    (hcached : s.cacheTranslation a va = s) (hplace : s.resolve a va .load = .ok (.dev pa)) : ∃ e, DeviceRead s st strip a va n pa e := by
  have hbelow : va < Config.scratchBase := by
    refine not_le.1 fun hge => ?_
    unfold State.resolve at hplace
    rw [if_pos hge] at hplace
    split at hplace
    · exact absurd hplace nofun
    · split at hplace <;> exact absurd hplace nofun
  obtain ⟨e, he⟩ := State.resolve_translated hheld hbelow hplace
  have hl1 : e.cluster.isSome = true := by
    refine of_not_not fun hn => ?_
    rw [State.cacheTranslation, if_neg (not_le.2 hbelow), he] at hcached
    dsimp only at hcached
    rw [if_neg hn] at hcached
    exact absurd (congrArg State.draws hcached) (Nat.lt_add_of_pos_right Nat.two_pos).ne'
  have hmine : e ∈ s.tlb ∧ e.cluster = some a.cluster := by
    rcases Option.or_eq_some_iff.1 he with h | ⟨-, h⟩
    · exact ⟨List.mem_of_find?_eq_some h, beq_iff_eq.1 (Bool.and_eq_true_iff.1 (List.find?_some h :)).1⟩
    · have hnone := (Bool.and_eq_true_iff.1 (List.find?_some h :)).1
      rw [Option.isNone_iff_eq_none.1 hnone] at hl1
      exact absurd hl1 Bool.false_ne_true
  exact ⟨e, hpresent, hdirect, hsound, hplace, hbelow, he, hmine.1, hmine.2⟩

theorem OneEntry.eq_of_covers {s : State} {k quad asid va : Nat} (hone : OneEntry s k) {x y : TlbEntry} (hx : x ∈ s.tlb) (hy : y ∈ s.tlb)
    (hxk : x.cluster = some k) (hyk : y.cluster = some k) (hcx : x.covers quad asid va = true) (hcy : y.covers quad asid va = true) : x = y := by
  simp only [TlbEntry.covers, Bool.and_eq_true, beq_iff_eq, decide_eq_true_eq] at hcx hcy
  obtain ⟨⟨⟨hxq, hxa⟩, hx0⟩, hx1⟩ := hcx
  obtain ⟨⟨⟨hyq, hya⟩, hy0⟩, hy1⟩ := hcy
  rcases Nat.le_total x.va y.va with h | h
  · exact hone x hx y hy hxk (hyk.trans hxk.symm) (hxq.trans hyq.symm) (hxa.trans hya.symm) h (hy0.trans_lt hx1)
  · exact (hone y hy x hx hyk (hxk.trans hyk.symm) (hyq.trans hxq.symm) (hya.trans hxa.symm) h (hx0.trans_lt hy1)).symm

section
variable {s : State} {st : Strand} {strip : Nat} {a : Agent} {va n pa : Nat} {e : TlbEntry} {l : List HeldPage} {c : Option (Word × Nat)}

/-- R100: the pages kept give the translation that the L1 TLB gives. -/
theorem DeviceRead.translationFor (hr : DeviceRead s st strip a va n pa e) (hone : OneEntry s a.cluster) (hl : L1Pages s a l) :
    s.translationFor { a with held := l, charge := c } va = some e := by
  unfold State.translationFor
  cases hf : l.find? (fun h => h.covers a.asid va) with
  | none => exact hr.found
  | some h =>
    obtain ⟨-, hlisted, hmine, hquad⟩ := hl h (List.mem_of_find?_eq_some hf)
    have hcov : h.entry.covers (quadOf a.cluster) a.asid va = true := by
      rw [TlbEntry.covers, hquad, beq_self_eq_true, Bool.true_and]
      exact (List.find?_some hf :)
    refine congrArg some ?_
    exact hone.eq_of_covers hlisted hr.listed hmine hr.mine hcov (State.translation_covers hr.found)

theorem DeviceRead.resolve (hr : DeviceRead s st strip a va n pa e) (hone : OneEntry s a.cluster) (hl : L1Pages s a l) (hheld : a.held = []) :
    s.resolve { a with held := l, charge := c } va .load = .ok (.dev pa) := by
  have htranslated := hr.translationFor (c := c) hone hl
  have hbare : s.translationFor a va = some e := (State.translationFor_none hheld va).trans hr.found
  have hplace := hr.place
  unfold State.resolve at hplace ⊢
  rw [hbare] at hplace
  rw [htranslated]
  exact hplace

/-- R198: the bytes at its place, the L1 holding no copy. -/
theorem DeviceRead.loadVA (hr : DeviceRead s st strip a va n pa e) (hone : OneEntry s a.cluster) (hl : L1Pages s a l) (hheld : a.held = [])
    (hl1 : (s.cluster a.cluster).l1 = []) (use : L1Line → Bool) :
    s.loadVA { a with held := l, charge := c } st strip .load va n use false = .ok (s.homeBytes (.dev pa) n, s) := by
  have hold : ({ a with held := l, charge := c } : Agent).oldBytes va = none :=
    List.findSome?_eq_none_iff.2 fun h hh => by
      rw [(hl h (List.mem_of_mem_filter hh)).1]
      rfl
  have hcache : s.cacheTranslation { a with held := l, charge := c } va = s := by
    rw [State.cacheTranslation, if_neg (not_le.2 hr.below)]
    change (match s.translation a.cluster a.asid va with | some e => _ | none => _) = s
    rw [hr.found]
    exact if_pos (Option.isSome_iff_exists.2 ⟨_, hr.mine⟩)
  have hread : s.readPlace a.cluster (.dev pa) n use false = (s.homeBytes (.dev pa) n, s) := by
    have hseen : s.seen a.cluster (.dev pa) (s.dev.readBytes pa n) = s := by
      unfold State.seen
      dsimp only
      rw [hl1]
      rfl
    unfold State.readPlace
    dsimp only
    rw [hl1]
    change s.readMissed a.cluster pa n false = _
    unfold State.readMissed
    dsimp only
    rw [hseen, Bool.false_and]
    rfl
  unfold State.loadVA
  rw [hr.present, hr.direct]
  change s.loadMemory _ va n use false = _
  unfold State.loadMemory
  rw [hr.resolve hone hl hheld]
  dsimp only
  rw [hold, hr.sound]
  change Res.ok ((s.cacheTranslation _ va).readPlace a.cluster (.dev pa) n use false) = _
  rw [hcache, hread]

/-- R100: the page of the access is one of those. -/
theorem DeviceRead.keepPage (hr : DeviceRead s st strip a va n pa e) (hone : OneEntry s a.cluster) (hl : L1Pages s a l) {l' : List HeldPage}
    (hl' : L1Pages s a l') : L1Pages s a (s.keepPage { a with held := l, charge := c } va l') := by
  have hentry : (s.pageUsed { a with held := l, charge := c } va).entry = e := by
    unfold State.pageUsed
    dsimp only
    rw [if_neg (not_le.2 hr.below), hr.translationFor hone hl]
    rfl
  have hquad : e.quad = quadOf a.cluster := by
    have h := State.translation_covers hr.found
    simp only [TlbEntry.covers, Bool.and_eq_true, beq_iff_eq] at h
    exact h.1.1.1
  unfold State.keepPage
  split
  · exact hl'
  · intro h hh
    rcases List.mem_append.1 hh with hh | hh
    · exact hl' h hh
    · rw [List.mem_singleton.1 hh, hentry]
      exact ⟨rfl, hr.listed, hr.mine, hquad⟩

/-- The number that an element of a width has at a place (R41). -/
def elementValue (s : State) (pa w : Nat) (high : Bool) : Nat :=
  if w = 4 then (if high then numberAt s (.dev pa) 1 / 16 else numberAt s (.dev pa) 1 % 16) else numberAt s (.dev pa) (if w = 4 then 1 else w / 8)

theorem DeviceRead.loadElem {w : Nat} (hr : DeviceRead s st strip a va (if w = 4 then 1 else w / 8) pa e) (hone : OneEntry s a.cluster)
    (hl : L1Pages s a l) (hheld : a.held = []) (hl1 : (s.cluster a.cluster).l1 = []) (halign : va % (if w = 4 then 1 else w / 8) = 0)
    (use : L1Line → Bool) (high : Bool) :
    s.loadElem { a with held := l, charge := c } st strip use .none va w high = .ok (elementValue s pa w high, s) := by
  refine (if_neg (not_not.2 halign)).trans ((congrArg (Res.map _) (hr.loadVA hone hl hheld hl1 use)).trans ?_)
  rw [homeBytes_eq]
  refine congrArg (fun x => Res.ok (x, s)) ?_
  change (if w = 4 then (if high = true then numberAt s (.dev pa) _ / 16 else numberAt s (.dev pa) _ % 16) else numberAt s (.dev pa) _) = _
  unfold elementValue
  by_cases hw : w = 4
  · simp only [hw, if_true]
  · simp only [hw, if_false]

end

theorem elementValue_lt (s : State) (pa : Nat) (t : Tag) (high : Bool) : elementValue s pa (tagWidth t) high < 2 ^ tagWidth t := by
  have hbyte := numberAt_lt s (.dev pa) 1
  have hbytes : ∀ t : Tag, tagWidth t ≠ 4 → 256 ^ (tagWidth t / 8) = 2 ^ tagWidth t := by decide
  unfold elementValue
  split
  · next hw =>
    rw [hw]
    split <;> omega
  · next hw => exact (numberAt_lt ..).trans_eq (hbytes t hw)

/-! ## A turn in which nothing is put off -/

/-- R196: the elements performed one by one, none of which changes the machine. -/
theorem Run.pass_quiet {r : Run} {ordered : Bool} {a : Agent} {access : Agent → Item → State → Res (Nat × State)} {s : State} {g : Item → Nat}
    (hdone : r.e.done = []) (hput : ∀ i, r.putsOff i = false) (Q : List HeldPage → Prop) :
    ∀ (items : List Item), Q r.e.held →
      (∀ q ∈ items, ∀ l, Q l → access { a with held := r.e.keeps l } q s = .ok (g q, s) ∧
        Q (if 2 ^ 80 ≤ q.va then l else s.keepPage { a with held := r.e.keeps l } (q.va % 2 ^ 64) l)) →
      ∃ l, r.pass ordered false (fun _ => a) noTrim access s items =
        { s, held := l, places := r.e.places, out := items.map fun q => (q.i, g q) } := by
  intro items hstart h
  unfold Run.pass
  suffices hfold : ∀ (l : List HeldPage) (out : List (Nat × Nat)), Q l → ∃ l', items.foldl _ ({ s, held := l, places := r.e.places, out } : Pass) =
      { s, held := l', places := r.e.places, out := out ++ items.map fun q => (q.i, g q) } from hfold _ [] hstart
  clear hstart
  induction items with
  | nil => exact fun l out _ => ⟨l, by rw [List.map_nil, List.append_nil]; rfl⟩
  | cons q items ih =>
    intro l out hl
    obtain ⟨hq, hl'⟩ := h q List.mem_cons_self l hl
    obtain ⟨l', hrest⟩ := ih (fun q hq => h q (List.mem_cons_of_mem _ hq)) _ (out ++ [(q.i, g q)]) hl'
    refine ⟨l', Eq.trans ?_ (hrest.trans (by rw [List.append_assoc]; rfl))⟩
    rw [List.foldl_cons]
    congr 1
    simp only [hdone, hput, hq, noTrim, List.contains_nil, Option.isSome_none, Bool.or_self, Bool.and_false, Bool.false_and, Bool.false_eq_true, if_false]
    rfl

/-- R162: with no stream, what has been performed is written, and nothing is emitted. -/
theorem Run.settled_unbound {r : Run} {items : List Item} {x : Pass} {write : List (Nat × Nat) → Strand → Strand} {outs : List Nat → List Emit}
    {last : State → State} (h : ∀ k < 8, r.st.stream k = none) (hstop : x.stop = none) (hlow : x.low = none) :
    r.settled items x write outs last = .done (last (if x.out.isEmpty then x.s else x.s.updStrand r.slot (write x.out))) := by
  have hlist : r.st.emitList (outs (r.readyElems items x)) = [] := by
    rw [Strand.emitList, Strand.outputs_unbound h]
    rfl
  unfold Run.settled
  dsimp only
  rw [hlist, List.drop_nil, hstop, hlow]
  exact congrArg (fun s => Perf.done (last s)) ((Run.closed_unbound _ h).trans (Run.healed_unbound _ h))

theorem Run.spliceHeld_direct {r : Run} {s : State} {items : List Item}
    (h : ∀ q ∈ items, r.s.route r.st r.e.strip .load q.va q.bytes = .memory) : r.spliceHeld s items = none := by
  have hall : ∀ x ∈ (items.filter (fun q => !r.e.done.contains q.i)).map (fun q => r.s.route r.st r.e.strip .load q.va q.bytes), x = .memory := by
    intro x hx
    obtain ⟨q, hq, rfl⟩ := List.mem_map.1 hx
    exact h q (List.mem_of_mem_filter hq)
  have hno : ∀ x ≠ Route.memory, ¬ ((items.filter (fun q => !r.e.done.contains q.i)).map
      (fun q => r.s.route r.st r.e.strip .load q.va q.bytes)).contains x = true := fun x hx hc => hx (hall x (List.contains_iff_mem.1 hc))
  unfold Run.spliceHeld
  split
  · rfl
  · dsimp only
    rw [if_neg (hno _ (by decide)), if_neg (hno _ (by decide))]

theorem Run.unlessTooLong_unbound {r : Run} (outs : List Emit) (p : Perf) (h : ∀ k < 8, r.st.stream k = none) : r.unlessTooLong outs p = p := by
  rw [Run.unlessTooLong, Strand.tooLong_unbound outs h, ite_self]

/-! ## The load -/

/-- R198: a load none of whose elements changes the machine or waits writes what it has read. -/
theorem Run.load_quiet {r : Run} {f : VxM} {g : Nat → Nat} (hgate : f.gate = false) (hcache : f.cache = 1) (hun : ∀ k < 8, r.st.stream k = none)
    (htouch : r.e.touch = []) (hdone : r.e.done = []) (hput : ∀ i, r.putsOff i = false) (Q : List HeldPage → Prop) (hstart : Q r.e.held)
    (hroute : ∀ i ∈ r.actives f.m f.mi, r.s.route r.st r.e.strip .load (r.item f (tagWidth (r.tag f.vd)) i).va
      (r.item f (tagWidth (r.tag f.vd)) i).bytes = .memory)
    (hload : ∀ i ∈ r.actives f.m f.mi, ∀ (use : L1Line → Bool) l, Q l →
      let q := r.item f (tagWidth (r.tag f.vd)) i
      q.i = i ∧ r.s.loadElem { r.agent with held := r.e.keeps l } r.st r.e.strip use .none q.va q.w q.high = .ok (g i, r.s) ∧
        Q (if 2 ^ 80 ≤ q.va then l else r.s.keepPage { r.agent with held := r.e.keeps l } (q.va % 2 ^ 64) l))
    (hone : r.readsOne f = true → ∀ i ∈ r.actives f.m f.mi, ∀ j ∈ r.actives f.m f.mi, g i = g j) :
    r.load f = .done (if (r.actives f.m f.mi).isEmpty then r.s else r.s.updStrand r.slot fun st =>
      st.setElems f.vd.toNat (tagWidth (r.tag f.vd)) ((r.actives f.m f.mi).map fun i => (i, g i))) := by
  have hitems : r.items f (tagWidth (r.tag f.vd)) = (r.actives f.m f.mi).map (r.item f (tagWidth (r.tag f.vd))) := by
    rw [Run.items, htouch]
    rfl
  have halloc : r.alloc f (tagWidth (r.tag f.vd)) = .none := by
    unfold Run.alloc
    dsimp only
    rw [hcache]
    rfl
  have hfew : ∀ q ∈ (if r.readsOne f then (r.items f (tagWidth (r.tag f.vd))).take 1 else r.items f (tagWidth (r.tag f.vd))),
      ∃ i ∈ r.actives f.m f.mi, q = r.item f (tagWidth (r.tag f.vd)) i := by
    intro q hq
    have hmem : q ∈ r.items f (tagWidth (r.tag f.vd)) := by
      split at hq
      · exact List.mem_of_mem_take hq
      · exact hq
    rw [hitems] at hmem
    obtain ⟨i, hi, rfl⟩ := List.mem_map.1 hmem
    exact ⟨i, hi, rfl⟩
  unfold Run.load
  dsimp only
  rw [halloc]
  generalize hit : (if r.readsOne f then (r.items f (tagWidth (r.tag f.vd))).take 1 else r.items f (tagWidth (r.tag f.vd))) = items at hfew ⊢
  have hheld : r.spliceHeld r.s items = none := Run.spliceHeld_direct fun q hq => by
    obtain ⟨i, hi, rfl⟩ := hfew q hq
    exact hroute i hi
  obtain ⟨l, hpass⟩ := Run.pass_quiet (r := r) (ordered := f.ord) (a := r.agent)
    (access := fun a q s => s.loadElem a r.st r.e.strip (r.serves f (tagWidth (r.tag f.vd)) items) .none q.va q.w q.high) (s := r.s)
    (g := fun q => g q.i) hdone hput Q items hstart (by
      intro q hq l hl
      obtain ⟨i, hi, rfl⟩ := hfew q hq
      obtain ⟨hqi, hval, hQ⟩ := hload i hi (r.serves f (tagWidth (r.tag f.vd)) items) l hl
      exact ⟨by rw [hqi]; exact hval, hQ⟩)
  have hgather : ∀ x, r.gather f (tagWidth (r.tag f.vd)) items x = x := fun x => by
    unfold Run.gather
    rw [halloc]
  unfold Run.gate
  rw [hgate]
  refine (if_pos rfl).trans ((Run.unlessTooLong_unbound _ _ hun).trans ?_)
  rw [hheld, hpass, hgather, Option.getD_none]
  refine (Run.settled_unbound (x := { s := r.s, held := l, places := r.e.places, out := items.map fun q => (q.i, g q.i) }) hun rfl rfl).trans (congrArg Perf.done ?_)
  dsimp only
  have hindex : ∀ i ∈ r.actives f.m f.mi, (r.item f (tagWidth (r.tag f.vd)) i).i = i := fun i hi => (hload i hi (fun _ => false) _ hstart).1
  rw [hitems] at hit
  cases hr : r.readsOne f with
  | false =>
    have hout : items.map (fun q => (q.i, g q.i)) = (r.actives f.m f.mi).map fun i => (i, g i) := by
      rw [← hit, hr, if_neg Bool.false_ne_true, List.map_map]
      exact List.map_congr_left fun i hi => by rw [Function.comp, hindex i hi]
    rw [hout, List.isEmpty_map]
    rfl
  | true =>
    rw [hr, if_pos rfl] at hit
    have hone := hone hr
    generalize r.actives f.m f.mi = act at hit hone hindex
    cases act with
    | nil =>
      rw [← hit]
      rfl
    | cons i act =>
      have hsame : (i :: act).map (fun j => (j, g i)) = (i :: act).map fun j => (j, g j) :=
        List.map_congr_left fun j hj => by rw [hone i List.mem_cons_self j hj]
      rw [← hit, ← hsame]
      have hi := hindex i List.mem_cons_self
      change r.s.updStrand r.slot (fun st => st.setElems f.vd.toNat _ ([(_, g _)].flatMap _)) = _
      rw [hi, List.flatMap_singleton]
      rfl

/-! ## The four loads -/

/-- What VQ_ENTRY_START makes of a load of an instruction form. -/
structure LoadForm (mk : VxM → Instr) : Prop where
  queue : ∀ f, isMatrixQueue (mk f) = false
  part : ∀ f, isRepartition (mk f) = false
  performs : ∀ (s : State) st (e : VqEntry) f, s.performEntry s.cur.slot st 0 { e with instr := mk f } =
    s.perform s.cur.slot st { e with instr := mk f } (fun e' st' => st'.updEntry 0 (fun _ => e')) Run.fromQueue
  loads : ∀ (r : Run) f, Run.fromQueue { r with e := { r.e with instr := mk f } } = Run.load { r with e := { r.e with instr := mk f } } f

theorem LoadForm.head {mk : VxM → Instr} (hform : LoadForm mk) {f : VxM} {s : State} {st : Strand} {e : VqEntry} {rest : List VqEntry}
    (hat : AtHead s st e rest) (hi : e.instr = mk f) (hbad : (plan e.instr e.tags e.g).bad = none) :
    s.performEntry s.cur.slot st 0 e = (s.runOn s.cur.slot st e).load f := by
  have hr : s.runOn s.cur.slot st e = { s.runOn s.cur.slot st e with e := { (s.runOn s.cur.slot st e).e with instr := mk f } } :=
    Run.eta_instr hi
  refine State.performEntry_head hat hi hbad (fun e => hform.performs s st e f) ?_
  exact (congrArg Run.fromQueue hr).trans ((hform.loads _ f).trans (congrArg (fun r => Run.load r f) hr.symm))

theorem DeviceRead.setStrand {s : State} {st : Strand} {strip : Nat} {a : Agent} {va n pa : Nat} {e : TlbEntry}
    (h : DeviceRead s st strip a va n pa e) (slot : Nat) (st' : Strand) : DeviceRead (s.setStrand slot st') st strip a va n pa e := by
  refine ⟨h.present, h.direct, h.sound, ?_, h.below, h.found, h.listed, h.mine⟩
  have hplace := h.place
  unfold State.resolve at hplace ⊢
  rw [if_neg (not_le.2 h.below)] at hplace ⊢
  exact hplace

/-- The agent of the lanes of the turn's slot. -/
def lanesAgent (s : State) (st : Strand) : Agent := agentOf s.cur.slot st st.exec.priv (.lanes s.cur.slot)

/-- An element at an address is an aligned access of device memory at a place, its translation in the L1 TLB. -/
def ElementRead (s : State) (st : Strand) (strip va n pa : Nat) : Prop :=
  va % n = 0 ∧ s.readsElided st va n = false ∧ s.route st strip .load va n = .memory ∧ s.poisoned (.dev pa) = false ∧
    s.cacheTranslation (lanesAgent s st) va = s ∧ s.resolve (lanesAgent s st) va .load = .ok (.dev pa)

theorem LoadForm.result {mk : VxM → Instr} (hform : LoadForm mk) {f : VxM} {s : State} {st : Strand} {e : VqEntry} {rest : List VqEntry}
    {place : Nat → Nat} {n : Nat} {at_ : Nat → Nat × Bool} (hat : AtHead s st e rest) (hi : e.instr = mk f) (hgate : f.gate = false)
    (hcache : f.cache = 1) (hl1 : (s.cluster (clusterOf s.cur.slot)).l1 = []) (hbad : (plan e.instr e.tags e.g).bad = none)
    (hput : ∀ i, s.cur.unit.testBit i = false) (hn : (plan e.instr e.tags e.g).n = n)
    (hnw : n ≤ 16384 / tagWidth (tagAt e.tags f.vd.toNat))
    (hitem : ∀ i, (s.runOn s.cur.slot st e).item f (tagWidth (tagAt e.tags f.vd.toNat)) i =
      { i, va := (at_ i).1, w := tagWidth (tagAt e.tags f.vd.toNat), high := (at_ i).2 })
    (hconst : (s.runOn s.cur.slot st e).readsOne f = true → ∀ i j, at_ i = at_ j) (hone : OneEntry s (clusterOf s.cur.slot))
    (hread : ∀ i, activeAt st n f.m f.mi i → ElementRead s st e.strip (at_ i).1
      (if tagWidth (tagAt e.tags f.vd.toNat) = 4 then 1 else tagWidth (tagAt e.tags f.vd.toNat) / 8) (place i)) :
    ∃ u st', exec .vqEntryStart s = .next u ∧ HeadDone s e rest u st' ∧ SameOutside s u ∧
      (∀ i < 16384 / tagWidth (tagAt e.tags f.vd.toNat),
        (activeAt st n f.m f.mi i → st'.elem f.vd.toNat (tagWidth (tagAt e.tags f.vd.toNat)) i =
          elementValue s (place i) (tagWidth (tagAt e.tags f.vd.toNat)) (at_ i).2) ∧
        (¬ activeAt st n f.m f.mi i → st'.elem f.vd.toNat (tagWidth (tagAt e.tags f.vd.toNat)) i =
          st.elem f.vd.toNat (tagWidth (tagAt e.tags f.vd.toNat)) i)) ∧
      (∀ r < 32, r ≠ f.vd.toNat → st'.vreg r = st.vreg r) := by
  have hactive : ∀ i, i ∈ (s.runOn s.cur.slot st e).actives f.m f.mi ↔ activeAt st n f.m f.mi i := fun i => by
    rw [Run.mem_actives, ← hn]
    rfl
  obtain ⟨htouch, hdone, -, -, hheld, -⟩ := hat.anew
  have hload := Run.load_quiet (r := s.runOn s.cur.slot st e) (f := f)
    (g := fun i => elementValue s (place i) (tagWidth (tagAt e.tags f.vd.toNat)) (at_ i).2) hgate hcache hat.unbound htouch hdone hput
    (L1Pages (s.setStrand s.cur.slot st) (lanesAgent s st)) (by
      change L1Pages _ _ e.held
      rw [hheld]
      exact fun _ h => absurd h List.not_mem_nil) (fun i hia => by
      change s.route st e.strip .load ((s.runOn s.cur.slot st e).item f (tagWidth (tagAt e.tags f.vd.toNat)) i).va
        ((s.runOn s.cur.slot st e).item f (tagWidth (tagAt e.tags f.vd.toNat)) i).bytes = .memory
      rw [hitem]
      exact (hread i ((hactive i).1 hia)).2.2.1) (fun i hia use l hl => by
      obtain ⟨halign, hpresent, hdirect, hsound, hcached, hplace⟩ := hread i ((hactive i).1 hia)
      obtain ⟨x, hx⟩ := DeviceRead.of_cached (a := lanesAgent s st) rfl hpresent hdirect hsound hcached hplace
      have hx := hx.setStrand s.cur.slot st
      have hkeeps : L1Pages (s.setStrand s.cur.slot st) (lanesAgent s st) (e.keeps l) := by
        unfold VqEntry.keeps
        split
        · exact hl
        · exact fun _ h => absurd h List.not_mem_nil
      have hlow : ¬ 2 ^ 80 ≤ (at_ i).1 := fun h => absurd (h.trans_lt hx.below) (by decide)
      have hmod : (at_ i).1 % 2 ^ 64 = (at_ i).1 := Nat.mod_eq_of_lt (hx.below.trans (by decide))
      have hval := hx.loadElem (c := some (e.pc, e.strip)) hone hkeeps rfl hl1 halign use (at_ i).2
      have hkept := hx.keepPage (c := some (e.pc, e.strip)) hone hkeeps hl
      dsimp only
      rw [show (s.runOn s.cur.slot st e).item f (tagWidth ((s.runOn s.cur.slot st e).tag f.vd)) i = _ from hitem i, if_neg hlow, hmod]
      exact ⟨rfl, hval, hkept⟩) fun h i hia j hja => by
      have hij := hconst h i j
      have hp := (hread i ((hactive i).1 hia)).2.2.2.2.2
      rw [hij, (hread j ((hactive j).1 hja)).2.2.2.2.2] at hp
      rw [hij, Place.dev.inj (Xlat.ok.inj hp)]
  have hdoes : s.performEntry s.cur.slot st 0 e = .done (s.setStrand s.cur.slot (st.setElems f.vd.toNat (tagWidth (tagAt e.tags f.vd.toNat))
      (((s.runOn s.cur.slot st e).actives f.m f.mi).map fun i =>
        (i, elementValue s (place i) (tagWidth (tagAt e.tags f.vd.toNat)) (at_ i).2)))) := by
    refine (hform.head hat hi hbad).trans (hload.trans (congrArg Perf.done ?_))
    split
    · next h =>
      rw [List.isEmpty_iff.1 h]
      rfl
    · exact (State.updStrand_of _ _ (State.strand?_setStrand ..)).trans (State.setStrand_setStrand ..)
  obtain ⟨u, st', hu, hd, ho, helem, hother, -⟩ := written_atHead hat (hi ▸ hform.queue f) (hi ▸ hform.part f) (tagWidth_dvd _)
    (tagWidth_pos _) (fun i h => ((hactive i).1 h).1.trans_le hnw) (fun i _ => elementValue_lt s (place i) _ (at_ i).2) hdoes
  simp only [hactive] at helem
  exact ⟨u, st', hu, hd, ho, helem, hother⟩

/-- R72: a product of rows and columns fits the register. -/
theorem clip2_le (rows cols limit : Nat) : (clip2 rows cols limit).1 * (clip2 rows cols limit).2 ≤ limit := by
  unfold clip2
  dsimp only
  split
  · rw [Nat.zero_mul]
    exact Nat.zero_le _
  · exact (Nat.mul_le_mul_right _ (Nat.min_le_right ..)).trans (Nat.div_mul_le_self ..)

section
variable {f : VxM} {s : State} {st : Strand} {e : VqEntry}

/-- R194: the address of an element, as the four loads have it. -/
theorem item_elementAddress (hc : e.claims = []) (hi : e.instr ∈ [Instr.vld f, .vlds f, .vldx f, .vld2d f]) (w i : Nat) {cols : Nat}
    (hcols : e.instr = .vld2d f → (plan e.instr e.tags e.g).cols = cols) : (s.runOn s.cur.slot st e).item f w i =
      { i, va := (elementAddress st e f w cols i).1, w, high := (elementAddress st e f w cols i).2 } := by
  simp only [List.mem_cons, List.not_mem_nil, or_false] at hi
  unfold Run.item elementAddress
  dsimp only
  rcases hi with hi | hi | hi | hi <;> rw [show (s.runOn s.cur.slot st e).e.instr = _ from hi, hi] <;> dsimp only
  · rfl
  · rfl
  · rw [Run.src_unclaimed hc, intVal_of_lt (Strand.elem_lt ..)]
    rfl
  · rw [show (s.runOn s.cur.slot st e).p.cols = cols from hcols hi]
    rfl

/-- R91: the one element that is read for all has the address of each. -/
theorem readsOne_elementAddress (h : (s.runOn s.cur.slot st e).readsOne f = true) (hi : e.instr ∈ [Instr.vld f, .vlds f, .vldx f, .vld2d f])
    (w cols i j : Nat) : elementAddress st e f w cols i = elementAddress st e f w cols j := by
  simp only [List.mem_cons, List.not_mem_nil, or_false] at hi
  unfold Run.readsOne at h
  rcases hi with hi | hi | hi | hi <;> rw [show (s.runOn s.cur.slot st e).e.instr = _ from hi] at h
  case inr.inl =>
    have hz : (snapReg e.g f.gstride).toInt = 0 := (congrArg BitVec.toInt (beq_iff_eq.1 h)).trans rfl
    unfold elementAddress
    dsimp only
    rw [hi]
    dsimp only
    rw [hz, mul_zero, mul_zero]
  all_goals exact absurd h Bool.false_ne_true

end

/-- Settles O30: no element read changes the machine, since the L1 TLB and the pages kept give one translation. -/
theorem vectorLoadElements : Obligations.VectorLoadElements := by
  intro f s st e rest place hat hmem hgate hcache hl1 hbad hput w x cols n size where_ hone hread
  have hcols : e.instr = .vld2d f → (plan e.instr e.tags e.g).cols = cols := fun hi => by
    rw [hi]
    rfl
  have hflat : e.instr ≠ .vld2d f → n = min x (16384 / w) := fun hi => if_neg hi
  have hrows : e.instr = .vld2d f → n = (len2 e.g f.gl (16384 / w)).1 * (len2 e.g f.gl (16384 / w)).2 := fun hi => (if_pos hi).trans (by
    rw [len2, clip2]
    dsimp only
    split
    · exact (Nat.zero_mul _).symm
    · rfl)
  have hresult {mk} (hform : LoadForm mk) (hi : e.instr = mk f) (hn : (plan e.instr e.tags e.g).n = n) (hle : n ≤ 16384 / w) :=
    hform.result hat hi hgate hcache hl1 hbad hput hn hle (fun i => item_elementAddress hat.unclaimed hmem w i hcols)
      (fun h => readsOne_elementAddress h hmem w cols) hone hread
  simp only [List.mem_cons, List.not_mem_nil, or_false] at hmem
  rcases hmem with hi | hi | hi | hi
  · have hn := hflat (by rw [hi]; nofun)
    exact hresult ⟨fun _ => rfl, fun _ => rfl, fun _ _ _ _ => rfl, fun _ _ => rfl⟩ hi (by rw [hi, hn]; rfl) (hn.trans_le (Nat.min_le_right ..))
  · have hn := hflat (by rw [hi]; nofun)
    exact hresult ⟨fun _ => rfl, fun _ => rfl, fun _ _ _ _ => rfl, fun _ _ => rfl⟩ hi (by rw [hi, hn]; rfl) (hn.trans_le (Nat.min_le_right ..))
  · have hn := hflat (by rw [hi]; nofun)
    exact hresult ⟨fun _ => rfl, fun _ => rfl, fun _ _ _ _ => rfl, fun _ _ => rfl⟩ hi (by rw [hi, hn]; rfl) (hn.trans_le (Nat.min_le_right ..))
  · have hn := hrows hi
    exact hresult ⟨fun _ => rfl, fun _ => rfl, fun _ _ _ _ => rfl, fun _ _ => rfl⟩ hi (by rw [hi, hn]; rfl) (hn.trans_le (clip2_le ..))

end Sys2Proof.Machine
